-- ==== Sys2Proof/Word.lean ====
section
/-!
DEFINITION. Word.lean: the word types of the model.
The manual numbers the bits of every structure from 0, least significant, and stores multi-byte fields
little-endian (R9). A stored byte is a bit vector; registers, addresses and fields taken out of a structure are
natural numbers kept within their width by the operations that write them.
-/
namespace Sys2Proof

/-- A byte of memory. -/
abbrev Byte := BitVec 8

/-- A string of bytes on a link or in a register, each below 256, lowest address first. -/
abbrev Bytes := List Nat

end Sys2Proof
end

