-- ==== Sys2Proof/Machine/Bits.lean ====
section
/-!
DEFINITION. Machine/Bits.lean: bit fields, byte order and sign of stored values (R9, Table 00-7).
-/
namespace Sys2Proof.Machine

/-- Field of `w` bits of `x` whose lowest bit is `lsb` (R9). -/
def bits (x lsb w : Nat) : Nat := (x >>> lsb) % 2 ^ w

/-- Bit `i` of `x`. -/
def bit (x i : Nat) : Bool := x.testBit i

/-- The field `v` of `w` bits, placed with its lowest bit at `lsb`; structures are sums of their fields. -/
def fld (v lsb w : Nat) : Nat := (v % 2 ^ w) <<< lsb

/-- `x` with the field of `w` bits at `lsb` replaced by `v`. -/
def setBits (x lsb w v : Nat) : Nat :=
  bits x 0 lsb + fld v lsb w + (x >>> (lsb + w)) <<< (lsb + w)

/-- Bit of a truth value. -/
def b2n (b : Bool) : Nat := if b then 1 else 0

/-- Value of a little-endian string of bytes (R9). -/
def leNat : List Nat → Nat
  | [] => 0
  | b :: bs => b % 256 + 256 * leNat bs

/-- The `n` low bytes of `x`, lowest first (R9). -/
def natLe : Nat → Nat → List Nat
  | 0, _ => []
  | n + 1, x => x % 256 :: natLe n (x / 256)

/-- `x` read as a two's-complement number of `w` bits. -/
def toSigned (w x : Nat) : Int :=
  let y := x % 2 ^ w
  if y < 2 ^ (w - 1) then (y : Int) else (y : Int) - (2 ^ w : Nat)

/-- A signed number as the two's-complement word of `w` bits. -/
def ofSigned (w : Nat) (i : Int) : Nat := (i % ((2 ^ w : Nat) : Int)).toNat

/-- Sum that stops at the largest `w`-bit value: counters count without wrapping. -/
def satAdd (w x n : Nat) : Nat := min (x + n) (2 ^ w - 1)

/-- Least multiple of `m` not below `x`. -/
def roundUp (x m : Nat) : Nat := (x + m - 1) / m * m

/-- Quotient rounded up. -/
def ceilDiv (x m : Nat) : Nat := (x + m - 1) / m

/-- The first `n` bytes of `b`, filled with zeros where it is shorter. -/
def padTo (n : Nat) (b : List Nat) : List Nat := (b ++ List.replicate n 0).take n

/-- All ones of `w` bits: the value of an item or field that has none. -/
def ones (w : Nat) : Nat := 2 ^ w - 1

/-- Lowest bit position of `x` that is set, searched below `n`. -/
def lowestSet (x : Nat) : Nat → Nat
  | 0 => 0
  | n + 1 => let r := lowestSet x n
             if r < n then r else if bit x n then n else n + 1

/-- Number of bits set among the low `n` bits of `x`. -/
def popCount (x : Nat) : Nat → Nat
  | 0 => 0
  | n + 1 => popCount x n + b2n (bit x n)

/-- XOR of a byte string with a constant byte. -/
def xorBytes (k : Nat) (b : List Nat) : List Nat := b.map (fun x => (x ^^^ k) % 256)

/-- Whether a list of reserved fields (lowest bit, width) of a structure is zero (R10); the first non-zero
reserved field's bit position otherwise, the fields given from the lowest up. -/
def reservedBad (x : Nat) : List (Nat × Nat) → Option Nat
  | [] => none
  | (l, w) :: r => if bits x l w = 0 then reservedBad x r else some (l + lowestSet (bits x l w) w)

/-- Position of an element in a list. -/
def indexIn (x : Nat) : List Nat → Option Nat
  | [] => none
  | y :: r => if x = y then some 0 else (indexIn x r).map (· + 1)

/-- A list cut into pieces of n, at most as many as the count given. -/
def splitEvery {α : Type} (n : Nat) : Nat → List α → List (List α)
  | 0, _ => []
  | k + 1, l => if l.isEmpty then [] else l.take n :: splitEvery n k (l.drop n)

/-- The two ranges of bytes [a, a+n) and [b, b+m) meet. -/
def rangesMeet (a n b m : Nat) : Bool := decide (n ≠ 0 ∧ m ≠ 0 ∧ a < b + m ∧ b < a + n)

/-- One step of the reflected CRC-32C of a byte (polynomial 0x1EDC6F41, reflected 0x82F63B78). -/
def crcBits : Nat → Nat → Nat
  | 0, c => c
  | n + 1, c => crcBits n (if c % 2 = 1 then (c / 2) ^^^ 0x82F63B78 else c / 2)

/-- CRC-32C register after one more byte. -/
def crcByte (c b : Nat) : Nat := crcBits 8 (c ^^^ (b % 256))

/-- CRC-32C of a byte string. -/
def crc32c (bs : List Nat) : Nat := (bs.foldl crcByte 0xFFFFFFFF) ^^^ 0xFFFFFFFF

end Sys2Proof.Machine
end

