-- ==== Sys2Proof/Machine/Packet.lean ====
section
/-!
DEFINITION. Machine/Packet.lean: the packets of the fabric (R335, Tables 11-4 and 11-5).
-/
namespace Sys2Proof.Machine

/-- What a destination knows of the exchange that a Carding packet belongs to: kind (0 forward, 1 backward, 2 returned),
offset of the slot map, of the plane from it or of the home plane, members, sliver length, chunks, experts hosted at the
destination, tokens, choices, row bytes, the source's step, geometry digest and member index, the slot row, the segments of a
row, the expert of a returned row, and the base arrival counter. -/
structure Geom where
  kind : Nat
  mapOff : Nat
  plane : Nat
  members : Nat
  sliver : Nat
  chunks : Nat
  hosted : Nat
  tokens : Nat
  choices : Nat
  rowBytes : Nat
  step : Nat
  digest : Nat
  source : Nat
  slot : Nat := 0
  segs : Nat := 1
  expert : Nat := 0
  arrival : Nat
  deriving DecidableEq, Repr

/-- What an SPDM message of the attestation carries (R343): the exchange it belongs to, and whether the peer's chain and
measurements validate against the trust anchor, and its domain and rack. -/
structure Spdm where
  exchange : Nat
  valid : Bool
  domain : Nat
  rack : Nat
  deriving DecidableEq, Repr

/-- A packet: the fields of its header (Table 11-4), its payload, whether its data is marked poisoned, for one that
came over Ethernet the racks of its shim (R362), for one that a relay forwards the relay's ID plus 1 (R220), for a Carding
packet its exchange, and for ATTEST what its message carries. -/
structure Packet where
  ty : Nat
  version : Nat := 2
  reserved : Nat := 0
  src : Nat
  dst : Nat
  owner : Nat := 0
  epoch : Nat := 0
  seq : Nat := 0
  addr : Nat := 0
  length : Nat := 0
  counter : Nat := 0xFFFF
  cmode : Nat := 0
  slot : Nat := 0
  op : Nat := 0
  group : Nat := 0
  flags : Nat := 0
  crc : Nat := 0
  payload : List Nat := []
  poisoned : Bool := false
  eth : Bool := false
  srcRack : Nat := 0
  dstRack : Nat := 0
  via : Nat := 0
  geom : Option Geom := none
  spdm : Option Spdm := none
  deriving DecidableEq, Repr

/-- Header of a packet as the 256-bit structure of Table 11-4. -/
def pkHeader (p : Packet) : Nat :=
  fld p.ty 248 8 + fld p.version 244 4 + fld p.reserved 240 4 + fld p.src 228 12 + fld p.dst 216 12 +
  fld p.owner 204 12 + fld p.epoch 188 16 + fld p.seq 156 32 + fld p.addr 104 52 + fld p.length 89 15 +
  fld p.counter 73 16 + fld p.cmode 71 2 + fld p.slot 63 8 + fld p.op 55 8 + fld p.group 39 16 +
  fld p.flags 32 7 + fld p.crc 0 32

/-- The end-to-end CRC of a packet, with flow_seq and e2e_crc taken as zero (Table 11-4). -/
def pkCrc (p : Packet) : Nat := crc32c (natLe 32 (pkHeader { p with seq := 0, crc := 0 }) ++ p.payload)

/-- A packet with its end-to-end CRC filled in. -/
def pkSeal (p : Packet) : Packet :=
  let q := { p with length := if p.ty = 0x01 then p.length else p.payload.length }
  { q with crc := pkCrc q }

/-- The device that sends a packet on the flow that brings it: its source, or the relay. -/
def pkSender (p : Packet) : Nat := if p.via = 0 then p.src else p.via - 1

/-- Whether a packet is relayed across racks (flag [34]). -/
def pkRelayed (p : Packet) : Bool := bit p.flags 2

/-- Posted types of Table 11-5. -/
def pkPosted (ty : Nat) : Bool := [0x03, 0x06, 0x07, 0x08, 0x09, 0x0A, 0x0B, 0x0C, 0x0E, 0x19].contains ty

/-- Types that carry no sequence number (Table 11-5). -/
def pkUnsequenced (ty : Nat) : Bool := [0x0D, 0x18, 0x1A].contains ty

/-- Types of Table 11-5 that are not reserved. -/
def pkKnown (ty : Nat) : Bool := decide (1 ≤ ty ∧ ty ≤ 0x1A)

/-- The header check of R335: version, type and reserved bits. -/
def pkHeaderOk (p : Packet) : Bool :=
  p.version == 2 && p.reserved == 0 && pkKnown p.ty && bits p.flags 3 4 == 0 && p.cmode != 3

/-- The end-to-end check: CRC over header and payload (R335). -/
def pkCrcOk (p : Packet) : Bool := p.crc == pkCrc p

end Sys2Proof.Machine
end

