-- ==== Sys2Proof/Machine/CmdTypes.lean ====
section
/-!
DEFINITION. Machine/CmdTypes.lean: what commands carry: requests, readings, packets' companions and what peers send.
-/
namespace Sys2Proof.Machine

/-- A frame on the field port (R440, R441): CAN FD with bit rate switching or not, 29-bit identifier or not, the
identifier and the data bytes. -/
structure Frame where
  fd : Bool := true
  ext : Bool := true
  id : Nat
  data : List Nat
  deriving DecidableEq, Repr

/-- A dictionary request as it arrives: the value written to MB_DOORBELL with the PDU in MB_REQUEST (R449), a frame
on the field port (R440), or the assembled segmented transfer of a node (R443). -/
inductive Req where
  | mailbox (doorbell : Nat) (pdu : List Nat)
  | field (f : Frame)
  | assembled (node : Nat)
  deriving DecidableEq, Repr

/-- What validating a service proof finds (R452): the root its certificate chain leads to, and the nonce its signature
verifies over, if it verifies. -/
structure Proof where
  root : List Nat
  nonce : Option Nat
  deriving DecidableEq, Repr

/-- The Thallus's readings (R466): input in mV and mA with their 10 ms averages in W and mA, temperatures in hundredths
of a degree, none where a sensor returns nothing, and the power of each cage in mW. -/
structure Sample where
  mv : Nat
  ma : Nat
  avgW : Nat
  avgMa : Nat
  die : List (Option Int)
  hbm : List (Option Int)
  inlet : Option Int
  outlet : Option Int
  cages : List Nat
  deriving DecidableEq, Repr

/-- What a start-up phase finds as it ends: its duration in microseconds; at P1 whether each firmware image verifies; at
P2 whether each configuration copy is valid; at P4 the fronds whose wake fails; at P5 the pseudo-channels that fail; at
P6 the vector cores whose SFU tables do not match. -/
structure PhaseEnd where
  us : Nat := 0
  fwOk : List Bool := [true, true]
  copyOk : List Bool := [true, true]
  failed : List Nat := []
  deriving DecidableEq, Repr

/-- What a descriptor slot read returns (R416): the 128 bytes of the slot, or a failed read. -/
inductive SlotRead where
  | bytes (b : List Nat)
  | failed
  deriving DecidableEq, Repr

/-- An error that memory finds (R254 to R258): the byte offset, and whether it was corrected. -/
structure EccEvent where
  offset : Nat
  corrected : Bool
  deriving DecidableEq, Repr

/-- What another participant sends to a collective (Table 12-6): its position in the member list, its prefix, whether
it arrives poisoned, and its input bytes. -/
structure Contrib where
  member : Nat
  step : Nat
  id : Nat
  abort : Bool := false
  touched : Bool := true
  finite : Bool := true
  poisoned : Bool := false
  data : List Nat := []
  deriving DecidableEq, Repr

/-- What another member sends to a PLACE_INIT (R375, R468): its rank and its 64-byte join record. -/
structure Join where
  rank : Nat
  record : Nat
  deriving DecidableEq, Repr

/-- A link flit (R326): its sequence number, whether FEC and CRC pass, the bytes it carries, its
acknowledgement and the credits it returns. -/
structure Flit where
  seq : Nat
  ok : Bool
  body : List Nat
  ack : Nat
  credit : Nat := 0
  deriving DecidableEq, Repr

/-- An IEEE 1588 message (R364): its domain and message type, and the offset from the master that the exchange it ends
shows. -/
structure Ptp where
  domain : Nat
  ty : Nat
  offsetNs : Int
  locked : Bool
  deriving DecidableEq, Repr

end Sys2Proof.Machine
end

