-- ==== Sys2Proof/Syntax.lean ====
section
/-!
DEFINITION. Syntax.lean: the commands of the part, one constructor per row of the manual's table of operations and events.
A command that runs the head of a queue names the queue; a dictionary command carries its request as it arrived; an event
carries what the part sees of it.
-/
namespace Sys2Proof
open Sys2Proof.Machine

/-- A command: one row of the table of operations and events. -/
inductive Instr where
  /-- AGMIR_READ (R446). -/
  | agmirRead (r : Req)
  /-- AGMIR_WRITE (R458). -/
  | agmirWrite (r : Req)
  /-- SERVICE_OPEN (R452). -/
  | serviceOpen (r : Req)
  /-- SERVICE_PROOF (R452). -/
  | serviceProof (r : Req) (proof : Proof)
  /-- SERVICE_CLOSE (R452). -/
  | serviceClose (r : Req)
  /-- AGMIR_SEGMENT (R443). -/
  | agmirSegment (f : Frame)
  /-- AGMIR_TRANSFER_TIMEOUT (R443). -/
  | agmirTransferTimeout (node : Nat)
  /-- MB_STATUS_READ (R449). -/
  | mbStatusRead
  /-- SERVICE_SESSION_TIMEOUT (R452). -/
  | serviceSessionTimeout
  /-- HEARTBEAT_SEND (R447). -/
  | heartbeatSend
  /-- HEARTBEAT_RECEIVE (R447). -/
  | heartbeatReceive (f : Frame)
  /-- CAN_BUS_OFF (R448). -/
  | canBusOff
  /-- CK_TH_IDLE_STOP (R437). -/
  | ckThIdleStop
  /-- THALLUS_WATCHDOG (R438). -/
  | thallusWatchdog
  /-- FW_UPDATE_BEGIN (R439). -/
  | fwUpdateBegin (r : Req)
  /-- FW_UPDATE_DATA (R439). -/
  | fwUpdateData (r : Req)
  /-- FW_UPDATE_VERIFY (R439). -/
  | fwUpdateVerify (r : Req) (image : Option Nat)
  /-- CONFIG_BATCH_STORE (R455). -/
  | configBatchStore (verify : List Bool)
  /-- SENSOR_SAMPLE (R466). -/
  | sensorSample (x : Sample)
  /-- TELEMETRY_FRAME_SEND (R466). -/
  | telemetryFrameSend
  /-- PLL_LOCK_LOSS (R461). -/
  | pllLockLoss (domain : Nat)
  /-- FROND_WAKE_DONE (R463). -/
  | frondWakeDone (frond : Nat)
  /-- FROND_WAKE_FAIL (R464). -/
  | frondWakeFail (frond : Nat)
  /-- FROND_IDLE_POWERDOWN (R462). -/
  | frondIdlePowerdown (frond : Nat)
  /-- INPUT_VALID (R473). -/
  | inputValid (mv : Nat)
  /-- INPUT_LOSS (R506). -/
  | inputLoss
  /-- STARTUP_PHASE_END (R473). -/
  | startupPhaseEnd (phase : Nat) (x : PhaseEnd)
  /-- STARTUP_PHASE_TIMEOUT (R473). -/
  | startupPhaseTimeout (phase : Nat)
  /-- RAIL_SEQUENCE_STEP (R509). -/
  | railSequenceStep (rail : Nat)
  /-- RAIL_FAULT (R510). -/
  | railFault (rail : Nat) (mv : Nat)
  /-- INPUT_UNDERVOLTAGE (R506). -/
  | inputUndervoltage (mv : Nat)
  /-- INPUT_OVERVOLTAGE (R506). -/
  | inputOvervoltage (mv : Nat)
  /-- INPUT_OVERCURRENT (R506). -/
  | inputOvercurrent (ma : Nat)
  /-- INPUT_RECOVERY_RESTART (R508). -/
  | inputRecoveryRestart
  /-- SEATED_OPEN (R518). -/
  | seatedOpen
  /-- SEATED_CLOSE (R517). -/
  | seatedClose
  /-- BUTTON_PRESS (R520). -/
  | buttonPress (ms : Nat)
  /-- BUTTON_HOLD (R519). -/
  | buttonHold
  /-- REMOVAL_REQUEST (R519). -/
  | removalRequest (r : Req)
  /-- REMOVAL_COMMIT (R519). -/
  | removalCommit (r : Req)
  /-- REMOVAL_WITHDRAW (R519). -/
  | removalWithdraw (r : Req)
  /-- PORT_SIGNAL_DETECT (R521). -/
  | portSignalDetect (port : Nat)
  /-- PLUGGABLE_INSERT (R522). -/
  | pluggableInsert (cage : Nat) (mw : Nat)
  /-- PERST_ASSERT (R487). -/
  | perstAssert
  /-- PERST_DEASSERT (R474). -/
  | perstDeassert
  /-- PCIE_HOT_RESET (R487). -/
  | pcieHotReset
  /-- FLR_PF (R487). -/
  | flrPf
  /-- FLR_VF (R487). -/
  | flrVf (vf : Nat)
  /-- PCIE_LINK_CHANGE (R404). -/
  | pcieLinkChange (up : Bool) (gen : Nat) (width : Nat)
  /-- VF_ENABLE (R408). -/
  | vfEnable (count : Nat)
  /-- DEVICE_RESET_NO_ACTION (R487). -/
  | deviceResetNoAction (r : Req)
  /-- DEVICE_RESET_WARM (R475). -/
  | deviceResetWarm (r : Req)
  /-- DEVICE_RESET_COLD (R473). -/
  | deviceResetCold (r : Req)
  /-- RESET_REQUEST_LANE (R487). -/
  | resetRequestLane (r : Req)
  /-- RESET_REQUEST_PORT (R487). -/
  | resetRequestPort (r : Req)
  /-- RESET_REQUEST_ENGINE (R487). -/
  | resetRequestEngine (r : Req)
  /-- RESET_REQUEST_PARTITION (R487). -/
  | resetRequestPartition (r : Req)
  /-- RESET_COMPLETE (R487). -/
  | resetComplete
  /-- RESET_BOUND_EXPIRED (R488). -/
  | resetBoundExpired
  /-- ENGINE_WATCHDOG (R490). -/
  | engineWatchdog (unit : Nat) (inst : Nat)
  /-- MAINTENANCE_HOLD_SET (R476). -/
  | maintenanceHoldSet (r : Req)
  /-- MAINTENANCE_HOLD_RELEASE (R476). -/
  | maintenanceHoldRelease (r : Req)
  /-- SUBMIT_DOORBELL (R416). -/
  | submitDoorbell (fn : Nat) (size : Nat) (value : Nat)
  /-- CONSUMED_DOORBELL (R406). -/
  | consumedDoorbell (fn : Nat) (size : Nat) (value : Nat)
  /-- DESCRIPTOR_READ_RETURN (R416). -/
  | descriptorReadReturn (q : Nat) (slot : SlotRead)
  /-- DESCRIPTOR_ACCEPT (R417). -/
  | descriptorAccept (q : Nat)
  /-- WATERMARK_WRITE (R417). -/
  | watermarkWrite (q : Nat)
  /-- OPERATION_COMPLETE (R424). -/
  | operationComplete (q : Nat)
  /-- MESSAGE_POST (R310). -/
  | messagePost (q : Nat)
  /-- MSIX_HOLDOFF_EXPIRY (R407). -/
  | msixHoldoffExpiry (q : Nat)
  /-- JOURNAL_RETIRE (R430). -/
  | journalRetire (q : Nat)
  /-- JOURNAL_REMIRROR_DONE (R430). -/
  | journalRemirrorDone
  /-- OWNER_ACTIVATE (R410). -/
  | ownerActivate (r : Req)
  /-- OWNER_PREEMPT (R411). -/
  | ownerPreempt (r : Req)
  /-- OWNER_RESUME (R410). -/
  | ownerResume (r : Req)
  /-- OWNER_RESET (R493). -/
  | ownerReset (r : Req)
  /-- OWNER_FREE (R410). -/
  | ownerFree (r : Req)
  /-- DRAIN_CENSUS_COMPLETE (R495). -/
  | drainCensusComplete (owner : Nat)
  /-- CENSUS_TIMEOUT (R496). -/
  | censusTimeout (owner : Nat)
  /-- REVOCATION_WALK_DONE (R292). -/
  | revocationWalkDone (owner : Nat)
  /-- FAULT_LOG_PAGE_TAKEN (R483). -/
  | faultLogPageTaken
  /-- FAULT_RING_WRITE (R484). -/
  | faultRingWrite (r : Req)
  /-- COUNTERS_CLEAR (R77). -/
  | countersClear (r : Req)
  /-- LOCAL_WINDOW_WRITE (R247). -/
  | localWindowWrite (r : Req)
  /-- REMOTE_WINDOW_WRITE (R345). -/
  | remoteWindowWrite (r : Req)
  /-- KEY_GENERATE (R262). -/
  | keyGenerate (r : Req)
  /-- KEY_ZEROISE (R262). -/
  | keyZeroise (r : Req)
  /-- REPAIR_SOFT_ROW (R267). -/
  | repairSoftRow (r : Req)
  /-- REPAIR_HARD_ROW (R268). -/
  | repairHardRow (r : Req)
  /-- REPAIR_LANE (R268). -/
  | repairLane (r : Req)
  /-- REPAIR_DONE (R267). -/
  | repairDone (result : Nat)
  /-- MAINT_STACK_ENTER (R268). -/
  | maintStackEnter (r : Req)
  /-- MAINT_STACK_END (R269). -/
  | maintStackEnd (r : Req)
  /-- IEEE1500_EXECUTE (R269). -/
  | ieee1500Execute (r : Req)
  /-- IEEE1500_SHIFT_DONE (R269). -/
  | ieee1500ShiftDone (data : List Nat)
  /-- PATROL_SCRUB (R257). -/
  | patrolScrub (found : List EccEvent) (passEnd : Bool)
  /-- PC_RETRAIN_FAILURE (R259). -/
  | pcRetrainFailure (pc : Nat)
  /-- POOL_ENABLE (R279). -/
  | poolEnable (r : Req)
  /-- POOL_DISABLE (R280). -/
  | poolDisable (r : Req)
  /-- POOL_REBUILD (R282). -/
  | poolRebuild (r : Req)
  /-- POOL_BUILD_DONE (R279). -/
  | poolBuildDone (pool : Nat)
  /-- HEAD_CACHE_REFILL (R281). -/
  | headCacheRefill (pool : Nat)
  /-- POOL_AUDIT_SCAN (R294). -/
  | poolAuditScan
  /-- DEADLOCK_SAMPLE (R319). -/
  | deadlockSample
  /-- STEP_ARRIVAL_SEND (R382). -/
  | stepArrivalSend (p : Nat) (peers : List Contrib) (grads : List (List Contrib))
  /-- GATED_OP_START (R183). -/
  | gatedOpStart (q : Nat)
  /-- PLACEMENT_DECISION (R387). -/
  | placementDecision (p : Nat) (layer : Nat) (peers : List (List Nat))
  /-- RESHARD_ROUND2 (R392). -/
  | reshardRound2 (p : Nat) (votes : List Nat)
  /-- GROUPED (R91). -/
  | grouped (q : Nat)
  /-- MATRIX (R71). -/
  | matrix (q : Nat)
  /-- WALKER_START_CONDITION (R95). -/
  | walkerStartCondition (q : Nat)
  /-- CHAIN_START (R100). -/
  | chainStart (q : Nat) (chain : Nat)
  /-- CHAIN_COMPLETE (R165). -/
  | chainComplete (q : Nat) (chain : Nat)
  /-- EARLY_START (R106). -/
  | earlyStart (q : Nat)
  /-- ARRAY_REG_PARITY (R72). -/
  | arrayRegParity (band : Nat)
  /-- ARRAY_FRONT_CHECK (R73). -/
  | arrayFrontCheck (band : Nat) (counts : List Nat)
  /-- BIST_START (R76). -/
  | bistStart (r : Req)
  /-- BIST_DONE (R76). -/
  | bistDone (result : Nat)
  /-- VECTOR_REG_PARITY (R171). -/
  | vectorRegParity (vcore : Nat)
  /-- SFU_TABLE_PARITY (R171). -/
  | sfuTableParity (vcore : Nat)
  /-- TILE_STORE_DOUBLE_ERROR (R241). -/
  | tileStoreDoubleError (offset : Nat)
  /-- VECTOR_ADD (R137). -/
  | vectorAdd (q : Nat)
  /-- VECTOR_MUL (R137). -/
  | vectorMul (q : Nat)
  /-- VECTOR_FMA (R137). -/
  | vectorFma (q : Nat)
  /-- VECTOR_MIN (R137). -/
  | vectorMin (q : Nat)
  /-- VECTOR_MAX (R137). -/
  | vectorMax (q : Nat)
  /-- VECTOR_CONVERT (R137). -/
  | vectorConvert (q : Nat)
  /-- VECTOR_EXP (R148). -/
  | vectorExp (q : Nat)
  /-- VECTOR_EXP2 (R148). -/
  | vectorExp2 (q : Nat)
  /-- VECTOR_LN (R148). -/
  | vectorLn (q : Nat)
  /-- VECTOR_LOG2 (R148). -/
  | vectorLog2 (q : Nat)
  /-- VECTOR_RECIP (R148). -/
  | vectorRecip (q : Nat)
  /-- VECTOR_RSQRT (R148). -/
  | vectorRsqrt (q : Nat)
  /-- ROW_SUM (R141). -/
  | rowSum (q : Nat)
  /-- ROW_MAX (R140). -/
  | rowMax (q : Nat)
  /-- MEAN (R142). -/
  | mean (q : Nat)
  /-- VARIANCE (R142). -/
  | variance (q : Nat)
  /-- RMS (R142). -/
  | rms (q : Nat)
  /-- NORM_APPLY (R142). -/
  | normApply (q : Nat)
  /-- RMS_APPLY (R142). -/
  | rmsApply (q : Nat)
  /-- GATED_UNIT (R143). -/
  | gatedUnit (q : Nat)
  /-- SOFTMAX_NORMALISE (R140). -/
  | softmaxNormalise (q : Nat)
  /-- SOFTMAX_TILE_D1 (R169). -/
  | softmaxTileD1 (q : Nat)
  /-- MASKED_MUL (R421). -/
  | maskedMul (q : Nat)
  /-- DMA_PLAIN_COPY (R349). -/
  | dmaPlainCopy (q : Nat)
  /-- DMA_COMPRESS_STRICT (R130). -/
  | dmaCompressStrict (q : Nat)
  /-- DMA_COMPRESS_PRUNE (R130). -/
  | dmaCompressPrune (q : Nat)
  /-- DMA_COMPRESS_RLE (R127). -/
  | dmaCompressRle (q : Nat)
  /-- DMA_EXPAND_24 (R133). -/
  | dmaExpand24 (q : Nat)
  /-- DMA_EXPAND_RLE (R128). -/
  | dmaExpandRle (q : Nat)
  /-- GROUP_FENCE (R350). -/
  | groupFence (q : Nat)
  /-- SYNC_INIT (R301). -/
  | syncInit (q : Nat)
  /-- SYNC_FREE (R302). -/
  | syncFree (q : Nat)
  /-- BARRIER_ARRIVE (R303). -/
  | barrierArrive (q : Nat)
  /-- FLAG_SET (R300). -/
  | flagSet (q : Nat)
  /-- FLAG_CLEAR (R300). -/
  | flagClear (q : Nat)
  /-- COUNTER_ADD (R304). -/
  | counterAdd (q : Nat)
  /-- COUNTER_WRITE (R300). -/
  | counterWrite (q : Nat)
  /-- WATCH (R307). -/
  | watch (q : Nat)
  /-- UNWATCH (R309). -/
  | unwatch (q : Nat)
  /-- SYNC_READ (R300). -/
  | syncRead (q : Nat)
  /-- TASK_BEGIN (R313). -/
  | taskBegin (q : Nat)
  /-- TASK_END (R314). -/
  | taskEnd (q : Nat)
  /-- WAIT (R420). -/
  | wait (q : Nat)
  /-- POOL_ALLOCATE (R287). -/
  | poolAllocate (q : Nat)
  /-- POOL_ACQUIRE (R289). -/
  | poolAcquire (q : Nat)
  /-- POOL_RELEASE (R289). -/
  | poolRelease (q : Nat)
  /-- DISPATCH (R213). -/
  | dispatch (q : Nat)
  /-- DISPATCH_CHUNK_START (R213). -/
  | dispatchChunkStart (q : Nat)
  /-- RETURN (R222). -/
  | cardReturn (q : Nat)
  /-- RETURN_CHUNK_START (R222). -/
  | returnChunkStart (q : Nat)
  /-- COMBINE (R224). -/
  | combine (q : Nat)
  /-- COMBINE_CHUNK_START (R224). -/
  | combineChunkStart (q : Nat)
  /-- SCATTER (R226). -/
  | scatter (q : Nat)
  /-- SCATTER_CHUNK_START (R226). -/
  | scatterChunkStart (q : Nat)
  /-- GRAD_COMBINE (R224). -/
  | gradCombine (q : Nat)
  /-- RELEASE (R210). -/
  | release (q : Nat)
  /-- ALL_REDUCE (R379). -/
  | allReduce (q : Nat) (peers : List Contrib)
  /-- REDUCE_SCATTER (R379). -/
  | reduceScatter (q : Nat) (peers : List Contrib)
  /-- ALL_GATHER (R379). -/
  | allGather (q : Nat) (peers : List Contrib)
  /-- BROADCAST (R377). -/
  | broadcast (q : Nat) (peers : List Contrib)
  /-- CLOSING (R381). -/
  | closing (q : Nat) (peers : List Contrib)
  /-- PLACE_INIT (R370). -/
  | placeInit (q : Nat) (peers : List Join)
  /-- LAYER_ENTER_FORWARD (R383). -/
  | layerEnterForward (q : Nat) (peers : List (List Contrib))
  /-- LAYER_EXIT_FORWARD (R383). -/
  | layerExitForward (q : Nat) (peers : List (List Contrib))
  /-- LAYER_ENTER_BACKWARD (R383). -/
  | layerEnterBackward (q : Nat) (peers : List (List Contrib))
  /-- LAYER_EXIT_BACKWARD (R383). -/
  | layerExitBackward (q : Nat) (peers : List (List Contrib))
  /-- ATOMIC_ADD (R348). -/
  | atomicAdd (q : Nat)
  /-- ATOMIC_FADD (R348). -/
  | atomicFadd (q : Nat)
  /-- ATOMIC_SWAP (R348). -/
  | atomicSwap (q : Nat)
  /-- ATOMIC_CAS (R348). -/
  | atomicCas (q : Nat)
  /-- ATOMIC_AND (R348). -/
  | atomicAnd (q : Nat)
  /-- ATOMIC_OR (R348). -/
  | atomicOr (q : Nat)
  /-- ATOMIC_XOR (R348). -/
  | atomicXor (q : Nat)
  /-- ATOMIC_SMIN (R348). -/
  | atomicSmin (q : Nat)
  /-- ATOMIC_SMAX (R348). -/
  | atomicSmax (q : Nat)
  /-- ATOMIC_UMIN (R348). -/
  | atomicUmin (q : Nat)
  /-- ATOMIC_UMAX (R348). -/
  | atomicUmax (q : Nat)
  /-- FLC_INVALIDATE (R357). -/
  | flcInvalidate (q : Nat)
  /-- NOP (R420). -/
  | nop (q : Nat)
  /-- QUEUE_CREATE (R413). -/
  | queueCreate (q : Nat)
  /-- QUEUE_DESTROY (R412). -/
  | queueDestroy (q : Nat)
  /-- QUEUE_QUERY (R420). -/
  | queueQuery (q : Nat)
  /-- PORT_ENABLE (R329). -/
  | portEnable (r : Req)
  /-- PORT_DISABLE (R329). -/
  | portDisable (r : Req)
  /-- PORT_TRAINING_COMPLETE (R329). -/
  | portTrainingComplete (port : Nat) (rate : Nat) (lanes : Nat)
  /-- PORT_TRAINING_FAILED (R329). -/
  | portTrainingFailed (port : Nat)
  /-- IDENTITY_RECORD_RECEIVE (R332). -/
  | identityRecordReceive (port : Nat) (record : Nat)
  /-- LINK_FLIT_RECEIVE (R326). -/
  | linkFlitReceive (port : Nat) (flit : Flit)
  /-- REPLAY_REQUEST (R327). -/
  | replayRequest (port : Nat) (seq : Nat)
  /-- LANE_LOSS_OF_LOCK (R333). -/
  | laneLossOfLock (port : Nat) (lane : Nat)
  /-- LANE_RETRAINED (R333). -/
  | laneRetrained (port : Nat) (lane : Nat)
  /-- PEER_SILENT_TIMEOUT (R334). -/
  | peerSilentTimeout (port : Nat)
  /-- LOAD (R347). -/
  | load (port : Nat) (k : Packet) (ecc : List EccEvent)
  /-- LOAD_DATA (R347). -/
  | loadData (port : Nat) (k : Packet)
  /-- STORE (R347). -/
  | store (port : Nat) (k : Packet)
  /-- ATOMIC_PACKET (R353). -/
  | atomicPacket (port : Nat) (k : Packet)
  /-- ATOMIC_RESULT (R353). -/
  | atomicResult (port : Nat) (k : Packet)
  /-- ATOMIC_RELEASE (R353). -/
  | atomicRelease (port : Nat) (k : Packet)
  /-- COPY_DATA (R349). -/
  | copyData (port : Nat) (k : Packet)
  /-- SYNC_PACKET (R306). -/
  | syncPacket (port : Nat) (k : Packet)
  /-- WATCH_MESSAGE (R310). -/
  | watchMessage (port : Nat) (k : Packet)
  /-- CARD_ROW_FORWARD (R215). -/
  | cardRowForward (port : Nat) (k : Packet)
  /-- CARD_ROW_BACKWARD (R227). -/
  | cardRowBackward (port : Nat) (k : Packet)
  /-- CARD_ROW_RETURN (R223). -/
  | cardRowReturn (port : Nat) (k : Packet)
  /-- CARD_FILL_FORWARD (R216). -/
  | cardFillForward (port : Nat) (k : Packet)
  /-- CARD_FILL_BACKWARD (R227). -/
  | cardFillBackward (port : Nat) (k : Packet)
  /-- RELAY_PACKET_RECEIVE (R221). -/
  | relayPacketReceive (port : Nat) (k : Packet)
  /-- RELAY_FORWARD (R220). -/
  | relayForward (held : Nat)
  /-- LATE_FAULT (R351). -/
  | lateFault (port : Nat) (k : Packet)
  /-- FLOW_ACK (R340). -/
  | flowAck (port : Nat) (k : Packet)
  /-- FLOW_ACK_TIMER (R340). -/
  | flowAckTimer (flow : Nat)
  /-- E2E_TIMEOUT (R340). -/
  | e2eTimeout (flow : Nat)
  /-- FLOW_RESET_RETRY (R341). -/
  | flowResetRetry (flow : Nat)
  /-- FLOW_RESET (R341). -/
  | flowReset (port : Nat) (k : Packet)
  /-- CREDIT_WITHHOLD_EXPIRY (R342). -/
  | creditWithholdExpiry (flow : Nat)
  /-- EPOCH_NOTICE (R354). -/
  | epochNotice (port : Nat) (k : Packet)
  /-- EPOCH_CLOSE (R354). -/
  | epochClose (port : Nat) (k : Packet)
  /-- EPOCH_CLOSED (R354). -/
  | epochClosed (port : Nat) (k : Packet)
  /-- GET_S (R360). -/
  | getS (port : Nat) (k : Packet) (rivals : List Packet)
  /-- GET_M (R359). -/
  | getM (port : Nat) (k : Packet) (rivals : List Packet)
  /-- DATA (R359). -/
  | data (port : Nat) (k : Packet)
  /-- INV (R359). -/
  | inv (port : Nat) (k : Packet)
  /-- INV_ACK (R359). -/
  | invAck (port : Nat) (k : Packet)
  /-- RECALL (R359). -/
  | recall (port : Nat) (k : Packet)
  /-- PUT_M (R360). -/
  | putM (port : Nat) (k : Packet)
  /-- RETRY_AFTER (R360). -/
  | retryAfter (port : Nat) (k : Packet)
  /-- RETRY_AFTER_EXPIRY (R360). -/
  | retryAfterExpiry (request : Nat)
  /-- TIME_SYNC_SEND (R364). -/
  | timeSyncSend
  /-- TIME_SYNC (R365). -/
  | timeSync (port : Nat) (k : Packet)
  /-- PTP_MESSAGE (R364). -/
  | ptpMessage (port : Nat) (m : Ptp)
  /-- PTP_LOCK_LOST (R364). -/
  | ptpLockLost
  /-- ATTEST (R343). -/
  | attest (port : Nat) (k : Packet) (m : Spdm)
  /-- ATTEST_RETRY (R343). -/
  | attestRetry (device : Nat)
  /-- CAN_BUS_OFF_RECOVERY (R448). -/
  | canBusOffRecovery
  /-- MAIN_RAILS_MAY_START (R506). -/
  | mainRailsMayStart (mv : Nat)
  /-- CONFIGURATION_REQUEST (R474). -/
  | configurationRequest
  /-- PRIORITY_FLOW_CONTROL (R363). -/
  | priorityFlowControl (port : Nat) (priority : Nat) (quanta : Nat)
  /-- REMOTE_SOURCE_COPY (R349). -/
  | remoteSourceCopy (port : Nat) (k : Packet)
  deriving DecidableEq, Repr

end Sys2Proof
end

