-- ==== Sys2Proof/Decode.lean ====
section
/-!
DEFINITION. Decode.lean: the table of operations and events gives no row any bits: its commands are events at the part, not
words it fetches. A word therefore spells no command.
-/
namespace Sys2Proof

/-- The command that a word spells by the table's bits: none, for no row of the table has any. -/
def decodeTableWord (_nbits _w : Nat) : Option Instr := none

end Sys2Proof
end

