-- ==== Sys2Proof/Machine/Fp.lean ====
section
/-!
DEFINITION. Machine/Fp.lean: the exact values of the element formats (Table 02-3) and their rounding.
A finite value is a signed dyadic number held exactly; every rounding the manual names is one function here.
-/
namespace Sys2Proof.Machine

/-- A value of a floating-point computation before it is rounded: NaN, an infinity, or the exact
number (−1)^neg · m · 2^e. A zero keeps its sign. -/
inductive Fp where
  | nan
  | inf (neg : Bool)
  | num (neg : Bool) (m : Nat) (e : Int)
  deriving DecidableEq, Repr

/-- Zero of a sign. -/
def fpZero (neg : Bool) : Fp := .num neg 0 0

/-- The number 1. -/
def fpOne : Fp := .num false 1 0

/-- An integer as a value. -/
def fpInt (i : Int) : Fp := .num (decide (i < 0)) i.natAbs 0

/-- Whether a value is a number. -/
def fpFinite : Fp → Bool
  | .num _ _ _ => true
  | _ => false

/-- Whether a value is zero. -/
def fpIsZero : Fp → Bool
  | .num _ m _ => m == 0
  | _ => false

/-- Sign of a value; NaN has none. -/
def fpNeg : Fp → Bool
  | .nan => false
  | .inf n => n
  | .num n _ _ => n

/-- Value of the opposite sign. -/
def fpNegate : Fp → Fp
  | .nan => .nan
  | .inf n => .inf (!n)
  | .num n m e => .num (!n) m e

/-- Exact product; an infinity times a zero is NaN (R41, R137). -/
def fpMul : Fp → Fp → Fp
  | .nan, _ => .nan
  | _, .nan => .nan
  | .inf a, .inf b => .inf (xor a b)
  | .inf a, .num b m _ => if m = 0 then .nan else .inf (xor a b)
  | .num a m _, .inf b => if m = 0 then .nan else .inf (xor a b)
  | .num a m e, .num b n f => .num (xor a b) (m * n) (e + f)

/-- Exact sum; opposite infinities give NaN, and a zero sum of unlike signs is +0 (R40, R41). -/
def fpAdd : Fp → Fp → Fp
  | .nan, _ => .nan
  | _, .nan => .nan
  | .inf a, .inf b => if a = b then .inf a else .nan
  | .inf a, .num _ _ _ => .inf a
  | .num _ _ _, .inf b => .inf b
  | .num a m e, .num b n f =>
    if m = 0 ∧ n = 0 then .num (a && b) 0 0
    else if m = 0 then .num b n f
    else if n = 0 then .num a m e
    else
      let g := min e f
      let x : Int := (m * 2 ^ (e - g).toNat : Nat)
      let y : Int := (n * 2 ^ (f - g).toNat : Nat)
      let z := (if a then -x else x) + (if b then -y else y)
      .num (decide (z < 0)) z.natAbs g

/-- Exact difference. -/
def fpSub (x y : Fp) : Fp := fpAdd x (fpNegate y)

/-- Exact product with a power of two. -/
def fpScale (k : Int) : Fp → Fp
  | .num a m e => .num a m (e + k)
  | x => x

/-- Order of two numbers or infinities: whether x < y, with −0 equal to +0; false for NaN. -/
def fpLt : Fp → Fp → Bool
  | .nan, _ => false
  | _, .nan => false
  | .inf a, .inf b => a && !b
  | .inf a, .num _ _ _ => a
  | .num _ _ _, .inf b => !b
  | .num a m e, .num b n f =>
    match fpSub (.num a m e) (.num b n f) with
    | .num neg k _ => neg && k != 0
    | _ => false

/-- The integer floor of a number times 2^k (toward −∞). -/
def fpFloor (k : Int) : Fp → Int
  | .num a m e =>
    let s := e + k
    if 0 ≤ s then
      let x : Int := (m * 2 ^ s.toNat : Nat)
      if a then -x else x
    else
      let d := 2 ^ (-s).toNat
      if a then -((ceilDiv m d : Nat) : Int) else ((m / d : Nat) : Int)
  | _ => 0

/-- The integer ceiling of a number. -/
def fpCeil (x : Fp) : Int := -(fpFloor 0 (fpNegate x))

/-- floor(log2 |x|) of a non-zero number. -/
def fpLog2 : Fp → Int
  | .num _ m e => (Nat.log2 m : Int) + e
  | _ => 0

/-- An element format (Tables 02-3, 05-9): total bits, fraction bits, exponent of the least normal value, the
largest finite value `maxM · 2^maxE`, and the codes of Table 02-3. -/
structure Fmt where
  width : Nat
  mb : Nat
  emin : Int
  maxM : Nat
  maxE : Int
  hasInf : Bool
  hasNan : Bool
  deriving DecidableEq, Repr

def fmtE2M1 : Fmt := ⟨4, 1, 0, 3, 1, false, false⟩
def fmtE2M3 : Fmt := ⟨6, 3, 0, 15, -1, false, false⟩
def fmtE3M2 : Fmt := ⟨6, 2, -2, 7, 2, false, false⟩
def fmtE4M3 : Fmt := ⟨8, 3, -6, 14, 5, false, true⟩
def fmtE5M2 : Fmt := ⟨8, 2, -14, 7, 13, true, true⟩
def fmtBF16 : Fmt := ⟨16, 7, -126, 255, 120, true, true⟩
def fmtFP16 : Fmt := ⟨16, 10, -14, 2047, 5, true, true⟩
def fmtFP32 : Fmt := ⟨32, 23, -126, 16777215, 104, true, true⟩

/-- The floating-point format of an element code of Table 02-3, MX codes by their element. -/
def fmtOf : Nat → Option Fmt
  | 0x0 => some fmtE2M1
  | 0x1 => some fmtE2M1
  | 0x2 => some fmtE2M3
  | 0x3 => some fmtE3M2
  | 0x4 => some fmtE2M3
  | 0x5 => some fmtE3M2
  | 0x6 => some fmtE4M3
  | 0x7 => some fmtE5M2
  | 0x8 => some fmtE4M3
  | 0x9 => some fmtE5M2
  | 0xC => some fmtBF16
  | 0xD => some fmtFP16
  | 0xE => some fmtFP32
  | _ => none

/-- Codes whose elements share an E8M0 block scale (Table 02-3). -/
def isMx (code : Nat) : Bool := code == 0x1 || code == 0x4 || code == 0x5 || code == 0x8 || code == 0x9

/-- Integer codes of Table 02-3. -/
def isIntCode (code : Nat) : Bool := code == 0xA || code == 0xB

/-- Elements per cell, P of Table 02-3. -/
def cellElems (code : Nat) : Nat :=
  if code = 0x0 ∨ code = 0x1 ∨ code = 0xA then 8
  else if code = 0xC ∨ code = 0xD ∨ code = 0xE then 2 else 4

/-- Bits one element of a code takes in its 32-bit cell word or in memory (Table 02-2). -/
def elemBits (code : Nat) : Nat :=
  if code = 0xE then 32
  else if cellElems code = 8 then 4 else if cellElems code = 2 then 16
  else match fmtOf code with
    | some f => f.width
    | none => 8

/-- Exponent field width of a format. -/
def expBits (f : Fmt) : Nat := f.width - 1 - f.mb

/-- Value of a stored floating-point element. -/
def fpDecode (f : Fmt) (x : Nat) : Fp :=
  let s := bit x (f.width - 1)
  let frac := bits x 0 f.mb
  let ex := bits x f.mb (expBits f)
  let top := 2 ^ expBits f - 1
  if f.hasInf ∧ ex = top then (if frac = 0 then .inf s else .nan)
  else if f.hasNan ∧ ¬ f.hasInf ∧ ex = top ∧ frac = 2 ^ f.mb - 1 then .nan
  else if ex = 0 then (if frac = 0 then fpZero s else .num s frac (f.emin - f.mb))
  else .num s (2 ^ f.mb + frac) (f.emin - f.mb + (ex - 1 : Nat))

/-- Value of a stored element of a code of Table 02-3; integers are two's complement. -/
def elemDecode (code x : Nat) : Fp :=
  match fmtOf code with
  | some f => fpDecode f x
  | none => if code = 0xA then fpInt (toSigned 4 x) else fpInt (toSigned 8 x)

/-- Exponent of the format's grid at a magnitude of `floor(log2 v)`. -/
def gridExp (f : Fmt) (l : Int) : Int := max l f.emin - f.mb

/-- Multiple of 2^q nearest to m·2^e, ties to even. -/
def roundEven (m : Nat) (e q : Int) : Nat :=
  if q ≤ e then m * 2 ^ (e - q).toNat
  else
    let d := 2 ^ (q - e).toNat
    let n := m / d
    let r := m % d
    if 2 * r > d ∨ (2 * r = d ∧ n % 2 = 1) then n + 1 else n

/-- Multiple of 2^q chosen for m·2^e by the draw u (R179): up where u < f·2^32. -/
def roundDraw (u : Nat) (m : Nat) (e q : Int) : Nat :=
  if q ≤ e then m * 2 ^ (e - q).toNat
  else
    let d := 2 ^ (q - e).toNat
    let n := m / d
    if u * d < (m % d) * 2 ^ 32 then n + 1 else n

/-- Magnitude on the grid of a format, before its overflow rule: nearest even, or by a draw. -/
def roundGrid (f : Fmt) (draw : Option Nat) (m : Nat) (e : Int) : Nat × Int :=
  let q := gridExp f ((Nat.log2 m : Int) + e)
  match draw with
  | none => (roundEven m e q, q)
  | some u => (roundDraw u m e q, q)

/-- Whether n·2^q lies past the largest finite value of a format. -/
def pastMax (f : Fmt) (n : Nat) (q : Int) : Bool :=
  fpLt (.num false f.maxM f.maxE) (.num false n q)

/-- rne to a format that has infinities: nearest even, subnormals kept, overflow to infinity. -/
def rneFmt (f : Fmt) : Fp → Fp
  | .num a m e =>
    if m = 0 then fpZero a
    else
      let r := roundGrid f none m e
      if r.1 = 0 then fpZero a
      else if pastMax f r.1 r.2 then .inf a else .num a r.1 r.2
  | x => x

/-- rne32 of R39: the exact value rounded once to FP32, nearest even. -/
def rne32 (x : Fp) : Fp := rneFmt fmtFP32 x

/-- rne to BF16. -/
def rneBf16 (x : Fp) : Fp := rneFmt fmtBF16 x

/-- Bits of a value that lies on a format's grid and within its range. -/
def fpEncodeNum (f : Fmt) (a : Bool) (m : Nat) (e : Int) : Nat :=
  let s := fld (b2n a) (f.width - 1) 1
  if m = 0 then s
  else
    let l := (Nat.log2 m : Int) + e
    let q := gridExp f l
    let n := roundEven m e q
    if l < f.emin then s + n
    else s + ((l - f.emin).toNat + 1) * 2 ^ f.mb + (n - 2 ^ f.mb)

/-- Canonical NaN of a format (R158): positive, top fraction bit only; E4M3 0x7F. -/
def nanBits (f : Fmt) : Nat :=
  if f.hasInf then (2 ^ expBits f - 1) * 2 ^ f.mb + 2 ^ (f.mb - 1) else 2 ^ (f.width - 1) - 1

/-- Infinity of a format that has one. -/
def infBits (f : Fmt) (a : Bool) : Nat := fld (b2n a) (f.width - 1) 1 + (2 ^ expBits f - 1) * 2 ^ f.mb

/-- Bits of a value already rounded to a format with infinities. -/
def fpEncode (f : Fmt) : Fp → Nat
  | .nan => nanBits f
  | .inf a => infBits f a
  | .num a m e => fpEncodeNum f a m e

/-- FP32 word of a value: rounded once, NaN canonical. -/
def enc32 (x : Fp) : Nat := fpEncode fmtFP32 (rne32 x)

/-- Value of an FP32 word. -/
def dec32 (x : Nat) : Fp := fpDecode fmtFP32 x

/-- rne32 of the quotient p / q of two naturals, q not 0: correct rounding through a sticky bit. -/
def rneQuot (p q : Nat) : Fp :=
  if p = 0 then fpZero false
  else
    let s := 64 + Nat.log2 q - min (Nat.log2 p) (Nat.log2 q)
    let n := p * 2 ^ s / q
    let sticky := if p * 2 ^ s % q = 0 then 0 else 1
    rne32 (.num false (2 * n + sticky) (-(s : Int) - 1))

/-- IEEE 754-2019 minimum: NaN prevails, −0 below +0 (R137). -/
def fpMin (x y : Fp) : Fp :=
  if x = .nan ∨ y = .nan then .nan
  else if fpIsZero x && fpIsZero y then (if fpNeg x then x else y)
  else if fpLt y x then y else x

/-- IEEE 754-2019 maximum (R137). -/
def fpMax (x y : Fp) : Fp :=
  if x = .nan ∨ y = .nan then .nan
  else if fpIsZero x && fpIsZero y then (if fpNeg x then y else x)
  else if fpLt x y then y else x

/-- What a conversion reports beside its bits (R158): a saturated result, an infinity written as a finite
value, a NaN written to a format without NaN. -/
structure Conv where
  word : Nat
  saturated : Bool
  nonfinite : Bool
  nanLost : Bool
  deriving DecidableEq, Repr

/-- Conversion that reports nothing. -/
def convPlain (w : Nat) : Conv := ⟨w, false, false, false⟩

/-- Result of an overflow in a floating-point format (R158): the largest finite value, infinity or NaN. -/
def convOverflow (f : Fmt) (sat : Bool) (a fromInf : Bool) : Conv :=
  let big : Conv := ⟨fpEncodeNum f a f.maxM f.maxE, true, fromInf, false⟩
  if sat then big
  else if f.hasInf then convPlain (infBits f a)
  else if f.hasNan then convPlain (nanBits f)
  else big

/-- Conversion of a value to a floating-point format, nearest even or by a draw (R158, R179). -/
def convFloat (f : Fmt) (sat : Bool) (draw : Option Nat) : Fp → Conv
  | .nan => if f.hasNan then convPlain (nanBits f) else ⟨0, false, true, true⟩
  | .inf a => convOverflow f sat a true
  | .num a m e =>
    if m = 0 then convPlain (fpEncodeNum f a 0 0)
    else
      let r := roundGrid f draw m e
      if pastMax f r.1 r.2 then convOverflow f sat a false else convPlain (fpEncodeNum f a r.1 r.2)

/-- Conversion to a `w`-bit integer: nearest even, saturating; a NaN gives +0 (R158). -/
def convInt (w : Nat) : Fp → Conv
  | .nan => ⟨0, false, true, true⟩
  | .inf a => ⟨if a then 2 ^ (w - 1) else 2 ^ (w - 1) - 1, true, true, false⟩
  | .num a m e =>
    let n := roundEven m e 0
    if a then
      if n ≤ 2 ^ (w - 1) then convPlain ((2 ^ w - n) % 2 ^ w) else ⟨2 ^ (w - 1), true, false, false⟩
    else
      if n < 2 ^ (w - 1) then convPlain n else ⟨2 ^ (w - 1) - 1, true, false, false⟩

/-- Conversion to an element code without a block scale (R158). -/
def convElem (code : Nat) (sat : Bool) (draw : Option Nat) (y : Fp) : Conv :=
  if code = 0xA then convInt 4 y
  else if code = 0xB then convInt 8 y
  else match fmtOf code with
    | some f => convFloat f sat draw y
    | none => convFloat fmtFP32 sat draw y

/-- emax of Table 05-9. -/
def mxEmax (code : Nat) : Int :=
  if code = 0x1 ∨ code = 0x4 then 2 else if code = 0x5 then 4 else if code = 0x8 then 8 else 15

/-- Exponent X of an MX block's scale (R159), from its largest finite magnitude. -/
def mxExp (code : Nat) (amax : Fp) : Int :=
  max (-127) (min 127 (fpLog2 amax - mxEmax code))

/-- Largest magnitude of the numbers of a block. -/
def amaxOf : List Fp → Fp
  | [] => fpZero false
  | .num _ m e :: r => fpMax (.num false m e) (amaxOf r)
  | _ :: r => amaxOf r

/-- One MX block of R159: its scale byte and its elements' conversions, each with its draw. -/
def convBlock (code : Nat) (ys : List (Fp × Option Nat)) : Nat × List Conv :=
  let vs := ys.map (·.1)
  if vs.any (fun v => !fpFinite v) then (0xFF, ys.map (fun _ => convPlain 0))
  else
    let amax := amaxOf vs
    if fpIsZero amax then (127, ys.map (fun y => convElem code true y.2 y.1))
    else
      let x := mxExp code amax
      ((x + 127).toNat, ys.map (fun y => convElem code true y.2 (fpScale (-x) y.1)))

end Sys2Proof.Machine
end

