-- ==== Sys2Proof/Machine/ArrayChain.lean ====
section
/-!
DEFINITION. Machine/ArrayChain.lean: the chain of a column of the Matrix Array (R39 to R42), the split of FP32
operands into passes (R63, R64) and the passes of complex mode (R66).
Operand elements are given with their block scale already applied, which is exact.
-/
namespace Sys2Proof.Machine

/-- An element times its E8M0 block scale 2^(s − 127); scale 0xFF makes it NaN (R41). -/
def scaled (s : Nat) (x : Fp) : Fp := if s = 0xFF then .nan else fpScale ((s : Int) - 127) x

/-- Exact sum of the products of one cell row. -/
def rowValue : List Fp → List Fp → Fp
  | a :: as, w :: ws => fpAdd (fpMul a w) (rowValue as ws)
  | _, _ => fpZero false

/-- One cell row of the chain of R39: a zero contribution leaves the sum as it is, bit for bit; otherwise the one
rounding of the row, whose zero result is +0 (R40). -/
def chainStep (s v : Fp) : Fp :=
  if fpIsZero v then s
  else
    let r := rne32 (fpAdd s v)
    if fpIsZero (fpAdd s v) then fpZero false else r

/-- The column chain of R39 with `p` elements per cell over `n` cell rows. -/
def chainFp (p : Nat) : Nat → List Fp → List Fp → Fp → Fp
  | 0, _, _, s => s
  | n + 1, a, w, s => chainFp p n (a.drop p) (w.drop p) (chainStep s (rowValue (a.take p) (w.take p)))

/-- Exact integer sum of the products of one cell row. -/
def rowInt : List Int → List Int → Int
  | a :: as, w :: ws => a * w + rowInt as ws
  | _, _ => 0

/-- Saturation to 32-bit two's complement; the flag says whether it acted (R42). -/
def satI32 (x : Int) : Int × Bool :=
  if x < -2147483648 then (-2147483648, true)
  else if 2147483647 < x then (2147483647, true) else (x, false)

/-- The integer chain of R42; the second part counts saturated row additions. -/
def chainInt (p : Nat) : Nat → List Int → List Int → Int → Nat → Int × Nat
  | 0, _, _, s, c => (s, c)
  | n + 1, a, w, s, c =>
    let r := satI32 (s + rowInt (a.take p) (w.take p))
    chainInt p n (a.drop p) (w.drop p) r.1 (if r.2 then c + 1 else c)

/-- The integer a decoded element stands for. -/
def fpToInt (x : Fp) : Int := fpFloor 0 x

/-- x_h, x_m and x_l of R63. -/
def splitH (x : Fp) : Fp :=
  match rneBf16 x with
  | .inf a => (match x with
    | .inf b => .inf b
    | _ => .num a fmtBF16.maxM fmtBF16.maxE)
  | y => y

def splitM (x : Fp) : Fp := if fpFinite x then rneBf16 (fpSub x (splitH x)) else fpZero false

def splitL (x : Fp) : Fp :=
  if fpFinite x then rneBf16 (fpSub (fpSub x (splitH x)) (splitM x)) else fpZero false

/-- The pieces of an FP32 operand, by name 0 h, 1 m, 2 l. -/
def piece (k : Nat) (x : Fp) : Fp := if k = 0 then splitH x else if k = 1 then splitM x else splitL x

/-- Passes of the FP32 modes as (stationary piece, streaming piece) (R64). -/
def fp32Passes (six : Bool) : List (Nat × Nat) :=
  if six then [(2, 0), (1, 1), (0, 2), (1, 0), (0, 1), (0, 0)] else [(1, 0), (0, 1), (0, 0)]

/-- One K tile of an FP32 problem: all passes in order, each seeded with the sum of the one before. -/
def fp32Tile (passes : List (Nat × Nat)) (a w : List Fp) (s : Fp) : Fp :=
  passes.foldl (fun acc p => chainFp 2 (ceilDiv a.length 2) (a.map (piece p.2)) (w.map (piece p.1)) acc) s

/-- An FP32 problem over its K tiles of `depth` elements, the tiles outermost (R64). -/
def fp32Chain (passes : List (Nat × Nat)) (depth : Nat) : Nat → List Fp → List Fp → Fp → Fp
  | 0, _, _, s => s
  | t + 1, a, w, s =>
    fp32Chain passes depth t (a.drop depth) (w.drop depth) (fp32Tile passes (a.take depth) (w.take depth) s)

/-- The real and imaginary results of a complex problem (R66), given the split parts and the two seeds. -/
def complexChain (are aim wre wim : List Fp) (sre sim : Fp) : Fp × Fp :=
  let n := ceilDiv are.length 2
  let rr := chainFp 2 n are wre sre
  let ii := chainFp 2 n aim wim (fpZero false)
  let ri := chainFp 2 n aim wre sim
  let ir := chainFp 2 n are wim (fpZero false)
  (rne32 (fpSub rr ii), rne32 (fpAdd ri ir))

end Sys2Proof.Machine
end

