-- ==== Sys2Proof/Machine/SfuTables.lean ====
section
/-!
DEFINITION. Machine/SfuTables.lean: the table sets and constants of the Special Function Units (Tables 05-4 and 05-5),
each entry the exact value of the manual's formula rounded to the nearest multiple of 2^−62 (R147) or 2^−30 (R150).
-/
namespace Sys2Proof.Machine

def sfuT0 : List Int := [4611686018427387904, 4661903986662671290, 4712668792719003884, 4763986391269842979, 4815862801830788490, 4868304109465667592, 4921316465500308116, 4974906088244084429, 5029079263719320435, 5083842346398635251, 5139201759950318048, 5195163997991819502, 5251735624851448219, 5308923276338361494, 5366733660520940721, 5425173558513642752]
def sfuT1 : List Int := [5484249825272419512, 5543969390398799154, 5604339258952723100, 5665366512274234280, 5727058308814112983, 5789421884973557729, 5852464555953009676, 5916193716610220111, 5980616842327661685, 6045741489889385141, 6111575298367424380, 6178125990017853852, 6245401371186603363, 6313409333225136570, 6382157853416100552, 6451654995909055045]
def sfuT2 : List Int := [6521908912666391106, 6592927844419550153, 6664720121635655541, 6737294165494670078, 6810658488877194079, 6884821697363019841, 6959792490240559659, 7035579661527265796, 7112192101001162095, 7189638795243608238, 7267928828693418961, 7347071384712461870, 7427075746662858866, 7507951298995917514, 7589707528352920109, 7672354024677899536]
def sfuT3 : List Int := [7755900482342532474, 7840356701283281883, 7925732588150922155, 8012038157472581778, 8099283532826439817, 8187478948029213993, 8276634748336579668, 8366761391656660532, 8457869449776733335, 8549969609603290562, 8643072674415606502, 8737189565132953757, 8832331321595618838, 8928509103859867100, 9025734193507008925, 9124017994966720698]
/-- T[i] = 2^(i/64) in F62 (Table 05-4). -/
def sfuT : List Int :=
  sfuT0 ++ sfuT1 ++ sfuT2 ++ sfuT3

def sfuQ0 : List Int := [6117055029623892764, 6054316003679032325, 5992850866585844180, 5932621209635232681, 5873590152822941808, 5815722269543898046, 5758983515694689285, 5703341162886044944, 5648763735490006236, 5595220951267352149, 5542683665339959171, 5491123817290285132, 5440514381186227205, 5390829318344343851, 5342043532657969699, 5294132828329198670]
def sfuQ1 : List Int := [5247073869855161349, 5200844144129565213, 5155421924530180364, 5110786236871910404, 5066916827113353234, 5023794130712388525, 4981399243533381027, 4939713894215110056, 4898720417914569724, 4858401731347371619, 4818741309050658381, 4779723160799236046, 4741331810110085556, 4703552273774547026, 4666370042361309500, 4611686018427387904]
def sfuQ2 : List Int := [4611686018427387904, 4558268805858730901, 4523339542978587369, 4488941523640347161, 4455062719688344541, 4421691463361091024, 4388816433893722318, 4356426644713694847, 4324511431199308804, 4293060438972404740, 4262063612698235752, 4231511185367065604, 4201393668033492183, 4171701839990852662, 4142426739359337907, 4113559654067635204]
def sfuQ3 : List Int := [4085092113209035652, 4057015878753990733, 4029322937602086360, 4002005493957326452, 3975055962011485870, 3948466958921108038, 3922231298064489380, 3896341982565713873, 3870792199073479683, 3845575311783098708, 3820684856690651467, 3796114536068846635, 3771858213154668701, 3747909907039400963, 3724263787752086131, 3700914171527935120]
def sfuQ4 : List Int := [3677855516253617768, 3655082417081768741, 3632589602207419395, 3610371928799422946, 3588424379080277518, 3566742056548070403, 3545320182334568479, 3524154091693765085, 3503239230615463808, 3482571152558735408, 3462145515300326403, 3441958077893327415, 3422004697731626966, 3402281327715882719, 3382784013516937832, 3363508890932795736]
def sfuQ5 : List Int := [3344452183335442786, 3325610199203975503, 3306979329740647909, 3288556046566605302, 3270336899494214137, 3252318514373033894, 3234497591006606311, 3216870901137360500, 3199435286497049603, 3182187656920246101, 3165124988518528964, 3148244321913096809, 3131542760523637410, 3115017468911375471, 3098665671174307883, 3082484649392718808]
/-- Q[i] of log2 in F62 (Table 05-4). -/
def sfuQ : List Int :=
  sfuQ0 ++ sfuQ1 ++ sfuQ2 ++ sfuQ3 ++ sfuQ4 ++ sfuQ5

def sfuG0 : List Int := [-1879460183139267544, -1810869301941189503, -1742978339903099690, -1675773156879601334, -1609240036944017259, -1543365671586948253, -1478137143738472106, -1413541912566001535, -1349567799003048944, -1286202971967129654, -1223435935227793672, -1161255514888328286, -1099650847447036895, -1038611368406189209, -978126801398768326, -918187147805024323]
def sfuG1 : List Int := [-858782676832593460, -799903916035567749, -741541642249411165, -683686872920025165, -626330857806575586, -569465071038912826, -513081203511554367, -457171155597259387, -401727030164215213, -346741125881779832, -292205930800588648, -238114116193641300, -184458530645740005, -131232194379358090, -78428293805679697, 0]
def sfuG2 : List Int := [0, 77514545317785797, 128693694211618918, 179482158770635972, 229885858540040844, 279910579538916340, 329561978246172450, 378845585438862773, 427766809889382479, 476330941927728379, 524543156874688147, 572408518351530276, 619931981471487744, 667118395918065607, 713972508914954744, 760498968092099876]
def sfuG3 : List Int := [806702324252248894, 852587034042101625, 898157462531978715, 943417885707744613, 988372492878542006, 1033025389003727947, 1077380596942243697, 1121442059627500452, 1165213642170721211, 1208699133895544485, 1251902250306568025, 1294826634994389804, 1337475861479588707, 1379853434997978523, 1421962794229365398, 1463807312971940757]
def sfuG4 : List Int := [1505390301764348412, 1546715009457375921, 1587784624737136023, 1628602277601523817, 1669171040791659156, 1709493931179951191, 1749573911116352968, 1789413889734308267, 1829016724217830285, 1868385221031092105, 1907522137111852115, 1946430181029983334, 1985112014112323991, 2023570251535017408, 2061807463384462291, 2099826175687949650]
def sfuG5 : List Int := [2137628871415019777, 2175217991450531854, 2212595935540399700, 2249765063210909905, 2286727694662502948, 2323486111638863844, 2360042558272136317, 2396399241905043328, 2432558333890667047, 2468521970370612827, 2504292253032254479, 2539871249845732067, 2575260995781348401, 2610463493507986531, 2645480714073147565, 2680314597565186212]
/-- G[i] = −log2(Q[i]) in F62 (Table 05-4). -/
def sfuG : List Int :=
  sfuG0 ++ sfuG1 ++ sfuG2 ++ sfuG3 ++ sfuG4 ++ sfuG5

def sfuC0 : List Int := [4593741714853740480, 4558268805858730901, 4523339542978587369, 4488941523640347161, 4455062719688344541, 4421691463361091024, 4388816433893722318, 4356426644713694847, 4324511431199308804, 4293060438972404740, 4262063612698235752, 4231511185367065604, 4201393668033492183, 4171701839990852662, 4142426739359337907, 4113559654067635204]
def sfuC1 : List Int := [4085092113209035652, 4057015878753990733, 4029322937602086360, 4002005493957326452, 3975055962011485870, 3948466958921108038, 3922231298064489380, 3896341982565713873, 3870792199073479683, 3845575311783098708, 3820684856690651467, 3796114536068846635, 3771858213154668701, 3747909907039400963, 3724263787752086131, 3700914171527935120]
def sfuC2 : List Int := [3677855516253617768, 3655082417081768741, 3632589602207419395, 3610371928799422946, 3588424379080277518, 3566742056548070403, 3545320182334568479, 3524154091693765085, 3503239230615463808, 3482571152558735408, 3462145515300326403, 3441958077893327415, 3422004697731626966, 3402281327715882719, 3382784013516937832, 3363508890932795736]
def sfuC3 : List Int := [3344452183335442786, 3325610199203975503, 3306979329740647909, 3288556046566605302, 3270336899494214137, 3252318514373033894, 3234497591006606311, 3216870901137360500, 3199435286497049603, 3182187656920246101, 3165124988518528964, 3148244321913096809, 3131542760523637410, 3115017468911375471, 3098665671174307883, 3082484649392718808]
def sfuC4 : List Int := [3066471742123146243, 3050624342939047296, 3034939899016481500, 3019415909763200265, 3004049925489596192, 2988839546120028616, 2973782419943101520, 2958876242399527076, 2944118754906262602, 2929507743715660803, 2915041038808422971, 2900716512819192392, 2886532079993670669, 2872485695176183220, 2858575352826661752, 2844799086066051334]
def sfuC5 : List Int := [2831154965749187778, 2817641099564227454, 2804255631157746564, 2790996739284660292, 2777862636982144243, 2764851570766771202, 2751961819854105602, 2739191695400026226, 2726539539763074604, 2714003725787152422, 2701582656103916026, 2689274762454239871, 2677078505028143545, 2664992371822598879, 2653014878016654614, 2641144565363336249]
def sfuC6 : List Int := [2629380001597798003, 2617719779861222402, 2606162518139980802, 2594706858719585282, 2583351467652978782, 2572095034242726151, 2560936270536683955, 2549873910836741476, 2538906711220239362, 2528033449073685875, 2517252922638403632, 2506563950567752237, 2495965371495584151, 2485456043615602744, 2475034844271302523, 2464700669556182262]
def sfuC7 : List Int := [2454452433923932024, 2444289069808304976, 2434209527252394440, 2424212773547045798, 2414297792878141725, 2404463585982507746, 2394709169812193313, 2385033577206891522, 2375435856574268216, 2365915071577978564, 2356470300833156294, 2347100637609167601, 2337805189539428324, 2328583078338089356, 2319433439523401382, 2310355422147575936]
/-- C[i] of recip in F62 (Table 05-4). -/
def sfuC : List Int :=
  sfuC0 ++ sfuC1 ++ sfuC2 ++ sfuC3 ++ sfuC4 ++ sfuC5 ++ sfuC6 ++ sfuC7

def sfuS0 : List Int := [4593776490504230232, 4558574619336323943, 4524169790800992756, 4490532374086872043, 4457634257974180161, 4425448752083815436, 4393950495858282443, 4363115374569042175, 4332920441718111427, 4303343847266469001, 4274364771179147640, 4245963361827736586, 4218120678836197139, 4190818639996099784, 4164039971913229833, 4137768164079502871]
def sfuS1 : List Int := [4111987426092736531, 4086682647772437659, 4061839361942729443, 4037443709674163532, 4013482407794702219, 3989942718496847040, 3966812420882936433, 3944079784304215479, 3921733543361553036, 3899762874446784986, 3878157373713719967, 3856907036376964645, 3836002237245005872, 3815433712401512518, 3795192541955666549, 3775270133788568591]
def sfuS2 : List Int := [3755658208228448295, 3736348783592597861, 3717334162538686336, 3698606919172445661, 3680159886862685301, 3661986146718225312, 3644079016684668573, 3626432041221989660, 3609038981526725310, 3591893806265132126, 3574990682786051464, 3558323968784407529, 3541888204388279128, 3525678104644343215, 3509688552378202833, 3493914591407695540]
def sfuS3 : List Int := [3478351420088741923, 3462994385174647562, 3447838975971024736, 3432880818769660804, 3418115671545735839, 3403539418903789880, 3389148067258766136, 3374937740239316481, 3360904674301354814, 3347045214540587001, 3333355810693437648, 3319833013316437761, 3306473470134737106, 3293273922550964174, 3280231202306178054, 3267342228285143127]
def sfuS4 : List Int := [3248290507690880939, 3223399025877599190, 3199071138314706073, 3175285892854553602, 3152023411863006750, 3129264822392010284, 3106992191819384518, 3085188468457053046, 3063837426680687463, 3042923616179526686, 3022432314965660829, 3002349485818023048, 2982661735868278156, 2963356279064226813, 2944420901271685707, 2925843927798427511]
def sfuS5 : List Int := [2907614193143991410, 2889721012797285745, 2872154156920143400, 2854903825769571463, 2837960626724546402, 2821315552795008606, 2804959962501349396, 2788885561022286452, 2773084382517701371, 2757548773540864397, 2742271377461583199, 2727245119828261832, 2712463194602711131, 2697919051206873010, 2683606382325462591, 2669519112412941368]
def sfuS6 : List Int := [2655651386857254528, 2641997561756434105, 2628552194267520769, 2615310033490321200, 2602266011851322309, 2589415236955652465, 2576752983877335206, 2564274687860242334, 2551975937404138487, 2539852467712034108, 2527900154476742624, 2516115007986083418, 2504493167527596605, 2493030896074949203, 2481724575239424611, 2470570700471006969]
def sfuS7 : List Int := [2459565876494606882, 2448706812967932190, 2437990320348393476, 2427413305957254650, 2416972770229999580, 2406665803142591264, 2396489580803954798, 2386441362205623527, 2376518486120052873, 2366718368139631867, 2357038497848911348, 2347476436123023070, 2338029812545688032, 2328696322940607683, 2319473727010400351, 2310359846077589311]
/-- S[i] of rsqrt in F62 (Table 05-4). -/
def sfuS : List Int :=
  sfuS0 ++ sfuS1 ++ sfuS2 ++ sfuS3 ++ sfuS4 ++ sfuS5 ++ sfuS6 ++ sfuS7

def sfuA0 : List Int := [1073741824, 1079572136, 1085434106, 1091327906, 1097253708, 1103211687, 1109202018, 1115224875, 1121280436, 1127368878, 1133490379, 1139645120, 1145833280, 1152055042, 1158310587, 1164600099]
def sfuA1 : List Int := [1170923762, 1177281762, 1183674286, 1190101520, 1196563654, 1203060876, 1209593378, 1216161350, 1222764986, 1229404479, 1236080024, 1242791816, 1249540052, 1256324931, 1263146652, 1270005413]
def sfuA2 : List Int := [1276901417, 1283834865, 1290805962, 1297814910, 1304861917, 1311947188, 1319070932, 1326233356, 1333434672, 1340675091, 1347954824, 1355274085, 1362633090, 1370032052, 1377471191, 1384950723]
def sfuA3 : List Int := [1392470869, 1400031848, 1407633882, 1415277195, 1422962010, 1430688553, 1438457051, 1446267730, 1454120821, 1462016553, 1469955159, 1477936870, 1485961921, 1494030547, 1502142985, 1510299473]
def sfuA4 : List Int := [1518500250, 1526745556, 1535035634, 1543370725, 1551751076, 1560176931, 1568648537, 1577166143, 1585730000, 1594340357, 1602997467, 1611701585, 1620452965, 1629251865, 1638098541, 1646993254]
def sfuA5 : List Int := [1655936265, 1664927835, 1673968228, 1683057710, 1692196547, 1701385007, 1710623359, 1719911875, 1729250827, 1738640488, 1748081133, 1757573041, 1767116489, 1776711757, 1786359126, 1796058879]
def sfuA6 : List Int := [1805811301, 1815616678, 1825475297, 1835387448, 1845353420, 1855373507, 1865448001, 1875577199, 1885761398, 1896000896, 1906295993, 1916646992, 1927054196, 1937517909, 1948038440, 1958616096]
def sfuA7 : List Int := [1969251188, 1979944027, 1990694927, 2001504204, 2012372174, 2023299156, 2034285470, 2045331439, 2056437387, 2067603638, 2078830522, 2090118366, 2101467502, 2112878262, 2124350982, 2135885998]
def sfuA8 : List Int := [2147483648]
/-- A[i] = 2^(i/128) in F30, i = 0 to 128 (Table 05-5). -/
def sfuA : List Int :=
  sfuA0 ++ sfuA1 ++ sfuA2 ++ sfuA3 ++ sfuA4 ++ sfuA5 ++ sfuA6 ++ sfuA7 ++ sfuA8

def sfuB0 : List Int := [0, 12055174, 24017256, 35887675, 47667823, 59359063, 70962728, 82480119, 93912511, 105261148, 116527248, 127712004, 138816582, 149842124, 160789745, 171660541]
def sfuB1 : List Int := [182455581, 193175914, 203822568, 214396548, 224898839, 235330407, 245692198, 255985140, 266210141, 276368092, 286459867, 296486323, 306448299, 316346620, 326182095, 335955515]
def sfuB2 : List Int := [345667660, 355319292, 364911162, 374444004, 383918542, 393335482, 402695523, 411999347, 421247625, 430441017, 439580170, 448665721, 457698295, 466678506, 475606957, 484484242]
def sfuB3 : List Int := [493310944, 502087636, 510814882, 519493235, 528123241, 536705435, 545240343, 553728485, 562170370, 570566499, 578917365, 587223455, 595485245, 603703206, 611877800, 620009483]
def sfuB4 : List Int := [628098702, 636145900, 644151509, 652115959, 660039669, 667923055, 675766525, 683570481, 691335320, 699061430, 706749198, 714399001, 722011213, 729586201, 737124328, 744625951]
def sfuB5 : List Int := [752091421, 759521085, 766915285, 774274358, 781598637, 788888448, 796144114, 803365955, 810554283, 817709409, 824831638, 831921271, 838978604, 846003931, 852997541, 859959719]
def sfuB6 : List Int := [866890747, 873790901, 880660455, 887499680, 894308843, 901088206, 907838029, 914558569, 921250079, 927912807, 934547002, 941152905, 947730758, 954280797, 960803257, 967298370]
def sfuB7 : List Int := [973766362, 980207461, 986621888, 993009864, 999371606, 1005707329, 1012017244, 1018301561, 1024560487, 1030794226, 1037002979, 1043186948, 1049346328, 1055481314, 1061592099, 1067678873]
def sfuB8 : List Int := [1073741824]
/-- B[i] = log2(1 + i/128) in F30 (Table 05-5). -/
def sfuB : List Int :=
  sfuB0 ++ sfuB1 ++ sfuB2 ++ sfuB3 ++ sfuB4 ++ sfuB5 ++ sfuB6 ++ sfuB7 ++ sfuB8

def sfuCd0 : List Int := [1073741824, 1065418244, 1057222719, 1049152317, 1041204193, 1033375590, 1025663832, 1018066322, 1010580540, 1003204040, 995934445, 988769449, 981706811, 974744351, 967879954, 961111563]
def sfuCd1 : List Int := [954437177, 947854852, 941362695, 934958867, 928641578, 922409084, 916259690, 910191745, 904203641, 898293814, 892460737, 886702926, 881018933, 875407347, 869866794, 864395934]
def sfuCd2 : List Int := [858993459, 853658096, 848388602, 843183764, 838042399, 832963354, 827945503, 822987745, 818089009, 813248245, 808464432, 803736570, 799063683, 794444818, 789879043, 785365448]
def sfuCd3 : List Int := [780903145, 776491263, 772128952, 767815383, 763549742, 759331235, 755159085, 751032533, 746950834, 742913262, 738919105, 734967666, 731058263, 727190230, 723362913, 719575673]
def sfuCd4 : List Int := [715827883, 712118930, 708448214, 704815146, 701219150, 697659662, 694136129, 690648007, 687194767, 683775888, 680390859, 677039180, 673720360, 670433919, 667179386, 663956297]
def sfuCd5 : List Int := [660764199, 657602648, 654471207, 651369448, 648296950, 645253303, 642238100, 639250946, 636291451, 633359233, 630453915, 627575130, 624722516, 621895717, 619094385, 616318177]
def sfuCd6 : List Int := [613566757, 610839793, 608136962, 605457945, 602802428, 600170102, 597560667, 594973825, 592409282, 589866753, 587345955, 584846611, 582368447, 579911196, 577474594, 575058383]
def sfuCd7 : List Int := [572662306, 570286114, 567929560, 565592401, 563274399, 560975320, 558694933, 556433010, 554189329, 551963669, 549755814, 547565552, 545392673, 543236970, 541098242, 538976288]
def sfuCd8 : List Int := [536870912]
/-- C'[i] = 1/(1 + i/128) in F30 (Table 05-5). -/
def sfuCd : List Int :=
  sfuCd0 ++ sfuCd1 ++ sfuCd2 ++ sfuCd3 ++ sfuCd4 ++ sfuCd5 ++ sfuCd6 ++ sfuCd7 ++ sfuCd8

def sfuD0 : List Int := [1073741824, 1065450257, 1057347856, 1049427536, 1041682578, 1034106604, 1026693558, 1019437682, 1012333500, 1005375799, 998559613, 991880210, 985333074, 978913898, 972618566, 966443148]
def sfuD1 : List Int := [960383883, 954437177, 948599586, 942867814, 937238702, 931709222, 926276469, 920937655, 915690104, 910531246, 905458609, 900469818, 895562589, 890734723, 885984104, 881308694]
def sfuD2 : List Int := [876706528, 872175715, 867714429, 863320910, 858993459, 854730438, 850530263, 846391405, 842312387, 838291779, 834328203, 830420321, 826566842, 822766514, 819018128, 815320510]
def sfuD3 : List Int := [811672525, 808073073, 804521086, 801015531, 797555404, 794139734, 790767575, 787438013, 784150157, 780903145, 777696137, 774528319, 771398898, 768307107, 765252196, 762233438]
def sfuD4 : List Int := [759250125, 753387102, 747657839, 742057327, 736580814, 731223792, 725981977, 720851298, 715827883, 710908045, 706088274, 701365222, 696735698, 692196655, 687745184, 683378504]
def sfuD5 : List Int := [679093957, 674889000, 670761200, 666708225, 662727842, 658817909, 654976372, 651201261, 647490682, 643842818, 640255922, 636728315, 633258380, 629844563, 626485368, 623179354]
def sfuD6 : List Int := [619925131, 616721362, 613566757, 610460069, 607400100, 604385689, 601415717, 598489102, 595604800, 592761802, 589959130, 587195840, 584471019, 581783781, 579133272, 576518662]
def sfuD7 : List Int := [573939147, 571393950, 568882316, 566403514, 563956835, 561541591, 559157115, 556802759, 554477894, 552181909, 549914212, 547674226, 545461392, 543275165, 541115017, 538980433]
def sfuD8 : List Int := [536870912]
/-- D[i] of rsqrt in F30 (Table 05-5). -/
def sfuD : List Int :=
  sfuD0 ++ sfuD1 ++ sfuD2 ++ sfuD3 ++ sfuD4 ++ sfuD5 ++ sfuD6 ++ sfuD7 ++ sfuD8

/-- c1 = (ln 2)^1 / 1! in F62. -/
def sfuC1c : Int := 3196577161300663915
/-- c2 = (ln 2)^2 / 2! in F62. -/
def sfuC2c : Int := 1107849223398934356
/-- c3 = (ln 2)^3 / 3! in F62. -/
def sfuC3c : Int := 255967521894832113
/-- d1 in F62 (Table 05-4). -/
def sfuD1c : Int := 6653256548922161246
/-- d2 in F62 (Table 05-4). -/
def sfuD2c : Int := -3326628274461080623
/-- d3 in F62 (Table 05-4). -/
def sfuD3c : Int := 2217752182974053749
/-- d4 in F62 (Table 05-4). -/
def sfuD4c : Int := -1663314137230540311
/-- d5 in F62 (Table 05-4). -/
def sfuD5c : Int := 1330651309784432249
/-- log2(e) in F62. -/
def sfuLe : Int := 6653256548922161246
/-- ln 2 in F62. -/
def sfuLn : Int := 3196577161300663915

end Sys2Proof.Machine
end

