-- ==== Sys2Proof/Machine/Sfu.lean ====
section
/-!
DEFINITION. Machine/Sfu.lean: the Special Function Units in S240 mode (R147, R148) and in Druner-exact mode (R150).
-/
namespace Sys2Proof.Machine

/-- Entry of a table set. -/
def tabAt (t : List Int) (i : Nat) : Int := t.getD i 0

/-- Product in fixed point with `f` fraction bits, truncated toward −∞ (R147, R150). -/
def fixMul (f : Nat) (a b : Int) : Int := (a * b).fdiv (2 ^ f : Nat)

/-- Product in F62. -/
def m62 (a b : Int) : Int := fixMul 62 a b

/-- The number 1 in F62. -/
def one62 : Int := 4611686018427387904

/-- A rational p/q in F62; every use is exact. -/
def r62 (p q : Nat) : Int := ((p * 2 ^ 62 / q : Nat) : Int)

/-- Fixed-point value with `f` fraction bits times 2^k, as an exact value. -/
def fixVal (f : Nat) (v k : Int) : Fp := .num (decide (v < 0)) v.natAbs (k - f)

/-- Exponent of a non-zero number with its significand in [1, 2). -/
def expOf (x : Fp) : Int := fpLog2 x

/-- Significand in [1, 2) of a non-zero number, in F62 (exact for FP32). -/
def sigOf : Fp → Int
  | .num _ m _ => ((m * 2 ^ (62 - Nat.log2 m) : Nat) : Int)
  | _ => one62

/-- Limits of exp2 on the reduced argument (Table 05-2). -/
def exp2Limit (t : Fp) : Option Fp :=
  if fpLt t (.num false 128 0) then (if fpLt t (.num true 150 0) then some (fpZero false) else none)
  else some (.inf false)

/-- exp2 of an argument in F62 (Table 05-4). -/
def exp2F62 (x : Int) : Fp :=
  let n := x.fdiv one62
  let f := x - n * one62
  let i := (f * 64).fdiv one62
  let r := f - i * (one62 / 64)
  let p := one62 + m62 r (sfuC1c + m62 r (sfuC2c + m62 r sfuC3c))
  rne32 (fixVal 62 (m62 (tabAt sfuT i.toNat) p) n)

/-- S240-mode exp2 (Tables 05-2, 05-4). -/
def sfuExp2 (x : Fp) : Fp :=
  match x with
  | .nan => .nan
  | .inf a => if a then fpZero false else .inf false
  | .num _ _ _ => if fpIsZero x then fpOne else (exp2Limit x).getD (exp2F62 (fpFloor 62 x))

/-- S240-mode exp: exp2 of x × log2(e) in F62, under the limits of Table 05-2. -/
def sfuExp (x : Fp) : Fp :=
  match x with
  | .nan => .nan
  | .inf a => if a then fpZero false else .inf false
  | .num _ _ _ =>
    if fpIsZero x then fpOne
    else if ¬ fpLt x (.num false 128 0) then .inf false
    else if ¬ fpLt (.num true 128 0) x then fpZero false
    else
      let t := m62 (fpFloor 62 x) sfuLe
      (exp2Limit (fixVal 62 t 0)).getD (exp2F62 t)

/-- The F62 sum of log2 before its rounding (Table 05-4). -/
def log2F62 (x : Fp) : Int :=
  let m := sigOf x
  let e := expOf x
  let hi := decide (3 * one62 ≤ 2 * m)
  let m' := if hi then m / 2 else m
  let e' := if hi then e + 1 else e
  let i := (((m' - 3 * (one62 / 4)) * 128).fdiv one62).toNat
  let z := m62 m' (tabAt sfuQ i) - one62
  let q := m62 z (sfuD1c + m62 z (sfuD2c + m62 z (sfuD3c + m62 z (sfuD4c + m62 z sfuD5c))))
  e' * one62 + tabAt sfuG i + q

/-- Special arguments of the logarithms (Table 05-2). -/
def logSpecial (x : Fp) : Option Fp :=
  match x with
  | .nan => some .nan
  | .inf a => some (if a then .nan else .inf false)
  | .num a m _ => if m = 0 then some (.inf true) else if a then some .nan else none

/-- S240-mode log2. -/
def sfuLog2 (x : Fp) : Fp := (logSpecial x).getD (rne32 (fixVal 62 (log2F62 x) 0))

/-- S240-mode ln. -/
def sfuLnF (x : Fp) : Fp := (logSpecial x).getD (rne32 (fixVal 62 (m62 (log2F62 x) sfuLn) 0))

/-- Top fraction bits of a significand in F62, after dropping `skip` of them. -/
def sigTop (m : Int) (skip n : Nat) : Nat := bits m.toNat (62 - skip - n) n

/-- S240-mode recip. -/
def sfuRecip (x : Fp) : Fp :=
  match x with
  | .nan => .nan
  | .inf a => fpZero a
  | .num a _ _ =>
    if fpIsZero x then .inf a
    else
      let m := sigOf x
      let c := tabAt sfuC (sigTop m 0 7)
      let ep := one62 - m62 m c
      let y := m62 c (one62 + m62 ep (one62 + m62 ep (one62 + m62 ep (one62 + m62 ep (one62 + ep)))))
      let r := rne32 (fixVal 62 y (-(expOf x)))
      if a then fpNegate r else r

/-- m′ and e′ of rsqrt: the significand in [1, 4) with an even exponent. -/
def evenExp (x : Fp) : Int × Int × Bool :=
  let e := expOf x
  if e % 2 = 0 then (sigOf x, e, false) else (2 * sigOf x, e - 1, true)

/-- Special arguments of rsqrt (Table 05-2). -/
def rsqrtSpecial (x : Fp) : Option Fp :=
  match x with
  | .nan => some .nan
  | .inf a => some (if a then .nan else fpZero false)
  | .num a m _ => if m = 0 then some (.inf a) else if a then some .nan else none

/-- S240-mode rsqrt. -/
def sfuRsqrt (x : Fp) : Fp :=
  (rsqrtSpecial x).getD (
    let (m', e', odd) := evenExp x
    let i := (if odd then 64 else 0) + sigTop (sigOf x) 0 6
    let s := tabAt sfuS i
    let ep := one62 - m62 (m62 m' s) s
    let y := m62 s (one62 + m62 ep (r62 1 2 + m62 ep (r62 3 8 + m62 ep (r62 5 16 +
      m62 ep (r62 35 128 + m62 ep (r62 63 256))))))
    rne32 (fixVal 62 y (-(e' / 2))))

/-- Replacement of a subnormal by a zero of its sign (R150). -/
def flushSub (x : Fp) : Fp :=
  match x with
  | .num a m e => if m ≠ 0 ∧ (Nat.log2 m : Int) + e < -126 then fpZero a else x
  | _ => x

/-- Linear interpolation in F30 (R150): T[i] + (T[i+1] − T[i])·u, u with `w` fraction bits. -/
def interp (t : List Int) (i : Nat) (u : Int) (w : Nat) : Int :=
  tabAt t i + ((tabAt t (i + 1) - tabAt t i) * u).fdiv (2 ^ w : Nat)

/-- Druner-exact exp2 on a finite argument within its limits (Table 05-5). -/
def exp2Lin (x : Fp) : Fp :=
  let n := fpFloor 0 x
  let f := fpSub x (fpInt n)
  let i := (fpFloor 7 f).toNat
  let u := fpFloor 30 f - (i : Int) * 2 ^ 23
  rne32 (fixVal 30 (interp sfuA i u 23) n)

/-- Druner-exact exp2. -/
def d1Exp2 (x0 : Fp) : Fp :=
  let x := flushSub x0
  flushSub (match x with
  | .nan => .nan
  | .inf a => if a then fpZero false else .inf false
  | .num _ _ _ => if fpIsZero x then fpOne else (exp2Limit x).getD (exp2Lin x))

/-- Druner-exact exp. -/
def d1Exp (x0 : Fp) : Fp :=
  let x := flushSub x0
  flushSub (match x with
  | .nan => .nan
  | .inf a => if a then fpZero false else .inf false
  | .num _ _ _ =>
    if fpIsZero x then fpOne
    else if ¬ fpLt x (.num false 128 0) then .inf false
    else if ¬ fpLt (.num true 128 0) x then fpZero false
    else
      let t := rne32 (fpMul x (dec32 0x3FB8AA3B))
      (exp2Limit t).getD (exp2Lin t))

/-- Druner-exact log2 before the flush of its result. -/
def log2Lin (x : Fp) : Fp :=
  let m := sigOf x
  rne32 (fixVal 30 (expOf x * 2 ^ 30 + interp sfuB (sigTop m 0 7) (sigTop m 7 16) 16) 0)

/-- Druner-exact log2. -/
def d1Log2 (x0 : Fp) : Fp := let x := flushSub x0; flushSub ((logSpecial x).getD (log2Lin x))

/-- Druner-exact ln: log2 times the FP32 nearest ln 2, rounded by that product only. -/
def d1Ln (x0 : Fp) : Fp :=
  let x := flushSub x0
  flushSub ((logSpecial x).getD (rne32 (fpMul (log2Lin x) (dec32 0x3F317218))))

/-- Druner-exact recip. -/
def d1Recip (x0 : Fp) : Fp :=
  let x := flushSub x0
  flushSub (match x with
  | .nan => .nan
  | .inf a => fpZero a
  | .num a _ _ =>
    if fpIsZero x then .inf a
    else
      let m := sigOf x
      let r := rne32 (fixVal 30 (interp sfuCd (sigTop m 0 7) (sigTop m 7 16) 16) (-(expOf x)))
      if a then fpNegate r else r)

/-- Druner-exact rsqrt. -/
def d1Rsqrt (x0 : Fp) : Fp :=
  let x := flushSub x0
  flushSub ((rsqrtSpecial x).getD (
    let (_, e', odd) := evenExp x
    let m := sigOf x
    let i := (if odd then 64 else 0) + sigTop m 0 6
    rne32 (fixVal 30 (interp sfuD i (sigTop m 6 17) 17) (-(e' / 2)))))

/-- The functions of Table 05-2. -/
inductive SfuFn where
  | exp | exp2 | ln | log2 | recip | rsqrt
  deriving DecidableEq, Repr

/-- An SFU call under the special function mode of entry 0x2501:01 (R149). -/
def sfu (d1 : Bool) (f : SfuFn) (x : Fp) : Fp :=
  match f with
  | .exp => if d1 then d1Exp x else sfuExp x
  | .exp2 => if d1 then d1Exp2 x else sfuExp2 x
  | .ln => if d1 then d1Ln x else sfuLnF x
  | .log2 => if d1 then d1Log2 x else sfuLog2 x
  | .recip => if d1 then d1Recip x else sfuRecip x
  | .rsqrt => if d1 then d1Rsqrt x else sfuRsqrt x

/-- A table set as the little-endian 64-bit words R152 reads. -/
def tableBytes (t : List Int) : List Nat := (t.map (fun v => natLe 8 (ofSigned 64 v))).flatten

/-- CRC-32C of the S240-mode table set, in the order of Table 05-4 (R152). -/
def sfuCrcS240 : Nat := crc32c (tableBytes (sfuT ++ sfuQ ++ sfuG ++ sfuC ++ sfuS))

/-- CRC-32C of the Druner-exact table set, in the order of Table 05-5 (R152). -/
def sfuCrcD1 : Nat := crc32c (tableBytes (sfuA ++ sfuB ++ sfuCd ++ sfuD))

end Sys2Proof.Machine
end

