-- ==== Sys2Proof/Machine/Spore.lean ====
section
/-!
DEFINITION. Machine/Spore.lean: the spore generators (R172 to R175), dropout (R178) and the draws of stochastic
rounding (R179).
-/
namespace Sys2Proof.Machine

/-- A 64-bit word. -/
def w64 (x : Nat) : Nat := x % 2 ^ 64

/-- mix of R172. -/
def mix (z0 : Nat) : Nat :=
  let z1 := w64 ((z0 ^^^ (z0 >>> 30)) * 0xBF58476D1CE4E5B9)
  let z2 := w64 ((z1 ^^^ (z1 >>> 27)) * 0x94D049BB133111EB)
  z2 ^^^ (z2 >>> 31)

/-- step_key of a partition's job seed and step number (R172). -/
def stepKey (seed step : Nat) : Nat := mix (w64 seed ^^^ mix (w64 step))

/-- op_key of an operation's draw_op (R172). -/
def opKey (sk drawOp : Nat) : Nat := mix (sk ^^^ drawOp % 2 ^ 32)

/-- key of a stream (R172). -/
def streamKey (ok stream : Nat) : Nat := mix (ok ^^^ w64 stream)

/-- draw(key, n) of R172: a 32-bit value. -/
def draw (key n : Nat) : Nat := bits (mix (w64 (key + (n + 1) * 0x9E3779B97F4A7C15))) 32 32

/-- Stream index of a drain column: class 0b00 (Table 06-1). -/
def drainStream (entry column : Nat) : Nat := fld entry 36 12 + fld column 0 24

/-- Stream index of a vector row: class 0b01 (Table 06-1). -/
def vectorStream (row : Nat) : Nat := fld 1 62 2 + fld row 0 40

/-- Draws per element, d of R174. -/
def drawsPer (q : Nat) (sr : Bool) : Nat := b2n (decide (q ≠ 0)) + b2n sr

/-- Dropout draw of stored row i (R174). -/
def dropDraw (key q : Nat) (sr : Bool) (i : Nat) : Nat := draw key (drawsPer q sr * i)

/-- Rounding draw of stored row i (R174). -/
def roundingDraw (key q : Nat) (sr : Bool) (i : Nat) : Nat := draw key (drawsPer q sr * i + b2n (decide (q ≠ 0)))

/-- k of R178. -/
def dropScale (q : Nat) : Fp := rneQuot (2 ^ 24) (2 ^ 24 - q)

/-- Whether the draw drops the element (R178). -/
def isDropped (q u : Nat) : Bool := decide (u / 2 ^ 8 < q)

/-- Dropout of an element by its draw (R178). -/
def dropElem (q u : Nat) (p : Fp) : Fp := if isDropped q u then fpZero false else rne32 (fpMul p (dropScale q))

end Sys2Proof.Machine
end

