-- ==== Sys2Proof/Machine/Drain.lean ====
section
/-!
DEFINITION. Machine/Drain.lean: drain profiles (R153, R154), the drain pipeline (R155 to R161) and the row states of the
lazy-reference softmax (R162 to R167).
-/
namespace Sys2Proof.Machine

/-- A drain profile (Table 05-7), a number of 512 bits. -/
abbrev Profile := Nat

def pfRowstate (p : Profile) : Nat := bits p 376 40
def pfBiasPtr (p : Profile) : Nat := bits p 336 40
def pfDropQ (p : Profile) : Nat := bits p 296 24
def pfTau (p : Profile) : Nat := bits p 288 8
def pfAlpha (p : Profile) : Nat := bits p 224 32
def pfPv (p : Profile) : Bool := bit p 27
def pfExp (p : Profile) : Nat := bits p 25 2
def pfBias (p : Profile) : Bool := bit p 24
def pfSat (p : Profile) : Bool := bit p 23
def pfRound (p : Profile) : Nat := bits p 21 2
def pfRaw (p : Profile) : Bool := bit p 20
def pfFormat (p : Profile) : Nat := bits p 8 4
def pfVersion (p : Profile) : Nat := bits p 0 8

/-- Whether the profile rounds stochastically. -/
def pfSr (p : Profile) : Bool := pfRound p == 1

/-- Fault 0x4001: a reserved field or code, tau above 63, or a version other than 2 (Table 05-7). -/
def pfFieldBad (p : Profile) : Bool :=
  (reservedBad p [(12, 8), (28, 196), (256, 32), (320, 16), (416, 96)]).isSome ||
  pfVersion p != 2 || decide (pfRound p > 1) || pfExp p == 3 || decide (pfTau p > 63)

/-- Fault 0x4002 of R154, `cx` for a complex problem. -/
def pfFormatBad (cx : Bool) (p : Profile) : Bool :=
  pfFormat p == 0xF || !fpFinite (dec32 (pfAlpha p)) ||
  (pfRaw p && (pfExp p != 0 || pfBias p || pfPv p || pfSat p || pfDropQ p != 0 || pfRound p != 0 || pfFormat p != 0xE)) ||
  (pfExp p != 0 && isIntCode (pfFormat p)) ||
  (cx && (pfExp p != 0 || pfPv p || pfDropQ p != 0 || pfRound p == 1))

/-- Whether the profile uses the row-state array. -/
def pfUsesRows (p : Profile) : Bool := pfExp p == 2 || pfPv p

/-- Fault 0x4003 of R154: softmax conditions on the role (2 wgrad), the columns and the mode. -/
def pfSoftmaxBad (role n : Nat) (d1 : Bool) (p : Profile) : Bool :=
  (pfExp p == 2 && pfPv p) || (pfUsesRows p && role == 2) || (pfExp p == 2 && decide (n > 1024)) ||
  (pfRowstate p != 0 && !bit (pfRowstate p) 39) || (d1 && pfExp p != 0)

/-- A sum as it leaves a column: FP32, or INT32 (R42), or the pair of complex mode (R66). -/
inductive ColSum where
  | fp (x : Fp)
  | int (x : Int)
  | pair (re im : Fp)
  deriving DecidableEq, Repr

/-- What the drain units report of the elements they wrote. -/
structure DrainStats where
  exps : Nat := 0
  nanLost : Nat := 0
  dropped : Nat := 0
  blocks : Nat := 0
  saturated : Nat := 0
  nonfiniteBit : Bool := false
  wroteNonfinite : Bool := false
  deriving DecidableEq, Repr

/-- Reports of two parts of an operation. -/
def dsAdd (a b : DrainStats) : DrainStats :=
  { exps := a.exps + b.exps, nanLost := a.nanLost + b.nanLost, dropped := a.dropped + b.dropped,
    blocks := a.blocks + b.blocks, saturated := a.saturated + b.saturated,
    nonfiniteBit := a.nonfiniteBit || b.nonfiniteBit, wroteNonfinite := a.wroteNonfinite || b.wroteNonfinite }

/-- Whether a stored element of a code reads as NaN or infinity. -/
def elemNonfinite (code w : Nat) : Bool :=
  match fmtOf code with
  | some f => !fpFinite (fpDecode f w)
  | none => false

/-- Report of the conversions of one row or block (R158). -/
def convStats (code : Nat) (cs : List Conv) : DrainStats :=
  { nanLost := (cs.filter (·.nanLost)).length, saturated := (cs.filter (·.saturated)).length,
    nonfiniteBit := cs.any (·.nonfinite), wroteNonfinite := cs.any (fun c => elemNonfinite code c.word) }

/-- A row as written: its element words and, for an MX format, its scale bytes. -/
structure RowOut where
  words : List Nat
  scales : List Nat
  stats : DrainStats
  deriving DecidableEq, Repr

/-- Values of a row split into blocks of 32. -/
def blocksOf {α : Type} : Nat → List α → List (List α)
  | 0, _ => []
  | n + 1, l => l.take 32 :: blocksOf n (l.drop 32)

/-- Conversion of a row, each value with its rounding draw, blocked by 32 for an MX code (R158, R159). -/
def convRow (code : Nat) (sat : Bool) (ys : List (Fp × Option Nat)) : RowOut :=
  if isMx code then
    let bs := (blocksOf (ceilDiv ys.length 32) ys).map (fun b =>
      let r := convBlock code b
      (r.1, r.2.take b.length))
    let st := convStats code (bs.map (·.2)).flatten
    { words := ((bs.map (·.2)).flatten).map (·.word), scales := bs.map (·.1),
      stats := { st with blocks := bs.length, wroteNonfinite := bs.any (fun b => b.1 == 0xFF) } }
  else
    let cs := ys.map (fun y => convElem code sat y.2 y.1)
    { words := cs.map (·.word), scales := [], stats := convStats code cs }

/-- A value scaled by 2^−k: a shift of 150 or more gives zero (R163). -/
def shiftDown (k : Int) (x : Fp) : Fp :=
  match x with
  | .num a _ _ => if 150 ≤ k then fpZero a else fpScale (-k) x
  | _ => x

/-- Stage D1: the scaled and biased value, formed exactly and rounded once (Table 05-8, R161). -/
def drainD1 (alpha beta : Fp) (outShift : Int) (s : Fp) : Fp :=
  rne32 (shiftDown outShift (fpAdd (fpMul s alpha) beta))

/-- One softmax row's reference and statistics while its row drains (R157, R164). -/
structure RowStat where
  maxY : Option Fp := none
  ltile : Fp := fpZero false
  overflow : Bool := false
  nonfinite : Bool := false
  deriving DecidableEq, Repr

/-- The row-statistics bus past one column (R157): y and its p before dropout. -/
def statStep (mref : Int) (st : RowStat) (y p : Fp) : RowStat :=
  if fpFinite y then
    { maxY := some (match st.maxY with
        | none => y
        | some m => fpMax m y),
      ltile := rne32 (fpAdd st.ltile p),
      overflow := st.overflow || !fpLt (rne32 (fpSub y (fpInt mref))) (.num false 64 0),
      nonfinite := st.nonfinite }
  else
    { st with
      ltile := rne32 (fpAdd st.ltile p)
      nonfinite := st.nonfinite || (match y with
        | .inf true => false
        | _ => true) }

/-- What one row of a problem drains under: profile, scale, biases, softmax reference and shift. -/
structure RowCtx where
  prof : Profile
  alpha : Fp
  bias : List Fp
  mref : Int
  outShift : Int
  opk : Nat
  entry : Nat
  col0 : Nat
  row : Nat
  deriving DecidableEq, Repr

/-- Stage D2: the exponential of a scaled value (R156). -/
def drainD2 (c : RowCtx) (y : Fp) : Fp :=
  if pfExp c.prof = 1 then sfuExp2 y
  else if pfExp c.prof = 2 then sfuExp2 (rne32 (fpSub y (fpInt c.mref)))
  else y

/-- Stages D1 to D4 of a row, column by column from `k`: the values to convert with their draws, the statistics and
the dropped count. -/
def drainCols (c : RowCtx) : Nat → List Fp → RowStat → Nat → List (Fp × Option Nat) × RowStat × Nat
  | _, [], st, dr => ([], st, dr)
  | k, s :: r, st, dr =>
    let y := drainD1 c.alpha (c.bias.getD k (fpZero false)) c.outShift s
    let p := drainD2 c y
    let st' := if pfExp c.prof = 2 then statStep c.mref st y p else st
    let q := pfDropQ c.prof
    let sr := pfSr c.prof
    let key := streamKey c.opk (drainStream c.entry (c.col0 + k))
    let u := dropDraw key q sr c.row
    let out := if q = 0 then p else dropElem q u p
    let dr' := if q ≠ 0 ∧ isDropped q u then dr + 1 else dr
    let rd := if sr then some (roundingDraw key q sr c.row) else none
    let rest := drainCols c (k + 1) r st' dr'
    ((out, rd) :: rest.1, rest.2)

/-- FP value of a column sum (R161). -/
def sumFp : ColSum → Fp
  | .fp x => x
  | .int x => fpInt x
  | .pair re _ => re

/-- The 4-byte words of a raw output (R160), two for a complex element. -/
def rawWords : ColSum → List Nat
  | .fp x => [enc32 x]
  | .int x => [ofSigned 32 x]
  | .pair re im => [enc32 re, enc32 im]

/-- Whether a column sum is NaN or infinite (entry 0x2204:06). -/
def sumNonfinite : ColSum → Bool
  | .fp x => !fpFinite x
  | .int _ => false
  | .pair re im => !fpFinite re || !fpFinite im

/-- The two parts of complex elements after D1: α to both, the bias to the real part only (R66). -/
def complexParts (c : RowCtx) : Nat → List ColSum → List (Fp × Option Nat)
  | _, [] => []
  | k, .pair re im :: r =>
    (rne32 (fpAdd (fpMul re c.alpha) (c.bias.getD k (fpZero false))), none) ::
    (rne32 (fpMul im c.alpha), none) :: complexParts c (k + 1) r
  | k, s :: r => (sumFp s, none) :: complexParts c (k + 1) r

/-- One row through the drain units: its output and its softmax statistics. -/
def drainRow (c : RowCtx) (sums : List ColSum) : RowOut × RowStat :=
  if pfRaw c.prof then
    let ws := (sums.map rawWords).flatten
    ({ words := ws, scales := [],
       stats := { wroteNonfinite := sums.any sumNonfinite } }, {})
  else if sums.any (fun s => match s with
    | .pair _ _ => true
    | _ => false) then
    (convRow (pfFormat c.prof) (pfSat c.prof) (complexParts c 0 sums), {})
  else
    let r := drainCols c 0 (sums.map sumFp) {} 0
    let o := convRow (pfFormat c.prof) (pfSat c.prof) r.1
    ({ o with stats := { o.stats with
        exps := if pfExp c.prof = 0 then 0 else sums.length
        dropped := r.2.2 } }, r.2.1)

/-- A row-state record (Table 05-10), a number of 256 bits. -/
abbrev RowState := Nat

def rsFlags (r : RowState) : Nat := bits r 208 8
def rsSeedShift (r : RowState) : Int := toSigned 16 (bits r 192 16)
def rsOutShift (r : RowState) : Int := toSigned 16 (bits r 176 16)
def rsLPrev (r : RowState) : Fp := dec32 (bits r 128 32)
def rsMrefPrev (r : RowState) : Int := toSigned 32 (bits r 96 32)
def rsL (r : RowState) : Fp := dec32 (bits r 64 32)
def rsMmax (r : RowState) : Int := toSigned 32 (bits r 32 32)
def rsMref (r : RowState) : Int := toSigned 32 (bits r 0 32)

/-- Whether the record is flagged for a replay (R165). -/
def rsFlagged (r : RowState) : Bool := bit r 208 || bit r 209

/-- Saturation of the record's integer fields (R163). -/
def satRef (x : Int) : Int := max (-2147483647) (min 2147483647 x)

/-- Saturation of the record's shifts (R163). -/
def satShift (x : Int) : Int := max (-32767) (min 32767 x)

/-- Reference a row drains against (R164). -/
def rowMref (replay : Bool) (r : RowState) : Int :=
  if !replay then rsMref r
  else if rsFlagged r then rsMmax r else rsMrefPrev r

/-- A record's layout from its fields. -/
def rsMake (flags : Nat) (seedShift outShift : Int) (lPrev : Nat) (mrefPrev : Int) (l : Nat) (mmax mref : Int) : RowState :=
  fld flags 208 8 + fld (ofSigned 16 seedShift) 192 16 + fld (ofSigned 16 outShift) 176 16 + fld lPrev 128 32 +
  fld (ofSigned 32 mrefPrev) 96 32 + fld l 64 32 + fld (ofSigned 32 mmax) 32 32 + fld (ofSigned 32 mref) 0 32

/-- What the row-state writer does with a row (R164). -/
inductive RowResult where
  | keep (rec : RowState)      -- flagged in the first run: record kept, tile replayed
  | done (rec : RowState) (corrected : Bool)
  | flaggedReplay              -- fault 0x4005 (R166)
  deriving DecidableEq, Repr

/-- The row-state update of R164. -/
def rowUpdate (replay : Bool) (tau : Nat) (r : RowState) (st : RowStat) : RowResult :=
  let mrefPrev := if replay then rsMrefPrev r else rsMref r
  let lPrev := if replay then bits r 128 32 else bits r 64 32
  let mref := rowMref replay r
  let fresh := rsMmax r == -2147483648
  let mtile := st.maxY.map (fun y => satRef (fpCeil y))
  let unf := !replay && fresh && (match mtile with
    | some m => decide (m ≤ mref - 64)
    | none => false)
  if replay && (st.overflow || unf) then .flaggedReplay
  else
    let mmax := match mtile with
      | some m => max (rsMmax r) m
      | none => rsMmax r
    if st.overflow || unf then
      .keep (rsMake (b2n st.overflow + 2 * b2n unf + 4 * b2n st.nonfinite) (rsSeedShift r) (rsOutShift r) lPrev mrefPrev
        (bits r 64 32) mmax (rsMref r))
    else
      let shiftIn := satShift (mref - mrefPrev)
      let l1 := rne32 (shiftDown shiftIn (dec32 lPrev))
      let l2 := rne32 (fpAdd l1 st.ltile)
      let corr := decide (mmax - mref > (tau : Int))
      let outShift := if corr then satShift (mmax - mref) else 0
      let l3 := if corr then rne32 (shiftDown outShift l2) else l2
      let mref' := if corr then mmax else mref
      .done (rsMake (4 * b2n st.nonfinite + 8 * b2n (decide (outShift ≠ 0)) + 16 * b2n (decide (shiftIn ≠ 0)))
        shiftIn outShift lPrev mrefPrev (enc32 l3) mmax mref')
        (corr || decide (150 ≤ shiftIn ∧ ¬ fpIsZero (dec32 lPrev)))

/-- Seed of a row under pv_apply (R167): unchanged where the shift is zero. -/
def pvSeed (r : RowState) (s : Fp) : Fp := if rsSeedShift r = 0 then s else rne32 (shiftDown (rsSeedShift r) s)

end Sys2Proof.Machine
end

