-- ==== Sys2Proof/Machine/EntryTypes.lean ====
section
/-!
DEFINITION. Machine/EntryTypes.lean: what a dictionary entry is (R11 to R13, Tables 00-7 to 00-9).
-/
namespace Sys2Proof.Machine

/-- A value of an entry: a number in its type's encoding (a two's-complement word for i32, 0 or 1 for bool), or
the bytes of a str or blob. -/
inductive Val where
  | num (n : Nat)
  | bytes (b : List Nat)
  deriving DecidableEq, Repr

/-- Entry types (Table 00-7). -/
inductive ETy where
  | u8 | u16 | u32 | u64 | i32 | f32 | bool | str | blob
  deriving DecidableEq, Repr

/-- Access classes (Table 00-8). -/
inductive EAcc where
  | ro | rw | wo | rwSvc | rwBoot
  deriving DecidableEq, Repr

/-- Effect-on-change classes (Table 00-9), the reset class by the level it names. -/
inductive EEff where
  | none | immediate | nextOp | nextStep | resetPart | resetWarm | resetCold
  deriving DecidableEq, Repr

/-- Stated range of an entry. -/
inductive ERange where
  | any
  | isTrue
  | between (lo hi : Nat)
  | mult (lo hi m : Nat)
  | oneOf (l : List Nat)
  | zeroOr (lo hi : Nat)
  | betweenOr (lo hi v : Nat)
  | betweenI (lo hi : Int)
  | len (lo hi : Nat)
  deriving DecidableEq, Repr

/-- One row of a dictionary table; the key is index · 256 + subindex. -/
structure EntrySpec where
  key : Nat
  ty : ETy
  acc : EAcc
  dflt : Val
  range : ERange
  eff : EEff
  stored : Bool
  deriving DecidableEq, Repr

/-- Bytes of a numeric type; none for str and blob. -/
def tySize : ETy → Option Nat
  | .u8 => some 1
  | .bool => some 1
  | .u16 => some 2
  | .u32 => some 4
  | .i32 => some 4
  | .f32 => some 4
  | .u64 => some 8
  | .str => none
  | .blob => none

/-- Whether a number of bytes fits a type (check 5 of R446). -/
def lengthFits (t : ETy) (n : Nat) : Bool :=
  match t with
  | .str => decide (n ≤ 255)
  | .blob => decide (n ≤ 4096)
  | _ => tySize t == some n

/-- Value of the bytes of a write. -/
def valOfBytes (t : ETy) (b : List Nat) : Val := match tySize t with
  | some _ => .num (leNat b)
  | none => .bytes b

/-- Encoding of a value in its type (Table 00-7). -/
def bytesOfVal (t : ETy) : Val → List Nat
  | .num n => natLe ((tySize t).getD 8) n
  | .bytes b => b

/-- Number a value holds. -/
def valNat : Val → Nat
  | .num n => n
  | .bytes b => leNat b

/-- Bytes a value holds. -/
def valBytes : Val → List Nat
  | .num n => natLe 8 n
  | .bytes b => b

/-- A value against its type alone: a bool is 0 or 1, an f32 is no NaN (Table 00-7). -/
def tyOk (t : ETy) (v : Val) : Bool :=
  match t with
  | .bool => decide (valNat v ≤ 1)
  | .f32 => !(decide (bits (valNat v) 23 8 = 255 ∧ bits (valNat v) 0 23 ≠ 0))
  | _ => true

/-- A value against its stated range. -/
def rangeOk (t : ETy) (r : ERange) (v : Val) : Bool :=
  let n := valNat v
  match r with
  | .any => true
  | .isTrue => n == 1
  | .between lo hi => decide (lo ≤ n ∧ n ≤ hi)
  | .mult lo hi m => decide (lo ≤ n ∧ n ≤ hi ∧ n % m = 0)
  | .oneOf l => l.contains n
  | .zeroOr lo hi => decide (n = 0 ∨ (lo ≤ n ∧ n ≤ hi))
  | .betweenOr lo hi x => decide (n = x ∨ (lo ≤ n ∧ n ≤ hi))
  | .betweenI lo hi => decide (lo ≤ toSigned 32 n ∧ toSigned 32 n ≤ hi)
  | .len lo hi => match t with
    | .str => decide (lo ≤ (valBytes v).length ∧ (valBytes v).length ≤ hi)
    | _ => decide (lo ≤ (valBytes v).length ∧ (valBytes v).length ≤ hi)

/-- Row of a key. -/
def findSpec : List EntrySpec → Nat → Option EntrySpec
  | [], _ => none
  | e :: r, k => if e.key = k then some e else findSpec r k

end Sys2Proof.Machine
end

