-- ==== Sys2Proof/Machine/Entries.lean ====
section
/-!
DEFINITION. Machine/Entries.lean: the dictionary, one row per entry of the manual's dictionary tables: its key
(index and subindex), type, access class, default, range, effect-on-change class, and whether it is stored in the
configuration copies (R453). Per-partition entries stand under partition 0's index. A range that only other state can
judge, or a layout of several fields, is checked by the entry's own rule.
-/
namespace Sys2Proof.Machine

def entries0 : List EntrySpec :=
  [⟨0x010001, .str, .ro, .bytes [77, 111, 114, 122, 97, 101, 114, 32, 84, 101, 99, 104, 110, 111, 108, 111, 103, 105, 101, 115], .any, .none, false⟩,  -- vendor_name
  ⟨0x010002, .str, .ro, .bytes [83, 105, 108, 114, 111, 115, 32, 83, 50, 52, 48], .any, .none, false⟩,  -- product_name
  ⟨0x010003, .str, .ro, .bytes [77, 90, 83, 50, 52, 48, 45, 76], .any, .none, false⟩,  -- order_code
  ⟨0x010004, .u8, .ro, .num 176, .any, .none, false⟩,  -- stepping
  ⟨0x010005, .str, .ro, .bytes [], .any, .none, false⟩,  -- serial_number
  ⟨0x010101, .u8, .ro, .num 2, .any, .none, false⟩,  -- if_generation
  ⟨0x010102, .u8, .ro, .num 1, .any, .none, false⟩,  -- if_generation_min
  ⟨0x010103, .u8, .ro, .num 2, .any, .none, false⟩,  -- if_generation_max
  ⟨0x010104, .u32, .ro, .num 0, .any, .none, false⟩,  -- firmware_version
  ⟨0x200001, .u32, .ro, .num 0, .any, .none, false⟩,  -- thallus_restarts
  ⟨0x200002, .u8, .ro, .num 0, .any, .none, false⟩,  -- fw_slot_running
  ⟨0x200003, .blob, .ro, .bytes [], .any, .none, false⟩,  -- fw_versions
  ⟨0x200005, .blob, .rwSvc, .bytes [], .len 1 4096, .immediate, false⟩,  -- fw_update_data
  ⟨0x200006, .u8, .rwSvc, .num 0, .oneOf [1, 2], .immediate, false⟩,  -- fw_update_command
  ⟨0x200101, .u8, .rwBoot, .num 127, .between 1 127, .resetWarm, true⟩,  -- node_id
  ⟨0x200102, .u16, .rwBoot, .num 1000, .oneOf [500, 1000], .resetWarm, true⟩,  -- nominal_kbps
  ⟨0x200103, .u16, .rwBoot, .num 5000, .oneOf [2000, 5000], .resetWarm, true⟩,  -- data_kbps
  ⟨0x200104, .blob, .ro, .bytes [], .any, .none, false⟩,  -- write_counter_floor
  ⟨0x200105, .blob, .wo, .bytes [], .len 32 32, .immediate, false⟩,  -- field_key
  ⟨0x200106, .u64, .ro, .num 0, .any, .none, false⟩,  -- auth_failures
  ⟨0x200107, .u64, .ro, .num 0, .any, .none, false⟩,  -- filter_discards
  ⟨0x200108, .u64, .ro, .num 0, .any, .none, false⟩,  -- frames_ignored
  ⟨0x200109, .bool, .wo, .num 0, .isTrue, .immediate, false⟩,  -- counters_clear
  ⟨0x200201, .blob, .rwSvc, .bytes [], .len 1 4096, .immediate, true⟩]  -- service_anchor

def entries1 : List EntrySpec :=
  [⟨0x200202, .u8, .ro, .num 0, .any, .none, false⟩,  -- service_state
  ⟨0x200301, .u64, .ro, .num 0, .any, .none, false⟩,  -- config_sequence
  ⟨0x200302, .u8, .ro, .num 0, .any, .none, false⟩,  -- config_valid
  ⟨0x200303, .u32, .ro, .num 0, .any, .none, false⟩,  -- config_bytes
  ⟨0x200304, .blob, .ro, .bytes [], .any, .none, false⟩,  -- config_digest
  ⟨0x200401, .u32, .rw, .num 0, .between 0 16777215, .immediate, false⟩,  -- entry_select
  ⟨0x200402, .blob, .ro, .bytes [], .any, .none, false⟩,  -- entry_shadow
  ⟨0x200403, .u8, .ro, .num 0, .any, .none, false⟩,  -- entry_state
  ⟨0x200501, .u8, .rw, .num 0, .between 0 95, .immediate, false⟩,  -- frond_select
  ⟨0x200502, .u8, .ro, .num 0, .any, .none, false⟩,  -- frond_state
  ⟨0x200503, .u32, .rw, .num 1000, .between 10 1000000, .nextOp, false⟩,  -- vector_idle_poweroff_us
  ⟨0x200504, .u32, .rw, .num 1000, .between 10 1000000, .nextOp, false⟩,  -- unit_idle_poweroff_us
  ⟨0x200505, .u64, .ro, .num 0, .any, .none, false⟩,  -- frond_wakes
  ⟨0x200601, .u16, .rw, .num 3000, .between 500 3000, .immediate, false⟩,  -- power_limit_w
  ⟨0x200602, .u32, .ro, .num 0, .any, .none, false⟩,  -- input_mv
  ⟨0x200603, .u32, .ro, .num 0, .any, .none, false⟩,  -- input_ma
  ⟨0x200604, .u16, .ro, .num 0, .any, .none, false⟩,  -- input_power_w
  ⟨0x200605, .blob, .ro, .bytes [], .any, .none, false⟩,  -- die_temps
  ⟨0x200606, .blob, .ro, .bytes [], .any, .none, false⟩,  -- hbm_temps
  ⟨0x200607, .blob, .ro, .bytes [], .any, .none, false⟩,  -- coolant_temps
  ⟨0x200608, .u16, .ro, .num 0, .any, .none, false⟩,  -- ck_mx_governed_mhz
  ⟨0x200609, .u16, .ro, .num 0, .any, .none, false⟩,  -- ck_vx_governed_mhz
  ⟨0x20060A, .u64, .ro, .num 0, .any, .none, false⟩,  -- power_limited_ms
  ⟨0x200701, .u8, .ro, .num 0, .any, .none, false⟩]  -- startup_phase

def entries2 : List EntrySpec :=
  [⟨0x200702, .blob, .ro, .bytes [], .any, .none, false⟩,  -- phase_times_us
  ⟨0x200703, .bool, .rwSvc, .num 0, .any, .immediate, false⟩,  -- maintenance_hold
  ⟨0x200704, .u8, .ro, .num 0, .any, .none, false⟩,  -- hold_state
  ⟨0x200801, .blob, .ro, .bytes [], .any, .none, false⟩,  -- mac_e0
  ⟨0x200802, .blob, .ro, .bytes [], .any, .none, false⟩,  -- mac_e1
  ⟨0x200803, .bool, .ro, .num 0, .any, .none, false⟩,  -- seated
  ⟨0x200804, .u8, .ro, .num 0, .any, .none, false⟩,  -- rail_state
  ⟨0x200805, .u8, .ro, .num 0, .any, .none, false⟩,  -- rail_fault_map
  ⟨0x200806, .u16, .ro, .num 0, .any, .none, false⟩,  -- input_ceiling_w
  ⟨0x200807, .blob, .ro, .bytes [], .any, .none, false⟩,  -- cage_power_mw
  ⟨0x200901, .blob, .ro, .bytes [0x28, 0x23, 0x10, 0x27, 0xF8, 0x2A], .any, .none, false⟩,  -- die_levels_c
  ⟨0x200902, .blob, .ro, .bytes [0x34, 0x21, 0x1C, 0x25, 0x04, 0x29], .any, .none, false⟩,  -- hbm_levels_c
  ⟨0x200903, .u8, .rw, .num 40, .between 20 40, .immediate, false⟩,  -- inlet_warning_c
  ⟨0x200904, .u8, .rw, .num 15, .between 5 20, .immediate, false⟩,  -- delta_warning_k
  ⟨0x200905, .u8, .ro, .num 0, .any, .none, false⟩,  -- thermal_state
  ⟨0x200906, .u64, .ro, .num 0, .any, .none, false⟩,  -- throttle_ms
  ⟨0x200A01, .u8, .ro, .num 0, .any, .none, false⟩,  -- removal_state
  ⟨0x200A02, .u8, .wo, .num 0, .between 1 3, .immediate, false⟩,  -- removal_command
  ⟨0x200A03, .bool, .rw, .num 0, .any, .immediate, false⟩,  -- locate
  ⟨0x200A04, .u32, .rw, .num 0, .between 0 2097151, .immediate, false⟩,  -- port_locate
  ⟨0x200A05, .u64, .ro, .num 0, .any, .none, false⟩,  -- button_presses
  ⟨0x200A06, .bool, .wo, .num 0, .isTrue, .immediate, false⟩,  -- counters_clear
  ⟨0x210001, .u8, .ro, .num 6, .any, .none, false⟩,  -- pcie_max_gen
  ⟨0x210002, .u16, .ro, .num 0, .any, .none, false⟩]  -- pcie_link

def entries3 : List EntrySpec :=
  [⟨0x210003, .u16, .ro, .num 1024, .any, .none, false⟩,  -- vf_max
  ⟨0x210004, .u16, .ro, .num 2048, .any, .none, false⟩,  -- msix_vectors
  ⟨0x210005, .u8, .rwBoot, .num 1, .between 1 64, .resetWarm, true⟩,  -- msix_per_vf
  ⟨0x210006, .u8, .ro, .num 1, .any, .none, false⟩,  -- desc_version_min
  ⟨0x210007, .u8, .ro, .num 2, .any, .none, false⟩,  -- desc_version_max
  ⟨0x210101, .u8, .rwBoot, .num 0, .between 0 7, .resetCold, true⟩,  -- journal_stack_a
  ⟨0x210102, .u8, .rwBoot, .num 4, .between 0 7, .resetCold, true⟩,  -- journal_stack_b
  ⟨0x210103, .u32, .rwBoot, .num 131072, .between 4096 524288, .resetCold, true⟩,  -- journal_entries
  ⟨0x210104, .u32, .ro, .num 0, .any, .none, false⟩,  -- journal_in_use
  ⟨0x210105, .u8, .ro, .num 1, .any, .none, false⟩,  -- journal_state
  ⟨0x210106, .u32, .rw, .num 2000, .between 0 100000, .immediate, false⟩,  -- watermark_delay_ns
  ⟨0x210107, .u16, .rw, .num 5, .between 0 1000, .immediate, false⟩,  -- irq_holdoff_us
  ⟨0x210201, .u16, .rw, .num 1, .between 1 4095, .immediate, false⟩,  -- owner_select
  ⟨0x210202, .blob, .rw, .bytes (List.replicate 16 0), .len 16 16, .immediate, false⟩,  -- owner_entry
  ⟨0x210203, .u8, .wo, .num 0, .between 1 5, .immediate, false⟩,  -- owner_command
  ⟨0x210301, .u32, .rw, .num 0, .between 0 1048575, .immediate, false⟩,  -- queue_select
  ⟨0x210302, .blob, .ro, .bytes (List.replicate 64 0), .any, .none, false⟩,  -- queue_context
  ⟨0x210303, .blob, .rw, .bytes (List.replicate 64 0), .len 64 64, .immediate, false⟩,  -- admin_context
  ⟨0x210401, .u64, .ro, .num 0, .any, .none, false⟩,  -- accepted
  ⟨0x210402, .u64, .ro, .num 0, .any, .none, false⟩,  -- completed
  ⟨0x210403, .u64, .ro, .num 0, .any, .none, false⟩,  -- reruns
  ⟨0x210404, .u64, .ro, .num 0, .any, .none, false⟩,  -- faulted
  ⟨0x210405, .u64, .ro, .num 0, .any, .none, false⟩,  -- loss_records
  ⟨0x210406, .u64, .ro, .num 0, .any, .none, false⟩]  -- doorbells_discarded

def entries4 : List EntrySpec :=
  [⟨0x210407, .u64, .ro, .num 0, .any, .none, false⟩,  -- sequence_waits
  ⟨0x210408, .bool, .wo, .num 0, .isTrue, .immediate, false⟩,  -- counters_clear
  ⟨0x220001, .u8, .ro, .num 8, .any, .none, false⟩,  -- band_count
  ⟨0x220002, .u16, .ro, .num 128, .any, .none, false⟩,  -- rows_per_band
  ⟨0x220003, .u16, .ro, .num 1024, .any, .none, false⟩,  -- columns
  ⟨0x220004, .u16, .ro, .num 2400, .any, .none, false⟩,  -- ck_mx_max_mhz
  ⟨0x220101, .u8, .ro, .num 0, .any, .none, false⟩,  -- band_fault_mask
  ⟨0x220102, .u8, .rwSvc, .num 0, .between 0 255, .resetWarm, true⟩,  -- band_retire_mask
  ⟨0x220103, .u8, .ro, .num 255, .any, .none, false⟩,  -- band_in_service_mask
  ⟨0x220201, .bool, .rwSvc, .num 1, .any, .immediate, false⟩,  -- zero_gating_enable
  ⟨0x220202, .u32, .rw, .num 1000, .between 10 1000000, .nextOp, false⟩,  -- band_idle_poweroff_us
  ⟨0x220203, .bool, .rwSvc, .num 1, .any, .immediate, false⟩,  -- patch_gating_enable
  ⟨0x220301, .u16, .rw, .num 2400, .mult 600 2400 25, .nextOp, false⟩,  -- ck_mx_cap_mhz
  ⟨0x220401, .u64, .ro, .num 0, .any, .none, false⟩,  -- problems_completed
  ⟨0x220402, .u64, .ro, .num 0, .any, .none, false⟩,  -- stream_band_cycles
  ⟨0x220403, .u64, .ro, .num 0, .any, .none, false⟩,  -- bubble_band_cycles
  ⟨0x220404, .u64, .ro, .num 0, .any, .none, false⟩,  -- load_band_cycles
  ⟨0x220405, .u64, .ro, .num 0, .any, .none, false⟩,  -- transposed_loads
  ⟨0x220406, .u64, .ro, .num 0, .any, .none, false⟩,  -- nonfinite_sums
  ⟨0x220407, .u64, .ro, .num 0, .any, .none, false⟩,  -- int_saturations
  ⟨0x220408, .u64, .ro, .num 0, .any, .none, false⟩,  -- parity_errors
  ⟨0x220409, .bool, .wo, .num 0, .isTrue, .immediate, false⟩,  -- counters_clear
  ⟨0x220501, .u8, .rwSvc, .num 0, .between 0 7, .immediate, false⟩,  -- bist_band
  ⟨0x220502, .bool, .rwSvc, .num 0, .any, .immediate, false⟩]  -- bist_start

def entries5 : List EntrySpec :=
  [⟨0x220503, .u32, .ro, .num 0, .any, .none, false⟩,  -- bist_result
  ⟨0x230001, .u16, .ro, .num 4096, .any, .none, false⟩,  -- max_entries
  ⟨0x230002, .u32, .ro, .num 65536, .any, .none, false⟩,  -- max_problems
  ⟨0x230003, .u16, .ro, .num 16384, .any, .none, false⟩,  -- max_segments
  ⟨0x230004, .u8, .ro, .num 32, .any, .none, false⟩,  -- seed_turnaround
  ⟨0x230005, .u8, .ro, .num 2, .any, .none, false⟩,  -- gcb_version
  ⟨0x230101, .bool, .rw, .num 1, .any, .nextOp, false⟩,  -- early_start_enable
  ⟨0x230102, .bool, .rw, .num 1, .any, .nextOp, false⟩,  -- staged_reuse_enable
  ⟨0x230103, .bool, .rw, .num 1, .any, .nextOp, false⟩,  -- lookahead_enable
  ⟨0x230201, .u64, .ro, .num 0, .any, .none, false⟩,  -- operations_completed
  ⟨0x230202, .u64, .ro, .num 0, .any, .none, false⟩,  -- entries_completed
  ⟨0x230203, .u64, .ro, .num 0, .any, .none, false⟩,  -- entries_empty
  ⟨0x230204, .u64, .ro, .num 0, .any, .none, false⟩,  -- rows_streamed
  ⟨0x230205, .u64, .ro, .num 0, .any, .none, false⟩,  -- rows_skipped
  ⟨0x230206, .u64, .ro, .num 0, .any, .none, false⟩,  -- problems_planned
  ⟨0x230207, .u64, .ro, .num 0, .any, .none, false⟩,  -- staged_bytes
  ⟨0x230208, .u64, .ro, .num 0, .any, .none, false⟩,  -- staged_reuse_hits
  ⟨0x230209, .u64, .ro, .num 0, .any, .none, false⟩,  -- early_starts
  ⟨0x23020A, .u64, .ro, .num 0, .any, .none, false⟩,  -- early_starts_declined
  ⟨0x23020B, .u64, .ro, .num 0, .any, .none, false⟩,  -- idle_band_cycles
  ⟨0x23020C, .u64, .ro, .num 0, .any, .none, false⟩,  -- prep_cycles
  ⟨0x23020D, .bool, .wo, .num 0, .isTrue, .immediate, false⟩,  -- counters_clear
  ⟨0x240001, .bool, .ro, .num 1, .any, .none, false⟩,  -- sparse_24_supported
  ⟨0x240002, .u8, .ro, .num 2, .any, .none, false⟩]  -- rle_version

def entries6 : List EntrySpec :=
  [⟨0x240003, .u16, .ro, .num 1024, .any, .none, false⟩,  -- meta_check_bytes_per_cycle
  ⟨0x240101, .bool, .rw, .num 1, .any, .nextOp, false⟩,  -- dma_prune_enable
  ⟨0x240201, .u64, .ro, .num 0, .any, .none, false⟩,  -- sparse_problems
  ⟨0x240202, .u64, .ro, .num 0, .any, .none, false⟩,  -- meta_bytes_checked
  ⟨0x240203, .u64, .ro, .num 0, .any, .none, false⟩,  -- groups_compressed
  ⟨0x240204, .u64, .ro, .num 0, .any, .none, false⟩,  -- groups_pruned
  ⟨0x240205, .u64, .ro, .num 0, .any, .none, false⟩,  -- elements_pruned
  ⟨0x240206, .u64, .ro, .num 0, .any, .none, false⟩,  -- mx_requantised
  ⟨0x240207, .u64, .ro, .num 0, .any, .none, false⟩,  -- rle_streams_written
  ⟨0x240208, .u64, .ro, .num 0, .any, .none, false⟩,  -- rle_streams_expanded
  ⟨0x240209, .bool, .wo, .num 0, .isTrue, .immediate, false⟩,  -- counters_clear
  ⟨0x250001, .u8, .ro, .num 32, .any, .none, false⟩,  -- vector_cores
  ⟨0x250002, .u16, .ro, .num 128, .any, .none, false⟩,  -- lanes_per_core
  ⟨0x250003, .u16, .ro, .num 1024, .any, .none, false⟩,  -- sfu_count
  ⟨0x250004, .u16, .ro, .num 8192, .any, .none, false⟩,  -- drain_units
  ⟨0x250005, .u8, .ro, .num 2, .any, .none, false⟩,  -- drain_profile_version
  ⟨0x250101, .u8, .rw, .num 0, .between 0 1, .nextStep, false⟩,  -- special_function_mode
  ⟨0x250102, .u8, .rw, .num 8, .between 1 63, .nextOp, false⟩,  -- softmax_default_tau
  ⟨0x250103, .u32, .rwSvc, .num 0, .any, .resetWarm, true⟩,  -- vector_core_retire_mask
  ⟨0x250104, .u32, .ro, .num 0, .any, .none, false⟩,  -- vector_core_fault_mask
  ⟨0x250105, .u16, .rw, .num 2400, .mult 600 2400 25, .nextOp, false⟩,  -- ck_vx_cap_mhz
  ⟨0x250201, .u64, .ro, .num 0, .any, .none, false⟩,  -- sfu_requests
  ⟨0x250202, .u64, .ro, .num 0, .any, .none, false⟩,  -- sfu_wait_cycles
  ⟨0x250203, .u64, .ro, .num 0, .any, .none, false⟩]  -- drain_exps

def entries7 : List EntrySpec :=
  [⟨0x250204, .u64, .ro, .num 0, .any, .none, false⟩,  -- softmax_corrections
  ⟨0x250205, .u64, .ro, .num 0, .any, .none, false⟩,  -- softmax_replays
  ⟨0x250206, .u64, .ro, .num 0, .any, .none, false⟩,  -- softmax_rows_flagged
  ⟨0x250207, .u64, .ro, .num 0, .any, .none, false⟩,  -- drain_nonfinite
  ⟨0x250208, .u64, .ro, .num 0, .any, .none, false⟩,  -- dropout_dropped
  ⟨0x250209, .u64, .ro, .num 0, .any, .none, false⟩,  -- mx_blocks_written
  ⟨0x25020A, .u64, .ro, .num 0, .any, .none, false⟩,  -- saturated_conversions
  ⟨0x25020B, .bool, .wo, .num 0, .isTrue, .immediate, false⟩,  -- counters_clear
  ⟨0x250301, .u32, .ro, .num 0, .any, .none, false⟩,  -- sfu_table_crc_s240
  ⟨0x250302, .u32, .ro, .num 0, .any, .none, false⟩,  -- sfu_table_crc_d1
  ⟨0x260001, .u16, .ro, .num 12288, .any, .none, false⟩,  -- spore_generators
  ⟨0x260002, .u8, .ro, .num 48, .any, .none, false⟩,  -- counter_bits
  ⟨0x260003, .u8, .ro, .num 2, .any, .none, false⟩,  -- draw_version
  ⟨0x260101, .u64, .ro, .num 0, .any, .none, false⟩,  -- dropout_draws
  ⟨0x260102, .u64, .ro, .num 0, .any, .none, false⟩,  -- rounding_draws
  ⟨0x260103, .u64, .ro, .num 0, .any, .none, false⟩,  -- finite_decisions
  ⟨0x260104, .u64, .ro, .num 0, .any, .none, false⟩,  -- skip_decisions
  ⟨0x260105, .u64, .ro, .num 0, .any, .none, false⟩,  -- flag_clears
  ⟨0x260106, .bool, .wo, .num 0, .isTrue, .immediate, false⟩,  -- counters_clear
  ⟨0x270001, .u16, .ro, .num 4096, .any, .none, false⟩,  -- max_experts
  ⟨0x270002, .u8, .ro, .num 16, .any, .none, false⟩,  -- max_k
  ⟨0x270003, .u16, .ro, .num 16384, .any, .none, false⟩,  -- max_width
  ⟨0x270004, .u32, .ro, .num 65536, .any, .none, false⟩,  -- max_tokens
  ⟨0x270005, .u16, .ro, .num 1024, .any, .none, false⟩]  -- max_members

def entries8 : List EntrySpec :=
  [⟨0x270006, .u8, .ro, .num 16, .any, .none, false⟩,  -- slivers
  ⟨0x270007, .u8, .ro, .num 2, .any, .none, false⟩,  -- ccb_version
  ⟨0x270101, .u8, .rw, .num 0, .between 0 255, .nextOp, false⟩,  -- relay_pool
  ⟨0x270201, .u64, .ro, .num 0, .any, .none, false⟩,  -- tokens_routed
  ⟨0x270202, .u64, .ro, .num 0, .any, .none, false⟩,  -- rows_sent
  ⟨0x270203, .u64, .ro, .num 0, .any, .none, false⟩,  -- rows_received
  ⟨0x270204, .u64, .ro, .num 0, .any, .none, false⟩,  -- fill_messages
  ⟨0x270205, .u64, .ro, .num 0, .any, .none, false⟩,  -- relay_packets
  ⟨0x270206, .u64, .ro, .num 0, .any, .none, false⟩,  -- tokens_combined
  ⟨0x270207, .u64, .ro, .num 0, .any, .none, false⟩,  -- relay_hold_cycles
  ⟨0x270208, .u64, .ro, .num 0, .any, .none, false⟩,  -- aborts_sent
  ⟨0x270209, .u64, .ro, .num 0, .any, .none, false⟩,  -- nonfinite_tokens
  ⟨0x27020A, .u64, .ro, .num 0, .any, .none, false⟩,  -- repeats
  ⟨0x27020B, .bool, .wo, .num 0, .isTrue, .immediate, false⟩,  -- counters_clear
  ⟨0x280001, .u8, .ro, .num 8, .any, .none, false⟩,  -- stacks
  ⟨0x280002, .u16, .ro, .num 64, .any, .none, false⟩,  -- stack_gib
  ⟨0x280003, .u16, .ro, .num 512, .any, .none, false⟩,  -- pseudo_channels
  ⟨0x280004, .u16, .rwBoot, .num 10000, .mult 6400 10000 400, .resetWarm, true⟩,  -- pin_rate_mbps
  ⟨0x280005, .u8, .ro, .num 2, .any, .none, false⟩,  -- hash_version
  ⟨0x280006, .u16, .ro, .num 256, .any, .none, false⟩,  -- granule_bytes
  ⟨0x280007, .u8, .rwBoot, .num 2, .between 1 8, .resetCold, true⟩,  -- device_region_gib
  ⟨0x280101, .u16, .rw, .num 24, .between 0 168, .immediate, false⟩,  -- patrol_interval_h
  ⟨0x280102, .u8, .rw, .num 4, .between 1 255, .immediate, false⟩,  -- repair_threshold
  ⟨0x280103, .bool, .rw, .num 1, .any, .immediate, false⟩]  -- auto_soft_repair

def entries9 : List EntrySpec :=
  [⟨0x280201, .u64, .ro, .num 0, .any, .none, false⟩,  -- corrected
  ⟨0x280202, .u64, .ro, .num 0, .any, .none, false⟩,  -- uncorrectable
  ⟨0x280203, .u64, .ro, .num 0, .any, .none, false⟩,  -- poisoned_reads
  ⟨0x280204, .u64, .ro, .num 0, .any, .none, false⟩,  -- scrub_passes
  ⟨0x280205, .u64, .ro, .num 0, .any, .none, false⟩,  -- soft_repairs
  ⟨0x280206, .u64, .ro, .num 0, .any, .none, false⟩,  -- window_refusals
  ⟨0x280207, .u64, .ro, .num 0, .any, .none, false⟩,  -- stale_epoch_writes
  ⟨0x280208, .u64, .ro, .num 0, .any, .none, false⟩,  -- failed_part_writes
  ⟨0x280209, .bool, .wo, .num 0, .isTrue, .immediate, false⟩,  -- counters_clear
  ⟨0x280301, .blob, .ro, .bytes (List.replicate 64 0), .any, .none, false⟩,  -- failed_pc_map
  ⟨0x280302, .u8, .ro, .num 0, .any, .none, false⟩,  -- failed_stack_map
  ⟨0x280303, .blob, .ro, .bytes [], .any, .none, false⟩,  -- repair_candidates
  ⟨0x280304, .blob, .ro, .bytes [], .any, .none, false⟩,  -- spare_rows
  ⟨0x280305, .blob, .ro, .bytes [], .any, .none, false⟩,  -- ecs_counts
  ⟨0x280401, .u16, .rw, .num 8, .between 8 32767, .immediate, false⟩,  -- window_select
  ⟨0x280402, .blob, .rw, .bytes (List.replicate 16 0), .len 16 16, .immediate, false⟩,  -- window_entry
  ⟨0x280501, .u16, .rw, .num 1, .between 1 4095, .immediate, false⟩,  -- key_slot_select
  ⟨0x280502, .u8, .wo, .num 0, .oneOf [1, 2], .immediate, false⟩,  -- key_command
  ⟨0x280503, .u8, .ro, .num 0, .any, .none, false⟩,  -- key_state
  ⟨0x280504, .u32, .ro, .num 0, .any, .none, false⟩,  -- key_generation
  ⟨0x280601, .u8, .rwSvc, .num 255, .betweenOr 0 7 255, .immediate, false⟩,  -- maint_stack
  ⟨0x280602, .u16, .rwSvc, .num 0, .any, .immediate, false⟩,  -- ieee1500_instruction
  ⟨0x280603, .blob, .rwSvc, .bytes [], .len 0 4096, .immediate, false⟩,  -- ieee1500_data
  ⟨0x280604, .bool, .rwSvc, .num 0, .any, .immediate, false⟩]  -- ieee1500_execute

def entries10 : List EntrySpec :=
  [⟨0x280605, .u8, .ro, .num 0, .any, .none, false⟩,  -- repair_status
  ⟨0x280606, .u64, .rwSvc, .num 0, .any, .immediate, false⟩,  -- repair_request
  ⟨0x280701, .u16, .ro, .num 288, .any, .none, false⟩,  -- tile_store_mib
  ⟨0x280702, .u8, .ro, .num 128, .any, .none, false⟩,  -- tile_store_banks
  ⟨0x280703, .u64, .ro, .num 0, .any, .none, false⟩,  -- load_delay_cycles
  ⟨0x280704, .u64, .ro, .num 0, .any, .none, false⟩,  -- tile_corrected
  ⟨0x290001, .u16, .ro, .num 256, .any, .none, false⟩,  -- pool_count
  ⟨0x290002, .u32, .ro, .num 16777216, .any, .none, false⟩,  -- record_count
  ⟨0x290003, .u8, .ro, .num 16, .any, .none, false⟩,  -- head_cache_depth
  ⟨0x290004, .u8, .ro, .num 64, .any, .none, false⟩,  -- reserve_divisor
  ⟨0x290005, .u64, .ro, .num 0, .any, .none, false⟩,  -- uptime_ms
  ⟨0x290101, .u8, .rw, .num 0, .between 0 255, .immediate, false⟩,  -- pool_select
  ⟨0x290102, .blob, .rw, .bytes (List.replicate 32 0), .len 32 32, .immediate, false⟩,  -- pool_descriptor
  ⟨0x290103, .u8, .wo, .num 0, .between 1 3, .immediate, false⟩,  -- pool_command
  ⟨0x290104, .u8, .ro, .num 0, .any, .none, false⟩,  -- pool_state
  ⟨0x290105, .u32, .ro, .num 0, .any, .none, false⟩,  -- pool_free
  ⟨0x290106, .u32, .ro, .num 0, .any, .none, false⟩,  -- pool_held
  ⟨0x290107, .u16, .ro, .num 0, .any, .none, false⟩,  -- pool_generation
  ⟨0x290108, .u32, .ro, .num 0, .any, .none, false⟩,  -- pool_low_water
  ⟨0x290201, .u32, .rw, .num 1000, .zeroOr 10 3600000, .immediate, false⟩,  -- audit_interval_ms
  ⟨0x290202, .u16, .rw, .num 0, .between 0 4095, .immediate, false⟩,  -- audit_owner_select
  ⟨0x290203, .u32, .ro, .num 0, .any, .none, false⟩,  -- audit_owner_held
  ⟨0x290204, .blob, .ro, .bytes (List.replicate 96 0), .any, .none, false⟩,  -- audit_owner_histogram
  ⟨0x290205, .u64, .ro, .num 0, .any, .none, false⟩]  -- audit_scans

def entries11 : List EntrySpec :=
  [⟨0x290206, .u64, .ro, .num 0, .any, .none, false⟩,  -- aged_unreported
  ⟨0x290301, .u64, .ro, .num 0, .any, .none, false⟩,  -- allocations
  ⟨0x290302, .u64, .ro, .num 0, .any, .none, false⟩,  -- frees
  ⟨0x290303, .u64, .ro, .num 0, .any, .none, false⟩,  -- acquires
  ⟨0x290304, .u64, .ro, .num 0, .any, .none, false⟩,  -- fallbacks
  ⟨0x290305, .u64, .ro, .num 0, .any, .none, false⟩,  -- empty_requests
  ⟨0x290306, .u64, .ro, .num 0, .any, .none, false⟩,  -- recovery_allocations
  ⟨0x290307, .u64, .ro, .num 0, .any, .none, false⟩,  -- revoked
  ⟨0x290308, .u64, .ro, .num 0, .any, .none, false⟩,  -- discarded_commands
  ⟨0x290309, .u64, .ro, .num 0, .any, .none, false⟩,  -- lost_fault_records
  ⟨0x29030A, .bool, .wo, .num 0, .isTrue, .immediate, false⟩,  -- counters_clear
  ⟨0x290401, .u8, .rw, .num 1, .between 0 255, .nextOp, false⟩,  -- fabric_receive_pool
  ⟨0x290402, .u8, .rw, .num 2, .between 0 255, .nextOp, false⟩,  -- fault_record_pool
  ⟨0x2A0001, .u32, .ro, .num 65536, .any, .none, false⟩,  -- barriers
  ⟨0x2A0002, .u32, .ro, .num 262144, .any, .none, false⟩,  -- flags
  ⟨0x2A0003, .u32, .ro, .num 65536, .any, .none, false⟩,  -- counters
  ⟨0x2A0004, .u32, .ro, .num 1048576, .any, .none, false⟩,  -- watch_entries
  ⟨0x2A0005, .u32, .ro, .num 65536, .any, .none, false⟩,  -- device_watch_reserve
  ⟨0x2A0006, .u16, .ro, .num 4096, .any, .none, false⟩,  -- task_slots
  ⟨0x2A0101, .u32, .rw, .num 1000, .zeroOr 100 1000000, .immediate, false⟩,  -- deadlock_interval_us
  ⟨0x2A0102, .u32, .rw, .num 100, .between 10 60000, .immediate, false⟩,  -- remote_quiet_ms
  ⟨0x2A0201, .u64, .ro, .num 0, .any, .none, false⟩,  -- operations_applied
  ⟨0x2A0202, .u64, .ro, .num 0, .any, .none, false⟩,  -- watches_registered
  ⟨0x2A0203, .u64, .ro, .num 0, .any, .none, false⟩]  -- messages_posted

def entries12 : List EntrySpec :=
  [⟨0x2A0204, .u64, .ro, .num 0, .any, .none, false⟩,  -- messages_held
  ⟨0x2A0205, .u64, .ro, .num 0, .any, .none, false⟩,  -- poisonings
  ⟨0x2A0206, .u64, .ro, .num 0, .any, .none, false⟩,  -- abandonments
  ⟨0x2A0207, .u64, .ro, .num 0, .any, .none, false⟩,  -- residue_faults
  ⟨0x2A0208, .u64, .ro, .num 0, .any, .none, false⟩,  -- deadlock_events
  ⟨0x2A0209, .u64, .ro, .num 0, .any, .none, false⟩,  -- signals_discarded
  ⟨0x2A020A, .bool, .wo, .num 0, .isTrue, .immediate, false⟩,  -- counters_clear
  ⟨0x2A0301, .u32, .rw, .num 0, .between 0 1048575, .immediate, false⟩,  -- object_select
  ⟨0x2A0302, .blob, .ro, .bytes [], .any, .none, false⟩,  -- object_word
  ⟨0x2A0303, .u32, .ro, .num 0, .any, .none, false⟩,  -- object_watches
  ⟨0x2A0304, .u32, .ro, .num 0, .any, .none, false⟩,  -- object_signal_pending
  ⟨0x2B0001, .u8, .ro, .num 21, .any, .none, false⟩,  -- port_count
  ⟨0x2B0002, .u8, .ro, .num 168, .any, .none, false⟩,  -- fabric_lanes
  ⟨0x2B0003, .u8, .ro, .num 2, .any, .none, false⟩,  -- transport_version
  ⟨0x2B0004, .u16, .ro, .num 256, .any, .none, false⟩,  -- atomic_slots
  ⟨0x2B0005, .u32, .ro, .num 262144, .any, .none, false⟩,  -- far_line_lines
  ⟨0x2B0101, .u8, .rw, .num 0, .between 0 20, .immediate, false⟩,  -- port_select
  ⟨0x2B0102, .u8, .ro, .num 0, .any, .none, false⟩,  -- port_state
  ⟨0x2B0103, .u32, .ro, .num 0, .any, .none, false⟩,  -- lanes_in_service
  ⟨0x2B0104, .u32, .ro, .num 0, .any, .none, false⟩,  -- lane_rate_mbps
  ⟨0x2B0105, .blob, .ro, .bytes (List.replicate 64 0), .any, .none, false⟩,  -- peer_identity
  ⟨0x2B0106, .u64, .ro, .num 0, .any, .none, false⟩,  -- link_replays
  ⟨0x2B0107, .u64, .ro, .num 0, .any, .none, false⟩,  -- lane_drops
  ⟨0x2B0108, .bool, .rw, .num 1, .any, .immediate, false⟩]  -- port_enable

def entries13 : List EntrySpec :=
  [⟨0x2B0201, .u32, .rw, .num 100, .between 10 100000, .immediate, false⟩,  -- e2e_timeout_us
  ⟨0x2B0202, .u8, .rw, .num 8, .between 1 64, .immediate, false⟩,  -- e2e_retry_limit
  ⟨0x2B0301, .u16, .rwBoot, .num 0, .between 0 255, .resetWarm, true⟩,  -- rack_id
  ⟨0x2B0302, .u16, .rwBoot, .num 0, .between 0 63, .resetWarm, true⟩,  -- device_id
  ⟨0x2B0303, .blob, .rwSvc, .bytes [], .any, .resetWarm, true⟩,  -- trust_anchor
  ⟨0x2B0304, .u32, .rwSvc, .num 0, .any, .resetWarm, true⟩,  -- trust_domain
  ⟨0x2B0305, .u64, .ro, .num 0, .any, .none, false⟩,  -- trusted_devices
  ⟨0x2B0401, .u16, .rw, .num 16, .between 16 65535, .immediate, false⟩,  -- rwin_select
  ⟨0x2B0402, .blob, .rw, .bytes (List.replicate 32 0), .len 32 32, .immediate, false⟩,  -- rwin_entry
  ⟨0x2B0501, .bool, .rw, .num 1, .any, .immediate, false⟩,  -- far_line_enable
  ⟨0x2B0502, .u16, .rwBoot, .num 0, .between 0 511, .resetWarm, true⟩,  -- coherent_base_gib
  ⟨0x2B0503, .u8, .rwBoot, .num 0, .between 0 4, .resetWarm, true⟩,  -- coherent_size_gib
  ⟨0x2B0504, .u16, .rw, .num 64, .between 16 4096, .immediate, false⟩,  -- retry_after_cycles
  ⟨0x2B0601, .u16, .rwBoot, .num 53240, .between 49152 65535, .resetWarm, true⟩,  -- udp_port
  ⟨0x2B0602, .blob, .rwBoot, .bytes (List.replicate 16 0), .len 16 16, .resetWarm, true⟩,  -- ipv6_e0
  ⟨0x2B0603, .blob, .rwBoot, .bytes (List.replicate 16 0), .len 16 16, .resetWarm, true⟩,  -- ipv6_e1
  ⟨0x2B0604, .u16, .rwBoot, .num 9000, .between 8296 9216, .resetWarm, true⟩,  -- eth_mtu
  ⟨0x2B0605, .u8, .rw, .num 255, .betweenOr 0 7 255, .immediate, false⟩,  -- pfc_priority
  ⟨0x2B0606, .bool, .rw, .num 1, .any, .immediate, false⟩,  -- ptp_enable
  ⟨0x2B0607, .u8, .rw, .num 0, .between 0 127, .immediate, false⟩,  -- ptp_domain
  ⟨0x2B0608, .i32, .ro, .num 0, .any, .none, false⟩,  -- ptp_offset_ns
  ⟨0x2B0701, .u64, .ro, .num 0, .any, .none, false⟩,  -- packets_sent
  ⟨0x2B0702, .u64, .ro, .num 0, .any, .none, false⟩,  -- packets_applied
  ⟨0x2B0703, .u64, .ro, .num 0, .any, .none, false⟩]  -- retransmissions

def entries14 : List EntrySpec :=
  [⟨0x2B0704, .u64, .ro, .num 0, .any, .none, false⟩,  -- duplicates
  ⟨0x2B0705, .u64, .ro, .num 0, .any, .none, false⟩,  -- ledger_replies
  ⟨0x2B0706, .u64, .ro, .num 0, .any, .none, false⟩,  -- receive_refusals
  ⟨0x2B0707, .u64, .ro, .num 0, .any, .none, false⟩,  -- late_faults
  ⟨0x2B0708, .u64, .ro, .num 0, .any, .none, false⟩,  -- coh_retries
  ⟨0x2B0709, .u64, .ro, .num 0, .any, .none, false⟩,  -- untrusted_discards
  ⟨0x2B070A, .bool, .wo, .num 0, .isTrue, .immediate, false⟩,  -- counters_clear
  ⟨0x2C0001, .u8, .ro, .num 2, .any, .none, false⟩,  -- ple_version
  ⟨0x2C0002, .u16, .ro, .num 1024, .any, .none, false⟩,  -- max_layers
  ⟨0x2C0003, .u16, .ro, .num 16384, .any, .none, false⟩,  -- max_job_devices
  ⟨0x2C0004, .u8, .ro, .num 64, .any, .none, false⟩,  -- max_recompute_ops
  ⟨0x2C0101, .u64, .ro, .num 0, .any, .none, false⟩,  -- decisions
  ⟨0x2C0102, .u64, .ro, .num 0, .any, .none, false⟩,  -- adoptions
  ⟨0x2C0103, .u64, .ro, .num 0, .any, .none, false⟩,  -- declines
  ⟨0x2C0104, .u64, .ro, .num 0, .any, .none, false⟩,  -- reshard_bytes
  ⟨0x2C0105, .u64, .ro, .num 0, .any, .none, false⟩,  -- collectives
  ⟨0x2C0106, .u64, .ro, .num 0, .any, .none, false⟩,  -- gathers
  ⟨0x2C0107, .u64, .ro, .num 0, .any, .none, false⟩,  -- offload_bytes
  ⟨0x2C0108, .u64, .ro, .num 0, .any, .none, false⟩,  -- recomputations
  ⟨0x2C0109, .bool, .wo, .num 0, .isTrue, .immediate, false⟩,  -- counters_clear
  ⟨0x2C0201, .u8, .rw, .num 0, .between 0 255, .immediate, false⟩,  -- rack_select
  ⟨0x2C0202, .blob, .rw, .bytes (List.replicate 2048 0), .len 2048 2048, .immediate, true⟩,  -- rack_addresses
  ⟨0x2D0001, .u8, .ro, .num 2, .any, .none, false⟩,  -- record_format
  ⟨0x2D0002, .u16, .ro, .num 4096, .any, .none, false⟩]  -- recorder_store

def entries15 : List EntrySpec :=
  [⟨0x2D0101, .u16, .rw, .num 1024, .between 16 65535, .immediate, false⟩,  -- log_pages
  ⟨0x2D0102, .u64, .ro, .num 0, .any, .none, false⟩,  -- log_oldest
  ⟨0x2D0103, .u64, .ro, .num 18446744073709551615, .any, .none, false⟩,  -- log_newest
  ⟨0x2D0104, .u64, .rw, .num 0, .any, .immediate, false⟩,  -- log_read_index
  ⟨0x2D0105, .blob, .ro, .bytes [], .any, .none, false⟩,  -- log_record
  ⟨0x2D0106, .u64, .ro, .num 0, .any, .none, false⟩,  -- records_lost
  ⟨0x2D0201, .u16, .rw, .num 1, .between 1 4095, .immediate, false⟩,  -- fault_owner_select
  ⟨0x2D0202, .blob, .rw, .bytes (List.replicate 32 0), .len 32 32, .immediate, false⟩,  -- fault_ring
  ⟨0x2D0301, .u16, .rw, .num 20608, .any, .immediate, false⟩,  -- notice_class_mask
  ⟨0x2D0401, .u32, .wo, .num 0, .any, .immediate, false⟩,  -- reset_request
  ⟨0x2D0402, .u8, .rwSvc, .num 0, .between 0 2, .immediate, false⟩,  -- device_reset
  ⟨0x2D0403, .u32, .rw, .num 1000, .between 10 60000, .immediate, false⟩,  -- engine_watchdog_ms
  ⟨0x2D0501, .u16, .rw, .num 1, .between 1 4095, .immediate, false⟩,  -- report_owner_select
  ⟨0x2D0502, .blob, .ro, .bytes [], .any, .none, false⟩,  -- owner_reset_report
  ⟨0x2D0601, .u64, .ro, .num 0, .any, .none, false⟩,  -- resets_level1–7
  ⟨0x2D0602, .u64, .ro, .num 0, .any, .none, false⟩,  -- resets_level1–7
  ⟨0x2D0603, .u64, .ro, .num 0, .any, .none, false⟩,  -- resets_level1–7
  ⟨0x2D0604, .u64, .ro, .num 0, .any, .none, false⟩,  -- resets_level1–7
  ⟨0x2D0605, .u64, .ro, .num 0, .any, .none, false⟩,  -- resets_level1–7
  ⟨0x2D0606, .u64, .ro, .num 0, .any, .none, false⟩,  -- resets_level1–7
  ⟨0x2D0607, .u64, .ro, .num 0, .any, .none, false⟩,  -- resets_level1–7
  ⟨0x2D0608, .u64, .ro, .num 0, .any, .none, false⟩,  -- suppressed_completions
  ⟨0x2D0609, .bool, .wo, .num 0, .isTrue, .immediate, false⟩,  -- counters_clear
  ⟨0x2D0801, .u32, .rw, .num 0, .zeroOr 10 10000, .immediate, false⟩]  -- telemetry_period_ms

def entries16 : List EntrySpec :=
  [⟨0x300001, .u32, .rw, .num 0, .between 0 1048575, .resetPart, true⟩,  -- queue_base
  ⟨0x300002, .u32, .rw, .num 0, .between 0 1048576, .resetPart, true⟩,  -- queue_count
  ⟨0x300003, .u8, .rw, .num 16, .between 1 255, .immediate, false⟩,  -- array_weight
  ⟨0x300004, .u8, .rw, .num 16, .between 1 255, .immediate, false⟩,  -- vector_weight
  ⟨0x300005, .u32, .rw, .num 0, .mult 0 301985792 4096, .nextOp, false⟩,  -- matrix_staging_base
  ⟨0x300006, .u32, .rw, .num 0, .mult 0 301989888 4096, .nextOp, false⟩,  -- matrix_staging_size
  ⟨0x300007, .u32, .rw, .num 0, .between 0 524288, .immediate, false⟩,  -- journal_quota
  ⟨0x300008, .u64, .ro, .num 0, .any, .none, false⟩,  -- accepted
  ⟨0x300009, .u64, .ro, .num 0, .any, .none, false⟩,  -- completed
  ⟨0x30000A, .u64, .ro, .num 0, .any, .none, false⟩,  -- array_cycles
  ⟨0x30000B, .u64, .ro, .num 0, .any, .none, false⟩,  -- vector_cycles
  ⟨0x300801, .u16, .rw, .num 0, .between 0 510, .resetPart, true⟩,  -- hbm_base_gib
  ⟨0x300802, .u16, .rw, .num 0, .between 0 511, .resetPart, true⟩,  -- hbm_size_gib
  ⟨0x300803, .u16, .rw, .num 0, .between 0 287, .resetPart, true⟩,  -- tile_base_mib
  ⟨0x300804, .u16, .rw, .num 0, .between 0 288, .resetPart, true⟩,  -- tile_size_mib
  ⟨0x300805, .u16, .rw, .num 0, .between 0 1024, .immediate, false⟩,  -- read_min
  ⟨0x300806, .u16, .rw, .num 1024, .between 0 1024, .immediate, false⟩,  -- read_cap
  ⟨0x300807, .u16, .rw, .num 0, .between 0 1024, .immediate, false⟩,  -- write_min
  ⟨0x300808, .u16, .rw, .num 1024, .between 0 1024, .immediate, false⟩,  -- write_cap
  ⟨0x300809, .u32, .rw, .num 4096, .between 64 1048576, .immediate, false⟩,  -- bucket_granules
  ⟨0x30080A, .u64, .ro, .num 0, .any, .none, false⟩,  -- read_bytes
  ⟨0x30080B, .u64, .ro, .num 0, .any, .none, false⟩,  -- write_bytes
  ⟨0x30080C, .u64, .ro, .num 0, .any, .none, false⟩,  -- cap_stall_cycles
  ⟨0x302001, .u64, .rw, .num 0, .any, .nextStep, false⟩]  -- job_seed

def entries17 : List EntrySpec :=
  [⟨0x302002, .u64, .rw, .num 0, .any, .nextStep, false⟩,  -- step_number
  ⟨0x302003, .i32, .rw, .num 16, .any, .nextStep, false⟩,  -- loss_scale_log2
  ⟨0x302004, .i32, .rw, .num 0, .betweenI (-64) 64, .nextStep, false⟩,  -- loss_scale_min_log2
  ⟨0x302005, .i32, .rw, .num 24, .betweenI (-64) 64, .nextStep, false⟩,  -- loss_scale_max_log2
  ⟨0x302006, .u32, .rw, .num 2000, .between 1 2147483648, .nextStep, false⟩,  -- growth_interval
  ⟨0x302007, .u32, .ro, .num 0, .any, .none, false⟩,  -- good_steps
  ⟨0x302008, .u32, .ro, .num 0, .any, .none, false⟩,  -- consecutive_skips
  ⟨0x302009, .u64, .ro, .num 0, .any, .none, false⟩,  -- skip_count
  ⟨0x30200A, .u32, .rw, .num 16, .between 0 2147483648, .nextStep, false⟩,  -- skip_limit
  ⟨0x30200B, .u8, .ro, .num 0, .any, .none, false⟩,  -- last_decision
  ⟨0x30200C, .u8, .rw, .num 0, .between 0 1, .nextStep, false⟩,  -- zero_token_policy
  ⟨0x30200D, .u64, .rw, .num 0, .any, .nextStep, false⟩,  -- step_record_ptr
  ⟨0x30200E, .bool, .rw, .num 1, .any, .nextStep, false⟩,  -- loss_scale_enable
  ⟨0x302801, .u32, .rw, .num 0, .between 0 65535, .resetPart, true⟩,  -- barrier_base
  ⟨0x302802, .u32, .rw, .num 0, .between 0 65536, .resetPart, true⟩,  -- barrier_count
  ⟨0x302803, .u32, .rw, .num 0, .between 0 262143, .resetPart, true⟩,  -- flag_base
  ⟨0x302804, .u32, .rw, .num 0, .between 0 262144, .resetPart, true⟩,  -- flag_count
  ⟨0x302805, .u32, .rw, .num 0, .between 0 65535, .resetPart, true⟩,  -- counter_base
  ⟨0x302806, .u32, .rw, .num 0, .between 0 65536, .resetPart, true⟩,  -- counter_count
  ⟨0x302807, .u32, .rw, .num 0, .between 0 983040, .immediate, false⟩,  -- watch_quota
  ⟨0x302808, .u32, .ro, .num 0, .any, .none, false⟩,  -- watches_in_use
  ⟨0x302809, .u32, .rw, .num 4294967295, .any, .nextStep, false⟩,  -- step_barrier
  ⟨0x30280A, .u64, .rw, .num 0, .any, .immediate, false⟩,  -- snapshot_ptr
  ⟨0x30280B, .u32, .rw, .num 0, .between 0 65536, .immediate, false⟩]  -- snapshot_capacity

def entries18 : List EntrySpec :=
  [⟨0x30280C, .u64, .ro, .num 0, .any, .none, false⟩,  -- deadlocks
  ⟨0x303001, .u16, .rw, .num 0, .between 0 61439, .resetPart, true⟩,  -- group_base
  ⟨0x303002, .u16, .rw, .num 0, .between 0 61440, .resetPart, true⟩,  -- group_count
  ⟨0x303003, .u64, .ro, .num 0, .any, .none, false⟩,  -- bytes_sent
  ⟨0x303004, .u64, .ro, .num 0, .any, .none, false⟩,  -- bytes_received
  ⟨0x303801, .u8, .rw, .num 0, .between 0 2, .nextStep, false⟩,  -- placement_mode
  ⟨0x303802, .u32, .rw, .num 1000, .between 1 2147483648, .nextStep, false⟩,  -- placement_interval
  ⟨0x303803, .u16, .rw, .num 64, .between 0 1023, .nextStep, false⟩,  -- gain_threshold
  ⟨0x303804, .u64, .rw, .num 0, .any, .nextStep, false⟩,  -- record_ptr
  ⟨0x303805, .u16, .rw, .num 0, .between 0 65535, .nextStep, false⟩,  -- record_slots
  ⟨0x303806, .u32, .rw, .num 0, .between 0 1048576, .nextStep, false⟩,  -- record_slot_kib
  ⟨0x303807, .u64, .rw, .num 0, .any, .nextStep, false⟩,  -- pinned_record_ptr
  ⟨0x303808, .u8, .rw, .num 1, .between 0 4, .nextOp, false⟩,  -- gather_ahead
  ⟨0x303809, .u8, .ro, .num 0, .any, .none, false⟩,  -- job_state
  ⟨0x30380A, .u32, .ro, .num 0, .any, .none, false⟩,  -- generation
  ⟨0x304001, .u8, .ro, .num 0, .any, .none, false⟩,  -- join_state
  ⟨0x304002, .u32, .ro, .num 0, .any, .none, false⟩,  -- group_digest
  ⟨0x304003, .u64, .ro, .num 0, .any, .none, false⟩]  -- step_disagreements

/-- Every entry of the dictionary. -/
def entryTable : List EntrySpec :=
  entries0 ++ entries1 ++ entries2 ++ entries3 ++ entries4 ++ entries5 ++ entries6 ++ entries7 ++ entries8 ++ entries9 ++ entries10 ++ entries11 ++ entries12 ++ entries13 ++ entries14 ++ entries15 ++ entries16 ++ entries17 ++ entries18

end Sys2Proof.Machine
end

