-- ==== Sys2Proof/Config.lean ====
section
/-!
DEFINITION. Config.lean: what a module or a release fixes and the manual leaves open, and the free values.
Every constant here is opaque: nothing can be proved of it beyond its type, so a claim holds whatever it is
(DESIGN CHOICE, log entries 7 to 11, 18, 19, 33, 34 and those that name one).
-/
namespace Sys2Proof.Config

/-- Serial number of the module, 12 characters (R4, per module). -/
opaque serialNumber : List Nat

/-- Firmware version of the release that runs from slot 0 at reset (R4, per release). -/
opaque firmwareVersion : Nat

/-- The factory service anchor (0x2002:01). -/
opaque serviceAnchor : List Nat

/-- MAC addresses of E0 and E1 (0x2008:01, :02, per module). -/
opaque macE0 : List Nat
opaque macE1 : List Nat

/-- Bits that carry no information: what the holder of a key reads where it has not written under that key, by owner,
key generation, version of the granule and offset (R264). -/
opaque freeBits : Nat → Nat → Nat → Nat → BitVec 8

/-- A fresh value that the manual does not state, by the count of such values taken before it. -/
opaque freeValue : Nat → Nat

/-- A random value of the device's random source, by the count of draws made before it (R261, R452). -/
opaque random : Nat → Nat

/-- The time the device's own clock shows a measurement to take, in microseconds, by the count of such measurements. -/
opaque duration : Nat → Nat

/-- What a lane register holds after a count of vector operations: core, lane, register (R136). -/
opaque laneBits : Nat → Nat → Nat → Nat → BitVec 32

/-- The grant pointer of an SFU after a count of vector operations, by count and SFU (R146): in which slot each lane's requests
arrive the manual does not say. -/
opaque grantPointer : Nat → Nat → BitVec 2

/-- The number by which a fault's detail names a cause, rule, check, level or access kind that the manual names in words
only: by the fault's code and the place of the name among those its chapter gives. -/
opaque causeCode : Nat → Nat → Nat

/-- Spare rows of a bank group of a pseudo-channel as shipped, by pseudo-channel · 4 + bank group (0x2803:04, per stack). -/
opaque spareRows : Nat → Nat

/-- Spare lanes of a pseudo-channel as shipped (Table 08-4). -/
opaque spareLanes : Nat → Nat

/-- Error check and scrub counts of a pseudo-channel as a stack reports them (0x2803:05). -/
opaque ecsCount : Nat → Nat

/-- What a counter of memory traffic, stalls or corrected words reads, by its key and the state it is read in (0x2807:03, :04,
0x3008:0A to :0C): which accesses the units issue, and when, the manual does not say. -/
opaque trafficCount {α : Type} : Nat → α → Nat

/-- Body of a configuration copy that holds more than records of entries: write counters, pool descriptors and repairs, whose
records the manual does not lay out (R453, R454); by the copy's sequence. -/
opaque copyBody : Nat → List Nat

/-- Code of an entry type in a record of a configuration copy (R454 gives no numbers), by the type's place in Table 00-7. -/
opaque typeCode : Nat → Nat

/-- Tag of the frames that the device sends unasked: notices, telemetry and heartbeats (Table 14-1 leaves it to the requester). -/
opaque ownTag : Nat

/-- What 0x2007:01 reads while the main rails are off and no start-up runs or has stopped, which the manual does not say. -/
opaque phaseWithoutRails : Nat

/-- The element format of the gradients that the Placement Engine reduces, which a region entry does not name (Table 12-3). -/
opaque gradientFormat : Nat

end Sys2Proof.Config
end

