-- ==== Sys2Proof/Machine/Tbl.lean ====
section
/-!
DEFINITION. Machine/Tbl.lean: sparse tables, as lists of (key, value) pairs with strictly rising keys.
A key that is not listed stands for the reset value the reader of the table names.
-/
namespace Sys2Proof.Machine

/-- A sparse table: pairs with strictly rising keys. -/
abbrev Tbl (α : Type) := List (Nat × α)

/-- Value listed under a key. -/
def tget? {α : Type} : Tbl α → Nat → Option α
  | [], _ => none
  | (k, v) :: r, x => if x = k then some v else tget? r x

/-- Value under a key, or the given value where it is not listed. -/
def tgetD {α : Type} (t : Tbl α) (k : Nat) (d : α) : α := (tget? t k).getD d

/-- The table with the key's value replaced or inserted at its place. -/
def tput {α : Type} : Tbl α → Nat → α → Tbl α
  | [], x, v => [(x, v)]
  | (k, w) :: r, x, v => if x < k then (x, v) :: (k, w) :: r else if x = k then (k, v) :: r else (k, w) :: tput r x v

/-- The table without the key. -/
def tdel {α : Type} : Tbl α → Nat → Tbl α
  | [], _ => []
  | (k, w) :: r, x => if x = k then r else (k, w) :: tdel r x

/-- A table of numbers that lists no zero. -/
def tputNZ (t : Tbl Nat) (k v : Nat) : Tbl Nat := if v = 0 then tdel t k else tput t k v

/-- Whether the key is listed. -/
def thas {α : Type} (t : Tbl α) (k : Nat) : Bool := (tget? t k).isSome

/-- The table with the function applied to the value of a key, taking `d` where it is not listed. -/
def tupd {α : Type} (t : Tbl α) (k : Nat) (d : α) (f : α → α) : Tbl α := tput t k (f (tgetD t k d))

/-- The table with the listed value of a key changed; unchanged where it is not listed. -/
def tmod {α : Type} (t : Tbl α) (k : Nat) (f : α → α) : Tbl α :=
  match tget? t k with
  | some v => tput t k (f v)
  | none => t

/-- Pairs whose key and value pass a test. -/
def tfilter {α : Type} (t : Tbl α) (p : Nat → α → Bool) : Tbl α := t.filter (fun e => p e.1 e.2)

/-- Every listed value changed, given its key. -/
def tmap {α : Type} (t : Tbl α) (f : Nat → α → α) : Tbl α := t.map (fun e => (e.1, f e.1 e.2))

/-- Lowest number from `n` up that is not a listed key, searched over `fuel` numbers. -/
def tfresh {α : Type} (t : Tbl α) : Nat → Nat → Nat
  | 0, n => n
  | fuel + 1, n => if thas t n then tfresh t fuel (n + 1) else n

/-- Keys strictly rising: the one form of a table. -/
def tsorted {α : Type} : Tbl α → Bool
  | [] => true
  | [_] => true
  | a :: b :: r => decide (a.1 < b.1) && tsorted (b :: r)

end Sys2Proof.Machine
end

