-- ==== Sys2Proof/Machine/MemTypes.lean ====
section
/-!
DEFINITION. Machine/MemTypes.lean: the two tiers of memory as data.
A cell's key is the walker pointer of its byte (Table 03-2): bit 39 clear for HBM, set for the Tile Store.
-/
namespace Sys2Proof.Machine

/-- The key an HBM granule was last written under (R260, R264): owner, generation of the owner's key, and two
versions that tell apart the contents a reader cannot know. -/
structure KeyTag where
  owner : Nat
  gen : Nat
  base : Nat
  ver : Nat
  deriving DecidableEq, Repr

/-- Memory: the bytes written, strictly rising by key (no entry for a Tile Store byte of zero), the key of each
granule written, the poisoned codewords (offset / 64) and lines (2^40 + offset / 1024), the failed parts (R259), and the
ranges of the Tile Store that hold what the walker staged there, in a layout the manual does not give (R102): first
byte, byte after the last, and the count of such uses. -/
structure Mem where
  cells : List Host.Cell := []
  tags : Tbl KeyTag := []
  poison : List Nat := []
  failedPc : List Nat := []
  failedStack : List Nat := []
  scratch : List (Nat × Nat × Nat) := []
  scratched : Nat := 0
  deriving DecidableEq, Repr

end Sys2Proof.Machine
end

