-- ==== Sys2Proof/Machine/Memory.lean ====
section
/-!
DEFINITION. Machine/Memory.lean: reads and writes of HBM and the Tile Store: the address map (R237), poison (R241, R255),
failed parts (R259) and what a key reads (R260, R264).
-/
namespace Sys2Proof.Machine

/-- Bytes of HBM and of the Tile Store. -/
def hbmBytes : Nat := 2 ^ 39
def tileBytes : Nat := 288 * 2 ^ 20

/-- Whether a walker pointer names the Tile Store (Table 03-2). -/
def isTile (a : Nat) : Bool := bit a 39

/-- Offset of a walker pointer. -/
def ptrOff (a : Nat) : Nat := bits a 0 39

/-- Walker pointer of a Tile Store offset. -/
def tilePtr (o : Nat) : Nat := 2 ^ 39 + o

/-- Whether the n bytes at a walker pointer exist: Table 03-2 and the sizes of the tiers. -/
def extentExists (a n : Nat) : Bool :=
  decide (a < 2 ^ 40) && decide (ptrOff a + n ≤ (if isTile a then tileBytes else hbmBytes))

/-- Pseudo-channel of an HBM offset (R237). -/
def pcOf (o : Nat) : Nat :=
  let g := o >>> 8
  let x := g >>> 9
  let h := (x ^^^ (x >>> 9) ^^^ (x >>> 18)) % 512
  (g % 512) ^^^ h

/-- Stack of an HBM offset (R237). -/
def stackOf (o : Nat) : Nat := pcOf o >>> 6

/-- Channel of an HBM offset in its stack, and which of its two pseudo-channels it lies in (R237). -/
def channelOf (o : Nat) : Nat := bits (pcOf o) 1 5
def pseudoOf (o : Nat) : Nat := bits (pcOf o) 0 1

/-- Column of an HBM offset: its granule within the 1 KiB row (R237). -/
def columnOf (o : Nat) : Nat := bits (o >>> 17) 6 2

/-- Row of an HBM offset in its bank (R237). -/
def rowOf (o : Nat) : Nat := bits (o >>> 17) 8 14

/-- Bank of an HBM offset (R237). -/
def bankOf (o : Nat) : Nat := let x := o >>> 17; bits x 0 6 ^^^ bits x 8 6

/-- Poison unit of a byte: its codeword, or its Tile Store line. -/
def poisonKey (a : Nat) : Nat := if isTile a then 2 ^ 40 + ptrOff a / 1024 else ptrOff a / 64

/-- Bytes of a poison unit. -/
def poisonSize (a : Nat) : Nat := if isTile a then 1024 else 64

/-- Whether the part that holds an offset has failed (R259). -/
def failedPart (m : Mem) (a : Nat) : Bool :=
  !isTile a && (m.failedPc.contains (pcOf (ptrOff a)) || m.failedStack.contains (stackOf (ptrOff a)))

/-- Byte listed in memory. -/
def cellAt : List Host.Cell → Nat → Option Byte
  | [], _ => none
  | (k, v) :: r, a => if a = k then some v else if a < k then none else cellAt r a

/-- The use of the staging area that a Tile Store byte holds, if any. -/
def scratchOf : List (Nat × Nat × Nat) → Nat → Option Nat
  | [], _ => none
  | (lo, hi, v) :: r, a => if lo ≤ a ∧ a < hi then some v else scratchOf r a

/-- What an unlisted Tile Store byte reads as: zero, or a free value where the walker staged there (R102). -/
def tileUnlisted (m : Mem) (a : Nat) : Byte :=
  match scratchOf m.scratch a with
  | none => 0
  | some v => Config.freeBits 4096 v 0 a

/-- The one definition of what an address reads as for a holder of a key: the byte written under that key; zero in the
Tile Store where nothing was written since it was zeroed, and in HBM never written, for the device (R245, R265); bits
that carry no information elsewhere (R264). -/
def rdByte (m : Mem) (owner gen a : Nat) : Byte :=
  if isTile a then (cellAt m.cells a).getD (tileUnlisted m a)
  else
    match tget? m.tags (a / 256) with
    | none => if owner = 0 then 0 else Config.freeBits owner gen 0 a
    | some t =>
      if t.owner = owner ∧ t.gen = gen then (cellAt m.cells a).getD (Config.freeBits owner gen t.base a)
      else Config.freeBits owner gen t.ver a

/-- n bytes from a walker pointer, as numbers. -/
def rdList (m : Mem) (owner gen a : Nat) : Nat → List Nat
  | 0 => []
  | n + 1 => (rdByte m owner gen a).toNat :: rdList m owner gen (a + 1) n

/-- Whether any of n bytes is read poisoned: a poisoned unit, or a failed part (R255, R259). -/
def rdPoisoned (m : Mem) (a : Nat) : Nat → Bool
  | 0 => false
  | n + 1 => m.poison.contains (poisonKey a) || failedPart m a || rdPoisoned m (a + 1) n

/-- Cells below a key. -/
def cellsBelow (c : List Host.Cell) (a : Nat) : List Host.Cell := c.filter (fun e => decide (e.1 < a))

/-- Cells from a key on. -/
def cellsFrom (c : List Host.Cell) (a : Nat) : List Host.Cell := c.filter (fun e => decide (a ≤ e.1))

/-- Cells of a string of bytes at a pointer; a Tile Store byte of zero outside the staged ranges has none. -/
def newCells (sc : List (Nat × Nat × Nat)) : Nat → List Nat → List Host.Cell
  | _, [] => []
  | a, b :: r =>
    if isTile a && b % 256 == 0 && (scratchOf sc a).isNone then newCells sc (a + 1) r
    else (a, BitVec.ofNat 8 b) :: newCells sc (a + 1) r

/-- The range of cells replaced by a string of bytes. -/
def putCells (sc : List (Nat × Nat × Nat)) (c : List Host.Cell) (a : Nat) (b : List Nat) : List Host.Cell :=
  cellsBelow c a ++ newCells sc a b ++ cellsFrom c (a + b.length)

/-- Poison units that n bytes at a pointer cover whole (R241, R255). -/
def coveredUnits (a n : Nat) : List Nat :=
  let z := poisonSize a
  let first := ceilDiv (ptrOff a) z
  let last := (ptrOff a + n) / z
  (List.range (last - first)).map (fun i => (if isTile a then 2 ^ 40 else 0) + first + i)

/-- Sorted insertion of a poison unit. -/
def insertKey : List Nat → Nat → List Nat
  | [], x => [x]
  | y :: r, x => if x < y then x :: y :: r else if x = y then y :: r else y :: insertKey r x

/-- The poison unit of a byte marked (R255). -/
def markPoison (m : Mem) (a : Nat) : Mem := { m with poison := insertKey m.poison (poisonKey a) }

/-- One granule taken over by a key: bytes written under another key are no longer readable (R260, R264). -/
def takeGranule (owner gen : Nat) (m : Mem) (g : Nat) : Mem :=
  match tget? m.tags g with
  | none => { m with tags := tput m.tags g ⟨owner, gen, 1, 1⟩ }
  | some t =>
    if t.owner = owner ∧ t.gen = gen then { m with tags := tput m.tags g { t with ver := t.ver + 1 } }
    else { m with
      tags := tput m.tags g ⟨owner, gen, t.ver + 1, t.ver + 1⟩
      cells := cellsBelow m.cells (g * 256) ++ cellsFrom m.cells (g * 256 + 256) }

/-- Granules that n bytes at a pointer touch. -/
def granulesOf (a n : Nat) : List Nat :=
  if n = 0 then [] else (List.range ((a + n - 1) / 256 - a / 256 + 1)).map (fun i => a / 256 + i)

/-- A write committed at the MC under a key; a write of a failed part is discarded (R259). -/
def wrMem (m : Mem) (owner gen a : Nat) (b : List Nat) : Mem :=
  if b.isEmpty then m
  else
    let m1 := if isTile a then m else (granulesOf a b.length).foldl (takeGranule owner gen) m
    { m1 with
      cells := putCells m1.scratch m1.cells a b
      poison := m1.poison.filter (fun k => !(coveredUnits a b.length).contains k) }

/-- Parts of a write, granule by granule, that reach parts in service. -/
def wrParts (owner gen a : Nat) (b : List Nat) (m : Mem) (g : Nat) : Mem :=
  let lo := max a (g * 256)
  let hi := min (a + b.length) (g * 256 + 256)
  if failedPart m (g * 256) then m else wrMem m owner gen lo ((b.drop (lo - a)).take (hi - lo))

/-- A write of bytes under a key, with the count of granules discarded in failed parts (R259). -/
def writeMem (m : Mem) (owner gen a : Nat) (b : List Nat) : Mem × Nat :=
  if isTile a ∨ (m.failedPc = [] ∧ m.failedStack = []) then (wrMem m owner gen a b, 0)
  else
    let gs := granulesOf a b.length
    (gs.foldl (wrParts owner gen a b) m, (gs.filter (fun g => failedPart m (g * 256))).length)

/-- Staged ranges without the bytes from lo to below hi. -/
def cutScratch (lo hi : Nat) : List (Nat × Nat × Nat) → List (Nat × Nat × Nat)
  | [] => []
  | (l, h, v) :: r =>
    (if l < min h lo then [(l, min h lo, v)] else []) ++ (if max l hi < h then [(max l hi, h, v)] else []) ++
      cutScratch lo hi r

/-- A range of the Tile Store taken for staging: it holds bytes in a layout the manual does not give (R102). -/
def spoilTile (m : Mem) (o n : Nat) : Mem :=
  let a := tilePtr o
  if n = 0 then m
  else { m with
    cells := cellsBelow m.cells a ++ cellsFrom m.cells (a + n)
    scratch := (a, a + n, m.scratched) :: cutScratch a (a + n) m.scratch
    scratched := m.scratched + 1 }

/-- The Tile Store bytes of a range zeroed (R245). -/
def zeroTile (m : Mem) (o n : Nat) : Mem :=
  let a := tilePtr o
  { m with
    cells := cellsBelow m.cells a ++ cellsFrom m.cells (a + n)
    scratch := cutScratch a (a + n) m.scratch
    poison := m.poison.filter (fun k => !(decide (2 ^ 40 + ceilDiv o 1024 ≤ k ∧ k < 2 ^ 40 + (o + n) / 1024))) }

/-- Keys strictly rising. -/
def cellsSorted : List Host.Cell → Bool
  | [] => true
  | [_] => true
  | a :: b :: r => decide (a.1 < b.1) && cellsSorted (b :: r)

/-- No Tile Store cell outside the staged ranges holds the zero an unlisted one reads as. -/
def noZeroTile (sc : List (Nat × Nat × Nat)) (c : List Host.Cell) : Bool :=
  c.all (fun e => !(isTile e.1 && e.2 == 0 && (scratchOf sc e.1).isNone))

/-- The canonical form of memory. -/
def Memory.wf (m : Mem) : Bool := cellsSorted m.cells && noZeroTile m.scratch m.cells

end Sys2Proof.Machine
end

