-- ==== Sys2Proof/Machine/StateCore.lean ====
section
/-!
DEFINITION. Machine/StateCore.lean: the parts of the state that the host interface, management, faults, memory and pools
hold: records of plain data.
-/
namespace Sys2Proof.Machine

/-- Where an operation of the journal stands (R430); `waiting` has started its checks and waits for something. -/
inductive Progress where
  | accepted | started | waiting | finished | completed
  deriving DecidableEq, Repr

/-- A journal entry: an accepted and not yet retired operation (R430), its descriptor as header and body of 512 bits
each, what its run has left for its completion record (Table 13-10), and the decision of the step that it has waited for
once that is formed (R183): 1 finite, 2 skip. -/
structure Op where
  seq : Nat
  hdr : Nat
  body : Nat
  owner : Nat
  epoch : Nat
  progress : Progress := .accepted
  status : Nat := 0
  code : Nat := 0
  statusBits : Nat := 0
  detail : Nat := 0
  runs : Nat := 0
  rerun : Bool := false
  wroteNonfinite : Bool := false
  faults : Nat := 0
  cycles : Nat := 0
  stage : Nat := 0
  gate : Nat := 0
  deriving DecidableEq, Repr

/-- A message of 32 bytes with the queue's sequence number already in it, waiting for ring space (R310). -/
structure Held where
  msg : Nat
  isWatch : Bool
  deriving DecidableEq, Repr

/-- A queue in existence (Table 13-3): its context as created, and what the device keeps for it. -/
structure Queue where
  ctx : Nat
  partition : Nat
  nextSeq : Nat := 0
  completedSeq : Nat := 18446744073709551615
  msgSeq : Nat := 0
  stopped : Bool := false
  target : Nat := 0
  reading : Bool := false
  journalled : List Op := []
  ops : List Op := []
  watermarkDue : Bool := false
  held : List Held := []
  consumed : Nat := 0
  posted : Nat := 0
  holdoff : Bool := false
  signalDue : Bool := false
  readyAt : Nat := 0
  deriving DecidableEq, Repr

/-- States of an owner (Table 13-2). -/
inductive OwnerState where
  | free | active | preempting | preempted | resetting
  deriving DecidableEq, Repr

/-- The stage an owner-instance reset has reached (Table 15-7). -/
structure OwnerReset where
  startedAt : Nat
  oldEpoch : Nat
  opsStopped : Nat := 0
  abandoned : Nat := 0
  buffersFreed : Nat := 0
  buffersRevoked : Nat := 0
  slotMaps : Nat := 0
  unsentAtomics : Nat := 0
  census : Nat := 0
  closes : List Nat := []
  notices : List Nat := []
  answers : Tbl Nat := []
  walking : Bool := false
  deriving DecidableEq, Repr

/-- An owner instance: its entry as written (Table 13-2 without epoch and state), its fault ring entry (Table 15-3) and the last reset report (Table 15-8). -/
structure Owner where
  entry : Nat := 0
  epoch : Nat := 0
  state : OwnerState := .free
  ring : Nat := 0
  ringCount : Nat := 0
  ringHoldoff : Bool := false
  ringDue : Bool := false
  reset : Option OwnerReset := none
  report : List Nat := []
  deriving DecidableEq, Repr

/-- One host-visible act of the device: a write to host memory, a signalled vector, a read of a descriptor slot, the
flushing read of R430, a configuration answer, a field frame, or a packet or link symbol on a port. -/
inductive OutEv where
  | hostWrite (fn pasid addr : Nat) (data : List Nat)
  | msix (fn vector : Nat)
  | slotRead (queue seq : Nat)
  | flushRead (queue : Nat)
  | configAnswer (retry : Bool)
  | can (id : Nat) (data : List Nat)
  | port (p : Nat) (what : Nat) (data : List Nat)
  deriving DecidableEq, Repr

/-- The host link and its functions (R404 to R408), with the writes held while the link is down, the journal (R430),
and the admin contexts written since their owners were last freed, by queue (R410). -/
structure HostLink where
  up : Bool := true
  gen : Nat := 0
  width : Nat := 0
  perst : Bool := false
  served : Bool := true
  numVfs : Nat := 0
  vfEnable : Bool := false
  budget : Option Nat := none
  journalA : Nat := 0
  journalB : Nat := 4
  journalState : Nat := 1
  journalCopyTo : Option Nat := none
  held : List OutEv := []
  adminCtxs : Tbl Nat := []
  deriving DecidableEq, Repr

/-- Firmware image slot (R439): the version of a verified image, and the bytes of an image being written. -/
structure FwSlot where
  version : Nat := 0
  valid : Bool := false
  erased : Bool := false
  bytes : List Nat := []
  deriving DecidableEq, Repr

/-- A segmented transfer from a node (R443). -/
structure Transfer where
  tag : Nat
  hdr : Nat
  ctr : Option Nat
  nextSeg : Nat
  need : Nat
  data : List Nat
  deriving DecidableEq, Repr

/-- Path of an Agmir request. -/
inductive Path where
  | field (node tag : Nat)
  | host
  deriving DecidableEq, Repr

/-- A configuration copy (R454): its sequence, its records, and what it holds beside them: write counters, pool
descriptors, the rack map and repairs; and whether it verifies. -/
structure Copy where
  valid : Bool := true
  seq : Nat := 0
  records : Tbl Val := []
  counters : Tbl Nat := []
  pools : Tbl Nat := []
  racks : Tbl (List Nat) := []
  softRepairs : List Nat := []
  laneRepairs : List Nat := []
  deriving DecidableEq, Repr

/-- The Thallus (R436 to R457): firmware, field port, mailbox, session and configuration. -/
structure Thallus where
  ckRuns : Bool := true
  fw0 : FwSlot := {}
  fw1 : FwSlot := {}
  running : Nat := 0
  selected : Nat := 0
  serving : Bool := true
  topCounter : Tbl Nat := []
  floors : Tbl Nat := []
  acceptedWrites : Tbl Nat := []
  transfers : Tbl Transfer := []
  assembled : Tbl (Nat × List Nat) := []
  authRaised : List Nat := []
  filterRaised : Bool := false
  frameCount : Tbl Nat := []
  conflict : Bool := false
  busOff : Bool := false
  mbRequest : List Nat := []
  mbResponse : List Nat := []
  mbStatus : Nat := 0
  nonceHost : Option Nat := none
  nonceField : Option Nat := none
  session : Option Path := none
  copyA : Copy := {}
  copyB : Copy := {}
  batch : List (Nat × Val) := []
  batchReplies : List (Path × List Nat) := []
  selectedNode : Nat := 127
  randoms : Nat := 0
  noticesThisSecond : Nat := 0
  deriving DecidableEq, Repr

/-- Start-up (R473 to R475): the phase running of P0 to P7 and of P8 to P10, and the phase durations. -/
structure Startup where
  main : Option Nat := none
  back : Option Nat := some 8
  stopped : Bool := false
  hostReady : Bool := true
  rackReady : Bool := false
  warm : Bool := false
  p3Waits : Bool := false
  times : List Nat := List.replicate 11 0
  deriving DecidableEq, Repr

/-- State of a frond (0x2005:02). -/
inductive Frond where
  | off | waking | on | failed
  deriving DecidableEq, Repr

/-- The 96 fronds: states, and the wake requests in their order (R463). -/
structure Fronds where
  st : Tbl Frond := []
  queue : List Nat := []
  deriving DecidableEq, Repr

/-- The fault log (R482 to R485): every record it holds by number, how many of them wait on the die, and its pages. -/
structure Page where
  handle : Nat
  ptr : Nat
  first : Nat
  count : Nat
  cap : Nat
  deriving DecidableEq, Repr

structure FaultLog where
  records : Tbl Nat := []
  next : Nat := 0
  onDie : Nat := 0
  pages : List Page := []
  lostSince : Nat := 0
  exhausted : Bool := false
  raised : Nat := 0
  deriving DecidableEq, Repr

/-- A reset in progress: its level, target and cause (Table 15-5). -/
structure Reset where
  level : Nat
  target : Nat
  cause : Nat
  deriving DecidableEq, Repr

/-- A pool as the BPM holds it (R272, R281): its descriptor, state (0x2901:04) and generation; the free list, as the head
cache (`cache`, top first), the first buffer outside it (`head`, 0xFFFFFF where there is none) and the links in memory
behind that; its free and held buffers, and the lowest free count since its last enable. -/
structure Pool where
  desc : Nat := 0
  state : Nat := 0
  gen : Nat := 0
  head : Nat := 0xFFFFFF
  cache : List Nat := []
  free : Nat := 0
  held : Nat := 0
  low : Nat := 0
  deriving DecidableEq, Repr

/-- A buffer record (Table 09-2); an unlisted one is zero. -/
structure BufRec where
  alloc : Nat := 0
  epoch : Nat := 0
  gen : Nat := 0
  refs : Nat := 0
  owner : Nat := 0
  state : Nat := 0
  reported : Bool := false
  pool : Nat := 0
  deriving DecidableEq, Repr

/-- The Bobbin Pool Manager (R272 to R296): pools by number, records by index, and each owner's histogram of the last
scan (R294). -/
structure Pools where
  pools : Tbl Pool := []
  recs : Tbl BufRec := []
  hist : Tbl (List Nat) := []
  deriving DecidableEq, Repr

/-- A key slot (R261): active or empty, its generation, and the count that makes each key fresh. -/
structure KeySlot where
  active : Bool := false
  gen : Nat := 0
  fresh : Nat := 0
  deriving DecidableEq, Repr

/-- What the Memory Controller keeps beside memory itself (R247 to R269): windows by owner · 8 + w, key slots, the row
tracker, oldest first, the repairs applied and those stored for a reset, spare rows and lanes used, and the repair in
progress (2^64 more where the MC began it itself). -/
structure Mc where
  windows : Tbl Nat := []
  keys : Tbl KeySlot := []
  keyDraws : Nat := 0
  tracker : List (Nat × Nat) := []
  candidates : List Nat := []
  softRepairs : List Nat := []
  laneRepairs : List Nat := []
  rowsUsed : Tbl Nat := []
  lanesUsed : Tbl Nat := []
  retrainFails : Tbl Nat := []
  badRows : List Nat := []
  tempAbsent : Tbl Nat := []
  repairing : Option Nat := none
  deriving DecidableEq, Repr

end Sys2Proof.Machine
end

