-- ==== Sys2Proof/Machine/StateFab.lean ====
section
/-!
DEFINITION. Machine/StateFab.lean: the parts of the state that the Synchronisation Unit and the fabric hold.
-/
namespace Sys2Proof.Machine

/-- A barrier, flag or arrival counter (Tables 10-1 to 10-3), with the elapsed time of its last change (R319). State 0 unset, 1 ready, 2 poisoned, 3 abandoned. -/
structure SyncObj where
  state : Nat := 0
  owner : Nat := 0
  epoch : Nat := 0
  remoteOk : Bool := false
  frozen : Bool := false
  value : Nat := 0
  participants : Nat := 0
  arrived : Nat := 0
  phase : Nat := 0
  reduce : Bool := false
  lastReduce : Bool := false
  changedAt : Nat := 0
  deriving DecidableEq, Repr

/-- Who registered a watch: a queue's owner instance, the engine that runs a queue's head (R311), or a queue of another
device, with whether it waits there in a WAIT (R307). -/
inductive Watcher where
  | queue (q owner epoch : Nat)
  | engine (q : Nat)
  | remote (device q owner epoch : Nat) (waits : Bool)
  deriving DecidableEq, Repr

/-- A registered watch: its specification (Table 10-5), registrant and the partition whose quota holds it. -/
structure Watch where
  spec : Nat
  by_ : Watcher
  partition : Nat
  deriving DecidableEq, Repr

/-- An open task of a queue (R313): each listed object with its recorded state. -/
structure Task where
  owner : Nat
  epoch : Nat
  entries : List (Nat × Nat)
  deriving DecidableEq, Repr

/-- What the deadlock detector keeps of a partition's last sample (R319). -/
structure Stall where
  stalled : Bool := false
  words : List (Nat × Nat) := []
  declared : Bool := false
  deriving DecidableEq, Repr

/-- The Synchronisation Unit (R298 to R323): objects under kind · 2^18 + index, watches by ID, tasks by queue, the
reasons of ended engine waits by queue, and the detector's samples by partition. -/
structure Syu where
  objs : Tbl SyncObj := []
  watches : Tbl Watch := []
  tasks : Tbl Task := []
  ended : Tbl Nat := []
  stalls : Tbl Stall := []
  deriving DecidableEq, Repr

/-- A port of Table 11-1 (R324 to R334): its entries of 0x2B01; failed trainings in a row and whether it trains at 212.5 Gb/s;
its link sequence numbers, replay buffer and credits; replays it asked for and was asked for in a row; the times at
which each lane lost lock, and the lanes retired; the bytes queued, the flits or datagrams that wait, whether a pluggable module
is in its cage and draws no more than it may, whether the port went down after a fault (R523), and the nanoseconds of a pause
(R363). -/
structure Port where
  state : Nat := 0
  lanes : Nat := 0
  rate : Nat := 0
  peer : Nat := 0
  replays : Nat := 0
  drops : Nat := 0
  enable : Bool := true
  trainFails : Nat := 0
  highRate : Bool := false
  txSeq : Nat := 0
  replayBuf : List (List Nat) := []
  rxSeq : Nat := 0
  replayAsked : Nat := 0
  reqSeq : Nat := 0
  reqCount : Nat := 0
  credits : Nat := 0
  lost : Tbl (List Nat) := []
  retired : Nat := 0
  queued : Nat := 0
  txWait : List (List Nat) := []
  plugged : Bool := true
  faulted : Bool := false
  pause : Nat := 0
  deriving DecidableEq, Repr

/-- A packet of this device in a flow, sent or waiting to be, with the queue and sequence number of the operation that sent
it (queue 0xFFFFF: none), the fences that wait for it (R350), as queue · 2^64 + sequence, and for a packet forwarded as
relay its flow_seq on the Ethernet flow that brought it, and the port of its first attempt. -/
structure Sent where
  pk : Packet
  q : Nat := 0xFFFFF
  seq : Nat := 0
  fences : List Nat := []
  orig : Nat := 0
  port : Nat := 21
  deriving DecidableEq, Repr

/-- A flow with one device over one kind of path (R337 to R342, R363), both directions. -/
structure Flow where
  txNext : Nat := 0
  unacked : List Sent := []
  waiting : List Sent := []
  retries : Nat := 0
  failed : Bool := false
  rxNext : Nat := 0
  ahead : List (Packet × Nat) := []
  ackDue : Nat := 0
  window : Nat := 4096
  grown : Nat := 0
  withheld : List Packet := []
  deriving DecidableEq, Repr

/-- An applied atomic in the target's ledger (R352, R353). -/
structure Ledger where
  owner : Nat
  epoch : Nat
  crc : Nat
  old : Nat
  width : Nat
  deriving DecidableEq, Repr

/-- An atomic of this device that holds a slot of its target (R352). -/
structure AtomSlot where
  owner : Nat
  epoch : Nat
  queue : Nat
  seq : Nat
  deriving DecidableEq, Repr

/-- A copy group's error bit and first late fault, with the owner it was raised for (R350, R491). -/
structure Group where
  err : Bool := false
  first : Nat := 0
  owner : Nat := 0
  deriving DecidableEq, Repr

/-- A far-line cache line (R356, R359): state 0 non-coherent, 1 shared, 2 modified; `use` orders replacement. -/
structure Line where
  owner : Nat
  addr : Nat
  state : Nat
  data : List Nat
  poisoned : Bool := false
  use : Nat := 0
  deriving DecidableEq, Repr

/-- A load or a coherent request of this device that waits for its answer (R347, R359): what it wants (0 load, 1 line,
2 shared, 3 modified), and the store to apply once a line is held in M. -/
structure Request where
  kind : Nat
  owner : Nat
  epoch : Nat
  home : Nat
  addr : Nat
  len : Nat
  store : List Nat := []
  storeAt : Nat := 0
  retry : Bool := false
  result : List Nat := []
  poisoned : Bool := false
  done : Bool := false
  deriving DecidableEq, Repr

/-- A directory entry of the home (R358): state 0 I, 1 S, 2 M, the sharers, the owning device in M, and the owner ID of
the last grant; and the transaction in progress: what it wants (0 the line back for the home itself, 1 S, 2 M), for whom, and the
devices that still have to answer. -/
structure Dir where
  state : Nat := 0
  sharers : Nat := 0
  ownerDev : Nat := 0
  owner : Nat := 0
  busy : Bool := false
  want : Nat := 0
  requester : Nat := 0
  reqOwner : Nat := 0
  reqEpoch : Nat := 0
  waitFor : Nat := 0
  deriving DecidableEq, Repr

/-- Attestation of a peer (R343): the exchanges received and sent, or failed and waiting. -/
structure Attest where
  step : Nat := 0
  sent : Nat := 0
  failed : Bool := false
  deriving DecidableEq, Repr

/-- The fabric (R324 to R369); `sourceDev` is the device last heard as the rack's time source. Flows are named by device ID, or by 2^20 + rack · 4096 + device across racks. -/
structure Fabric where
  ports : Tbl Port := []
  flows : Tbl Flow := []
  trusted : List Nat := []
  attests : Tbl Attest := []
  untrustedRaised : List Nat := []
  rwins : Tbl Nat := []
  racks : Tbl (List Nat) := []
  groups : Tbl Group := []
  ledger : Tbl Ledger := []
  slots : Tbl AtomSlot := []
  atomWait : List (Nat × Nat × Nat) := []
  peerEpochs : Tbl Nat := []
  lines : List Line := []
  useClock : Nat := 0
  requests : List Request := []
  dir : Tbl Dir := []
  rrPtr : Nat := 0
  ptpLocked : Bool := false
  isSource : Bool := false
  sourceDev : Nat := 0xFFF
  rateAdj : Int := 0
  holdRelays : List (Nat × Packet) := []
  relays : List (Packet × Nat) := []
  deriving DecidableEq, Repr

end Sys2Proof.Machine
end

