-- ==== Sys2Proof/Machine/StateRest.lean ====
section
/-!
DEFINITION. Machine/StateRest.lean: the parts of the state that the walker, the array, the Vector Engine, the Carding
Engine, the Placement Engine, the partitions and the module's power hold.
-/
namespace Sys2Proof.Machine

/-- A chain of a plan (R98): entry, column tile, first band, band depth, cost, and how far it is: 0 planned,
1 streaming, 2 complete; `flagged` counts its softmax rows flagged for replay (R164, R165). -/
structure Chain where
  entry : Nat
  tile : Nat
  b0 : Nat
  depth : Nat
  cost : Nat
  state : Nat := 0
  flagged : Nat := 0
  deriving DecidableEq, Repr

/-- A grouped operation with the walker (R91 to R108), by its queue: 0 its start condition is awaited, 1 planned,
2 planned with early loads (R106), 3 streaming. The control block and table hold what the one read of R93 returned. -/
structure Walk where
  stage : Nat
  seq : Nat
  gcb : Nat
  table : List Nat
  profiles : Tbl Nat
  fills : List (List Nat) := []
  chains : List Chain := []
  mask : Nat := 0
  single : Bool := false
  gcbAt : Nat := 0
  opk : Nat := 0
  statusBits : Nat := 0
  wroteNonfinite : Bool := false
  declined : Bool := false
  started : Bool := false
  cycles : Nat := 0
  deriving DecidableEq, Repr

/-- Staged stationary tiles kept for later operations (R103): staging base, operand pointer, bytes, format byte,
transpose bit, columns, x_dim, the order of staging, and the owner of the operation that staged them (R491). -/
structure Retained where
  base : Nat
  ptr : Nat
  len : Nat
  fmt : Nat
  transpose : Nat
  n : Nat
  x : Nat
  order : Nat
  owner : Nat
  deriving DecidableEq, Repr

/-- Registers of the array's cells under row · 1024 + column, and of its scale groups under row / 4 · 1024 + column
(R33, R35, R117), active and shadow, those that are not zero; and the band boundaries in the state join (R57). -/
structure ArrayRegs where
  weight : Tbl Nat := []
  weightShadow : Tbl Nat := []
  scale : Tbl Nat := []
  scaleShadow : Tbl Nat := []
  metadata : Tbl Nat := []
  metadataShadow : Tbl Nat := []
  joins : Nat := 0
  deriving DecidableEq, Repr

/-- The deficit round robin of a unit (R426): partition served last, deficits, and the queue served last by
partition · 256 + priority. -/
structure Drr where
  lastPart : Nat := 31
  deficits : Tbl Int := []
  lastQueue : Tbl Nat := []
  deriving DecidableEq, Repr

/-- The array, walker and Vector Engine: bands and cores taken out of service by faults, the self-test in progress,
the walks, the retained tiles, both schedulers, the array's registers, the queue whose operation holds the Vector Engine, and
the count of operations that have used the lane registers (R136), whose contents the manual does not give, and by core that
count at the last one that asked its SFUs since their reset (R146). -/
structure Units where
  bandFaults : Nat := 0
  coreFaults : Nat := 0
  bist : Option Nat := none
  walks : Tbl Walk := []
  running : Option Nat := none
  ahead : Option Nat := none
  retained : List Retained := []
  stagings : Nat := 0
  regs : ArrayRegs := {}
  vecQueue : Option Nat := none
  laneUses : Nat := 0
  sfuUses : Tbl Nat := []
  array : Drr := {}
  vector : Drr := {}
  deriving DecidableEq, Repr

/-- What the landing logic counts for a bound slot map: rows by chunk · 1024 + source, forward and backward (R215). -/
structure CardMap where
  rowsF : Tbl Nat := []
  rowsB : Tbl Nat := []
  deriving DecidableEq, Repr

/-- A Carding or Ply operation in progress, by its queue (R213, R222, R224, R226): its control block, member list and expert
map as read, its geometry digest and step, its copy group, the next chunk, its counters by (member, local expert,
sliver), how often each expert was chosen, and whether a result was non-finite. -/
structure Card where
  seq : Nat
  ccb : Nat
  members : List Nat
  experts : List Nat
  digest : Nat
  step : Nat
  group : Nat
  chunk : Nat := 0
  cnt : Tbl Nat := []
  chosen : Tbl Nat := []
  nonfinite : Bool := false
  waiting : Bool := false
  deriving DecidableEq, Repr

/-- The lease of a slot map bound by a local operation (Table 15-6): its offset, owner and epoch. -/
structure Lease where
  mapOff : Nat
  owner : Nat
  epoch : Nat
  deriving DecidableEq, Repr

/-- The Carding Engine and Ply Unit: operations by queue, row counts by slot map offset, leases, the index table of
each layer's last local operation, as (owner, pointer) by owner · 2^16 + layer, and the engine copy groups taken. -/
structure Carding where
  ops : Tbl Card := []
  maps : Tbl CardMap := []
  leases : List Lease := []
  indexes : Tbl (Nat × Nat) := []
  groups : Nat := 0
  deriving DecidableEq, Repr

/-- An operation recorded for recomputation (R399): its descriptor, owner and the version of its queue. -/
structure RecOp where
  hdr : Nat
  body : Nat
  owner : Nat
  version : Nat
  deriving DecidableEq, Repr

/-- A layer of a placed job (Table 12-2): its record and regions as read; the map in force, a list of (member, local)
per expert, with its new_max; per class the decision (0 keep, 1 off-load, 2 recompute, 3 absent), the offset in the arena, and
the destination with the offset in its pool; the histogram and its snapshot, and the decision that waits for its
adoption; where the layer stands between its markers; what is recorded for recomputation, in which step, whether the
recomputation runs, and the classes off-loaded and asked back, with their copy group. -/
structure Layer where
  rec_ : Nat
  regions : List Nat
  map : List (List (Nat × Nat)) := []
  maxLoad : Nat := 0
  choices : List Nat := []
  arena : List Nat := []
  dests : List Nat := []
  destOffs : List Nat := []
  hist : Tbl Nat := []
  snap : Option (List Nat) := none
  pending : Option (List (List (Nat × Nat)) × Nat) := none
  gathered : Bool := false
  inForward : Bool := false
  inBackward : Bool := false
  recording : Bool := false
  recorded : List RecOp := []
  recStep : Nat := 0
  recordBad : Bool := false
  rerunning : Bool := false
  offloaded : List Nat := []
  returning : Bool := false
  group : Nat := 0
  deriving DecidableEq, Repr

/-- A job placed in a partition (R370 to R376) with its generation; the layers that an adoption in progress still has
to re-shard, with their new maps and loads, this member's vote, its copy group, the slots it rewrote and whether a map
changed; the mode and histogram step of the adoption; the step of the last snapshot; the pinned image taken last; and the gradient collectives due, as
(layer, region). -/
structure Job where
  owner : Nat
  hdr : Nat
  members : List Nat
  rank : Nat
  digest : Nat
  layers : List Layer
  generation : Nat := 0
  adopting : List (Nat × List (List (Nat × Nat)) × Nat) := []
  vote : Bool := true
  group : Nat := 0
  moved : Nat := 0
  changed : Bool := false
  mode : Nat := 0
  decisionStep : Nat := 18446744073709551615
  snapStep : Nat := 18446744073709551615
  pinned : Nat := 0
  gradDue : List (Nat × Nat) := []
  deriving DecidableEq, Repr

/-- What a partition keeps beside its entries (R180 to R188, R370, R471, R472): decisions 0 not formed, 1 finite,
2 skip, of the current step and of the one before; the frozen step digest and the entries written since (R472). -/
structure Part where
  localFinite : Bool := true
  decision : Nat := 0
  before : Nat := 0
  heldAny : Bool := false
  jobState : Nat := 0
  joinState : Nat := 0
  job : Option Job := none
  frozen : Option Nat := none
  late : List Nat := []
  agreed : Option Bool := none
  barrierWaits : Bool := false
  deriving DecidableEq, Repr

/-- Module power, thermal state and removal (R503 to R526): whether the Thallus domain has power, whether the main rails
went off for the input (R508), the rails up, the levels held (bits of 0x2009:05), the sensors that failed, and the records
kept while the rails are off. Readings in mV, mA, mW and hundredths of a degree. -/
structure Module where
  domain : Bool := true
  seated : Bool := true
  railState : Nat := 2
  railsUp : Nat := 7
  railFaults : Nat := 0
  inputFaulted : Bool := false
  inputMv : Nat := 50000
  inputMa : Nat := 0
  powerW : Nat := 0
  dieTemps : List Int := List.replicate 16 0
  hbmTemps : List Int := List.replicate 8 0
  inlet : Int := 0
  outlet : Int := 0
  cageMw : List Nat := [0, 0]
  ckMx : Nat := 2400
  ckVx : Nat := 2400
  levels : Nat := 0
  critical : Nat := 0
  criticalShut : Bool := false
  failedSensors : List Nat := []
  removal : Nat := 0
  kept : List Nat := []
  deriving DecidableEq, Repr

/-- Device time (R364, R365): its nanoseconds, whether it is locked, and up-time in microseconds. -/
structure Clock where
  ns : Nat := 0
  us : Nat := 0
  locked : Bool := false
  deriving DecidableEq, Repr

end Sys2Proof.Machine
end

