-- ==== Sys2Proof/Machine/State.lean ====
section
/-!
DEFINITION. Machine/State.lean: the state of the part, its fault and refusal reasons, and the state after reset.
-/
namespace Sys2Proof.Machine

/-- Reasons for which the part stops. -/
inductive Fault where
  /-- Raised by no command: the manual gives every command an effect. Safe. -/
  | none_
  deriving DecidableEq, Repr

/-- Reasons for which a command has no meaning in the model. -/
inductive Refusal where
  /-- Raised by an arm of `exec` whose command is not modelled; no arm is one. Safe. -/
  | notModelled (mnemonic : String)
  deriving DecidableEq, Repr

/-- The part: the commands that wait, first in first out, and everything the manual gives it.
`dict` holds each entry's value in force where it differs from its default, `shadow` its pending value (R458), and
`placeVals` the value a place holds of an entry that is partly applied, under key · 256 + place (R459).
`free` counts the free values taken, `out` lists what the part has sent outside, oldest first; these two and `pending` are
the model's own (DESIGN CHOICE, log entries 1, 6 and 7). -/
@[ext]
structure State where
  pending : List Instr := []
  mem : Mem := {}
  dict : Tbl Val := []
  shadow : Tbl Val := []
  placeVals : Tbl Val := []
  host : HostLink := {}
  owners : Tbl Owner := []
  queues : Tbl Queue := []
  th : Thallus := {}
  startup : Startup := {}
  fronds : Fronds := {}
  log : FaultLog := {}
  resets : List Reset := []
  pools : Pools := {}
  mc : Mc := {}
  syu : Syu := {}
  fab : Fabric := {}
  units : Units := {}
  card : Carding := {}
  parts : Tbl Part := []
  power : Module := {}
  clock : Clock := {}
  free : Nat := 0
  out : List OutEv := []
  deriving DecidableEq, Repr

/-- Held fronds powered from phase P4 on, every port enabled (R462). -/
def State.resetFronds : Tbl Frond :=
  [(42, .on), (59, .on), (60, .on), (61, .on), (62, .on), (63, .on), (64, .on), (65, .on), (66, .on),
   (67, .on), (68, .on), (69, .on), (70, .on), (71, .on), (72, .on), (73, .on), (74, .on), (75, .on), (76, .on),
   (77, .on), (78, .on), (79, .on), (80, .on), (81, .on), (82, .on), (83, .on), (84, .on), (85, .on), (86, .on),
   (87, .on), (88, .on), (89, .on), (90, .on), (91, .on), (92, .on), (93, .on), (94, .on), (95, .on)]

/-- The 21 enabled ports in training, as phase P8 begins (R329, R473). -/
def State.resetPorts : Tbl Port := (List.range 21).map (fun p => (p, { state := 1 }))

/-- The part right after a device cold reset: host-ready, with start-up phases P8 to P10 still to end (R473); every entry
at its default, memory cleared (R265), no owner active, no queue, key slot 0 holding the device's key (R261), firmware in
slot 0, and the record of the reset itself still to be written (R487). DESIGN CHOICE where the manual gives no value: log
entries 20 to 35. -/
def State.reset : State :=
  { fronds := { st := State.resetFronds }
    th := { fw0 := { version := Config.firmwareVersion, valid := true } }
    resets := [{ level := 7, target := 0xFFF, cause := 12 }]
    fab := { ports := State.resetPorts }
    mc := { keys := [(0, { active := true, gen := 1, fresh := 0 })], keyDraws := 1 } }

end Sys2Proof.Machine
end

