-- ==== Sys2Proof/Machine/Ops.lean ====
section
/-!
DEFINITION. Machine/Ops.lean: the named operations over the state: dictionary entries, owners, windows, memory under a
key, outputs, and raising a fault as one shared operation (R479 to R485).
-/
namespace Sys2Proof.Machine

/-! ### Dictionary entries -/

/-- Partition an entry key belongs to, and the key of the same entry for partition 0 (indexes from 0x3000 by 0x80). -/
def keyPart (k : Nat) : Nat × Nat :=
  let i := k / 256
  if i < 0x3000 then (0, k)
  else let p := (i - 0x3000) / 0x80; (p, k - p * 0x80 * 256)

/-- Row of the dictionary for a key. -/
def specOf (k : Nat) : Option EntrySpec :=
  if (keyPart k).1 < 32 then findSpec entryTable (keyPart k).2 else none

/-- Value in force of an entry: the one stored, or its default (R11, R458). -/
def entV (s : State) (k : Nat) : Val :=
  match tget? s.dict k with
  | some v => v
  | none => match specOf k with
    | some e => e.dflt
    | none => .num 0

/-- Number in force of an entry. -/
def ent (s : State) (k : Nat) : Nat := valNat (entV s k)

/-- Key of a per-partition entry: index base (for partition 0), subindex, partition. -/
def pKey (base sub p : Nat) : Nat := (base + 0x80 * p) * 256 + sub

/-- Number in force of a per-partition entry. -/
def pEnt (s : State) (base sub p : Nat) : Nat := ent s (pKey base sub p)

/-- An entry's value in force set. -/
def setEntV (s : State) (k : Nat) (v : Val) : State := { s with dict := tput s.dict k v }

/-- An entry's number in force set. -/
def setEnt (s : State) (k n : Nat) : State := setEntV s k (.num n)

/-- A counter counts n more, without wrapping (R77 and its like). -/
def bump (s : State) (k n : Nat) : State := setEnt s k (satAdd 64 (ent s k) n)

/-- Value that a place holds of an entry that it takes at its own boundary (R459). -/
def entAt (s : State) (k place : Nat) : Nat :=
  match tget? s.placeVals (k * 256 + place) with
  | some v => valNat v
  | none => ent s k

/-- A fresh free value: one that the manual does not state. -/
def takeFree (s : State) : Nat × State := (Config.freeValue s.free, { s with free := s.free + 1 })

/-! ### Owners and keys -/

/-- An owner's record. -/
def ownerRec (s : State) (o : Nat) : Owner := tgetD s.owners o {}

/-- Fields of an owner's entry (Table 13-2). -/
def ownerPart (s : State) (o : Nat) : Nat := bits (ownerRec s o).entry 91 5
def ownerFn (s : State) (o : Nat) : Nat := bits (ownerRec s o).entry 80 11
def ownerPasid (s : State) (o : Nat) : Nat := bits (ownerRec s o).entry 60 20
def ownerAdmin (s : State) (o : Nat) : Nat := bits (ownerRec s o).entry 40 20

/-- Current epoch of an owner instance. -/
def ownerEpoch (s : State) (o : Nat) : Nat := (ownerRec s o).epoch

/-- State of an owner. -/
def ownerState (s : State) (o : Nat) : OwnerState := (ownerRec s o).state

/-- Number of a state of an owner (Table 13-2). -/
def ownerStateNum : OwnerState → Nat
  | .free => 0
  | .active => 1
  | .preempting => 2
  | .preempted => 3
  | .resetting => 4

/-- An owner's record changed. -/
def modOwner (s : State) (o : Nat) (f : Owner → Owner) : State := { s with owners := tupd s.owners o {} f }

/-- Key slot of an owner (R261). -/
def keySlot (s : State) (o : Nat) : KeySlot := tgetD s.mc.keys o {}

/-- Whether an owner's key slot is active. -/
def keyActive (s : State) (o : Nat) : Bool := (keySlot s o).active

/-- The number that tells an owner's present key from its earlier ones. -/
def keyGen (s : State) (o : Nat) : Nat := (keySlot s o).fresh

/-! ### Windows -/

/-- Kinds of access (Table 08-2). -/
inductive Acc where
  | read | write | atomic
  deriving DecidableEq, Repr

/-- Whether a window entry admits an access of n bytes at a walker pointer (R248). -/
def winAdmits (e : Nat) (a n : Nat) (k : Acc) : Bool :=
  bit e 95 && (bit e 94 == isTile a) && decide (bits e 0 39 ≤ ptrOff a) && decide (ptrOff a + n ≤ bits e 39 39) &&
  (match k with
    | .read => bit e 93
    | .write => bit e 92
    | .atomic => bit e 91)

/-- Whether one of the first n local windows of an owner admits an access. -/
def winAny (s : State) (o a n : Nat) (k : Acc) : Nat → Bool
  | 0 => false
  | w + 1 => winAdmits (tgetD s.mc.windows (o * 8 + w) 0) a n k || winAny s o a n k w

/-- Whether an access of an owner passes: one valid window contains it whole and admits its kind (R248); the device's own
accesses are not checked. -/
def winOk (s : State) (o a n : Nat) (k : Acc) : Bool :=
  extentExists a n && (o == 0 || winAny s o a n k 8)

/-! ### Memory under a key -/

/-- Whether bytes of local memory read as poisoned (R241, R255, R259). -/
def poisonAt (s : State) (a n : Nat) : Bool := rdPoisoned s.mem a n

/-- Bytes of local memory as an owner reads them. -/
def rd (s : State) (o a n : Nat) : List Nat := rdList s.mem o (keyGen s o) a n

/-- A little-endian structure of n bytes as an owner reads it. -/
def rdNat (s : State) (o a n : Nat) : Nat := leNat (rd s o a n)

/-- Retained staged copies that a write leaves: none whose operand it touches (R103). -/
def keepRetained (r : List Retained) (a n : Nat) : List Retained :=
  r.filter (fun x => !rangesMeet x.ptr x.len a n)

/-- A write of an owner committed at the MC: granules in failed parts are discarded and counted (R259), retained staged
copies of the bytes are discarded (R103). -/
def wr (s : State) (o a : Nat) (b : List Nat) : State :=
  let r := writeMem s.mem o (keyGen s o) a b
  let s1 := { s with mem := r.1, units := { s.units with retained := keepRetained s.units.retained a b.length } }
  if r.2 = 0 then s1 else bump s1 0x280208 r.2

/-- Tile Store bytes zeroed (R245), which counts as a write (R103). -/
def zeroTileS (s : State) (o n : Nat) : State :=
  { s with mem := zeroTile s.mem o n, units := { s.units with retained := keepRetained s.units.retained (tilePtr o) n } }

/-- The poison unit of a byte marked. -/
def poisonS (s : State) (a : Nat) : State := { s with mem := markPoison s.mem a }

/-! ### Outputs -/

/-- An act seen outside. -/
def emit (s : State) (e : OutEv) : State := { s with out := s.out ++ [e] }

/-- A request to the host; held while the PCIe link is down (0xB00C). -/
def toHost (s : State) (e : OutEv) : State :=
  if s.host.up then emit s e else { s with host := { s.host with held := s.host.held ++ [e] } }

/-- A write to host memory for an owner: its function and PASID (R405). -/
def hostWr (s : State) (o addr : Nat) (b : List Nat) : State :=
  toHost s (.hostWrite (ownerFn s o) (if o = 0 then 0 else ownerPasid s o) addr b)

/-- A write to a ring in host memory, or in local HBM under the owner's key. -/
def ringWr (s : State) (o : Nat) (local_ : Bool) (addr : Nat) (b : List Nat) : State :=
  if local_ then wr s o addr b else hostWr s o addr b

/-- Node ID of the device on the field port: the one in force, or one written through the mailbox since (R447). -/
def nodeId (s : State) : Nat := s.th.selectedNode

/-- Version of the firmware image that runs (R439). -/
def fwVersion (s : State) : Nat := if s.th.running = 0 then s.th.fw0.version else s.th.fw1.version

/-- Identifier of a field frame (Table 14-1). -/
def frameId (cls dst src tag : Nat) : Nat := fld cls 26 3 + fld dst 19 7 + fld src 12 7 + fld tag 0 12

/-- A frame sent on the field port; in a node ID conflict the device sends heartbeats only (R447), and off the bus
nothing (R448). -/
def sendFrame (s : State) (cls dst tag : Nat) (data : List Nat) : State :=
  if s.th.busOff ∨ (s.th.conflict ∧ cls ≠ 7) then s else emit s (.can (frameId cls dst (nodeId s) tag) data)

/-! ### Faults -/

/-- Source units (Table 15-2). -/
def srcArray : Nat := 0x01
def srcWalker : Nat := 0x02
def srcDma : Nat := 0x03
def srcVector : Nat := 0x04
def srcSfu : Nat := 0x05
def srcDrain : Nat := 0x06
def srcStep : Nat := 0x07
def srcCde : Nat := 0x08
def srcPly : Nat := 0x09
def srcMc : Nat := 0x0A
def srcMee : Nat := 0x0B
def srcTile : Nat := 0x0C
def srcBpm : Nat := 0x0D
def srcSyu : Nat := 0x0E
def srcFabric : Nat := 0x0F
def srcPort : Nat := 0x10
def srcGuard : Nat := 0x11
def srcLedger : Nat := 0x12
def srcFlc : Nat := 0x13
def srcPle : Nat := 0x14
def srcQueue : Nat := 0x15
def srcPcie : Nat := 0x16
def srcThallus : Nat := 0x17
def srcModule : Nat := 0x18
def srcRecorder : Nat := 0x19

/-- Items of a detail field (R480): value and width in bits, the first in the lowest bits; the field and whether items
were left out. An item with no value is all ones of its width. -/
def packItems : List (Nat × Nat) → Nat → Nat × Bool
  | [], _ => (0, false)
  | (v, w) :: r, pos =>
    if pos + w > 64 then (0, true)
    else let x := packItems r (pos + w); (fld v pos w + x.1, x.2)

/-- A fault as a unit raises it: code, source, owner, queue, sequence number, whether it is the first of its operation,
and the items of its detail. -/
structure Flt where
  code : Nat
  src : Nat
  owner : Nat := 0
  queue : Nat := 0xFFFFF
  seq : Nat := 18446744073709551615
  first : Bool := false
  items : List (Nat × Nat) := []
  deriving DecidableEq, Repr

/-- The fault record (Table 15-1). -/
def recordOf (s : State) (f : Flt) : Nat :=
  let d := packItems f.items 0
  fld s.clock.ns 192 64 + fld f.seq 128 64 + fld d.1 64 64 + fld f.code 48 16 + fld f.queue 28 20 + fld f.owner 16 12 +
  fld (if f.owner = 0 then 0x1F else ownerPart s f.owner) 11 5 + fld f.src 4 7 + fld (b2n d.2) 3 1 +
  fld (b2n f.first) 2 1 + 2

/-- A record sent as a notice where its class is in the mask, at most 100 per second (R485). -/
def noticeOf (s : State) (r : Nat) : State :=
  if bit (ent s 0x2D0301) (bits r 60 4) && decide (s.th.noticesThisSecond < 100) then
    sendFrame { s with th := { s.th with noticesThisSecond := s.th.noticesThisSecond + 1 } } 0 0 Config.ownTag (natLe 32 r)
  else s

/-- The last page with one record more; none where no page has room (R482). -/
def pageRoom : List Page → Option (List Page × Page)
  | [] => none
  | [x] => if x.count < x.cap then some ([{ x with count := x.count + 1 }], x) else none
  | x :: r => (pageRoom r).map (fun y => (x :: y.1, y.2))

/-- A record taken under the next number: into the last page where it has room, otherwise into the on-die store
(R482, R483). -/
def storeRecord (s : State) (r : Nat) : State :=
  let l := { s.log with records := tput s.log.records s.log.next r, next := s.log.next + 1 }
  match pageRoom s.log.pages with
  | some (ps, x) => noticeOf (wr { s with log := { l with pages := ps } } 0 (x.ptr + 32 * x.count) (natLe 32 r)) r
  | none => noticeOf { s with log := { l with onDie := l.onDie + 1 } } r

/-- The recorder takes a record: lost where the store is full; after a loss the 0xC013 record goes first (R483). -/
def takeRecord (s : State) (r : Nat) : State :=
  if s.log.onDie ≥ 4096 then
    bump (bump { s with log := { s.log with lostSince := s.log.lostSince + 1 } } 0x2D0106 1) 0x290309 1
  else if s.log.lostSince > 0 ∧ s.log.onDie < 4095 then
    let l := recordOf s { code := 0xC013, src := srcRecorder, items :=
      [(min s.log.lostSince 0xFFFF, 16), (s.log.next - 1, 48)] }
    storeRecord (storeRecord { s with log := { s.log with lostSince := 0 } } l) r
  else storeRecord s r

/-- Whether a vector of a function exists: the PF holds 32, a VF within the budget holds msix_per_vf (R407, R408). -/
def vectorHeld (s : State) (fn v : Nat) : Bool :=
  if fn = 0 then decide (v < 32)
  else decide (fn ≤ s.host.budget.getD 1024) && decide (v < ent s 0x210005)

/-- A record written to its owner's fault ring (R484). -/
def ringRecord (s : State) (o r : Nat) : State :=
  let w := ownerRec s o
  let e := w.ring
  if o = 0 ∨ ¬ bit e 0 then s
  else
    let slot := w.ringCount % 2 ^ bits e 10 4
    let s1 := ringWr s o (bit e 15) (bits e 192 64 + 32 * slot) (natLe 32 r)
    let s2 := modOwner s1 o (fun x => { x with ringCount := x.ringCount + 1 })
    let s3 := hostWr s2 o (bits e 128 64) (natLe 8 (w.ringCount + 1))
    if !(bit e 16 && vectorHeld s (ownerFn s o) (bits e 17 11)) then s3
    else if w.ringHoldoff then modOwner s3 o (fun x => { x with ringDue := true })
    else toHost (modOwner s3 o (fun x => { x with ringHoldoff := true })) (.msix (ownerFn s o) (bits e 17 11))

/-- Whether the recorder takes records: from the end of phase P0 of a start-up that goes on, and while the main rails are
up (R483, R526). -/
def recorderOn (s : State) : Bool := s.power.railState == 2 || (s.startup.main.isSome && !s.startup.stopped)

/-- A unit raises a fault: one record, in the log, on the field port where the mask names its class, and in its owner's
fault ring (R481 to R485). A record raised as the main rails go off is kept in the retention SRAM (R526). The record wakes
the Thallus (R437). -/
def raise (s : State) (f : Flt) : State :=
  let r := recordOf s f
  let s1 := { s with log := { s.log with raised := s.log.raised + 1 }, th := { s.th with ckRuns := true } }
  if recorderOn s then ringRecord (takeRecord s1 r) f.owner r
  else { s1 with power := { s1.power with kept := s1.power.kept ++ [r] } }

/-- A fault of the device itself, tied to no operation. -/
def raiseDev (s : State) (code src : Nat) (items : List (Nat × Nat)) : State :=
  raise s { code := code, src := src, items := items }

/-- A fault that concerns an owner but no operation. -/
def raiseOwner (s : State) (code src o : Nat) (items : List (Nat × Nat)) : State :=
  raise s { code := code, src := src, owner := o, items := items }

end Sys2Proof.Machine
end

