-- ==== Sys2Proof/Machine/Operands.lean ====
section
/-!
DEFINITION. Machine/Operands.lean: the operand forms of operations: descriptor headers and bodies (Tables 13-4 to 13-6),
pointers (R80), format bytes, and structures read from memory.
-/
namespace Sys2Proof.Machine

/-- The fields of a descriptor header, of either version (Tables 13-4 and 13-5). -/
structure Head where
  version : Nat
  opcode : Nat
  check : Bool
  gated : Bool
  gateStep : Nat
  twoPhase : Bool
  switchPtr : Nat
  touched : Bool
  touchedPtr : Nat
  auxPtr : Nat
  drawOp : Nat
  sigKind : Nat
  sigIndex : Nat
  deriving DecidableEq, Repr

/-- Header of a version 2 descriptor (Table 13-4). -/
def head2 (h : Nat) : Head :=
  { version := bits h 0 8, opcode := bits h 272 8, check := bit h 271, gated := bit h 270, gateStep := bits h 280 16,
    twoPhase := bit h 269, switchPtr := bits h 408 40, touched := bit h 268, touchedPtr := bits h 368 40,
    auxPtr := bits h 328 40, drawOp := bits h 296 32, sigKind := bits h 266 2, sigIndex := bits h 248 18 }

/-- Header of a version 1 descriptor (Table 13-5): never gated, never two-phase, draw_op 0 (R419). -/
def head1 (h : Nat) : Head :=
  { version := bits h 0 8, opcode := bits h 472 8, check := bit h 471, gated := false, gateStep := 0, twoPhase := false,
    switchPtr := 0, touched := false, touchedPtr := 0, auxPtr := 0, drawOp := 0, sigKind := bits h 469 2,
    sigIndex := bits h 451 18 }

/-- Header of an operation of a queue whose granted version is given. -/
def headFields (granted h : Nat) : Head := if granted = 1 then head1 h else head2 h

/-- Queue record. -/
def queueOf (s : State) (q : Nat) : Option Queue := tget? s.queues q

/-- Owner of a queue, its granted version, and its message ring (Table 13-3). -/
def qOwner (x : Queue) : Nat := bits x.ctx 288 12
def qVersion (x : Queue) : Nat := bits x.ctx 272 2
def qPriority (x : Queue) : Nat := bits x.ctx 274 2

/-- The operation at the head of a queue: the first accepted one that has not completed (R423). -/
def qHead (x : Queue) : Option Op := x.ops.find? (fun o => o.progress != .completed)

/-- Head of a queue by number. -/
def headOp (s : State) (q : Nat) : Option Op := (queueOf s q).bind qHead

/-- Header fields of an operation at the head of a queue. -/
def headOf (x : Queue) (o : Op) : Head := headFields (qVersion x) o.hdr

/-- An operation of a list changed, by its sequence number. -/
def modSeq (l : List Op) (seq : Nat) (f : Op → Op) : List Op := l.map (fun o => if o.seq = seq then f o else o)

/-- A queue changed. -/
def modQueue (s : State) (q : Nat) (f : Queue → Queue) : State := { s with queues := tmod s.queues q f }

/-- An operation of a queue changed. -/
def modOp (s : State) (q seq : Nat) (f : Op → Op) : State :=
  modQueue s q (fun x => { x with ops := modSeq x.ops seq f })

/-- Opcodes of version 1 (Table 13-6). -/
def opcodeV1 : List Nat := [0x03, 0x04, 0x05, 0x06, 0x07, 0x0D, 0x0E, 0x0F, 0x10]

/-- Opcodes that may be gated (Table 13-6). -/
def opcodeGateable : List Nat := [0x01, 0x02, 0x03, 0x04, 0x0B, 0x0D]

/-- Highest subop of an opcode that has one, with the position of its field. -/
def subops (opcode : Nat) : Nat :=
  if opcode = 0x06 then 13 else if opcode = 0x07 then 3 else if opcode = 0x0A then 3 else 0

/-- Vector function codes (Table 13-8). -/
def vectorCodes : List Nat :=
  [0x01, 0x02, 0x03, 0x04, 0x05, 0x06, 0x10, 0x11, 0x12, 0x13, 0x14, 0x15, 0x20, 0x21, 0x22, 0x23, 0x24, 0x25, 0x26,
   0x27, 0x28, 0x29, 0x30]

/-- Subop of a body. -/
def subopOf (body : Nat) : Nat := bits body 504 8

/-- Body bits that Table 13-6 lists for an opcode and subop, as (lowest bit, width); a body keeps every other bit zero. -/
def bodyFields (opcode sub : Nat) : List (Nat × Nat) :=
  match opcode with
  | 0x01 => [(472, 40)]
  | 0x02 => [(0, 512)]
  | 0x03 => [(177, 335)]
  | 0x04 => [(188, 324)]
  | 0x05 => [(496, 16)]
  | 0x06 => [(504, 8), (502, 2), (484, 18), (472, 12), (408, 64), (368, 40), (356, 12), (355, 1)]
  | 0x07 => [(504, 8), (496, 8), (488, 8), (448, 40), (384, 64)]
  | 0x08 => [(472, 40)]
  | 0x09 => [(472, 40), (432, 40)]
  | 0x0A => if sub = 1 then [(504, 8), (503, 1), (493, 10), (432, 40)] else [(504, 8), (503, 1), (493, 10)]
  | 0x0B => [(460, 52), (448, 12), (440, 8), (439, 1), (374, 64), (310, 64), (270, 40)]
  | 0x0C => [(460, 52), (420, 40), (419, 1)]
  | 0x0E => [(0, 512)]
  | 0x0F => [(492, 20)]
  | 0x10 => [(492, 20), (452, 40)]
  | _ => []

/-- A word with the given fields cleared. -/
def clearFields (x : Nat) (l : List (Nat × Nat)) : Nat := l.foldl (fun y f => setBits y f.1 f.2 0) x

/-- Position of the lowest bit set outside the listed fields, if any. -/
def strayBit (x : Nat) (w : Nat) (l : List (Nat × Nat)) : Option Nat :=
  let y := clearFields x l
  if y = 0 then none else some (lowestSet y w)

/-- What a descriptor's own checks find: the first code and its field (R414, R418, R419). -/
def descCheck (granted : Nat) (hdr body : Nat) : Option (Nat × Nat) :=
  let h := headFields granted hdr
  if h.version ≠ granted then some (0xB001, h.version)
  else if granted = 1 ∧ bits hdr 8 443 ≠ 0 then some (0xB002, 8 + lowestSet (bits hdr 8 443) 443)
  else if granted ≠ 1 ∧ bits hdr 8 240 ≠ 0 then some (0xB002, 8 + lowestSet (bits hdr 8 240) 240)
  else if h.opcode = 0 ∨ 0x10 < h.opcode then some (0xB002, if granted = 1 then 472 else 272)
  else if granted = 1 ∧ ¬ opcodeV1.contains h.opcode then some (0xB004, h.opcode)
  else if h.sigKind = 3 then some (0xB002, if granted = 1 then 469 else 266)
  else if subops h.opcode ≠ 0 ∧ (subopOf body = 0 ∨ subops h.opcode < subopOf body) then some (0xB002, 504)
  else if h.opcode = 0x03 ∧ ¬ vectorCodes.contains (subopOf body) then some (0xB002, 504)
  else if h.gated ∧ ¬ opcodeGateable.contains h.opcode then some (0xB002, 270)
  else if h.twoPhase ∧ h.switchPtr = 0 then some (0xB002, 408)
  else if ¬ h.twoPhase ∧ h.switchPtr ≠ 0 then some (0xB002, 408)
  else if ¬ h.touched ∧ h.touchedPtr ≠ 0 then some (0xB002, 368)
  else if h.touched ∧ h.touchedPtr = 0 then some (0xB003, 368)
  else if h.auxPtr ≠ 0 ∧ h.opcode ≠ 0x02 then some (0xB002, 328)
  else if granted = 1 ∧ bits body 0 64 ≠ 0 then some (0xB002, lowestSet (bits body 0 64) 64)
  else (strayBit body 512 (bodyFields h.opcode (subopOf body))).map (fun b => (0xB002, b))

/-- Whether a pointer names n bytes inside its owner's windows (R80); zero names nothing. -/
def ptrOk (s : State) (o a n : Nat) (k : Acc) : Bool := a != 0 && winOk s o a n k

/-- Bytes of n packed elements of a format (R34). -/
def packedBytes (fmt n : Nat) : Nat := (n * elemBits fmt + 7) / 8

/-- Element format code and tile_scaled bit of a format byte (Table 02-4). -/
def fbCode (f : Nat) : Nat := bits f 0 4
def fbTile (f : Nat) : Bool := bit f 4

/-- n elements of a format packed from a bit offset in bytes, lowest first (R34). -/
def elemAt (b : List Nat) (fmt i : Nat) : Nat := bits (leNat ((b.drop (i * elemBits fmt / 8)).take 5)) (i * elemBits fmt % 8) (elemBits fmt)

/-- Bytes with an element of a format replaced (R34). -/
def packElems (fmt : Nat) (l : List Nat) : List Nat :=
  let w := elemBits fmt
  let x := (l.reverse).foldl (fun a e => a * 2 ^ w + e % 2 ^ w) 0
  natLe ((l.length * w + 7) / 8) x

/-- A structure of n bytes read by an owner: its value, or poison. -/
def readStruct (s : State) (o a n : Nat) : Option Nat := if poisonAt s a n then none else some (rdNat s o a n)

end Sys2Proof.Machine
end

