-- ==== Sys2Proof/Machine/Flags.lean ====
section
/-!
DEFINITION. Machine/Flags.lean: the flags of partitions and operations: the local finite flag (R180), the completion
status bits (Table 13-10), the gate of a step's decision (R183, R188).
-/
namespace Sys2Proof.Machine

/-- What a partition keeps beside its entries. -/
def partOf (s : State) (p : Nat) : Part := tgetD s.parts p {}

/-- A partition's record changed. -/
def modPart (s : State) (p : Nat) (f : Part → Part) : State := { s with parts := tupd s.parts p {} f }

/-- The local finite flag cleared, and the clearing counted (R180, 0x2601:05). -/
def clearLocalFinite (s : State) (p : Nat) : State :=
  bump (modPart s p (fun x => { x with localFinite := false })) 0x260105 1

/-- Current step number of a partition. -/
def stepNumber (s : State) (p : Nat) : Nat := pEnt s 0x3020 2 p

/-- Whether a partition has a step barrier (R183). -/
def hasStepBarrier (s : State) (p : Nat) : Bool := pEnt s 0x3028 9 p != 0xFFFFFFFF

/-- Completion status bits: non-finite, integer saturation, re-run (Table 13-10). -/
def bitNonfinite : Nat := 1
def bitIntSat : Nat := 2
def bitRerun : Nat := 4

/-- Whether a completing operation clears its partition's local finite flag (R180). -/
def clearsFinite (check : Bool) (o : Op) : Bool :=
  check && (o.wroteNonfinite || bit o.statusBits 0 || bit o.statusBits 1 || decide (o.status = 0x10 ∨ o.status = 0x11 ∨ o.status = 0x12))

/-- What the gate answers for an operation (R183, R188). -/
inductive Gate where
  | run | wait | skip | hold
  | refuse (code : Nat)
  deriving DecidableEq, Repr

/-- Whether the touched byte that an operation names reads untouched (R188). -/
def untouched (s : State) (o : Op) (h : Head) : Bool :=
  h.touched && !poisonAt s h.touchedPtr 1 && rdNat s o.owner h.touchedPtr 1 == 2

/-- The gate of a decision: 0 not formed, 1 finite, 2 skip. -/
def gateDecision (s : State) (p : Nat) (o : Op) (h : Head) (d : Nat) : Gate :=
  if d = 0 then .wait
  else if d = 2 then .skip
  else if untouched s o h ∧ pEnt s 0x3020 0x0C p = 1 then .hold
  else .run

/-- The gate of an operation (R183, R188). -/
def gateOf (s : State) (p : Nat) (o : Op) (h : Head) : Gate :=
  if ¬ h.gated then .run
  else if o.gate ≠ 0 then gateDecision s p o h o.gate
  else if ¬ hasStepBarrier s p then .refuse 0x5003
  else
    let d := (h.gateStep + 65536 - stepNumber s p % 65536) % 65536
    if d = 0 then gateDecision s p o h (partOf s p).decision
    else if d ≤ 0x7FFF then .wait
    else if d = 0xFFFF ∧ (partOf s p).before ≠ 0 then gateDecision s p o h (partOf s p).before
    else .refuse 0x5005

end Sys2Proof.Machine
end

