-- ==== Sys2Proof/Machine/FabricOps.lean ====
section
/-!
DEFINITION. Machine/FabricOps.lean: sending on the fabric: ports and their flits (R326 to R330, R339), flows (R337, R340,
R341), the address guard (R345, R346), late faults at the source (R350, R351).
-/
namespace Sys2Proof.Machine

/-! ### Names -/

def ownRack (s : State) : Nat := ent s 0x2B0301
def ownDev (s : State) : Nat := ent s 0x2B0302

/-- Key of the flow with a device: rack-internal, or across racks. -/
def flowKey (s : State) (rack dev : Nat) : Nat := if rack = ownRack s then dev else 2 ^ 20 + rack * 4096 + dev

/-- Whether a flow runs over Ethernet. -/
def isEth (key : Nat) : Bool := decide (2 ^ 20 ≤ key)

/-- Device and rack of a flow. -/
def keyDev (key : Nat) : Nat := key % 4096
def keyRack (s : State) (key : Nat) : Nat := if isEth key then (key - 2 ^ 20) / 4096 else ownRack s

def flowOf (s : State) (key : Nat) : Flow := tgetD s.fab.flows key {}
def setFlow (s : State) (key : Nat) (f : Flow) : State := { s with fab := { s.fab with flows := tput s.fab.flows key f } }
def modFlow (s : State) (key : Nat) (f : Flow → Flow) : State :=
  { s with fab := { s.fab with flows := tupd s.fab.flows key {} f } }

def portOf (s : State) (p : Nat) : Port := tgetD s.fab.ports p {}
def modPort (s : State) (p : Nat) (f : Port → Port) : State :=
  { s with fab := { s.fab with ports := tupd s.fab.ports p {} f } }

/-- Whether a port carries packets: up, at full or reduced width (0x2B01:02). -/
def portUp (s : State) (p : Nat) : Bool := (portOf s p).state == 3 || (portOf s p).state == 4

/-- Whether a device is trusted (R343). Flows across racks are admitted by the rack map. -/
def trustedKey (s : State) (key : Nat) : Bool := isEth key || s.fab.trusted.contains key

/-! ### Ports -/

/-- The near port to a device of the same quad (R330). -/
def nearPort (s : State) (d : Nat) : Option Nat :=
  let me := ownDev s
  if d / 4 = me / 4 ∧ d ≠ me then some (16 + (d % 4 + 3 - me % 4) % 4) else none

/-- The port of a list with the fewest bytes queued, the lower on ties. -/
def leastQueued (s : State) : List Nat → Option Nat
  | [] => none
  | p :: r => match leastQueued s r with
    | none => some p
    | some q => if (portOf s q).queued < (portOf s p).queued then some q else some p

/-- The IPv6 address of a device of a rack in the rack map, at its Ethernet port 0 or 1 (R401). -/
def remoteAddr (s : State) (rack dev e : Nat) : List Nat := padTo 16 ((tgetD s.fab.racks rack []).drop (32 * dev + 16 * e))

/-- Ports over which a flow reaches its device, best first by R339: the near port where it is up, otherwise Skein ports;
or the Ethernet ports, where the rack map holds the device. `avoid` is left out where others are up. -/
def reachPort (s : State) (key : Nat) (avoid : Option Nat) : Option Nat :=
  let pick (l : List Nat) : Option Nat :=
    let up := l.filter (portUp s)
    let other := up.filter (fun p => decide (some p ≠ avoid))
    leastQueued s (if other.isEmpty then up else other)
  if isEth key then (if (remoteAddr s (keyRack s key) (keyDev key) 0 ++ remoteAddr s (keyRack s key) (keyDev key) 1).all (· == 0) then none else pick [19, 20])
  else match nearPort s key with
    | some n => if portUp s n ∧ some n ≠ avoid then some n else match pick (List.range 16) with
      | some p => some p
      | none => if portUp s n then some n else none
    | none => pick (List.range 16)

/-- Bytes cut into flit bodies of 1,016 bytes. -/
def flitBodies : Nat → List Nat → List (List Nat)
  | 0, _ => []
  | n + 1, b => padTo 1016 b :: flitBodies n (b.drop 1016)

/-- A flit (Table 11-2): its CRC covers the body and the header bits below it. -/
def flitBytes (seq ack ty credit : Nat) (body : List Nat) : List Nat :=
  let low := fld seq 20 12 + fld ack 8 12 + fld ty 6 2 + fld credit 0 6
  natLe 4 low ++ natLe 4 (crc32c (natLe 4 low ++ body)) ++ body

/-- Flits that wait on a Skein or near port leave while it holds credits and fewer than 2,048 are unacknowledged
(R327, R328). -/
def pumpPort : Nat → Port → Port
  | 0, x => x
  | n + 1, x =>
    match x.txWait with
    | [] => x
    | b :: r =>
      if x.credits = 0 ∨ 2048 ≤ x.replayBuf.length then x
      else pumpPort n { x with txWait := r, credits := x.credits - 1, replayBuf := x.replayBuf ++ [b],
                               txSeq := (x.txSeq + 1) % 4096 }

/-- Whether a port is linked to a Druner D1 (R366). -/
def portD1 (s : State) (p : Nat) : Bool := decide (p < 16) && bits (portOf s p).peer 248 8 == 1

/-- A packet's bytes handed to a port for a device: its flits, or its datagram on an Ethernet port after the address it goes to, which waits while the port is paused
(R326, R362, R363); a header to a D1 is of version 1 (R366). -/
def portSend (s : State) (p dev : Nat) (k : Packet) : State :=
  let bytes := natLe 32 (pkHeader (if portD1 s p then { k with version := 1 } else k)) ++ k.payload
  let count (x : Port) : Port := { x with queued := x.queued + bytes.length }
  if 19 ≤ p then
    let d := remoteAddr s k.dstRack dev (p - 19) ++ [k.srcRack, k.dstRack, 2, 0, 0, 0, 0, 0] ++ bytes
    if (portOf s p).pause = 0 then modPort (emit s (.port p k.ty d)) p count
    else modPort s p (fun x => { count x with txWait := x.txWait ++ [k.ty :: d] })
  else
    modPort (emit s (.port p k.ty bytes)) p (fun x =>
      pumpPort 4096 { count x with txWait := x.txWait ++ flitBodies (ceilDiv bytes.length 1016) bytes })

/-! ### Late faults at the source -/

/-- The operation that sent a packet, where it has not completed. -/
def senderOp (s : State) (q seq : Nat) : Option Op :=
  (queueOf s q).bind (fun x => x.ops.find? (fun o => o.seq == seq && o.progress != .completed))

/-- An operation stopped by a far side, with its code (R351). -/
def stopFar (s : State) (q seq code : Nat) : State :=
  match senderOp s q seq with
  | none => s
  | some o =>
    if 0x10 ≤ o.status then s
    else modOp s q seq (fun x => { x with progress := .finished, status := 0x11, faults := x.faults + 1,
                                          code := if x.faults = 0 then code else x.code })

/-- The operation that a packet belongs to: the one that sent it, or the Carding operation that holds its copy group. -/
def senderOf (s : State) (x : Sent) : Nat × Nat :=
  if x.q ≠ 0xFFFFF then (x.q, x.seq)
  else match s.card.ops.find? (fun c => c.2.group == x.pk.group && decide (0xF000 ≤ x.pk.group)) with
    | some c => (c.1, c.2.seq)
    | none => (0xFFFFF, 18446744073709551615)

/-- A late fault taken at the source of a packet: recorded for its owner, in its copy group, and against its operation
(R350, R351). -/
def takeLate (s : State) (x : Sent) (target code : Nat) : State :=
  let o := senderOf s x
  let s1 := raiseOwner s 0xA008 srcFabric x.pk.owner [(x.pk.group, 16), (x.pk.addr, 52), (target, 12), (code, 16)]
  let g := tgetD s1.fab.groups x.pk.group {}
  let gs := tput s1.fab.groups x.pk.group (if g.err then g else { err := true, first := code, owner := x.pk.owner })
  let s2 := { s1 with fab := { s1.fab with groups := gs } }
  stopFar s2 o.1 o.2 code

/-- A waiting load or coherent request answered with poisoned data. -/
def poisonRequests (s : State) (dev : Nat) : State :=
  { s with fab := { s.fab with requests := s.fab.requests.map (fun r =>
    if r.home = dev ∧ ¬ r.done then { r with poisoned := true, done := true } else r) } }

/-- Atomics with a target that end as outcome unknown (R341, R355): one fault for each owner, their operations stopped;
their slots stay taken until the target's flows are reset. -/
def unknownAtomics (s : State) (dev : Nat) : State :=
  let mine := s.fab.slots.filter (fun x => x.1 / 256 == dev && x.2.queue != 0xFFFFF)
  let owners := (mine.map (fun x => x.2.owner)).eraseDups
  let s1 := owners.foldl (fun t o => raiseOwner t 0xA00D srcLedger o
    [(dev, 12), (o, 12), ((mine.filter (fun x => x.2.owner == o)).length, 16)]) s
  let s2 := mine.foldl (fun t x => stopFar t x.2.queue x.2.seq 0xA00D) s1
  { s2 with fab := { s2.fab with slots := tmap s2.fab.slots (fun k x => if k / 256 = dev then { x with queue := 0xFFFFF } else x) } }

/-- A flow fails (R341): posted packets not acknowledged end as local late faults, loads as poisoned data, atomics as
outcome unknown; a FLOW_RESET asks for the restart. -/
def failFlow (s : State) (key : Nat) : State :=
  let f := flowOf s key
  let lost := f.unacked ++ f.waiting
  let s1 := raiseDev s 0xA009 srcFabric [(keyDev key, 12), (f.unacked.length, 16)]
  let s2 := setFlow s1 key { f with failed := true, unacked := [], waiting := [] }
  let s3 := (lost.filter (fun x => pkPosted x.pk.ty)).foldl (fun t x => takeLate t x (keyDev key) 0xA009) s2
  let s4 := unknownAtomics (poisonRequests s3 (keyDev key)) (keyDev key)
  { s4 with fab := { s4.fab with trusted := s4.fab.trusted.filter (· != key) } }

/-! ### Flows -/

/-- A packet transmitted on a port of its flow. -/
def transmit (s : State) (key : Nat) (k : Packet) (avoid : Option Nat) : State :=
  match reachPort s key avoid with
  | some p => portSend s p (keyDev key) k
  | none => s

/-- Packets that wait in a flow leave while its window has room (R340), once the flow is trusted. -/
def pumpFlow : Nat → State → Nat → State
  | 0, s, _ => s
  | n + 1, s, key =>
    let f := flowOf s key
    match f.waiting with
    | [] => s
    | x :: r =>
      if f.failed ∨ f.window ≤ f.unacked.length ∨ ¬ (trustedKey s key ∨ x.pk.ty = 0x19) then s
      else match reachPort s key none with
        | none => failFlow s key
        | some p =>
          let s1 := setFlow s key { f with waiting := r, unacked := f.unacked ++ [{ x with port := p }] }
          let s2 := bump (portSend s1 p (keyDev key) x.pk) 0x2B0701 1
          pumpFlow n (if x.pk.owner = 0 then s2 else bump s2 (pKey 0x3030 3 (ownerPart s2 x.pk.owner)) x.pk.payload.length) key

/-- A packet put into the flow with a device for an operation: sealed and numbered, and sent as the flow allows. A flow
beyond the 4,096th is refused with fault 0xA009 (R367). -/
def sendPk (s : State) (key q seq : Nat) (k : Packet) : State :=
  if ¬ thas s.fab.flows key ∧ 4096 ≤ s.fab.flows.length then
    takeLate (raiseDev s 0xA009 srcFabric [(keyDev key, 12), (0, 16)]) { pk := k, q := q, seq := seq } (keyDev key) 0xA009
  else
    let f := flowOf s key
    let k1 := pkSeal { k with src := ownDev s, dst := if pkRelayed k then k.dst else keyDev key, eth := isEth key,
                              srcRack := ownRack s, dstRack := keyRack s key }
    let x : Sent := { pk := { k1 with seq := f.txNext }, q := q, seq := seq }
    pumpFlow 1 (setFlow s key { f with txNext := (f.txNext + 1) % 2 ^ 32, waiting := f.waiting ++ [x] }) key

/-- A packet forwarded as relay on a flow of its own: renumbered there, its CRC and its other fields as they came (R335). -/
def sendOn (s : State) (key : Nat) (k : Packet) : State :=
  let f := flowOf s key
  let x : Sent := { pk := { k with seq := f.txNext, eth := false, via := ownDev s + 1 }, orig := k.seq }
  pumpFlow 1 (setFlow s key { f with txNext := (f.txNext + 1) % 2 ^ 32, waiting := f.waiting ++ [x] }) key

/-- A packet outside sequence (FLOW_ACK, FLOW_RESET, TIME_SYNC) sent to a device. -/
def sendLoose (s : State) (key : Nat) (k : Packet) : State :=
  transmit s key (pkSeal { k with src := ownDev s, dst := keyDev key, eth := isEth key, srcRack := ownRack s,
                                  dstRack := keyRack s key }) none

/-- Whether every packet of an operation has been acknowledged. -/
def opAcked (s : State) (q seq : Nat) : Bool :=
  s.fab.flows.all (fun f => (f.2.unacked ++ f.2.waiting).all (fun x => !(x.q == q && x.seq == seq)))

/-! ### The address guard -/

/-- Kinds of remote access (Table 11-6). -/
inductive Rem where
  | read | write | atomic | copyTo | copyFrom | sync
  deriving DecidableEq, Repr

/-- Whether a remote window entry admits an access: rack, device, byte range and permission (R345, R346). -/
def rwinAdmits (e rack dev off n : Nat) (k : Rem) : Bool :=
  bit e 184 && bits e 200 8 == rack && decide (bits e 188 6 ≤ dev ∧ dev ≤ bits e 194 6) &&
  (match k with
    | .sync => bit e 177
    | .read => bit e 183 && decide (bits e 0 39 ≤ off ∧ off + n ≤ bits e 39 39)
    | .write => bit e 182 && decide (bits e 0 39 ≤ off ∧ off + n ≤ bits e 39 39)
    | .atomic => bit e 181 && decide (bits e 0 39 ≤ off ∧ off + n ≤ bits e 39 39)
    | .copyTo => bit e 180 && bit e 182 && decide (bits e 0 39 ≤ off ∧ off + n ≤ bits e 39 39)
    | .copyFrom => bit e 180 && bit e 183 && decide (bits e 0 39 ≤ off ∧ off + n ≤ bits e 39 39))

/-- The first remote window of an owner that admits an access; the device's own accesses pass. -/
def guardWin (s : State) (o rack dev off n : Nat) (k : Rem) : Option Nat :=
  if o = 0 then some 0
  else (List.range 16).findSome? (fun w =>
    let e := tgetD s.fab.rwins (o * 16 + w) 0
    if rwinAdmits e rack dev off n k then some e else none)

/-- Rack address fields (Table 00-6): offset, device; bits above them are reserved (R8). -/
def raOff (a : Nat) : Nat := bits a 0 39
def raDev (a : Nat) : Nat := bits a 39 6
def raBad (a : Nat) : Bool := bits a 45 7 != 0

/-- Kinds of access as the details of 0xA006 number them: as the permission bits of Table 11-6 stand, from cache up. -/
def remKind (k : Rem) : Nat :=
  match k with
  | .read => Config.causeCode 0xA006 1
  | .write => Config.causeCode 0xA006 2
  | .atomic => Config.causeCode 0xA006 3
  | .copyTo => Config.causeCode 0xA006 4
  | .copyFrom => Config.causeCode 0xA006 4
  | .sync => Config.causeCode 0xA006 5

/-- Detail of fault 0xA006. -/
def guardItems (o dev addr : Nat) (k : Rem) : List (Nat × Nat) := [(o, 12), (dev, 12), (addr, 52), (remKind k, 8)]

end Sys2Proof.Machine
end

