-- ==== Sys2Proof/Machine/HomeDir.lean ====
section
/-!
DEFINITION. Machine/HomeDir.lean: the home directory of the coherent region (R358 to R361): grants, invalidations, recalls.
-/
namespace Sys2Proof.Machine

/-- Base and bytes of the coherent region (R358). -/
def cohBase (s : State) : Nat := ent s 0x2B0502 * 2 ^ 30
def cohSize (s : State) : Nat := ent s 0x2B0503 * 2 ^ 30

/-- Whether an offset lies in the coherent region. -/
def cohIn (s : State) (off : Nat) : Bool := decide (cohBase s ≤ off ∧ off < cohBase s + cohSize s)

/-- Directory entry of a line, by its offset / 256; in I where it is not listed. -/
def dirOf (s : State) (l : Nat) : Dir := tgetD s.fab.dir l {}

/-- A directory entry set; one in I with nothing in progress is not listed. -/
def setDir (s : State) (l : Nat) (d : Dir) : State :=
  { s with fab := { s.fab with dir := if d.state = 0 ∧ ¬ d.busy then tdel s.fab.dir l else tput s.fab.dir l d } }

/-- A coherence message about a line to a device. -/
def cohSend (s : State) (ty dev l owner epoch op : Nat) (data : List Nat) (bad : Bool) : State :=
  sendPk s dev 0xFFFFF 0 { ty := ty, src := ownDev s, dst := dev, owner := owner, epoch := epoch,
                           addr := fld (ownDev s) 39 6 + l * 256, op := op, payload := data, poisoned := bad }

/-- The line's data as memory holds it for an owner. -/
def lineData (s : State) (owner l : Nat) : List Nat := rd s owner (l * 256) 256

/-- A transaction ends: its requester is granted the line, with the data given or memory's; the home itself takes the line
back to I. -/
def homeGrant (s : State) (l want dev owner epoch sharers : Nat) (data : Option (List Nat)) : State :=
  if want = 0 then setDir s l {}
  else
    let bad := poisonAt s (l * 256) 256
    let d : Dir := if want = 1 then { state := 1, sharers := sharers ||| 2 ^ dev, owner := owner }
      else { state := 2, ownerDev := dev, owner := owner }
    cohSend (setDir s l d) 0x12 dev l owner epoch want (data.getD (lineData s owner l)) bad

/-- The grant of the transaction in progress on a line. -/
def homeFinish (s : State) (l : Nat) (data : Option (List Nat)) : State :=
  let d := dirOf s l
  homeGrant s l d.want d.requester d.reqOwner d.reqEpoch 0 data

/-- Messages to the devices of a set. -/
def cohAll (s : State) (ty l set owner epoch : Nat) : State :=
  (List.range 64).foldl (fun t d => if bit set d then cohSend t ty d l owner epoch 0 [] false else t) s

/-- A transaction begins on a line for a requester: granted at once, or after invalidations or a recall (R359). -/
def homeStart (s : State) (l want dev owner epoch : Nat) : State :=
  let d := dirOf s l
  let wait (ty set : Nat) : State :=
    cohAll (setDir s l { d with busy := true, want := want, requester := dev, reqOwner := owner, reqEpoch := epoch, waitFor := set })
      ty l set d.owner epoch
  if d.state = 2 ∧ ¬ (want ≠ 0 ∧ d.ownerDev = dev) then wait 0x15 (2 ^ d.ownerDev)
  else if d.state = 1 ∧ want ≠ 1 then
    let others := if want = 0 then d.sharers else d.sharers &&& (2 ^ 64 - 1 - 2 ^ (dev % 64))
    if others = 0 then homeGrant s l want dev owner epoch 0 none else wait 0x13 others
  else homeGrant s l want dev owner epoch (if d.state = 1 then d.sharers else 0) none

/-- A device answers: when none is left to answer, the transaction ends. -/
def homeAnswer (s : State) (l dev : Nat) (data : Option (List Nat)) : State :=
  let d := dirOf s l
  let w := if bit d.waitFor dev then d.waitFor - 2 ^ dev else d.waitFor
  if ¬ d.busy then s
  else if w = 0 then homeFinish s l data
  else setDir s l { d with waitFor := w }

/-- PUT_M from the line's owner (R359, R360): committed to memory, and the answer to a recall in progress. -/
def homePut (s : State) (l dev owner : Nat) (data : List Nat) : State :=
  let d := dirOf s l
  if d.state ≠ 2 ∨ d.ownerDev ≠ dev then s
  else
    let s1 := if owner = 0 ∨ keyActive s owner then wr s owner (l * 256) data else s
    if d.busy then homeAnswer (setDir s1 l { d with state := 0, ownerDev := 0 }) l dev (some data) else setDir s1 l {}

/-- Lines that a device held, and that pass a test, fall to I with memory as last written back (R361). -/
def homeForget (s : State) (dev : Nat) (f : Dir → Bool) : State :=
  (s.fab.dir.filter (fun x => x.2.state == 2 && x.2.ownerDev == dev && f x.2)).foldl (fun t x =>
    if x.2.busy then homeAnswer (setDir t x.1 { x.2 with state := 0, ownerDev := 0 }) x.1 dev none else setDir t x.1 {}) s

/-- Whether other devices hold lines of the region for an owner, or a transaction on one is in progress. -/
def homeHeld (s : State) (o : Nat) : Bool := s.fab.dir.any (fun x => x.2.owner == o || (x.2.busy && x.2.reqOwner == o))

/-- The home takes the lines held for an owner back for units of its own (R359). -/
def homeTakeBack (s : State) (o : Nat) : State :=
  (s.fab.dir.filter (fun x => x.2.owner == o && !x.2.busy)).foldl (fun t x => homeStart t x.1 0 (ownDev t) o (ownerEpoch t o)) s

end Sys2Proof.Machine
end

