-- ==== Sys2Proof/Machine/OpRun.lean ====
section
/-!
DEFINITION. Machine/OpRun.lean: starting the head of a queue, the checks before it runs, and how a run ends
(R418 to R431, R463, R464).
-/
namespace Sys2Proof.Machine

/-! ### How a run ends -/

/-- A fault of an operation: one record, the first marked, and its code kept for the completion record (R481). -/
def raiseOp (s : State) (q : Nat) (o : Op) (code src : Nat) (items : List (Nat × Nat)) : State :=
  modOp (raise s { code := code, src := src, owner := o.owner, queue := q, seq := o.seq, first := o.faults == 0,
                   items := items }) q o.seq
    (fun x => { x with faults := x.faults + 1, code := if x.faults = 0 then code else x.code })

/-- An operation's run ends with a status of Table 13-11; its completion is still to be posted (R424). -/
def endOp (s : State) (q : Nat) (o : Op) (status : Nat) : State :=
  modOp s q o.seq (fun x => { x with progress := .finished, status := status })

/-- An operation refused with a fault: it has no effect (0x10). -/
def refuseOp (s : State) (q : Nat) (o : Op) (code src : Nat) (items : List (Nat × Nat)) : State :=
  endOp (raiseOp s q o code src items) q o 0x10

/-- An operation stopped with a fault (0x11). -/
def stopOp (s : State) (q : Nat) (o : Op) (code src : Nat) (items : List (Nat × Nat)) : State :=
  endOp (raiseOp s q o code src items) q o 0x11

/-- A poisoned read of HBM counted (0x2802:03). -/
def countPoison (s : State) (a : Nat) : State := if isTile a then s else bump s 0x280203 1

/-- An operation that may not run again completes stopped with fault 0xB00A (R429); its cause is numbered from 1. -/
def notRerun (s : State) (q : Nat) (o : Op) (cause unit : Nat) : State :=
  endOp (modOp (raiseOp s q o 0xB00A srcQueue
    [(q, 20), (o.seq, 64), (Config.causeCode 0xB00A cause, 8), (unit, 16)]) q o.seq
      (fun x => { x with code := 0xB00A })) q o 0x11

/-- An operation of class R stopped by a unit: the device runs it again (R429), or it ends stopped. -/
def againOp (s : State) (q : Nat) (o : Op) (h : Head) (inPl : Bool) (unit : Nat) : State :=
  if inPl && !h.twoPhase then notRerun s q o 1 unit
  else if 8 ≤ o.runs then endOp s q o 0x11
  else modOp s q o.seq (fun x => { x with progress := .waiting, rerun := true, statusBits := bitRerun })

/-- A stop of an operation of class R for a fault of R429: the device runs it again, unless it is in place without
two_phase, or has run 8 times. -/
def rerunOp (s : State) (q : Nat) (o : Op) (h : Head) (inPl : Bool) (code src : Nat) (items : List (Nat × Nat)) : State :=
  againOp (modOp (raiseOp s q o code src items) q o.seq (fun x => if 8 ≤ o.runs then { x with code := code } else x)) q o h inPl code

/-- The commit of a two-phase operation: its switch word written whole, as its last effect (R427). -/
def commitSwitch (s : State) (q : Nat) (o : Op) (h : Head) : State :=
  if h.twoPhase then
    let w := rdNat s o.owner h.switchPtr 16
    wr s o.owner h.switchPtr (natLe 16 (fld o.seq 64 64 + fld q 44 20 + (1 - w % 2)))
  else s

/-- An operation's effects done; its commit follows with its completion, until which it holds its unit. -/
def doneOp (s : State) (q : Nat) (o : Op) : State := endOp s q o 0x01

/-- Completion items of the faults of a descriptor: queue, sequence and one more (Table 13-18). -/
def descItems (q : Nat) (o : Op) (x w : Nat) : List (Nat × Nat) := [(q, 20), (o.seq, 64), (x, w)]

/-- An operation refused for a pointer of its descriptor that breaks Table 03-2 or R80 (0xB003). -/
def badPtr (s : State) (q : Nat) (o : Op) (field : Nat) : State :=
  refuseOp s q o 0xB003 srcQueue (descItems q o field 16)

/-! ### Fronds -/

/-- State of a frond. -/
def frondState (s : State) (f : Nat) : Frond := tgetD s.fronds.st f .off

/-- A wake requested: the frond is off and not yet in the order of requests (R463). -/
def requestWake (s : State) (f : Nat) : State :=
  if frondState s f = .off ∧ ¬ s.fronds.queue.contains f then
    { s with fronds := { st := tput s.fronds.st f .waking, queue := s.fronds.queue ++ [f] } }
  else s

/-- What the units an operation needs answer. -/
inductive Need where
  | ready
  | failed (f : Nat)
  | wake (l : List Nat)
  deriving DecidableEq, Repr

/-- All of a list of fronds are needed. -/
def needAll (s : State) (l : List Nat) : Need :=
  match l.find? (fun f => frondState s f == .failed) with
  | some f => .failed f
  | none => if l.all (fun f => frondState s f == .on) then .ready else .wake (l.filter (fun f => frondState s f != .on))

/-- One of a list of fronds is needed: the failed ones take no work (R464). -/
def needAny (s : State) (l : List Nat) : Need :=
  let ok := l.filter (fun f => frondState s f != .failed)
  match ok with
  | [] => .failed (l.headD 0)
  | f :: _ => if ok.any (fun g => frondState s g == .on) then .ready else .wake [f]

/-- Fronds of the DMA engines, the CDE and the PLY. -/
def dmaFronds : List Nat := [43, 44, 45, 46, 47, 48, 49, 50]
def cdeFrond : Nat := 40
def plyFrond : Nat := 41

/-- Vector cores out of service: faults, retirement, failed fronds (R139, R464). -/
def coresOut (s : State) : Nat :=
  (List.range 32).foldl (fun m c => if bit (s.units.coreFaults ||| ent s 0x250103) c || frondState s (8 + c) == .failed
    then m + 2 ^ c else m) 0

/-- Fronds of the vector cores in service. -/
def coreFronds (s : State) : List Nat :=
  ((List.range 32).filter (fun c => !bit (coresOut s) c)).map (· + 8)

/-- Bands out of service (R74, R464). -/
def bandsOut (s : State) : Nat :=
  (List.range 8).foldl (fun m b => if bit (s.units.bandFaults ||| ent s 0x220102) b || frondState s b == .failed
    then m + 2 ^ b else m) 0

/-- Whether a band is in service. -/
def bandIn (s : State) (b : Nat) : Bool := !bit (bandsOut s) b

/-! ### Starting a head -/

/-- Whether the device serves operations: rails on and host-ready, which no device reset leaves it (R473, R475). -/
def deviceServes (s : State) : Bool :=
  s.power.railState == 2 && s.startup.hostReady

/-- Whether a partition reset is in progress. -/
def partResetting (s : State) (p : Nat) : Bool := s.resets.any (fun r => r.level == 5 && r.target == p)

/-- Whether a queue may start its head: its owner active, no maintenance hold, no reset of its partition (R411, R423,
R476). -/
def mayStart (s : State) (x : Queue) : Bool :=
  deviceServes s && ownerState s (qOwner x) == .active && ent s 0x200703 == 0 && !partResetting s x.partition

/-- Whether an operation that has started goes on; one that waits while its owner is pre-empted stays waiting (R411). -/
def mayGoOn (s : State) (x : Queue) : Bool :=
  deviceServes s && ownerState s (qOwner x) != .resetting && ownerState s (qOwner x) != .preempted &&
    !partResetting s x.partition

/-- What starting the head of a queue comes to. -/
inductive Start where
  | no                                     -- there is no such head to run
  | ends (s : State)                       -- it is refused, skipped or held, or it waits
  | go (x : Queue) (o : Op) (h : Head) (s : State)

/-- The two-phase start (R427): the switch word must lie in local HBM in the owner's windows and read clean; where it
names this operation the run was committed before. -/
def switchBad (s : State) (o : Op) (h : Head) : Bool :=
  h.twoPhase && (isTile h.switchPtr || !winOk s o.owner h.switchPtr 16 .read || !winOk s o.owner h.switchPtr 16 .write ||
    poisonAt s h.switchPtr 16)

def switchDone (s : State) (q : Nat) (o : Op) (h : Head) : Bool :=
  h.twoPhase &&
    (let w := rdNat s o.owner h.switchPtr 16; bits w 64 64 == o.seq && bits w 44 20 == q)

/-- Opcodes whose operations read or write tensors in local memory (Table 13-6). -/
def memoryOp (opcode : Nat) : Bool := [0x01, 0x02, 0x03, 0x04, 0x08, 0x09, 0x0A].contains opcode

/-- Held fronds whose units an opcode needs: the core always; the walker and the Tile Store for the array, the BPM for pool
operations, the PLE for its own (R464, Table 14-8). -/
def heldNeeds (opcode : Nat) : List Nat :=
  [95] ++ (if opcode = 1 ∨ opcode = 2 then [42, 93, 94] else if opcode = 7 then [92] else if opcode = 9 ∨ opcode = 0x0A then [91] else [])

/-- An operation whose checks pass starts once the fronds it needs are awake (R31, R463, R464), and once the lines of the
coherent region that another device holds for its owner are back at the home (R359). -/
def startAwake (s : State) (q : Nat) (x : Queue) (o : Op) (h : Head) (n : Need) : Start :=
  match (match (heldNeeds h.opcode).find? (fun f => frondState s f == .failed) with
    | some f => Need.failed f
    | none => n : Need) with
  | .ready =>
    if memoryOp h.opcode ∧ homeHeld s o.owner then
      .ends (modOp (homeTakeBack s o.owner) q o.seq (fun y => { y with progress := .waiting }))
    else .go x { o with progress := .started } h
      (modOp (if o.rerun then bump s 0x210403 1 else s) q o.seq (fun y => { y with progress := .started, rerun := false, runs := y.runs + 1 }))
  | .failed f => .ends (refuseOp s q o 0xC009 srcQueue [(f, 7)])
  | .wake l => .ends (modOp (l.foldl requestWake s) q o.seq (fun y => { y with progress := .waiting }))

/-- The gate and the two-phase start. -/
def startGate (s : State) (q : Nat) (x : Queue) (o : Op) (h : Head) (n : Need) : Start :=
  match gateOf s x.partition o h with
  | .refuse c => .ends (refuseOp s q o c srcStep
      ([(x.partition, 5), (h.gateStep, 16)] ++ (if c = 0x5005 then [(stepNumber s x.partition, 64)] else [])))
  | .wait => .ends (modOp s q o.seq (fun y => { y with progress := .waiting }))
  | .skip => .ends (endOp s q o 0x03)
  | .hold => .ends (endOp (modPart s x.partition (fun y => { y with heldAny := true })) q o 0x04)
  | .run =>
    if switchBad s o h then .ends (refuseOp s q o 0xB00D srcQueue (descItems q o 0 0))
    else if switchDone s q o h then
      .ends (endOp (modOp s q o.seq (fun y => { y with statusBits := y.statusBits ||| bitRerun })) q o 0x01)
    else startAwake s q x o h n

/-- The head of a queue started for a row of the table: it must be an operation of that opcode and subop (or vector
function; 0 for any) that has not started, of a queue that may start it. A descriptor that fails its own checks is refused whatever its opcode says. -/
def startHead (s : State) (q opcode sub : Nat) (n : Need) : Start :=
  match queueOf s q with
  | none => .no
  | some x => match qHead x with
    | none => .no
    | some o =>
      let h := headOf x o
      if ¬ mayStart s x ∨ ¬ (o.progress = .accepted ∨ o.progress = .waiting) then .no
      else match descCheck (qVersion x) o.hdr o.body with
        | some (c, f) => .ends (refuseOp s q o c srcQueue
            (if c = 0xB004 then [(q, 20), (f, 8)] else descItems q o f 16))
        | none =>
          if h.touched ∧ ¬ ptrOk s o.owner h.touchedPtr 1 .read then
            .ends (refuseOp s q o 0xB003 srcQueue (descItems q o 368 16))
          else if h.opcode ≠ opcode ∨ (sub ≠ 0 ∧ subopOf o.body ≠ sub) then .no
          else startGate s q x o h n

/-- The head of a queue as one that has started and goes on. -/
def goingHead (s : State) (q opcode : Nat) : Option (Queue × Op × Head) :=
  (queueOf s q).bind (fun x => (qHead x).bind (fun o =>
    let h := headOf x o
    if o.progress = .started ∧ h.opcode = opcode ∧ mayGoOn s x then some (x, o, h) else none))

/-- A row that runs a head from start to end: nothing where there is no such head. -/
def runHead (s : State) (q opcode sub : Nat) (n : Need) (f : State → Queue → Op → Head → State) : State :=
  match startHead s q opcode sub n with
  | .no => s
  | .ends t => t
  | .go x o h t => f t x o h

/-- Whether an output overlaps an input of an operation (R427, R429). -/
def inPlace (ins outs : List (Nat × Nat)) : Bool :=
  outs.any (fun a => ins.any (fun b => rangesMeet a.1 a.2 b.1 b.2))

end Sys2Proof.Machine
end

