-- ==== Sys2Proof/Machine/Walker.lean ====
section
/-!
DEFINITION. Machine/Walker.lean: the walker's structures, its checks in their order (R79 to R92, R111, R116), the fill
counts (R95 to R97) and the plan (R86 to R101, R104).
-/
namespace Sys2Proof.Machine

/-! ### Group control block and group table entry -/

def gcbVersion (g : Nat) : Nat := bits g 0 8
def gcbEntries (g : Nat) : Nat := bits g 8 16
def gcbEarly (g : Nat) : Bool := bit g 24
def gcbStatus (g : Nat) : Bool := bit g 25
def gcbWait (g : Nat) : Bool := bit g 26
def gcbProfiles (g : Nat) : Nat := bits g 32 16
def gcbTable (g : Nat) : Nat := bits g 48 40
def gcbFill (g : Nat) : Nat := bits g 88 40
def gcbProfile (g : Nat) : Nat := bits g 128 40
def gcbStatusPtr (g : Nat) : Nat := bits g 168 40
def gcbStagingBase (g : Nat) : Nat := bits g 208 32
def gcbStagingSize (g : Nat) : Nat := bits g 240 32
def gcbCounter (g : Nat) : Nat := bits g 272 16
def gcbTarget (g : Nat) : Nat := bits g 288 32

def enWord (e : Nat) : Nat := bits e 0 32
def enX (e : Nat) : Nat := bits e 32 24
def enN (e : Nat) : Nat := bits e 56 24
def enStride (e : Nat) : Nat := bits e 80 24
def enSegs (e : Nat) : Nat := bits e 104 16
def enFill (e : Nat) : Nat := bits e 120 16
def enJreq (e : Nat) : Nat := bits e 136 4
def enProfile (e : Nat) : Nat := bits e 144 8
def enRetain (e : Nat) : Bool := bit e 152
def enStat (e : Nat) : Nat := bits e 160 40
def enStream (e : Nat) : Nat := bits e 200 40
def enOut (e : Nat) : Nat := bits e 240 40
def enSeed (e : Nat) : Nat := bits e 280 40
def enStatScale (e : Nat) : Nat := bits e 320 40
def enStreamScale (e : Nat) : Nat := bits e 360 40
def enLdStat (e : Nat) : Nat := bits e 400 24
def enLdStream (e : Nat) : Nat := bits e 424 24
def enLdOut (e : Nat) : Nat := bits e 448 24

/-- Problem word fields (Table 02-9). -/
def pwMode (w : Nat) : Nat := bits w 26 3
def pwRole (w : Nat) : Nat := bits w 24 2
def pwTrans (w : Nat) : Bool := bit w 23
def pwSeed (w : Nat) : Nat := bits w 21 2
def pwSparse (w : Nat) : Bool := bit w 20
def pwStatFmt (w : Nat) : Nat := bits w 8 8
def pwStreamFmt (w : Nat) : Nat := bits w 0 8

/-- Fields of an entry's problem word. -/
def enMode (e : Nat) : Nat := pwMode (enWord e)
def enRole (e : Nat) : Nat := pwRole (enWord e)
def enTrans (e : Nat) : Bool := pwTrans (enWord e)
def enSparse (e : Nat) : Bool := pwSparse (enWord e)
def enStatCode (e : Nat) : Nat := fbCode (pwStatFmt (enWord e))
def enStreamCode (e : Nat) : Nat := fbCode (pwStreamFmt (enWord e))
def enStatTile (e : Nat) : Bool := fbTile (pwStatFmt (enWord e))
def enStreamTile (e : Nat) : Bool := fbTile (pwStreamFmt (enWord e))
def enComplex (e : Nat) : Bool := enMode e == 3
def enWgrad (e : Nat) : Bool := enRole e == 2

/-- Reserved tokens of an entry, R of R82. -/
def enRes (e : Nat) : Nat := enSegs e * enStride e

/-- Bits of an operand element as stored: complex elements are pairs (R66). -/
def opBits (e code : Nat) : Nat := if enComplex e then 32 else elemBits code

/-- Bits of an output element as stored (R66, R160). -/
def outBits (e prof : Nat) : Nat := elemBits (pfFormat prof) * (if enComplex e then 2 else 1)

/-- A fault found by a check: its code and detail items. -/
abbrev Bad := Nat × List (Nat × Nat)

/-- The first check that fails. -/
def firstBad : List (Option Bad) → Option Bad
  | [] => none
  | none :: r => firstBad r
  | some b :: _ => some b

/-- A check: fails with the fault where the condition holds. -/
def chk (c : Bool) (code : Nat) (items : List (Nat × Nat)) : Option Bad := if c then some (code, items) else none

/-! ### Step 1: the control block -/

/-- Whether a staging area lies in a Tile Store window of its owner and on 4,096-byte bounds (Table 03-1). -/
def stagingOk (s : State) (o base size : Nat) : Bool :=
  base % 4096 == 0 && size % 4096 == 0 && (size == 0 || winOk s o (tilePtr base) size .write)

/-- Step 1 of R91 on a control block as read, `none` a poisoned read. -/
def gcbCheck (s : State) (o : Nat) : Option Nat → Option Bad
  | none => some (0x200B, [(0xFFFF, 16)])
  | some g => firstBad [
      chk (gcbVersion g != 2) 0x2003 [(gcbVersion g, 32)],
      (reservedBad g [(27, 5), (320, 192)]).map (fun b => (0x2001, [(0xFFFF, 16), (b, 16)])),
      chk (decide (gcbEntries g < 1 ∨ 4096 < gcbEntries g)) 0x2002 [(8, 16), (gcbEntries g, 32)],
      chk (decide (gcbProfiles g < 1 ∨ 256 < gcbProfiles g)) 0x2002 [(32, 16), (gcbProfiles g, 32)],
      chk (!ptrOk s o (gcbTable g) (64 * gcbEntries g) .read || gcbTable g % 64 != 0) 0x2004 [(0xFFFF, 16), (48, 16)],
      chk (!ptrOk s o (gcbProfile g) (64 * gcbProfiles g) .read) 0x2004 [(0xFFFF, 16), (128, 16)],
      chk (gcbStatus g && !ptrOk s o (gcbStatusPtr g) (gcbEntries g) .write) 0x2004 [(0xFFFF, 16), (168, 16)],
      chk (!gcbStatus g && gcbStatusPtr g != 0) 0x2004 [(0xFFFF, 16), (168, 16)],
      chk (!gcbWait g && gcbCounter g != 0) 0x2004 [(0xFFFF, 16), (272, 16)],
      chk (!gcbWait g && gcbTarget g != 0) 0x2004 [(0xFFFF, 16), (288, 16)],
      chk (!stagingOk s o (gcbStagingBase g) (gcbStagingSize g)) 0x2004 [(0xFFFF, 16), (208, 16)]]

/-! ### Step 2: the entries -/

/-- Checks of the problem word in the order of R91: 0x1001, 0x1003, 0x1002, 0x1004, 0x1006, then 0x3001. -/
def wordCheck (i : Nat) (e : Nat) : Option Bad :=
  let w := enWord e
  let a := enStatCode e
  let b := enStreamCode e
  let same := cellElems a == cellElems b && (isIntCode a == isIntCode b) && (!isIntCode a || a == b)
  let modeOk := if enMode e = 0 then a != 0xE && b != 0xE
    else if enMode e = 3 then (a == 0xC && b == 0xC) || (a == 0xD && b == 0xD)
    else a == 0xE && b == 0xE
  firstBad [
    chk (bits w 29 3 != 0 || bits w 16 4 != 0 || bits w 13 3 != 0 || bits w 5 3 != 0 || a == 0xF || b == 0xF) 0x1001
      [(i, 16), (w, 32)],
    chk (pwRole w == 3 || decide (3 < pwMode w) || decide (1 < pwSeed w)) 0x1003 [(i, 16), (w, 32)],
    chk (!same || !modeOk) 0x1002 [(i, 16), (pwStatFmt w, 8), (pwStreamFmt w, 8)],
    chk (pwTrans w && !pwSparse w && isMx a && !enStatTile e) 0x1004 [(i, 16), (0, 8)],
    chk (enWgrad e && isMx b && !enStreamTile e) 0x1004 [(i, 16), (1, 8)],
    chk (enStatTile e && !isMx a) 0x1004 [(i, 16), (0, 8)],
    chk (enStreamTile e && !isMx b) 0x1004 [(i, 16), (1, 8)],
    chk (pwSeed w == 1 && enSeed e == 0) 0x1006 [(i, 16)],
    chk (pwSparse w && (pwMode w != 0 || enWgrad e || enStatTile e)) 0x3001 [(i, 16), (w, 32)]]

/-- Rows and row length of the stationary operand as stored (Table 03-4). -/
def statShape (e : Nat) : Nat × Nat :=
  if enWgrad e then (enRes e, enN e) else if enTrans e then (enN e, enX e) else (enX e, enN e)

/-- Rows of the output (Table 03-4). -/
def outRows (e : Nat) : Nat := if enWgrad e then enX e else enRes e

/-- Rows of the streaming operand: reserved tokens, in every role. -/
def streamRows (e : Nat) : Nat := enRes e

/-- Bytes of `r` stored rows of `c` elements of `w` bits with leading dimension ld. -/
def extBytes (r c ld w : Nat) : Nat := if r = 0 then 0 else (((r - 1) * ld + c) * w + 7) / 8

/-- Dense length of the compressed axis padded to 8, D′ of R112. -/
def padDense (d : Nat) : Nat := roundUp d 8

/-- Offsets of the metadata and scale arrays of a 2:4 tensor of r rows × c columns at a pointer, and its end (R114,
Table 04-2); `row` for row-wise compression. -/
def sparseLayout (code : Nat) (row : Bool) (r c ld ptr : Nat) : Nat × Nat × Nat :=
  let w := elemBits code
  let d := padDense (if row then c else r)
  let v := if row then extBytes r (d / 2) ld w else extBytes (d / 2) c ld w
  let m := roundUp (ptr + v) 256 - ptr
  let ml := if row then extBytes r (d / 8) (ld / 4) 8 else extBytes (d / 8) c ld 8
  let sc := roundUp (ptr + m + ml) 256 - ptr
  let sl := if row then extBytes r (ceilDiv (d / 2) 32) (ceilDiv ld 32) 8 else extBytes (ceilDiv (d / 2) 32) c ld 8
  (m, sc, if isMx code then sc + sl else m + ml)

/-- Bytes of the stationary operand's extent. -/
def statBytes (e : Nat) : Nat :=
  let sh := statShape e
  if enSparse e then (sparseLayout (enStatCode e) (enTrans e) sh.1 sh.2 (enLdStat e) (enStat e)).2.2
  else extBytes sh.1 sh.2 (enLdStat e) (opBits e (enStatCode e))

/-- Bytes of a load-blocked scale array of r stored rows (R83). -/
def rowScales (r ld : Nat) : Nat := r * ceilDiv ld 32

/-- Bytes of the stationary scale array (R83, Table 04-2). -/
def statScaleBytes (e : Nat) : Nat :=
  let sh := statShape e
  if enSparse e then
    let d := padDense (if enTrans e then sh.2 else sh.1)
    if enTrans e then rowScales sh.1 (enLdStat e) else ceilDiv (d / 2) 32 * enLdStat e
  else if enStatTile e then rowScales (ceilDiv sh.1 32) (enLdStat e)
  else if enTrans e then rowScales sh.1 (enLdStat e)
  else ceilDiv sh.1 32 * enLdStat e

/-- Bytes of the streaming operand and of its scales. -/
def streamBytes (e : Nat) : Nat := extBytes (streamRows e) (enX e) (enLdStream e) (opBits e (enStreamCode e))
def streamScaleBytes (e : Nat) : Nat :=
  rowScales (if enStreamTile e then ceilDiv (streamRows e) 32 else streamRows e) (enLdStream e)

/-- Bytes of the output elements, and where the scale array of an MX output begins (R159). -/
def outBytes (e prof : Nat) : Nat := extBytes (outRows e) (enN e) (enLdOut e) (outBits e prof)
def outParts (e : Nat) : Nat := if enComplex e then 2 * enLdOut e else enLdOut e
def outScaleAt (e prof : Nat) : Nat := roundUp (enOut e + outBytes e prof) 256

/-- Bytes of the whole output extent. -/
def outExtent (e prof : Nat) : Nat :=
  if isMx (pfFormat prof) then outScaleAt e prof - enOut e + rowScales (outRows e) (outParts e) else outBytes e prof

/-- Bytes of the seed tile (R60). -/
def seedBytes (e : Nat) : Nat := extBytes (outRows e) (enN e) (enLdOut e) (if enComplex e then 64 else 32)

/-- Bytes of the row-state array. -/
def rowstateBytes (e : Nat) : Nat := 32 * enRes e

/-- Whether a leading dimension serves rows of n elements of w bits (R82). -/
def ldOk (ld n w : Nat) : Bool :=
  decide (n ≤ ld) && (w != 4 || ld % 2 == 0) && (w != 6 || ld % 4 == 0)

/-- Checks of counts, leading dimensions and alignment (0x200D). -/
def layoutCheck (i e prof : Nat) : Option Bad :=
  let sh := statShape e
  let sparseRow := enSparse e && enTrans e
  firstBad [
    chk (decide (enSegs e < 1 ∨ 16384 < enSegs e)) 0x200D [(i, 16), (104, 16)],
    chk (enStride e == 0) 0x200D [(i, 16), (80, 16)],
    chk (enWgrad e && (isMx (enStatCode e) || isMx (enStreamCode e)) && enStride e % 32 != 0) 0x200D [(i, 16), (80, 16)],
    chk (enWgrad e && isMx (enStatCode e) && !enStatTile e) 0x200D [(i, 16), (8, 16)],
    chk (if sparseRow then enLdStat e % 4 != 0 || decide (enLdStat e < padDense sh.2 / 2)
         else !ldOk (enLdStat e) sh.2 (opBits e (enStatCode e))) 0x200D [(i, 16), (400, 16)],
    chk (!ldOk (enLdStream e) (enX e) (opBits e (enStreamCode e))) 0x200D [(i, 16), (424, 16)],
    chk (!ldOk (enLdOut e) (enN e) (outBits e prof)) 0x200D [(i, 16), (448, 16)]]

/-- Checks of an entry's own pointers and their presence (0x2004). -/
def pointerCheck (s : State) (o i g e prof : Nat) : Option Bad :=
  let bad (f : Nat) : Bad := (0x2004, [(i, 16), (f, 16)])
  let need (p n f : Nat) (k : Acc) : Option Bad := if ptrOk s o p n k then none else some (bad f)
  let only (c : Bool) (p n f : Nat) : Option Bad := if c then need p n f .read else if p = 0 then none else some (bad f)
  firstBad [
    need (enStat e) (statBytes e) 160 .read,
    need (enStream e) (streamBytes e) 200 .read,
    need (enOut e) (outExtent e prof) 240 .write,
    only (pwSeed (enWord e) == 1) (enSeed e) (seedBytes e) 280,
    only (isMx (enStatCode e)) (enStatScale e) (statScaleBytes e) 320,
    only (isMx (enStreamCode e)) (enStreamScale e) (streamScaleBytes e) 360,
    if enFill e = 0xFFFF then none
    else if gcbFill g ≠ 0 ∧ winOk s o (gcbFill g + 4 * enFill e) (4 * enSegs e) .read then none
    else some (bad 88)]

/-- Length of the longest run of contiguous bands in service, Jmax of R88. -/
def longestRun (m : Nat → Bool) : Nat → Nat → Nat → Nat
  | 0, _, best => best
  | n + 1, run, best => let r := if m (7 - n) then run + 1 else 0; longestRun m n r (max best r)

def jMax (s : State) : Nat := longestRun (bandIn s) 8 0 0

/-- Mask of the bands in service (0x2201:03). -/
def inServiceMask (s : State) : Nat := 255 - bandsOut s

/-- Checks of the drain profile in the order of R154. -/
def profileCheck (s : State) (o i e idx prof : Nat) : Option Bad :=
  let it := [(i, 16), (idx, 16)]
  let d1 := entAt s 0x250101 (ownerPart s o) == 1
  firstBad [
    chk (pfFieldBad prof) 0x4001 it,
    chk (pfFormatBad (enComplex e) prof) 0x4002 it,
    chk (pfSoftmaxBad (enRole e) (enN e) d1 prof) 0x4003 it,
    chk (if pfBias prof then !ptrOk s o (pfBiasPtr prof) (4 * enN e) .read else pfBiasPtr prof != 0) 0x2004
      [(i, 16), (336, 16)],
    chk (if pfUsesRows prof then !ptrOk s o (pfRowstate prof) (rowstateBytes e) (if pfExp prof = 2 then .write else .read)
         else pfRowstate prof != 0) 0x2004 [(i, 16), (376, 16)]]

/-- Checks of one entry in the order of R91, given its own and its profile's read; `di` is its index in the detail. -/
def entryCheck (s : State) (o di g : Nat) (e? : Option Nat) (prof? : Nat → Option Nat) : Option Bad :=
  match e? with
  | none => some (0x200B, [(di, 16)])
  | some e =>
    match firstBad [
        (reservedBad e [(140, 4), (153, 7), (472, 40)]).map (fun b => (0x2001, [(di, 16), (b, 16)])),
        wordCheck di e,
        chk (decide (gcbProfiles g ≤ enProfile e)) 0x200A [(di, 16), (enProfile e, 32)]] with
    | some b => some b
    | none =>
      match prof? (enProfile e) with
      | none => some (0x200B, [(di, 16)])
      | some p => firstBad [
          profileCheck s o di e (enProfile e) p,
          layoutCheck di e p,
          pointerCheck s o di g e p,
          chk (enX e == 0 || enN e == 0 || decide (jMax s < max 1 (enJreq e))) 0x1005
            [(di, 16), (if enX e = 0 ∨ enN e = 0 then ones 16 else enJreq e, 16), (inServiceMask s, 8)]]

/-- Checks of every entry in ascending index. -/
def entriesCheck (s : State) (o g : Nat) (prof? : Nat → Option Nat) : Nat → List (Option Nat) → Option Bad
  | _, [] => none
  | i, e :: r =>
    match entryCheck s o i g e prof? with
    | some b => some b
    | none => entriesCheck s o g prof? (i + 1) r

/-! ### Step 3: overlaps (R92) -/

/-- Output extents of an entry: (pointer, bytes, field). A row-state array that the drain writes is one (R164). -/
def outExts (e prof : Nat) : List (Nat × Nat × Nat) :=
  (enOut e, outExtent e prof, 240) :: (if pfExp prof = 2 then [(pfRowstate prof, rowstateBytes e, 376)] else [])

/-- Input extents of an entry. -/
def inExts (e : Nat) : List (Nat × Nat × Nat) :=
  [(enStat e, statBytes e, 160), (enStream e, streamBytes e, 200)] ++
  (if isMx (enStatCode e) then [(enStatScale e, statScaleBytes e, 320)] else []) ++
  (if isMx (enStreamCode e) then [(enStreamScale e, streamScaleBytes e, 360)] else []) ++
  (if enSeed e ≠ 0 then [(enSeed e, seedBytes e, 280)] else [])

/-- First of a list of extents that an extent meets. -/
def meetsAny (a : Nat × Nat × Nat) (l : List (Nat × Nat × Nat)) : Option (Nat × Nat × Nat) :=
  l.find? (fun b => rangesMeet a.1 a.2.1 b.1 b.2.1)

/-- An overlap between an output of entry i and extents of entry j. -/
def overlapWith (i : Nat) (outs : List (Nat × Nat × Nat)) (j : Nat) (exts : List (Nat × Nat × Nat)) : Option Bad :=
  (outs.findSome? (fun a => (meetsAny a exts).map (fun b => (a.2.2, b.2.2)))).map
    (fun f => (0x2005, [(i, 16), (j, 16), (f.1, 16), (f.2, 16)]))

/-- Entries with their index and profile. -/
def indexed {α : Type} : Nat → List α → List (Nat × α)
  | _, [] => []
  | i, x :: r => (i, x) :: indexed (i + 1) r

/-- Extents of the operation's own structures and staging area. -/
def groupExts (gcbAt g : Nat) : List (Nat × Nat × Nat) :=
  [(gcbAt, 64, 0), (gcbTable g, 64 * gcbEntries g, 48), (gcbProfile g, 64 * gcbProfiles g, 128)] ++
  (if gcbStatus g then [(gcbStatusPtr g, gcbEntries g, 168)] else [])

/-- Extents of an entry's fill counts. -/
def fillExts (g e : Nat) : List (Nat × Nat × Nat) :=
  if enFill e = 0xFFFF then [] else [(gcbFill g + 4 * enFill e, 4 * enSegs e, 88)]

/-- The first overlap of R92, entries ascending. -/
def overlapCheck (gx : List (Nat × Nat × Nat)) (g : Nat) (es : List (Nat × Nat × Nat)) : Option Bad :=
  es.findSome? (fun a =>
    let outs := outExts a.2.1 a.2.2
    firstBad [
      es.findSome? (fun b => if a.1 = b.1 then none else overlapWith a.1 outs b.1 (outExts b.2.1 b.2.2)),
      es.findSome? (fun b => overlapWith a.1 outs b.1 (inExts b.2.1)),
      overlapWith a.1 outs 0xFFFF gx,
      es.findSome? (fun b => overlapWith a.1 outs 0xFFFF (fillExts g b.2.1)),
      overlapWith a.1 outs 0xFFFF [(tilePtr (gcbStagingBase g), gcbStagingSize g, 208)]])

/-! ### Steps 5 and 6: fills and the plan -/

/-- Fill counts of an entry, read once (R96, R97). -/
def readFills (s : State) (o g e : Nat) : List (Option Nat) :=
  if enFill e = 0xFFFF then List.replicate (enSegs e) (some (enStride e))
  else (List.range (enSegs e)).map (fun j => readStruct s o (gcbFill g + 4 * (enFill e + j)) 4)

/-- The first bad fill of an entry (0x2007, then 0x2006). -/
def fillCheck (i e : Nat) (fs : List (Option Nat)) : Option Bad :=
  firstBad [
    (indexed 0 fs).findSome? (fun f => if f.2 = none then some (0x2007, [(i, 16), (f.1, 16)]) else none),
    (indexed 0 fs).findSome? (fun f => match f.2 with
      | some v => if enStride e < v then some (0x2006, [(i, 16), (f.1, 16), (v, 32)]) else none
      | none => none)]

/-- Filled tokens of an entry, F of R82. -/
def filled (fs : List Nat) : Nat := fs.foldl (· + ·) 0

/-- Depth K of an entry's problems: x_dim, or the tokens after compaction (R82, R85). -/
def depthK (e : Nat) (fs : List Nat) : Nat :=
  if enWgrad e then
    if isMx (enStatCode e) || isMx (enStreamCode e) then filled (fs.map (fun f => roundUp f 32)) else filled fs
  else enX e

/-- Streamed rows M of an entry's problems. -/
def rowsM (e : Nat) (fs : List Nat) : Nat := if enWgrad e then enX e else filled fs

/-- Elements of K per cell row, 2P for a sparse problem (R121). -/
def perCell (e : Nat) : Nat := (if enSparse e then 2 else 1) * cellElems (enStatCode e)

/-- Passes of a problem (R64, R66). -/
def passesOf (e : Nat) : Nat := if enMode e = 1 then 3 else if enMode e = 2 then 6 else if enMode e = 3 then 4 else 1

/-- K tiles and band depth of an entry (R88): nk, J. -/
def splitK (jmax e : Nat) (fs : List Nat) : Nat × Nat :=
  let kb := ceilDiv (depthK e fs) (128 * perCell e)
  if enJreq e = 0 then let nk := ceilDiv kb jmax; (nk, ceilDiv kb nk) else (ceilDiv kb (enJreq e), enJreq e)

/-- Problems of one chain: K tiles times passes (R89). -/
def chainProblems (jmax e : Nat) (fs : List Nat) : Nat := (splitK jmax e fs).1 * passesOf e

/-- Cost of a chain (R98). -/
def chainCost (jmax e : Nat) (fs : List Nat) : Nat :=
  let k := splitK jmax e fs
  let m := rowsM e fs
  (k.1 - 1) * max (max m 128) (128 * k.2 + 32) + (chainProblems jmax e fs - (k.1 - 1)) * max m 128

/-- Column tiles of an entry (R87). -/
def colTiles (e : Nat) : Nat := ceilDiv (enN e) 1024

/-- Chains of every entry with a filled token, unplaced. -/
def rawChains (jmax : Nat) (es : List (Nat × Nat × List Nat)) : List Chain :=
  (es.map (fun x =>
    if filled x.2.2 = 0 then []
    else (List.range (colTiles x.2.1)).map (fun u =>
      { entry := x.1, tile := u, b0 := 0, depth := (splitK jmax x.2.1 x.2.2).2, cost := chainCost jmax x.2.1 x.2.2 }))).flatten

/-- The order of R98: deepest, then dearest, then by entry and column tile. -/
def chainBefore (a b : Chain) : Bool :=
  if a.depth ≠ b.depth then decide (b.depth < a.depth)
  else if a.cost ≠ b.cost then decide (b.cost < a.cost)
  else if a.entry ≠ b.entry then decide (a.entry < b.entry)
  else decide (a.tile < b.tile)

def insertChain (c : Chain) : List Chain → List Chain
  | [] => [c]
  | d :: r => if chainBefore c d then c :: d :: r else d :: insertChain c r

def sortChains (l : List Chain) : List Chain := l.foldr insertChain []

/-- Largest planned free cycle of the bands of a group. -/
def groupFree (f : List Nat) (b0 j : Nat) : Nat := ((f.drop b0).take j).foldl max 0

/-- The window of in-service bands that is free first; ties keep the lower band. -/
def bestWindow (m : Nat → Bool) (f : List Nat) (j : Nat) : Nat → Nat → Option (Nat × Nat) → Option (Nat × Nat)
  | 0, _, best => best
  | n + 1, b0, best =>
    let ok := (List.range j).all (fun i => m (b0 + i))
    let t := groupFree f b0 j
    let best' := if ok then
        (match best with
          | none => some (b0, t)
          | some x => if t < x.2 then some (b0, t) else some x)
      else best
    bestWindow m f j n (b0 + 1) best'

/-- Free cycles after a chain is placed. -/
def setFree (f : List Nat) (b0 j t : Nat) : List Nat := f.take b0 ++ List.replicate j t ++ f.drop (b0 + j)

/-- The plan of R98 over sorted chains: none where a chain finds no window. -/
def placeChains (m : Nat → Bool) : List Chain → List Nat → List Chain → Option (List Chain)
  | [], _, acc => some acc.reverse
  | c :: r, f, acc =>
    match bestWindow m f c.depth (9 - c.depth) 0 none with
    | none => none
    | some (b0, t) => placeChains m r (setFree f b0 c.depth (t + c.cost)) ({ c with b0 := b0 } :: acc)

/-- Entry at which the problems pass 65,536, with their count (R101). -/
def planLimit (jmax : Nat) : List (Nat × Nat × List Nat) → Nat → Option Bad
  | [], _ => none
  | x :: r, n =>
    let n' := n + (if filled x.2.2 = 0 then 0 else colTiles x.2.1 * chainProblems jmax x.2.1 x.2.2)
    if 65536 < n' then some (0x2008, [(x.1, 16), (n', 32)]) else planLimit jmax r n'

/-- Bytes of a wgrad operand pair after compaction (R85, R104). -/
def wgradBytes (e : Nat) (fs : List Nat) : Nat :=
  if enWgrad e then
    let k := depthK e fs
    extBytes k (enN e) (enN e) (opBits e (enStatCode e)) + extBytes k (enX e) (enX e) (opBits e (enStreamCode e)) +
    (if isMx (enStatCode e) then ceilDiv k 32 * ceilDiv (enN e) 32 else 0) +
    (if isMx (enStreamCode e) then ceilDiv k 32 * ceilDiv (enX e) 32 else 0)
  else 0

/-- The staging area that R104 asks for. -/
def stagingNeed (jmax : Nat) (es : List (Nat × Nat × List Nat)) : Nat :=
  let live := es.filter (fun x => filled x.2.2 != 0)
  8 * 2 ^ 20 +
  4096 * (live.map (fun x => if 1 < (splitK jmax x.2.1 x.2.2).1 then rowsM x.2.1 x.2.2 else 0)).foldl max 0 +
  (live.map (fun x => wgradBytes x.2.1 x.2.2)).foldl max 0 +
  (live.map (fun x => if enSeed x.2.1 ≠ 0 ∧ ¬ isTile (enSeed x.2.1) then seedBytes x.2.1 else 0)).foldl max 0

/-- Step 6 of R91: the plan, or the first failing check (0x2008, 0x1005, 0x2009). -/
def planOf (s : State) (single : Bool) (stagingSize : Nat) (es : List (Nat × Nat × List Nat)) : Except Bad (List Chain) :=
  let jm := jMax s
  let no (x : Nat × Nat × List Nat) : Bad :=
    (0x1005, [(if single then 0xFFFF else x.1, 16), (max 1 (enJreq x.2.1), 16), (inServiceMask s, 8)])
  match es.find? (fun x => filled x.2.2 != 0 && (jm == 0 || decide (jm < enJreq x.2.1))) with
  | some x => .error (no x)
  | none =>
    match planLimit jm es 0 with
    | some b => .error b
    | none =>
      match placeChains (bandIn s) (sortChains (rawChains jm es)) (List.replicate 8 0) [] with
      | none => .error (no (es.headD (0, 0, [])))
      | some l =>
        if stagingSize < stagingNeed jm es then .error (0x2009, [(stagingNeed jm es, 32), (stagingSize, 32)]) else .ok l

end Sys2Proof.Machine
end

