-- ==== Sys2Proof/Machine/ArrayData.lean ====
section
/-!
DEFINITION. Machine/ArrayData.lean: the operands of a problem as the loader and the row feeder read them (R54 to R56, R62,
R83 to R85, R117, R118), the chain of an output element over its K tiles (R39, R42, R64, R66, R89, R118), the check of
2:4 metadata (R112, R123), and what the loader leaves in the cells (R33, R35, R49).
-/
namespace Sys2Proof.Machine

/-- An entry as its chains use it: who reads, its index, the entry, its profile, its fills, its longest run of bands
and the key of its draws. -/
structure Prob where
  owner : Nat
  idx : Nat
  e : Nat
  prof : Nat
  fills : List Nat
  jm : Nat
  opk : Nat
  deriving DecidableEq, Repr

/-- Segments with their fills as stored token rows, each with whether it is padding (R84, R85). -/
def tokenRows (stride : Nat) (pad : Bool) : Nat → List Nat → List (Nat × Bool)
  | _, [] => []
  | j, f :: r =>
    (List.range (if pad then roundUp f 32 else f)).map (fun t => (j * stride + t, decide (f ≤ t))) ++
      tokenRows stride pad (j + 1) r

/-- Token rows of a problem: compacted with their padding in wgrad. -/
def probTokens (x : Prob) : List (Nat × Bool) :=
  tokenRows (enStride x.e) (enWgrad x.e && (isMx (enStatCode x.e) || isMx (enStreamCode x.e))) 0 x.fills

/-- Streamed rows of a problem as stored rows of its output (R82, R84). -/
def probRows (x : Prob) : List Nat :=
  if enWgrad x.e then List.range (enX x.e) else (probTokens x).map (·.1)

/-- Depth of a problem. -/
def probK (x : Prob) : Nat := depthK x.e x.fills

/-- An element of `w` bits at an index of a packed array (R34). -/
def memElem (s : State) (o ptr w i : Nat) : Nat := bits (rdNat s o (ptr + i * w / 8) 5) (i * w % 8) w

/-- A scale byte. -/
def memByte (s : State) (o a : Nat) : Nat := rdNat s o a 1

/-- Bits of elements in a weight register (Table 02-2). -/
def packWord (w : Nat) (l : List Nat) : Nat := l.reverse.foldl (fun a v => a * 2 ^ w + v % 2 ^ w) 0

/-- Elements of a width written from an element index of a packed array; the other bits of the last byte stay. -/
def writePacked (s : State) (o ptr w i : Nat) (l : List Nat) : State :=
  let n := l.length * w
  let a := ptr + i * w / 8
  let v := packWord w l
  let tail := if n % 8 = 0 then 0 else fld (memByte s o (a + n / 8) >>> (n % 8)) n (8 - n % 8)
  if n = 0 then s else wr s o a (natLe ((n + 7) / 8) (v + tail))

/-- An operand element as read: its bits, and its E8M0 block scale where its format has one. -/
structure Elem where
  raw : Nat
  scale : Option Nat
  deriving DecidableEq, Repr

/-- Value of an element of a code, its scale applied. -/
def elemVal (code : Nat) (x : Elem) : Fp :=
  match x.scale with
  | none => elemDecode code x.raw
  | some k => scaled k (elemDecode code x.raw)

/-- Index of a tile-scaled element's scale (R83). -/
def tileScaleAt (ld a b : Nat) : Nat := a / 32 * ceilDiv ld 32 + b / 32

/-- The stationary element at depth k and column c of a dense problem (R54, R83, R85). In wgrad with transpose 1 it is
the element that R54 names in the compacted array, n elements a row. -/
def statElem (s : State) (x : Prob) (toks : List (Nat × Bool)) (k c : Nat) : Elem :=
  let e := x.e
  let w := opBits e (enStatCode e)
  let ld := enLdStat e
  let mx := isMx (enStatCode e)
  if enWgrad e then
    let i := if enTrans e then c * enN e + k else k * enN e + c
    match toks[i / enN e]? with
    | none => ⟨(Config.freeBits 4097 x.idx 0 i).toNat, if mx then some 127 else none⟩
    | some (r, pad) =>
      ⟨if pad then 0 else memElem s x.owner (enStat e) w (r * ld + i % enN e),
       if mx then some (memByte s x.owner (enStatScale e + tileScaleAt ld r (i % enN e))) else none⟩
  else
    let a := if enTrans e then c else k
    let b := if enTrans e then k else c
    ⟨memElem s x.owner (enStat e) w (a * ld + b),
     if mx then some (memByte s x.owner (enStatScale e +
       (if enStatTile e then tileScaleAt ld a b else if enTrans e then a * ceilDiv ld 32 + b / 32 else a / 32 * ld + b)))
     else none⟩

/-- The streaming element at depth k of a streamed row (R61, R83, R85): `m` the stored row, or in wgrad the feature. -/
def streamElem (s : State) (x : Prob) (toks : List (Nat × Bool)) (m k : Nat) : Elem :=
  let e := x.e
  let w := opBits e (enStreamCode e)
  let ld := enLdStream e
  let mx := isMx (enStreamCode e)
  if enWgrad e then
    match toks[k]? with
    | none => ⟨0, none⟩
    | some (r, pad) =>
      ⟨if pad then 0 else memElem s x.owner (enStream e) w (r * ld + m),
       if mx then some (memByte s x.owner (enStreamScale e + tileScaleAt ld r m)) else none⟩
  else
    ⟨memElem s x.owner (enStream e) w (m * ld + k),
     if mx then some (memByte s x.owner (enStreamScale e +
       (if enStreamTile e then tileScaleAt ld m k else m * ceilDiv ld 32 + k / 32))) else none⟩

/-- Stationary column and streamed row of a problem. -/
def statCol (s : State) (x : Prob) (toks : List (Nat × Bool)) (c : Nat) : List Elem :=
  (List.range (probK x)).map (fun k => statElem s x toks k c)
def streamRow (s : State) (x : Prob) (toks : List (Nat × Bool)) (m : Nat) : List Elem :=
  (List.range (probK x)).map (fun k => streamElem s x toks m k)

/-! ### 2:4 operands -/

/-- Layout of a sparse stationary operand: offsets of metadata and scales. -/
def sparseOf (x : Prob) : Nat × Nat × Nat :=
  let sh := statShape x.e
  sparseLayout (enStatCode x.e) (enTrans x.e) sh.1 sh.2 (enLdStat x.e) (enStat x.e)

/-- Byte offset of the metadata byte that covers dense positions 8h to 8h + 7 of a line. -/
def metaAt (x : Prob) (h c : Nat) : Nat :=
  (sparseOf x).1 + (if enTrans x.e then c * (enLdStat x.e / 4) + h else h * enLdStat x.e + c)

/-- Element index of kept element j of a line. -/
def keptAt (x : Prob) (j c : Nat) : Nat := if enTrans x.e then c * enLdStat x.e + j else j * enLdStat x.e + c

/-- Codes of group g of a line (Table 04-1). -/
def groupCodes (s : State) (x : Prob) (g c : Nat) : Nat × Nat :=
  let b := memByte s x.owner (enStat x.e + metaAt x (g / 2) c)
  (bits b (4 * (g % 2)) 2, bits b (4 * (g % 2) + 2) 2)

/-- Dense length of the compressed axis as stored, D′. -/
def sparseD (x : Prob) : Nat := padDense (enX x.e)

/-- Kept element j of a line: its bits with its scale, and its dense position; none past the stored ones. -/
def keptElem (s : State) (x : Prob) (j c : Nat) : Option (Elem × Nat) :=
  if sparseD x / 2 ≤ j then none
  else
    let g := groupCodes s x (j / 2) c
    let sc := if enTrans x.e then c * ceilDiv (enLdStat x.e) 32 + j / 32 else j / 32 * enLdStat x.e + c
    some (⟨memElem s x.owner (enStat x.e) (elemBits (enStatCode x.e)) (keptAt x j c),
           if isMx (enStatCode x.e) then some (memByte s x.owner (enStatScale x.e + sc)) else none⟩,
          4 * (j / 2) + (if j % 2 = 0 then g.1 else g.2))

/-- Kept elements of cell row i of a column (R118). -/
def sparseCell (s : State) (x : Prob) (c i : Nat) : List (Elem × Nat) :=
  let p := cellElems (enStatCode x.e)
  (List.range p).filterMap (fun e => keptElem s x (p * i + e) c)

/-- Value of a sparse cell row (R118, R119): a block scale of 0xFF makes it a NaN whatever it selects. -/
def sparseRowVal (x : Prob) (a : List Elem) (i : Nat) (w : List (Elem × Nat)) : Fp :=
  let p := cellElems (enStatCode x.e)
  let bad := w.any (fun e => e.1.scale == some 0xFF) || ((a[2 * p * i]?).any (fun e => e.scale == some 0xFF))
  if bad then .nan
  else w.foldl (fun v e =>
    match a[e.2]? with
    | none => v
    | some y => fpAdd v (fpMul (elemVal (enStreamCode x.e) y) (elemVal (enStatCode x.e) e.1))) (fpZero false)

/-! ### The chain of one output element -/

/-- Where the chain of an element stands between problems. -/
inductive Acc4 where
  | fp (x : Fp)
  | int (x : Int)
  | cx (rr ii ri ir : Fp)
  deriving DecidableEq, Repr

/-- Sums that enter a drain unit as NaN or infinite. -/
def accNonfinite : Acc4 → Nat
  | .fp x => b2n (!fpFinite x)
  | .int _ => 0
  | .cx a b c d => b2n (!fpFinite a) + b2n (!fpFinite b) + b2n (!fpFinite c) + b2n (!fpFinite d)

/-- The element that a chain's last sums form (R66). -/
def accOut : Acc4 → ColSum
  | .fp x => .fp x
  | .int x => .int x
  | .cx rr ii ri ir => .pair (rne32 (fpSub rr ii)) (rne32 (fpAdd ri ir))

/-- Real or imaginary part of complex elements. -/
def partVal (code : Nat) (im : Bool) (x : Elem) : Fp := elemDecode code (bits x.raw (if im then 16 else 0) 16)

/-- One K tile of a dense problem: the sums after it and the row additions saturated in it. -/
def tileDense (x : Prob) (a w : List Elem) (s : Acc4) : Acc4 × Nat :=
  let ca := enStreamCode x.e
  let cw := enStatCode x.e
  let p := cellElems cw
  let n := ceilDiv a.length p
  match s with
  | .int v =>
    let r := chainInt p n (a.map (fun y => fpToInt (elemVal ca y))) (w.map (fun y => fpToInt (elemVal cw y))) v 0
    (.int r.1, r.2)
  | .cx rr ii ri ir =>
    let f (ia iw : Bool) (v : Fp) : Fp := chainFp p n (a.map (partVal ca ia)) (w.map (partVal cw iw)) v
    (.cx (f false false rr) (f true true ii) (f true false ri) (f false true ir), 0)
  | .fp v =>
    let va := a.map (elemVal ca)
    let vw := w.map (elemVal cw)
    if enMode x.e = 1 ∨ enMode x.e = 2 then (.fp (fp32Tile (fp32Passes (enMode x.e == 2)) va vw v), 0)
    else (.fp (chainFp p n va vw v), 0)

/-- The K tiles of a dense problem in order: the sums, the saturated additions, and the sums that entered drain units as
NaN or infinite (R89). -/
def chainDense (x : Prob) (depth : Nat) : Nat → List Elem → List Elem → Acc4 → Nat → Nat → Acc4 × Nat × Nat
  | 0, _, _, s, sat, nf => (s, sat, nf)
  | t + 1, a, w, s, sat, nf =>
    let r := tileDense x (a.take depth) (w.take depth) s
    chainDense x depth t (a.drop depth) (w.drop depth) r.1 (sat + r.2) (nf + accNonfinite r.1)

/-- Exact integer of a sparse cell row. -/
def sparseRowInt (x : Prob) (a : List Elem) (w : List (Elem × Nat)) : Int :=
  w.foldl (fun v e => match a[e.2]? with
    | none => v
    | some y => v + fpToInt (elemVal (enStreamCode x.e) y) * fpToInt (elemVal (enStatCode x.e) e.1)) 0

/-- The cell rows of a sparse problem in order, from cell row i; a drain unit takes the sum after every 128·J of them. -/
def chainSparse (x : Prob) (a : List Elem) (per : Nat) : Nat → List (List (Elem × Nat)) → Acc4 → Nat → Nat → Acc4 × Nat × Nat
  | _, [], s, sat, nf => (s, sat, nf)
  | i, w :: r, s, sat, nf =>
    let t : Acc4 × Nat := match s with
      | .int v => let y := satI32 (v + sparseRowInt x a w); (.int y.1, b2n y.2)
      | .fp v => (.fp (chainStep v (sparseRowVal x a i w)), 0)
      | y => (y, 0)
    let out := (i + 1) % per == 0 || r.isEmpty
    chainSparse x a per (i + 1) r t.1 (sat + t.2) (nf + (if out then accNonfinite t.1 else 0))

/-- The seed of an element (R60, R66, R167). -/
def seedOf (s : State) (x : Prob) (rec : Option RowState) (row c : Nat) : Acc4 :=
  let at_ := row * enLdOut x.e + c
  let has := enSeed x.e != 0
  if enComplex x.e then
    if has then
      .cx (dec32 (rdNat s x.owner (enSeed x.e + 8 * at_) 4)) (fpZero false)
          (dec32 (rdNat s x.owner (enSeed x.e + 8 * at_ + 4) 4)) (fpZero false)
    else .cx (fpZero false) (fpZero false) (fpZero false) (fpZero false)
  else if isIntCode (enStatCode x.e) then
    .int (if has then toSigned 32 (rdNat s x.owner (enSeed x.e + 4 * at_) 4) else 0)
  else
    let v := if has then dec32 (rdNat s x.owner (enSeed x.e + 4 * at_) 4) else fpZero false
    .fp (match rec with
      | some r => pvSeed r v
      | none => v)

/-- A stationary column as the loader holds it, dense or sparse. -/
inductive Col where
  | dense (w : List Elem)
  | sparse (w : List (List (Elem × Nat)))
  deriving DecidableEq, Repr

/-- Column c of an entry's stationary operand. -/
def loadCol (s : State) (x : Prob) (toks : List (Nat × Bool)) (c : Nat) : Col :=
  if enSparse x.e then .sparse ((List.range (ceilDiv (probK x) (perCell x.e))).map (sparseCell s x c))
  else .dense (statCol s x toks c)

/-- One output element: its sums, the saturated additions and the non-finite sums. -/
def chainElem (x : Prob) (seed : Acc4) (a : List Elem) (w : Col) : Acc4 × Nat × Nat :=
  let k := splitK x.jm x.e x.fills
  match w with
  | .dense v => chainDense x (128 * k.2 * perCell x.e) k.1 a v seed 0 0
  | .sparse v => chainSparse x a (128 * k.2) 0 v seed 0 0

/-! ### Poison in the operands -/

/-- Columns of column tile u: the first and how many. -/
def tileCols (e u : Nat) : Nat × Nat := (1024 * u, min 1024 (enN e - 1024 * u))

/-- Bytes of `n` elements of `w` bits at an element index: pointer and length. -/
def elemRange (ptr w i n : Nat) : Nat × Nat :=
  if n = 0 then (ptr, 0) else (ptr + i * w / 8, (i * w + n * w + 7) / 8 - i * w / 8)

/-- Whether one of some ranges reads poisoned. -/
def anyPoison (s : State) (l : List (Nat × Nat)) : Bool := l.any (fun r => poisonAt s r.1 r.2)

/-- Ranges of the stationary elements, and metadata, of a column tile. -/
def statRanges (x : Prob) (toks : List (Nat × Bool)) (u : Nat) : List (Nat × Nat) :=
  let e := x.e
  let t := tileCols e u
  let w := opBits e (enStatCode e)
  let ld := enLdStat e
  if enSparse e then
    let d := sparseD x
    if enTrans e then
      (List.range t.2).map (fun i => elemRange (enStat e) w ((t.1 + i) * ld) (d / 2)) ++
      (List.range t.2).map (fun i => (enStat e + metaAt x 0 (t.1 + i), d / 8))
    else
      (List.range (d / 2)).map (fun j => elemRange (enStat e) w (j * ld + t.1) t.2) ++
      (List.range (d / 8)).map (fun h => (enStat e + metaAt x h t.1, t.2))
  else if enWgrad e then
    (toks.filter (fun r => !r.2)).map (fun r => elemRange (enStat e) w (r.1 * ld + t.1) t.2)
  else if enTrans e then
    (List.range t.2).map (fun i => elemRange (enStat e) w ((t.1 + i) * ld) (enX e))
  else (List.range (enX e)).map (fun k => elemRange (enStat e) w (k * ld + t.1) t.2)

/-- Ranges of the stationary scales of a column tile. -/
def statScaleRanges (x : Prob) (toks : List (Nat × Bool)) (u : Nat) : List (Nat × Nat) :=
  let e := x.e
  let t := tileCols e u
  let ld := enLdStat e
  let p := enStatScale e
  let c32 := ceilDiv ld 32
  if !isMx (enStatCode e) then []
  else if enSparse e then
    let n := ceilDiv (sparseD x / 2) 32
    if enTrans e then (List.range t.2).map (fun i => (p + (t.1 + i) * c32, n))
    else (List.range n).map (fun u' => (p + u' * ld + t.1, t.2))
  else if enWgrad e then toks.map (fun r => (p + r.1 / 32 * c32 + t.1 / 32, ceilDiv t.2 32))
  else if enTrans e then
    (List.range t.2).map (fun i => (p + (if enStatTile e then (t.1 + i) / 32 else t.1 + i) * c32, ceilDiv (enX e) 32))
  else if enStatTile e then
    (List.range (ceilDiv (enX e) 32)).map (fun h => (p + h * c32 + t.1 / 32, ceilDiv t.2 32))
  else (List.range (ceilDiv (enX e) 32)).map (fun h => (p + h * ld + t.1, t.2))

/-- Ranges of a streamed row, of its scales, and of its seeds in a column tile. -/
def streamRanges (x : Prob) (toks : List (Nat × Bool)) (m : Nat) : List (Nat × Nat) :=
  let e := x.e
  let w := opBits e (enStreamCode e)
  if enWgrad e then (toks.filter (fun r => !r.2)).map (fun r => elemRange (enStream e) w (r.1 * enLdStream e + m) 1)
  else [elemRange (enStream e) w (m * enLdStream e) (enX e)]

def streamScaleRanges (x : Prob) (toks : List (Nat × Bool)) (m : Nat) : List (Nat × Nat) :=
  let e := x.e
  let c32 := ceilDiv (enLdStream e) 32
  if !isMx (enStreamCode e) then []
  else if enWgrad e then toks.map (fun r => (enStreamScale e + r.1 / 32 * c32 + m / 32, 1))
  else [(enStreamScale e + (if enStreamTile e then m / 32 else m) * c32, ceilDiv (enX e) 32)]

def seedRanges (x : Prob) (u row : Nat) : List (Nat × Nat) :=
  let e := x.e
  let t := tileCols e u
  let w := if enComplex e then 8 else 4
  if enSeed e = 0 then [] else [(enSeed e + w * (row * enLdOut e + t.1), w * t.2)]

/-- The stationary poison of a column tile: its operand number and an address (R78). -/
def statPoison (s : State) (x : Prob) (toks : List (Nat × Bool)) (u : Nat) : Option (Nat × Nat) :=
  if anyPoison s (statRanges x toks u) then some (0, enStat x.e)
  else if anyPoison s (statScaleRanges x toks u) then some (2, enStatScale x.e)
  else none

/-- The poison of a streamed row: its operand number and an address. -/
def rowPoison (s : State) (x : Prob) (toks : List (Nat × Bool)) (u m : Nat) : Option (Nat × Nat) :=
  if anyPoison s (streamRanges x toks m) then some (1, enStream x.e)
  else if anyPoison s (streamScaleRanges x toks m) then some (3, enStreamScale x.e)
  else if anyPoison s (seedRanges x u m) then some (4, enSeed x.e)
  else none

/-! ### The check of 2:4 metadata (R123) -/

/-- What one metadata byte breaks (R112). -/
def metaBad (b : Nat) : Option Nat :=
  let a0 := bits b 0 2
  let a1 := bits b 2 2
  let c0 := bits b 4 2
  let c1 := bits b 6 2
  let f (x y : Nat) : Option Nat := if y < x then some 0x3002 else if x = y then some 0x3003 else none
  match f a0 a1 with
  | some c => some c
  | none => f c0 c1

/-- Violations of one metadata byte, with their address offset. -/
def metaByteCheck (s : State) (x : Prob) (di u h c : Nat) : List (Nat × Bad) :=
  let off := metaAt x h c
  if poisonAt s (enStat x.e + off) 1 then [(off, (0x3005, [(di, 16), (off, 32)]))]
  else
    let b := memByte s x.owner (enStat x.e + off)
    match metaBad b with
    | some code => [(off, (code, [(di, 16), (u, 16), (off, 32), (b, 8)]))]
    | none => []

/-- Violations of one kept element: poisoned, or non-zero at a pad position. -/
def keptCheck (s : State) (x : Prob) (di u j c : Nat) : List (Nat × Bad) :=
  let w := elemBits (enStatCode x.e)
  let r := elemRange (enStat x.e) w (keptAt x j c) 1
  let off := r.1 - enStat x.e
  if poisonAt s r.1 r.2 then [(off, (0x3005, [(di, 16), (off, 32)]))]
  else
    match keptElem s x j c with
    | none => []
    | some (v, pos) =>
      if enX x.e ≤ pos && !fpIsZero (elemDecode (enStatCode x.e) v.raw) then
        [(off, (0x3004, [(di, 16), (u, 16), (c, 16), (pos, 16)]))]
      else []

/-- The violation at the lowest offset. -/
def lowestBad : List (Nat × Bad) → Option (Nat × Bad)
  | [] => none
  | x :: r =>
    match lowestBad r with
    | none => some x
    | some y => if y.1 < x.1 then some y else some x

/-- The check of a column tile: its first violation in ascending address. -/
def tileCheck (s : State) (x : Prob) (di u : Nat) : Option (Nat × Bad) :=
  let t := tileCols x.e u
  let cs := (List.range t.2).map (· + t.1)
  let d := sparseD x
  lowestBad
    ((cs.map (fun c => ((List.range (d / 8)).map (fun h => metaByteCheck s x di u h c)).flatten)).flatten ++
     (cs.map (fun c => ((List.range (d / 2)).map (fun j => keptCheck s x di u j c)).flatten)).flatten)

/-- Metadata bytes of a column tile. -/
def tileMeta (x : Prob) (u : Nat) : Nat := (tileCols x.e u).2 * (sparseD x / 8)

/-- The first metadata word of a column tile that breaks R112 at injection (R124): cell row and column. -/
def injectBad (s : State) (x : Prob) (u : Nat) : Option (Nat × Nat) :=
  let t := tileCols x.e u
  (List.range (sparseD x / 8)).findSome? (fun h =>
    (List.range t.2).findSome? (fun i =>
      if (metaBad (memByte s x.owner (enStat x.e + metaAt x h (t.1 + i)))).isSome then
        some (8 * h / perCell x.e, i)
      else none))

/-! ### What the loader leaves in the cells -/

/-- Bits of an element as the cells take it in a pass: itself, or the piece or part of the pass (R63, R66). -/
def loadedBits (e pass raw : Nat) : Nat :=
  if enMode e = 1 ∨ enMode e = 2 then
    fpEncode fmtBF16 (piece (((fp32Passes (enMode e == 2))[pass]?).getD (0, 0)).1 (dec32 raw))
  else if enComplex e then bits raw (if pass = 1 ∨ pass = 3 then 16 else 0) 16
  else raw

/-- Bits of an element in a cell register. -/
def cellBits (e : Nat) : Nat := if enMode e = 0 then elemBits (enStatCode e) else 16

/-- The three registers of cell row i (in the problem) of a column: weights, scale, metadata (none for a dense one). -/
def cellLoad (x : Prob) (col : Col) (pass i : Nat) : Nat × Nat × Option Nat :=
  let p := cellElems (enStatCode x.e)
  match col with
  | .dense w =>
    let l := (w.drop (p * i)).take p
    (packWord (cellBits x.e) (l.map (fun y => loadedBits x.e pass y.raw)),
     ((l.head?).bind (·.scale)).getD 127, none)
  | .sparse w =>
    let l := (w[i]?).getD []
    (packWord (cellBits x.e) (l.map (fun y => y.1.raw)),
     ((l.head?).bind (fun y => y.1.scale)).getD 127,
     some (packWord 2 ((List.range p).map (fun e => match l[e]? with
       | some y => y.2 % 4
       | none => e % 2))))

/-- The registers a chain leaves in the cells of its bands with its last problem, active and shadow (R49): the cell rows
of the last K tile, in the columns of the tile. `early` writes the shadow registers alone, with the first problem. -/
def loadCells (g : ArrayRegs) (x : Prob) (b0 j : Nat) (early : Bool) : Nat → List Col → ArrayRegs
  | _, [] => g
  | c, col :: r =>
    let k := splitK x.jm x.e x.fills
    let base := if early then 0 else 128 * j * (k.1 - 1)
    let pass := if early then 0 else passesOf x.e - 1
    let g' := (List.range (128 * j)).foldl (fun (g : ArrayRegs) q =>
      let v := cellLoad x col pass (base + q)
      let row := 128 * b0 + q
      let at_ := row * 1024 + c
      let sat_ := row / 4 * 1024 + c
      let g1 := { g with weightShadow := tputNZ g.weightShadow at_ v.1, scaleShadow := tputNZ g.scaleShadow sat_ v.2.1,
                         metadataShadow := match v.2.2 with
                           | some m => tputNZ g.metadataShadow at_ m
                           | none => g.metadataShadow }
      if early then g1
      else { g1 with weight := tputNZ g1.weight at_ v.1, scale := tputNZ g1.scale sat_ v.2.1,
                     metadata := match v.2.2 with
                       | some m => tputNZ g1.metadata at_ m
                       | none => g1.metadata }) g
    loadCells g' x b0 j early (c + 1) r

/-- Boundaries of the bands of a chain: joins inside its group, a cut below it (R57, R58). -/
def joinBands (m b0 j : Nat) : Nat :=
  (List.range 7).foldl (fun a b =>
    let v := if b0 ≤ b ∧ b + 1 < b0 + j then 1 else if b + 1 = b0 + j then 0 else b2n (bit m b)
    a + fld v b 1) 0

end Sys2Proof.Machine
end

