-- ==== Sys2Proof/Machine/Drr.lean ====
section
/-!
DEFINITION. Machine/Drr.lean: deficit round robin of the array and of the Vector Engine between partitions (R426).
-/
namespace Sys2Proof.Machine

/-- The deficits of some partitions grown by as many visits as the first to turn positive needs, in the order of visits
after the partition served last; the partition served. -/
def drrVisit (weights : Nat → Nat) (elig : List Nat) (d : Drr) : Nat → Option (Nat × Drr)
  | 0 => none
  | fuel + 1 =>
    let order := (elig.filter (fun p => decide (d.lastPart < p))) ++ (elig.filter (fun p => decide (p ≤ d.lastPart)))
    match order with
    | [] => none
    | p :: _ =>
      let x := tgetD d.deficits p 0 + (weights p * 16384 : Nat)
      let d' := { d with deficits := tput d.deficits p x, lastPart := p }
      if 0 < x then some (p, d') else drrVisit weights elig d' fuel

/-- The partition the unit serves next: the one it serves while its deficit is positive, otherwise by visits. -/
def drrPick (weights : Nat → Nat) (elig : List Nat) (d : Drr) : Option (Nat × Drr) :=
  let d0 := { d with deficits := tfilter d.deficits (fun p _ => elig.contains p) }
  if elig.contains d.lastPart ∧ 0 < tgetD d0.deficits d.lastPart 0 then some (d.lastPart, d0)
  else drrVisit weights elig d0 4096

/-- Among heads of one partition, (queue, priority): the highest priority, then the next queue number after the one
served last. -/
def nextQueue (last : Nat) (l : List (Nat × Nat)) : Option Nat :=
  let top := (l.map (·.2)).foldl max 0
  let qs := (l.filter (fun x => x.2 == top)).map (·.1)
  let after := qs.filter (fun q => decide (last < q))
  let least (m : List Nat) : Option Nat := m.foldl (fun a q => some (match a with
    | none => q
    | some b => min b q)) none
  match least after with
  | some q => some q
  | none => least qs

/-- Priority of a queue. -/
def queuePrio (s : State) (q : Nat) : Nat := ((queueOf s q).map qPriority).getD 0
/-- Partition of a queue. -/
def queuePart (s : State) (q : Nat) : Nat := ((queueOf s q).map (·.partition)).getD 0

/-- Weight of a partition (Table 13-12). -/
def partWeight (sub : Nat) (s : State) (p : Nat) : Nat := pEnt s 0x3000 sub p

/-- The queue that a unit's schedule takes among ready ones, with the schedule as it stands after. -/
def drrQueue (s : State) (sub : Nat) (d : Drr) (ready : List Nat) : Option (Nat × Drr) :=
  match drrPick (partWeight sub s) ((ready.map (queuePart s)).eraseDups) d with
  | none => none
  | some (p, d') =>
    let l := (ready.filter (fun q => queuePart s q == p)).map (fun q => (q, queuePrio s q))
    let prio := (l.map (·.2)).foldl max 0
    (nextQueue (tgetD d'.lastQueue (p * 256 + prio) 0) l).map (fun q =>
      (q, { d' with lastQueue := tput d'.lastQueue (p * 256 + prio) q }))

/-- A run charged to its partition. -/
def drrCharge (d : Drr) (p cycles : Nat) : Drr := { d with deficits := tput d.deficits p (tgetD d.deficits p 0 - cycles) }

end Sys2Proof.Machine
end

