-- ==== Sys2Proof/Machine/ConfigOps.lean ====
section
/-!
DEFINITION. Machine/ConfigOps.lean: values in force and pending values of entries, and the places that take a change at a
boundary of their own (R13, R15, R458 to R460).
-/
namespace Sys2Proof.Machine

/-- Places that take a next-op change: 0 array and walker, 1 Vector Engine, 2 to 9 DMA engines, 10 CDE, 11 PLY, 12 PLE.
An entry that governs no engine with operations of its own is taken at once. -/
def opPlaces (k : Nat) : List Nat :=
  let b := (keyPart k).2
  if [0x220202, 0x220301, 0x230101, 0x230102, 0x230103, 0x250102, 0x300005, 0x300006].contains b then [0]
  else if [0x200503, 0x250105].contains b then [1]
  else if b = 0x240101 then [2, 3, 4, 5, 6, 7, 8, 9]
  else if b = 0x200504 then [2, 3, 4, 5, 6, 7, 8, 9, 10, 11]
  else if b = 0x270101 then [10]
  else if b = 0x303808 then [12]
  else []

/-- Heads that have started and not completed, as (opcode, stage, body). -/
def runningHeads (s : State) : List (Nat × Nat × Nat) :=
  s.queues.filterMap (fun x => (qHead x.2).bind (fun o =>
    if o.progress = .started ∨ o.progress = .finished then some ((headOf x.2 o).opcode, o.stage, o.body) else none))

/-- Whether a place has no operation running. -/
def placeIdle (s : State) (k : Nat) : Bool :=
  let l := runningHeads s
  if k = 0 then s.units.walks.isEmpty && l.all (fun x => x.1 != 1 && x.1 != 2)
  else if k = 1 then l.all (fun x => x.1 != 3)
  else if k ≤ 9 then l.all (fun x => !(x.1 == 4 && x.2.1 == k - 1))
  else if k ≤ 11 then l.all (fun x => x.1 != 8)
  else l.all (fun x => x.1 != 9 && x.1 != 0x0A)

/-- Partitions with a step barrier. -/
def steppedParts (s : State) : List Nat := (List.range 32).filter (hasStepBarrier s)

/-- Places that a change of an entry governs (R459). -/
def governed (s : State) (k : Nat) : List Nat :=
  match specOf k with
  | none => []
  | some e => match e.eff with
    | .nextOp => opPlaces k
    | .nextStep =>
      if 0x3000 ≤ k / 256 then (if hasStepBarrier s (keyPart k).1 then [(keyPart k).1] else []) else steppedParts s
    | _ => []

/-- Places that hold the pending value of an entry. -/
def placesTaken (s : State) (k : Nat) (l : List Nat) : Bool :=
  match tget? s.shadow k with
  | none => true
  | some v => l.all (fun p => decide (tget? s.placeVals (k * 256 + p) = some v))

/-- The values that places hold of an entry, forgotten. -/
def dropPlaces (s : State) (k : Nat) : State :=
  { s with placeVals := tfilter s.placeVals (fun x _ => x / 256 != k) }

/-- The pending value of an entry put in force everywhere. -/
def applyShadow (s : State) (k : Nat) : State :=
  match tget? s.shadow k with
  | none => s
  | some v => dropPlaces { setEntV s k v with shadow := tdel s.shadow k } k

/-- Some places take the pending value of an entry; it is applied once all of them hold it. -/
def takePlaces (s : State) (k : Nat) (l : List Nat) : State :=
  match tget? s.shadow k with
  | none => s
  | some v =>
    let s1 := l.foldl (fun (t : State) p => { t with placeVals := tput t.placeVals (k * 256 + p) v }) s
    if placesTaken s1 k (governed s1 k) then applyShadow s1 k else s1

/-- Entries with a pending value of a class. -/
def pendingOf (s : State) (f : EEff) : List Nat :=
  (s.shadow.filter (fun x => match specOf x.1 with
    | some e => decide (e.eff = f)
    | none => false)).map (·.1)

/-- Idle engines take the pending next-op changes that govern them (R459). -/
def settleOps (s : State) : State :=
  (pendingOf s .nextOp).foldl (fun t k => takePlaces t k ((governed t k).filter (placeIdle t))) s

/-- Next-step changes take effect at a partition's step barrier (R317 step 3), but for those written after the freeze of
R472. -/
def settleStep (s : State) (p : Nat) : State :=
  let late := (partOf s p).late
  let ks := (pendingOf s .nextStep).filter (fun k =>
    !late.contains k && (governed s k).contains p && (decide (k / 256 < 0x3000) || (keyPart k).1 == p))
  ks.foldl (fun t k => takePlaces t k [p]) s

/-- Whether a partition's owners have a valid window (R246). -/
def partWindows (s : State) (p : Nat) : Bool := s.mc.windows.any (fun x => bit x.2 95 && ownerPart s (x.1 / 8) == p)

/-- Whether a change of a memory range stays pending: the partition's owners must have no valid window (R246). -/
def rangeHeld (s : State) (k : Nat) : Bool :=
  [0x300801, 0x300802, 0x300803, 0x300804].contains (keyPart k).2 && partWindows s (keyPart k).1

/-- Changes of a reset class take effect, for one partition or for the device (R13). -/
def settleReset (s : State) (f : EEff) (part : Option Nat) : State :=
  ((pendingOf s f).filter (fun k => !rangeHeld s k && (match part with
    | some p => 0x3000 ≤ k / 256 && (keyPart k).1 == p
    | none => true))).foldl applyShadow s

/-- A value written to an entry (R458): in force at once for the immediate class; otherwise the pending value, which the
places whose boundary it is take at once. `bootShadow` keeps a reset-class value pending. -/
def putEntry (s : State) (k : Nat) (v : Val) : State :=
  match specOf k with
  | none => s
  | some e => match e.eff with
    | .nextOp => settleOps { s with shadow := tput s.shadow k v }
    | .nextStep =>
      let s1 := { s with shadow := tput s.shadow k v }
      let l := governed s1 k
      if l.isEmpty then applyShadow s1 k else
        let free := (List.range 32).filter (fun p => !l.contains p)
        if k / 256 < 0x3000 then
          free.foldl (fun (t : State) p => { t with placeVals := tput t.placeVals (k * 256 + p) v }) s1
        else s1
    | .resetPart => { s with shadow := tput s.shadow k v }
    | .resetWarm => { s with shadow := tput s.shadow k v }
    | .resetCold => { s with shadow := tput s.shadow k v }
    | _ => setEntV s k v

/-- State of an entry as a READ reports it (R459): 0 applied, 1 pending, 2 partly applied. -/
def entryState (s : State) (k : Nat) : Nat :=
  match tget? s.shadow k with
  | none => 0
  | some v => if s.placeVals.any (fun x => x.1 / 256 == k && decide (x.2 = v)) then 2 else 1

/-- Value a partition runs under of a next-step entry held device-wide. -/
def entFor (s : State) (k p : Nat) : Nat := entAt s k p

end Sys2Proof.Machine
end

