-- ==== Sys2Proof/Machine/HostMsg.lean ====
section
/-!
DEFINITION. Machine/HostMsg.lean: messages to the message rings of queues, their vectors, and completion records
(R310, R316, R407, R424, R432).
-/
namespace Sys2Proof.Machine

/-- Slots of a queue's message ring. -/
def msgSlots (x : Queue) : Nat := 2 ^ bits x.ctx 278 5

/-- Whether the message ring has space. -/
def ringSpace (x : Queue) : Bool := decide (x.posted - x.consumed < msgSlots x)

/-- Whether a vector signals for a queue. -/
def queueVector (s : State) (x : Queue) : Bool := bit x.ctx 260 && vectorHeld s (ownerFn s (qOwner x)) (bits x.ctx 261 11)

/-- The vector of a queue signalled, or due when the holdoff ends (R407). -/
def signalQueue (s : State) (q : Nat) (x : Queue) : State :=
  if ¬ queueVector s x then s
  else if x.holdoff then modQueue s q (fun y => { y with signalDue := true })
  else
    let s1 := if ent s 0x210107 = 0 then s else modQueue s q (fun y => { y with holdoff := true })
    toHost s1 (.msix (ownerFn s (qOwner x)) (bits x.ctx 261 11))

/-- A message lands in its ring at the slot of its sequence number; an empty ring's vector is signalled. -/
def landMsg (s : State) (q : Nat) (m : Held) : State :=
  match queueOf s q with
  | none => s
  | some x =>
    let slot := bits m.msg 32 32 % msgSlots x
    let s1 := ringWr s (qOwner x) (bit x.ctx 276) (bits x.ctx 384 64 + 32 * slot) (natLe 32 m.msg)
    let s2 := modQueue (if m.isWatch then bump s1 0x2A0203 1 else s1) q (fun y => { y with posted := y.posted + 1 })
    if x.posted = x.consumed then signalQueue s2 q x else s2

/-- Whether messages of watches to a queue are held because its owner is pre-empted (R316). -/
def msgFrozen (s : State) (x : Queue) : Bool := ownerState s (qOwner x) == .preempted

/-- A message posted to a queue with its next message sequence number: it lands, or is held behind earlier ones or for
want of space (R310). -/
def postMsg (s : State) (q : Nat) (msg : Nat) (isWatch : Bool) : State :=
  match queueOf s q with
  | none => s
  | some x =>
    let m : Held := { msg := msg + fld x.msgSeq 32 32, isWatch := isWatch }
    let s1 := modQueue s q (fun y => { y with msgSeq := (y.msgSeq + 1) % 2 ^ 32 })
    if x.held.isEmpty && ringSpace x && !(isWatch && msgFrozen s x) then landMsg s1 q m
    else
      let s2 := if isWatch && !ringSpace x then bump s1 0x2A0204 1 else s1
      modQueue s2 q (fun y => { y with held := y.held ++ [m] })

/-- The first held message of a queue lands where the ring has space (R310). -/
def postHeld (s : State) (q : Nat) : State :=
  match queueOf s q with
  | none => s
  | some x => match x.held with
    | [] => s
    | m :: r =>
      if ringSpace x && !(m.isWatch && msgFrozen s x) then landMsg (modQueue s q (fun y => { y with held := r })) q m
      else s

/-- Completion record of an operation (Table 13-10), but for its message sequence number. -/
def completionOf (s : State) (o : Op) : Nat :=
  let bad := decide (0x10 ≤ o.status)
  fld o.seq 192 64 + fld o.detail 160 32 + fld (if bad ∨ o.faults ≠ 0 then o.code else 0) 144 16 + fld o.statusBits 128 8 +
  fld s.clock.ns 64 64 + fld 0x02 24 8 + fld o.status 16 8

/-- Loss record of a queue (Table 13-15), but for its message sequence number. -/
def lossOf (s : State) (firstLost mark cause headState : Nat) : Nat :=
  fld firstLost 192 64 + fld mark 128 64 + fld s.clock.ns 64 64 + fld 0x03 24 8 + fld cause 16 8 + fld headState 8 8 + 2

end Sys2Proof.Machine
end

