-- ==== Sys2Proof/Machine/PlaceMap.lean ====
section
/-!
DEFINITION. Machine/PlaceMap.lean: the procedures by which every device of a job computes the same decisions: the job
description's fields (Tables 12-1 to 12-3), coordinates (R376), digest (R375), the activation plan (R396, R397), expert maps
(R386, R388, R389) and placement images (R400).
-/
namespace Sys2Proof.Machine

/-! ### The job description -/

/-- Fields of a job description header (Table 12-1). -/
def jhTransit (h : Nat) : Nat := bits h 432 40
def jhTransitMib (h : Nat) : Nat := bits h 400 32
def jhPool (h : Nat) : Nat := bits h 360 40
def jhPoolMib (h : Nat) : Nat := bits h 328 32
def jhBudget (h : Nat) : Nat := bits h 296 32
def jhAct (h : Nat) : Nat := bits h 256 40
def jhLayerPtr (h : Nat) : Nat := bits h 216 40
def jhListPtr (h : Nat) : Nat := bits h 176 40
def jhMembers (h : Nat) : Nat := bits h 162 14 + 1
def jhRack (h : Nat) : Nat := bits h 155 7
def jhStages (h : Nat) : Nat := bits h 146 9
def jhEpRacks (h : Nat) : Nat := bits h 141 5
def jhTensor (h : Nat) : Bool := bit h 140
def jhLayers (h : Nat) : Nat := bits h 130 10 + 1

/-- Fields of a layer record (Table 12-2). -/
def lyBytes (r k : Nat) : Nat := bits r (416 + 32 * k) 32
def lyRecompute (r : Nat) : Nat := bits r 400 16
def lyMapPtr (r : Nat) : Nat := bits r 360 40
def lyRegionPtr (r : Nat) : Nat := bits r 320 40
def lySlots (r : Nat) : Nat := bits r 268 12
def lyExperts (r : Nat) : Nat := bits r 256 12 + 1
def lyChoices (r : Nat) : Nat := bits r 252 4 + 1
def lyRegions (r : Nat) : Nat := bits r 248 4 + 1
def lyStage (r : Nat) : Nat := bits r 240 8
def lyId (r : Nat) : Nat := bits r 224 16
def lyKind (r : Nat) : Nat := bits r 220 4
def lyRouted (r : Nat) : Bool := lyKind r == 2
def lyGather (r : Nat) : Nat := bits r 218 2
def lyKeep (r : Nat) : Bool := bit r 217
def lyNoOffload (r : Nat) : Bool := bit r 216
def lyNoRecompute (r : Nat) : Bool := bit r 215
def lyAdaptive (r : Nat) : Bool := bit r 214

/-- Fields of a region entry (Table 12-3). -/
def rgGathered (r : Nat) : Nat := bits r 176 40
def rgBase (r : Nat) : Nat := bits r 136 40
def rgStride (r : Nat) : Nat := bits r 96 40
def rgSize (r : Nat) : Nat := bits r 56 40
def rgRole (r : Nat) : Nat := bits r 0 4

/-- The job digest (R375): pointers and offsets taken as zero. -/
def jobDigest (hdr : Nat) (members recs : List Nat) (regions : List (List Nat)) : Nat :=
  crc32c (natLe 64 (clearList hdr [(432, 40), (360, 40), (256, 40), (216, 40), (176, 40)]) ++ members.flatMap (natLe 4) ++
    recs.flatMap (fun r => natLe 64 (clearList r [(360, 40), (320, 40)])) ++
    regions.flatMap (fun l => l.flatMap (fun r => natLe 32 (clearList r [(176, 40), (136, 40)]))))
where
  /-- A structure with the given fields zero. -/
  clearList (x : Nat) (l : List (Nat × Nat)) : Nat := l.foldl (fun y f => setBits y f.1 f.2 0) x

/-! ### Coordinates (R376) -/

/-- Coordinates of a rank: rack position, index in the rack, quad, position in the quad, stage and replica. -/
structure Coord where
  rho : Nat
  i : Nat
  u : Nat
  a : Nat
  stage : Nat
  replica : Nat
  deriving DecidableEq, Repr

def coordOf (h r : Nat) : Coord :=
  let rho := r / jhRack h
  let i := r % jhRack h
  ⟨rho, i, i / 4, i % 4, rho % jhStages h, rho / jhStages h⟩

/-- Ranks of a job. -/
def allRanks (h : Nat) : List Nat := List.range (jhMembers h)

/-- The expert group of a rank: its members in rank order. -/
def expertGroup (h r : Nat) : List Nat :=
  let c := coordOf h r
  (allRanks h).filter (fun x => decide ((coordOf h x).stage = c.stage ∧ (coordOf h x).replica / jhEpRacks h = c.replica / jhEpRacks h))

/-- Ranks of a rank's gather shard, in order of u or i (R384). -/
def gatherGroup (h r mode : Nat) : List Nat :=
  let c := coordOf h r
  (allRanks h).filter (fun x => decide ((coordOf h x).rho = c.rho ∧ (mode = 2 ∨ (coordOf h x).a = c.a)))

/-- Ranks over which a role 0x3 region is reduced, in order of (replica, u) or (replica, i) (R385). -/
def gradGroup (h r mode : Nat) : List Nat :=
  let c := coordOf h r
  (allRanks h).filter (fun x => decide ((coordOf h x).stage = c.stage ∧ (mode = 2 ∨ (coordOf h x).a = c.a)))

/-- Devices of an expert group in number. -/
def groupCount (h : Nat) : Nat := jhEpRacks h * jhRack h

/-! ### Shape (R374) -/

/-- The first rule of the shape of the members that is broken, numbered in the order of R374. -/
def shapeBad (h : Nat) (members : List Nat) : Option Nat :=
  let m := jhRack h
  let p := jhStages h
  let n := jhMembers h
  let y := n / m
  let dev (r : Nat) : Nat := bits ((members[r]?).getD 0) 0 12
  let rack (r : Nat) : Nat := bits ((members[r]?).getD 0) 12 12
  let racksOk := (List.range y).all (fun k =>
    (List.range m).all (fun i => rack (k * m + i) == rack (k * m) && (i == 0 || decide (dev (k * m + i - 1) < dev (k * m + i))) &&
      decide (dev (k * m + i) / 4 = dev (k * m + i / 4 * 4) / 4 ∧ dev (k * m + i) % 4 = i % 4)) &&
    (k == 0 || decide (rack ((k - 1) * m) < rack (k * m))))
  if n % m ≠ 0 ∨ y % p ≠ 0 ∨ (y / p) % jhEpRacks h ≠ 0 then some 1
  else if ¬ racksOk then some 2
  else none

/-- Bytes of a layer's expert slot state. -/
def slotState (regions : List Nat) : Nat := ((regions.filter (fun r => rgRole r == 1)).map rgSize).foldl (· + ·) 0

/-- The rule of R374 that a layer breaks. -/
def layerShapeBad (h r : Nat) (regions : List Nat) : Option Nat :=
  let d := groupCount h
  if (jhTensor h = false ∧ lyGather r = 1) ∨ (jhTensor h = true ∧ lyGather r = 2) then some 3
  else if lyRouted r ∧ ¬ (lyChoices r ≤ lyExperts r ∧ ceilDiv (lyExperts r) d ≤ lySlots r ∧ lySlots r * d ≤ 4096 ∧
    lySlots r * slotState regions ≤ jhTransitMib h * 1048576) then some 4
  else none

/-! ### Retained activations (R395 to R397) -/

/-- Retained classes of a layer: two, or three where it is routed. -/
def lyClasses (r : Nat) : List Nat := if lyRouted r then [0, 1, 2] else [0, 1]

/-- A retained class: layer, class and KiB. -/
structure Retain where
  layer : Nat
  cls : Nat
  kib : Nat
  offOk : Bool
  reOk : Bool
  cost : Nat
  deriving DecidableEq, Repr

/-- Cost of moving a class, in ns per MiB (R396). -/
def retainCost (r k : Nat) : Nat := lyRecompute r * 1000 * 1024 / lyBytes r k

/-- Classes of a stage's layers, given as (index, record). -/
def retains (h : Nat) (recs : List (Nat × Nat)) : List Retain :=
  recs.flatMap (fun x => (lyClasses x.2).map (fun k =>
    let off := decide (jhPoolMib h ≠ 0) && !lyNoOffload x.2
    let re := k == 1 && decide (lyRecompute x.2 ≠ 0) && !lyNoRecompute x.2
    ⟨x.1, k, lyBytes x.2 k, off, re,
      min (if off then 1311 else 2 ^ 64) (if re ∧ lyBytes x.2 k ≠ 0 then retainCost x.2 k else 2 ^ 64)⟩))

/-- Order of candidates: (cost, −b, layer, class). -/
def retainBefore (x y : Retain) : Bool :=
  decide (x.cost < y.cost) || (x.cost == y.cost && (decide (y.kib < x.kib) || (x.kib == y.kib &&
    (decide (x.layer < y.layer) || (x.layer == y.layer && decide (x.cls ≤ y.cls))))))

/-- Sorted insertion by an order. -/
def insertBy {α : Type} (f : α → α → Bool) (x : α) : List α → List α
  | [] => [x]
  | y :: r => if f x y then x :: y :: r else y :: insertBy f x r

/-- A list sorted by an order. -/
def sortBy {α : Type} (f : α → α → Bool) : List α → List α
  | [] => []
  | x :: r => insertBy f x (sortBy f r)

/-- Whether a plan fits: kept classes and two buffers of the largest moved one (R396). -/
def planFits (h : Nat) (kept moved : List Retain) : Bool :=
  decide ((kept.map (·.kib)).foldl (· + ·) 0 + 2 * (moved.map (·.kib)).foldl max 0 ≤ jhBudget h * 1024)

/-- Candidates moved in order until the plan fits. -/
def planMove (h : Nat) : List Retain → List Retain → List Retain → List Retain × List Retain
  | [], kept, moved => (kept, moved)
  | x :: r, kept, moved =>
    if planFits h kept moved then (kept, moved) else planMove h r (kept.filter (fun y => decide (y ≠ x))) (moved ++ [x])

/-- A plan: every class with 0 keep, 1 off-load, 2 recompute, and its offset in the arena in KiB. -/
structure ActPlan where
  classes : List (Retain × Nat × Nat)
  deriving DecidableEq, Repr

/-- Offsets of kept classes laid end to end. -/
def layEnd : Nat → List Retain → List (Retain × Nat)
  | _, [] => []
  | n, x :: r => (x, n) :: layEnd (n + x.kib) r

/-- The plan of R396; none where it does not fit. -/
def actPlan (h : Nat) (recs : List (Nat × Nat)) : Option ActPlan :=
  let all := retains h recs
  let cand := sortBy retainBefore (all.filter (fun x => (x.offOk || x.reOk) && decide (x.kib ≠ 0)))
  let r := planMove h cand all []
  if ¬ planFits h r.1 r.2 then none
  else
    let laid := layEnd 0 r.1
    let top := (r.1.map (·.kib)).foldl (· + ·) 0
    let big := (r.2.map (·.kib)).foldl max 0
    some ⟨all.map (fun x => match laid.find? (fun y => decide (y.1 = x)) with
      | some y => (x, 0, y.2)
      | none => (x, if x.offOk ∧ 1311 ≤ x.cost then 1 else 2, top + (x.layer % 2) * big))⟩

/-- The member of the rack, as an index, with the most pool left, not in the given quad; lower on ties. -/
def poolBest (quad : Nat) (left : List Nat) : Option (Nat × Nat) :=
  (List.range left.length).foldl (fun b i =>
    if i / 4 = quad then b
    else match b with
      | none => some (i, (left[i]?).getD 0)
      | some y => if y.2 < (left[i]?).getD 0 then some (i, (left[i]?).getD 0) else b) none

/-- An off-loaded class assigned for one device of the rack: destination index and KiB offset in its pool, or recompute; an
error where neither is allowed. -/
def assignOne (pool dev : Nat) (acc : Option (List Nat × List (Nat × Retain × Option (Nat × Nat)))) (x : Retain) :
    Option (List Nat × List (Nat × Retain × Option (Nat × Nat))) :=
  match acc with
  | none => none
  | some (left, out) =>
    match poolBest (dev / 4) left with
    | some (i, n) =>
      if x.kib ≤ n then some (left.set i (n - x.kib), out ++ [(dev, x, some (i, pool - n))])
      else if x.reOk then some (left, out ++ [(dev, x, none)]) else none
    | none => if x.reOk then some (left, out ++ [(dev, x, none)]) else none

/-- The assignment of R397 for the whole rack: devices in ascending rank, each device's classes in layer and class order. -/
def assignPools (h : Nat) (p : ActPlan) : Option (List (Nat × Retain × Option (Nat × Nat))) :=
  let m := jhRack h
  let pool := jhPoolMib h * 1024
  let off := (p.classes.filter (fun x => x.2.1 == 1)).map (·.1)
  ((List.range m).foldl (fun acc dev => off.foldl (assignOne pool dev) acc) (some (List.replicate m pool, []))).map (·.2)

/-! ### Expert maps (R386, R388, R389) -/

/-- The expert that gains a replica next: fewer than four, the greatest load per replica, lower on ties. -/
def nextReplica (loads counts : List Nat) : Option Nat :=
  (List.range loads.length).foldl (fun b e =>
    let le := (loads[e]?).getD 0
    let ne := (counts[e]?).getD 1
    if 4 ≤ ne then b
    else match b with
      | none => some e
      | some f => if (loads[f]?).getD 0 * ne < le * (counts[f]?).getD 1 then some e else b) none

/-- Replica counts (R388). -/
def replicaCounts (loads : List Nat) : Nat → List Nat → List Nat
  | 0, counts => counts
  | spare + 1, counts =>
    match nextReplica loads counts with
    | none => counts
    | some e => if (loads[e]?).getD 0 = 0 then counts else replicaCounts loads spare (counts.set e ((counts[e]?).getD 1 + 1))

/-- Share of a replica. -/
def shareOf (load n h : Nat) : Nat := load / n + (if h < load % n then 1 else 0)

/-- What the assignment holds: hosted and assigned by member, and the map. -/
structure Asg where
  hosted : List Nat
  load : List Nat
  map : List (List (Nat × Nat))
  deriving DecidableEq, Repr

/-- The member for a replica of an expert: room, not holding the expert, least assigned, lower on ties. -/
def pickMember (c e : Nat) (a : Asg) : Option Nat :=
  let holds := ((a.map[e]?).getD []).map (·.1)
  (List.range a.hosted.length).foldl (fun b d =>
    if c ≤ (a.hosted[d]?).getD 0 ∨ holds.contains d then b
    else match b with
      | none => some d
      | some f => if (a.load[d]?).getD 0 < (a.load[f]?).getD 0 then some d else b) none

/-- One replica placed. -/
def placeOne (c : Nat) (acc : Option Asg) (x : Nat × Nat × Nat) : Option Asg :=
  match acc with
  | none => none
  | some a => (pickMember c x.2.1 a).map (fun d =>
      let l := (a.hosted[d]?).getD 0
      { hosted := a.hosted.set d (l + 1), load := a.load.set d ((a.load[d]?).getD 0 + x.1),
        map := a.map.set x.2.1 ((a.map[x.2.1]?).getD [] ++ [(d, l)]) })

/-- Order of replicas (weight, expert, replica): key (−w, e, h). -/
def itemBefore (x y : Nat × Nat × Nat) : Bool :=
  decide (y.1 < x.1) || (x.1 == y.1 && (decide (x.2.1 < y.2.1) || (x.2.1 == y.2.1 && decide (x.2.2 ≤ y.2.2))))

/-- The procedure of R388: the map and the largest assigned load; none where it declines. -/
def placeExperts (loads : List Nat) (d c : Nat) : Option (List (List (Nat × Nat)) × Nat) :=
  let e := loads.length
  let counts := replicaCounts loads (d * c - e) (List.replicate e 1)
  let items := (List.range e).flatMap (fun x => (List.range ((counts[x]?).getD 1)).map (fun h =>
    (shareOf ((loads[x]?).getD 0) ((counts[x]?).getD 1) h, x, h)))
  let a := (sortBy itemBefore items).foldl (placeOne c)
    (some ⟨List.replicate d 0, List.replicate d 0, List.replicate e []⟩)
  a.map (fun r => (r.map, r.load.foldl max 0))

/-- Largest assigned load of a map under loads (R389). -/
def mapLoad (loads : List Nat) (d : Nat) (map : List (List (Nat × Nat))) : Nat :=
  let put (acc : List Nat) (x : Nat × List (Nat × Nat)) : List Nat :=
    ((List.range x.2.length).zip x.2).foldl (fun a y =>
      a.set y.2.1 ((a[y.2.1]?).getD 0 + shareOf ((loads[x.1]?).getD 0) x.2.length y.1)) acc
  (((List.range map.length).zip map).foldl put (List.replicate d 0)).foldl max 0

/-- Whether a decision is adopted (R389). -/
def gainEnough (newMax curMax threshold : Nat) : Bool := decide (newMax * 1024 ≤ curMax * (1024 - threshold))

/-- Entry of an expert map (Table 07-2). -/
def mapEntry (l : List (Nat × Nat)) : Nat :=
  fld (l.length - 1) 88 2 +
    (((List.range l.length).zip l).map (fun x => fld x.2.1 (22 * x.1 + 12) 10 + fld x.2.2 (22 * x.1) 12)).foldl (· + ·) 0

/-- Bytes of an expert map with the member list at the next 64-byte boundary (R390). -/
def mapBytes (map : List (List (Nat × Nat))) (group : List Nat) : List Nat :=
  padTo (roundUp (16 * map.length) 64) (map.flatMap (fun l => natLe 16 (mapEntry l))) ++ group.flatMap (natLe 4)

/-- Slots that move (R392): new position (member, local), and the position of its source, for the positions whose source
is elsewhere. -/
def mapMoves (old new : List (List (Nat × Nat))) : List ((Nat × Nat) × (Nat × Nat)) :=
  ((List.range new.length).zip new).flatMap (fun x =>
    let o := (old[x.1]?).getD []
    ((List.range x.2.length).zip x.2).filterMap (fun y =>
      let src := (o[y.1 % max 1 o.length]?).getD (0, 0)
      if src = y.2 then none else some (y.2, src)))

/-- Rank of a local slot among a member's incoming slots (R392). -/
def incomingRank (mv : List ((Nat × Nat) × (Nat × Nat))) (d l : Nat) : Nat :=
  (mv.filter (fun x => decide (x.1.1 = d ∧ x.1.2 < l))).length

/-- Largest E_d of a map. -/
def maxHosted (d : Nat) (map : List (List (Nat × Nat))) : Nat :=
  ((List.range d).map (fun x => (map.flatten.filter (fun y => y.1 == x)).length)).foldl max 0

/-! ### The placement image (R400) -/

/-- Digest of an expert map and its group's member list. -/
def mapDigest (map : List (List (Nat × Nat))) (group : List Nat) : Nat :=
  crc32c (map.flatMap (fun l => natLe 16 (mapEntry l)) ++ group.flatMap (natLe 4))

/-- Layer entry of a placement image (Table 12-10). -/
def imageEntry (l : Layer) (digest d : Nat) : Nat :=
  let ar (k : Nat) : Nat := (l.arena[k]?).getD 0
  let ch (k : Nat) : Nat := (l.choices[k]?).getD 3
  let ds (k : Nat) : Nat := (l.dests[k]?).getD 0xFFF
  fld digest 480 32 + fld (min l.maxLoad 0xFFFFFFFF) 448 32 + fld (ar 0) 416 32 + fld (ar 1) 384 32 + fld (ar 2) 352 32 +
  fld (ds 0) 340 12 + fld (ds 1) 328 12 + fld (ds 2) 316 12 + fld (ch 0) 304 2 + fld (ch 1) 306 2 + fld (ch 2) 308 2 +
  fld (lyId l.rec_) 288 16 + fld (lyKind l.rec_) 284 4 + fld (if lyRouted l.rec_ then maxHosted d l.map else 0) 272 12

/-- Bytes of a placement image: its header, layer entries, and the maps of routed layers, each at a 64-byte boundary. -/
def imageBytes (hdr : Nat) (entries : List Nat) (maps : List (List (List (Nat × Nat)))) : List Nat :=
  natLe 64 hdr ++ entries.flatMap (natLe 64) ++
    maps.flatMap (fun m => padTo (roundUp (16 * m.length) 64) (m.flatMap (fun l => natLe 16 (mapEntry l))))

end Sys2Proof.Machine
end

