-- ==== Sys2Proof/Machine/PlaceStep.lean ====
section
/-!
DEFINITION. Machine/PlaceStep.lean: what the Placement Engine does at a step barrier: histograms, adoption, round 1 of a
re-shard (R387 to R394), and placement images (R400).
-/
namespace Sys2Proof.Machine

/-- Rack and device of an entry of a job member list (Table 07-1). -/
def jmRack (e : Nat) : Nat := bits e 12 12
def jmDev (e : Nat) : Nat := bits e 0 12

/-- The job of a partition changed. -/
def modJob (s : State) (p : Nat) (f : Job → Job) : State := modPart s p (fun x => { x with job := x.job.map f })

/-- A layer of a job changed. -/
def modLayer (s : State) (p i : Nat) (f : Layer → Layer) : State :=
  modJob s p (fun j => { j with layers := j.layers.modify i f })

/-- This device's stage, and its place in its expert group (R386). -/
def jobCoord (j : Job) : Coord := coordOf j.hdr j.rank
def jobGroup (j : Job) : List Nat := expertGroup j.hdr j.rank
def groupPlace (j : Job) : Nat := (indexIn j.rank (jobGroup j)).getD 0
def groupList (j : Job) : List Nat := (jobGroup j).map (fun r => (j.members[r]?).getD 0)

/-- Indexes of the layers of this device's stage, in record order. -/
def stageLayers (j : Job) : List Nat :=
  (List.range j.layers.length).filter (fun i => match j.layers[i]? with
    | some l => lyStage l.rec_ == (jobCoord j).stage
    | none => false)

def layerAt (j : Job) (i : Nat) : Layer := (j.layers[i]?).getD { rec_ := 0, regions := [] }

/-- Adaptive routed layers of the stage. -/
def adaptiveLayers (j : Job) : List Nat :=
  (stageLayers j).filter (fun i => lyRouted (layerAt j i).rec_ && lyAdaptive (layerAt j i).rec_)

/-- A packet of the PLE's own: bytes copied to another device under the owner that started the job, in a copy group. -/
def pleSend (s : State) (o rack dev off group : Nat) (poisoned : Bool) (data : List Nat) : State :=
  ((List.range (ceilDiv data.length 8192)).foldl (fun t i =>
    sendPk t (flowKey t rack dev) 0xFFFFF 18446744073709551615
      { ty := 0x07, src := ownDev t, dst := dev, owner := o, epoch := ownerEpoch t o, addr := fld dev 39 6 + off + 8192 * i,
        group := group, poisoned := poisoned, payload := (data.drop (8192 * i)).take 8192 }) s)

/-- Whether every packet of a copy group of the PLE has been acknowledged. -/
def groupAcked (s : State) (g : Nat) : Bool :=
  s.fab.flows.all (fun f => (f.2.unacked ++ f.2.waiting).all (fun x => x.pk.group != g || x.q != 0xFFFFF))

/-- Whether a copy group has seen a late fault. -/
def groupErr (s : State) (g : Nat) : Bool := (tgetD s.fab.groups g {}).err

/-- A copy group of the engines' own, fresh. -/
def takeGroup (s : State) : Nat × State :=
  let g := 0xF000 + s.card.groups % 4096
  (g, { s with card := { s.card with groups := s.card.groups + 1 }, fab := { s.fab with groups := tdel s.fab.groups g } })

/-- A fault of the PLE for the owner of a job. -/
def pleFault (s : State) (j : Job) (code : Nat) (items : List (Nat × Nat)) : State := raiseOwner s code srcPle j.owner items

/-! ### Placement images (R400) -/

/-- Entries and maps of a job's image. -/
def jobImage (s : State) (p : Nat) (j : Job) : List Nat :=
  let entry (l : Layer) : Nat := imageEntry l (if lyRouted l.rec_ then mapDigest l.map (groupList j) else 0) (jobGroup j).length
  let hdr := fld (pEnt s 0x3020 2 p) 448 64 + fld j.generation 416 32 + fld j.digest 384 32 + fld j.decisionStep 320 64 +
    fld j.mode 288 2 + fld j.moved 272 16 + fld (j.layers.length - 1) 198 10 + 2
  imageBytes hdr (j.layers.map entry) ((j.layers.filter (fun l => lyRouted l.rec_)).map (·.map))

/-- Causes of fault 0xD00C. -/
def imageBad (s : State) (j : Job) (cause : Nat) : State := pleFault s j 0xD00C [(j.generation, 32), (Config.causeCode 0xD00C cause, 8)]

/-- The image of the placement in force written into its ring (R400): 1 slot too small, 2 ring empty, 3 ring outside the
owner's windows. -/
def writeImage (s : State) (p : Nat) : State :=
  match (partOf s p).job with
  | none => s
  | some j =>
    let ptr := pEnt s 0x3038 4 p
    let slots := pEnt s 0x3038 5 p
    let kib := pEnt s 0x3038 6 p
    let img := jobImage s p j
    let at_ := ptr + j.generation % max 1 slots * (kib * 1024)
    if ptr = 0 then s
    else if slots = 0 ∨ kib = 0 then imageBad s j 2
    else if kib * 1024 < img.length then imageBad s j 1
    else if ¬ (winOk s j.owner at_ img.length .write) then imageBad s j 3
    else wr s j.owner at_ img

/-! ### Round 1 of a re-shard (R392) -/

/-- Role 0x1 regions of a layer with the offset of each in a transit entry. -/
def slotRegions (l : Layer) : List (Nat × Nat) :=
  ((l.regions.filter (fun r => rgRole r == 1)).foldl (fun acc r => (acc.1 ++ [(r, acc.2)], acc.2 + rgSize r)) (([], 0) : List (Nat × Nat) × Nat)).1

/-- Offset of entry e of the transit area. -/
def transitAt (j : Job) (l : Layer) (e : Nat) : Nat := jhTransit j.hdr + e * slotState l.regions

/-- A slot of a layer copied towards its new position: into the own transit area, or to its member's. -/
def copySlot (p : Nat) (i : Nat) (mv : List ((Nat × Nat) × (Nat × Nat))) (s : State) (x : (Nat × Nat) × (Nat × Nat)) : State :=
  match (partOf s p).job with
  | none => s
  | some j =>
    let l := layerAt j i
    let dest := (j.members[((jobGroup j)[x.1.1]?).getD 0]?).getD 0
    let e := transitAt j l (incomingRank mv x.1.1 x.1.2)
    (slotRegions l).foldl (fun t r =>
      let src := rgBase r.1 + rgStride r.1 * x.2.2
      let n := rgSize r.1
      let bad := poisonAt t src n
      let t1 := if bad then modJob (countPoisonAt t src) p (fun y => { y with vote := false }) else t
      let data := rd t1 j.owner src n
      if x.1.1 = groupPlace j then
        (if winOk t1 j.owner (e + r.2) n .write then wr t1 j.owner (e + r.2) data
         else modJob t1 p (fun y => { y with vote := false }))
      else match guardWin t1 j.owner (jmRack dest) (jmDev dest) (e + r.2) n .copyTo with
        | none => modJob (raiseOwner t1 0xA006 srcGuard j.owner (guardItems j.owner (jmDev dest) (fld (jmDev dest) 39 6 + e + r.2) .copyTo)) p
            (fun y => { y with vote := false })
        | some _ => pleSend t1 j.owner (jmRack dest) (jmDev dest) (e + r.2) j.group bad data) s
where
  /-- A poisoned read of HBM counted (0x2802:03). -/
  countPoisonAt (s : State) (a : Nat) : State := if isTile a then s else bump s 0x280203 1

/-- Offsets of slot maps that are bound for a layer ID (R391). -/
def boundMaps (s : State) (o layer : Nat) : List Nat :=
  let offs := (s.card.leases.map (·.mapOff) ++ s.card.maps.map (·.1)).eraseDups
  offs.filter (fun a => let h := rdNat s o a 64; bits h 232 8 == 1 && bits h 240 16 == layer)

/-- Round 1 for the first layer of an adoption: a bound slot map votes 0 (R391), and this member copies the slots it is the
source of. -/
def roundOne (s : State) (p : Nat) : State :=
  match (partOf s p).job with
  | none => s
  | some j => match j.adopting with
    | [] => s
    | (i, new, _) :: _ =>
      let l := layerAt j i
      let mv := mapMoves l.map new
      let g := takeGroup s
      let s1 := modJob g.2 p (fun y => { y with vote := true, group := g.1 })
      let bound := boundMaps s1 j.owner (lyId l.rec_)
      let s2 := bound.foldl (fun t _ => modJob (pleFault t j 0xD00E [(i, 16), (lyId l.rec_, 16)]) p (fun y => { y with vote := false })) s1
      (mv.filter (fun x => x.2.1 == groupPlace j)).foldl (copySlot p i mv) s2

/-! ### Adoption (R387, R394) -/

/-- A new map in force for a layer (0x2C01:02). -/
def takeMap (s : State) (p i : Nat) (new : List (List (Nat × Nat))) (max_ : Nat) : State :=
  bump (modJob (modLayer s p i (fun l => { l with map := new, maxLoad := max_ })) p (fun j => { j with changed := true })) 0x2C0102 1

/-- The end of an adoption: where a map was adopted, the next generation and its image (R400). -/
def endAdoption (s : State) (p : Nat) : State :=
  match (partOf s p).job with
  | none => s
  | some j =>
    if j.changed then
      writeImage (modJob s p (fun y => { y with generation := (y.generation + 1) % 2 ^ 32, changed := false })) p
    else s

/-- An adoption begun: maps that do not change are taken at once, the others re-shard (R392). -/
def beginAdoption (s : State) (p mode step : Nat) (l : List (Nat × List (List (Nat × Nat)) × Nat)) : State :=
  match (partOf s p).job with
  | none => s
  | some j =>
    let same := l.filter (fun x => decide ((layerAt j x.1).map = x.2.1))
    let rest := l.filter (fun x => decide ((layerAt j x.1).map ≠ x.2.1))
    let s1 := modJob s p (fun y => { y with adopting := rest, mode := mode, decisionStep := step, moved := 0, changed := false })
    let s2 := same.foldl (fun t x => takeMap t p x.1 x.2.1 x.2.2) s1
    if rest.isEmpty then endAdoption s2 p else roundOne s2 p

/-- Snapshots of the histograms of a job taken and the histograms cleared (R387); in another mode than adaptive no
decision is formed of them. -/
def snapHists (s : State) (p mode step : Nat) : State :=
  modJob s p (fun j =>
    { j with
      snapStep := if mode = 0 then step else j.snapStep
      layers := (List.range j.layers.length).map (fun i =>
        let l := layerAt j i
        if (adaptiveLayers j).contains i then
          { l with hist := [], pending := none,
                   snap := if mode = 0 then some ((List.range (lyExperts l.rec_)).map (fun e => tgetD l.hist e 0)) else none }
        else l) })

/-- Pending decisions of a job, by layer. -/
def decisionsOf (j : Job) : List (Nat × List (List (Nat × Nat)) × Nat) :=
  (adaptiveLayers j).filterMap (fun i => (layerAt j i).pending.map (fun d => (i, d)))

/-- Decisions forgotten. -/
def dropDecisions (s : State) (p : Nat) : State :=
  modJob s p (fun j => { j with layers := j.layers.map (fun l => { l with pending := none }) })

/-- Maps of a pinned image for the routed layers, in layer order, as entries: the offset of each follows from the sizes
before it. -/
def pinnedMaps : List Nat → List Nat → List (List Nat)
  | [], _ => []
  | e :: r, b => (splitEvery 16 e b).map leNat :: pinnedMaps r (b.drop (roundUp (16 * e) 64))

/-- Replicas of an expert map entry. -/
def entryReplicas (m : Nat) : List (Nat × Nat) :=
  (List.range (bits m 88 2 + 1)).map (fun h => (bits m (22 * h + 12) 10, bits m (22 * h) 12))

/-- A pinned image as it must read for a job (R394): its maps by routed layer; none where it does not match. -/
def readPinned (s : State) (j : Job) (ptr : Nat) : Option (List (List (List (Nat × Nat)))) :=
  let routed := j.layers.filter (fun l => lyRouted l.rec_)
  let sizes := routed.map (fun l => lyExperts l.rec_)
  let n := 64 + 64 * j.layers.length + (sizes.map (fun e => roundUp (16 * e) 64)).foldl (· + ·) 0
  if ¬ ptrOk s j.owner ptr n .read ∨ poisonAt s ptr n then none
  else
    let b := rd s j.owner ptr n
    let h := leNat (b.take 64)
    let maps := (pinnedMaps sizes (b.drop (64 + 64 * j.layers.length))).map (fun m => m.map entryReplicas)
    let digests := ((indexedFrom 0 j.layers).filter (fun x => lyRouted x.2.rec_)).map (fun x => leNat ((b.drop (64 + 64 * x.1)).take 64) / 2 ^ 480)
    let slotsOk := (List.zip routed maps).all (fun x => x.2.flatten.all (fun y =>
      decide (y.1 < (jobGroup j).length ∧ y.2 < lySlots x.1.rec_)) && decide (x.2.flatten.eraseDups.length = x.2.flatten.length))
    if bits h 0 8 ≠ 2 ∨ bits h 384 32 ≠ j.digest ∨ bits h 198 10 + 1 ≠ j.layers.length ∨
       digests ≠ maps.map (fun m => mapDigest m (groupList j)) ∨ ¬ slotsOk then none
    else some maps
where
  /-- A list with its places. -/
  indexedFrom {α : Type} : Nat → List α → List (Nat × α)
    | _, [] => []
    | i, x :: r => (i, x) :: indexedFrom (i + 1) r

/-- The routed layers of the stage with the maps of a pinned image. -/
def pinnedLayers (j : Job) (maps : List (List (List (Nat × Nat)))) : List (Nat × List (List (Nat × Nat)) × Nat) :=
  let routed := (List.range j.layers.length).filter (fun i => lyRouted (layerAt j i).rec_)
  (List.zip routed maps).filterMap (fun x => if (stageLayers j).contains x.1 then some (x.1, x.2, 0) else none)

/-- What the PLE does in step 3 of R317, the step just ended given: an adaptive decision or a pinned image adopted, and the
histograms at the end of an interval. -/
def adoptStep (s : State) (p step : Nat) : State :=
  match (partOf s p).job with
  | none => s
  | some j =>
    let mode := pEnt s 0x3038 1 p
    let ptr := pEnt s 0x3038 7 p
    let due := decisionsOf j
    let s1 := dropDecisions s p
    let s2 :=
      if mode = 0 then (if due.isEmpty then s1 else beginAdoption s1 p 1 j.snapStep due)
      else if mode = 2 ∧ ptr ≠ j.pinned then
        let t := modJob s1 p (fun y => { y with pinned := ptr })
        match readPinned s j ptr with
        | none => imageBad t j 4
        | some maps => beginAdoption t p 2 18446744073709551615 (pinnedLayers j maps)
      else s1
    let s3 := if mode = 2 then s2 else modJob s2 p (fun y => { y with pinned := 0 })
    if (step + 1) % pEnt s 0x3038 2 p = 0 then snapHists s3 p mode step else s3

/-- Whether a partition re-shards: its barrier's watches wait (R392). -/
def resharding (s : State) (p : Nat) : Bool :=
  match (partOf s p).job with
  | none => false
  | some j => !j.adopting.isEmpty

/-- The counts of a completed DISPATCH added to the histogram of its layer (R387). -/
def countDispatch (s : State) (p layer : Nat) (chosen : Tbl Nat) : State :=
  match (partOf s p).job with
  | none => s
  | some j => (adaptiveLayers j).foldl (fun t i =>
      if lyId (layerAt j i).rec_ = layer then
        modLayer t p i (fun l => { l with hist := chosen.foldl (fun h x => tput h x.1 (satAdd 64 (tgetD h x.1 0) x.2)) l.hist })
      else t) s

end Sys2Proof.Machine
end

