-- ==== Sys2Proof/Machine/StepLogic.lean ====
section
/-!
DEFINITION. Machine/StepLogic.lean: what a completed step barrier does to its partition: the decision, the loss scale, the
next-step changes and the step record (R181 to R186, R317, R472).
-/
namespace Sys2Proof.Machine

/-- Sum that stops at the largest 32-bit value. -/
def satAdd32 (x : Nat) : Nat := satAdd 32 x 1

/-- A per-partition entry's number set. -/
def setPEnt (s : State) (base sub p n : Nat) : State := setEnt s (pKey base sub p) n

/-- The procedure of R184 at the step barrier of a step, with the fault of R186. -/
def stepUpdate (s : State) (p : Nat) (finite : Bool) : State :=
  let g (sub : Nat) : Nat := pEnt s 0x3020 sub p
  let lam := toSigned 32 (g 3)
  let on := g 0x0E == 1
  let s1 :=
    if finite then
      let good := satAdd32 (g 7)
      let grow := on && decide (g 6 ≤ good)
      let s' := setPEnt (setPEnt s 0x3020 8 p 0) 0x3020 7 p (if grow then 0 else good)
      bump (if grow then setPEnt s' 0x3020 3 p (ofSigned 32 (min (lam + 1) (toSigned 32 (g 5)))) else s') 0x260103 1
    else
      let s' := setPEnt (setPEnt (setPEnt s 0x3020 9 p (satAdd 64 (g 9) 1)) 0x3020 8 p (satAdd32 (g 8))) 0x3020 7 p 0
      bump (if on then setPEnt s' 0x3020 3 p (ofSigned 32 (max (lam - 1) (toSigned 32 (g 4)))) else s') 0x260104 1
  let s2 := setPEnt (setPEnt s1 0x3020 2 p ((g 2 + 1) % 2 ^ 64)) 0x3020 0x0B p (if finite then 1 else 2)
  let skips := pEnt s2 0x3020 8 p
  if ¬ finite ∧ g 0x0A ≠ 0 ∧ g 0x0A ≤ skips then
    raiseDev s2 0x5004 srcStep [(p, 5), (g 2, 64), (skips, 32)]
  else s2

/-- Whether a window of an owner covers n bytes of HBM for writes. -/
def coversWrite (s : State) (o a n : Nat) : Bool := !isTile a && o != 0 && winOk s o a n .write

/-- The partition's owner of lowest ID whose window covers n bytes of HBM for writes (R185, R320). -/
def coveringOwner (s : State) (p a n : Nat) : Option Nat :=
  (s.owners.find? (fun x => ownerPart s x.1 == p && ownerState s x.1 != .free && coversWrite s x.1 a n)).map (·.1)

/-- The step record (Table 06-2) of the step just ended. -/
def stepRecord (s : State) (p step : Nat) (finite : Bool) : Nat :=
  let lam := toSigned 32 (pEnt s 0x3020 3 p)
  fld (pEnt s 0x3020 9 p) 256 64 + fld (pEnt s 0x3020 7 p) 224 32 + fld (pEnt s 0x3020 8 p) 192 32 +
  fld (enc32 (.num false 1 (-lam))) 160 32 + fld (enc32 (.num false 1 lam)) 128 32 + fld step 64 64 +
  fld (pEnt s 0x3020 3 p) 32 32 + fld 2 8 8 + fld (b2n (partOf s p).heldAny) 1 1 + b2n finite

/-- The step record written at the pointer that was in force (R185). -/
def writeStepRecord (s : State) (p ptr step : Nat) (finite : Bool) : State :=
  if ptr = 0 then s
  else match coveringOwner s p ptr 64 with
    | some o => wr s o ptr (natLe 64 (stepRecord s p step finite))
    | none => raiseDev s 0x5007 srcStep [(p, 5), (step, 64)]

/-- Heads that wait for the step just ended are told its decision, whatever step follows (R183). -/
def tellGates (s : State) (p step d : Nat) : State :=
  (s.queues.filter (fun x => x.2.partition == p)).foldl (fun t x => match qHead x.2 with
    | some o =>
      if o.progress = .waiting ∧ o.gate = 0 ∧ (headOf x.2 o).gated ∧ (headOf x.2 o).gateStep = step % 65536 then
        modOp t x.1 o.seq (fun y => { y with gate := d })
      else t
    | none => t) s

/-- Steps 1 to 4 of R317 for a partition whose step barrier completes with a reduced flag. -/
def stepDone (s : State) (p : Nat) (lastReduce : Bool) : State :=
  let step := stepNumber s p
  let ptr := pEnt s 0x3020 0x0D p
  let d := if (partOf s p).decision ≠ 0 then (partOf s p).decision else if lastReduce then 1 else 2
  let s1 := stepUpdate s p (d == 1)
  let s2 := if (partOf s p).agreed = some false then s1 else settleStep s1 p
  let s3 := writeStepRecord (adoptStep s2 p step) p ptr step (d == 1)
  modPart (tellGates s3 p step d) p (fun x =>
    { x with localFinite := true, before := d, decision := 0, heldAny := false, frozen := none, late := [],
             agreed := none, barrierWaits := false })

end Sys2Proof.Machine
end

