-- ==== Sys2Proof/Machine/SyncOps.lean ====
section
/-!
DEFINITION. Machine/SyncOps.lean: the objects of the Synchronisation Unit: words, operations, poisoning, watches, the step
barrier's completion, resets (R298 to R317).
-/
namespace Sys2Proof.Machine

/-! ### Objects -/

/-- Key of an object: its kind (0 barrier, 1 flag, 2 counter) and index. -/
def objKey (kind index : Nat) : Nat := kind * 2 ^ 18 + index
def keyKind (k : Nat) : Nat := k / 2 ^ 18
def keyIndex (k : Nat) : Nat := k % 2 ^ 18

/-- An object; unset with all fields zero where it is not listed (R299). -/
def objOf (s : State) (k : Nat) : SyncObj := tgetD s.syu.objs k {}

/-- An object set; an unset one is not listed. -/
def setObj (s : State) (k : Nat) (o : SyncObj) : State :=
  { s with syu := { s.syu with objs := if o.state = 0 then tdel s.syu.objs k else tput s.syu.objs k o } }

/-- Range of a kind in a partition (Table 10-11). -/
def objBase (s : State) (p kind : Nat) : Nat := pEnt s 0x3028 (2 * kind + 1) p
def objCount (s : State) (p kind : Nat) : Nat := pEnt s 0x3028 (2 * kind + 2) p

/-- Whether an object lies in the ranges of a partition (R298). -/
def objIn (s : State) (p kind index : Nat) : Bool :=
  decide (kind ≤ 2 ∧ p < 32 ∧ objBase s p kind ≤ index ∧ index < objBase s p kind + objCount s p kind)

/-- Partition whose range holds an object. -/
def objPart (s : State) (k : Nat) : Option Nat := (List.range 32).find? (fun p => objIn s p (keyKind k) (keyIndex k))

/-- The partition whose step barrier an object is (R317). -/
def stepPart (s : State) (k : Nat) : Option Nat :=
  if keyKind k ≠ 0 then none
  else (objPart s k).bind (fun p => if hasStepBarrier s p ∧ pEnt s 0x3028 9 p = keyIndex k then some p else none)

/-- Word of an object (Tables 10-1 to 10-3). -/
def objWord (s : State) (k : Nat) : Nat :=
  let o := objOf s k
  if keyKind k = 0 then
    fld o.epoch 112 16 + fld o.phase 96 16 + fld o.arrived 80 16 + fld o.participants 64 16 + fld o.owner 52 12 +
    fld (b2n o.remoteOk) 51 1 + fld (b2n (o.state != 0 && (stepPart s k).isSome)) 50 1 + fld (b2n o.reduce) 49 1 +
    fld (b2n o.lastReduce) 48 1 + fld (b2n o.frozen) 47 1 + fld o.state 45 2
  else if keyKind k = 1 then
    fld o.epoch 32 16 + fld o.owner 20 12 + fld (b2n o.remoteOk) 4 1 + fld (b2n o.frozen) 3 1 + fld o.state 1 2 +
    fld o.value 0 1
  else
    fld o.value 64 64 + fld o.epoch 48 16 + fld o.owner 36 12 + fld (b2n o.remoteOk) 35 1 + fld (b2n o.frozen) 34 1 +
    fld o.state 32 2

/-- Bytes of an object's word. -/
def objWordBytes (k : Nat) : Nat := if keyKind k = 1 then 8 else 16

/-- Value of an object as a watch message shows it (Table 10-6). -/
def objValue (k : Nat) (o : SyncObj) : Nat :=
  if keyKind k = 0 then fld o.phase 0 16 + fld (b2n o.lastReduce) 16 1 else o.value

/-! ### Watches -/

/-- Fields of a watch specification (Table 10-5). -/
def wsTag (w : Nat) : Nat := bits w 192 64
def wsOperand (w : Nat) : Nat := bits w 128 64
def wsDevice (w : Nat) : Nat := bits w 64 12
def wsQueue (w : Nat) : Nat := bits w 32 20
def wsCond (w : Nat) : Nat := bits w 20 3
def wsKind (w : Nat) : Nat := bits w 18 2
def wsIndex (w : Nat) : Nat := bits w 0 18
def wsKey (w : Nat) : Nat := objKey (wsKind w) (wsIndex w)

/-- A watch specification of an engine's own. -/
def wsOf (cond kind index operand : Nat) : Nat := fld operand 128 64 + fld 0xFFF 64 12 + fld cond 20 3 + fld kind 18 2 + fld index 0 18

/-- The field that makes a watch specification malformed (R307), by its lowest bit. -/
def wsBad (w : Nat) : Option Nat :=
  match reservedBad w [(23, 9), (52, 12), (76, 52)] with
  | some f => some f
  | none =>
    let c := wsCond w
    let k := wsKind w
    if 4 < c then some 20
    else if k = 3 ∨ (c = 0 ∧ k ≠ 0) ∨ (c = 1 ∧ k ≠ 1) ∨ ((c = 2 ∨ c = 3) ∧ k ≠ 2) then some 18
    else if wsOperand w / 2 ^ (if c = 0 then 16 else if c = 1 then 1 else if c = 4 then 0 else 64) ≠ 0 then some 128
    else none

/-- Whether the condition of a watch holds of an object that is neither poisoned nor abandoned. -/
def wsHolds (w : Nat) (o : SyncObj) : Bool :=
  let v := wsOperand w
  let c := wsCond w
  if c = 0 then o.phase != v
  else if c = 1 then o.value == v
  else if c = 2 then decide (v ≤ o.value)
  else if c = 3 then o.value == v
  else o.state != 1

/-- Reason for which a watch fires now (R308): 1 condition met, 2 poisoned, 3 abandoned; 0 none. -/
def wsReason (w : Nat) (o : SyncObj) : Nat :=
  if o.state = 2 then 2 else if o.state = 3 then 3 else if wsHolds w o then 1 else 0

/-- Watch message (Table 10-6), but for its sequence number. -/
def watchMsg (id : Nat) (w : Watch) (o : SyncObj) (reason : Nat) : Nat :=
  fld (wsTag w.spec) 192 64 + fld (objValue (wsKey w.spec) o) 128 64 + fld id 96 20 + fld o.owner 84 12 +
  fld (wsIndex w.spec) 66 18 + fld (wsKind w.spec) 64 2 + fld reason 8 8 + 2

/-- A watch removed. -/
def dropWatch (s : State) (id : Nat) : State := { s with syu := { s.syu with watches := tdel s.syu.watches id } }

/-- A watch fires once, with a reason, and is removed (R308): to its queue, its engine, or its device. -/
def fireWatch (s : State) (id : Nat) (w : Watch) (reason : Nat) : State :=
  let o := objOf s (wsKey w.spec)
  let s1 := dropWatch s id
  match w.by_ with
  | .queue q _ _ => postMsg s1 q (watchMsg id w o reason) true
  | .engine q => { s1 with syu := { s1.syu with ended := tput s1.syu.ended q reason } }
  | .remote d q owner epoch waits =>
    sendPk s1 d 0xFFFFF 0 { ty := 0x09, src := ownDev s, dst := d, owner := owner, epoch := epoch, addr := q,
                            op := if waits then 0x0D else 0x08, payload := natLe 32 (watchMsg id w o reason) }

/-- Whether the watches of an object wait for the re-shard of the step barrier that it is (R392). -/
def watchesHeld (s : State) (k : Nat) : Bool :=
  match stepPart s k with
  | none => false
  | some p => resharding s p

/-- Every watch of an object evaluated after an operation on it (R305, R308). -/
def evalWatches (s : State) (k : Nat) : State :=
  if watchesHeld s k then s else (s.syu.watches.filter (fun x => wsKey x.2.spec == k)).foldl (fun t x =>
    let r := wsReason x.2.spec (objOf t k)
    if r ≠ 0 ∧ thas t.syu.watches x.1 then fireWatch t x.1 x.2 r else t) s

/-- A free watch ID, from a free place on. -/
def freshWatch (s : State) : Nat :=
  let n := Config.freeValue s.free % 2 ^ 20
  let m := tfresh s.syu.watches (s.syu.watches.length + 1) n
  if m < 2 ^ 20 then m else tfresh s.syu.watches (s.syu.watches.length + 1) 0

/-- A watch registered under a fresh ID; it fires at once where its condition holds. -/
def addWatch (s : State) (w : Watch) : Nat × State :=
  let id := freshWatch s
  let s1 := bump { s with free := s.free + 1, syu := { s.syu with watches := tput s.syu.watches id w } } 0x2A0202 1
  let r := wsReason w.spec (objOf s (wsKey w.spec))
  (id, if r = 0 ∨ watchesHeld s (wsKey w.spec) then s1 else fireWatch s1 id w r)

/-- Watches that a partition holds against its quota (0x3028:08). -/
def quotaUsed (s : State) (p : Nat) : Nat :=
  (s.syu.watches.filter (fun x => x.2.partition == p && (match x.2.by_ with
    | .engine _ => false
    | .remote _ _ _ _ waits => !waits
    | .queue _ _ _ => true))).length

/-- A wait of the engine that runs a queue's head (R311). -/
def engineWatch (s : State) (q spec : Nat) : State :=
  (addWatch s { spec := spec, by_ := .engine q, partition := queuePart s q }).2

/-- Waits of a queue's head that have not ended. -/
def engineWaits (s : State) (q : Nat) : List (Nat × Watch) :=
  s.syu.watches.filter (fun x => decide (x.2.by_ = .engine q))

/-- What a queue's head knew of its waits, forgotten. -/
def dropWaits (s : State) (q : Nat) : State :=
  { s with syu := { s.syu with watches := s.syu.watches.filter (fun x => decide (x.2.by_ ≠ .engine q)),
                               ended := tdel s.syu.ended q } }

/-- Heads that wait for the decision of a step at their gate: queue and the specification they wait on (R183, R319). -/
def gateWaits (s : State) : List (Nat × Nat) :=
  s.queues.filterMap (fun x => (qHead x.2).bind (fun o =>
    let h := headOf x.2 o
    if o.progress = .waiting ∧ h.gated ∧ gateOf s x.2.partition o h = .wait then
      some (x.1, wsOf 0 0 (pEnt s 0x3028 9 x.2.partition) (stepNumber s x.2.partition % 65536))
    else none))

/-- Watches that name an object, gated waits included (R302, 0x2A03:03). -/
def watchCount (s : State) (k : Nat) : Nat :=
  (s.syu.watches.filter (fun x => wsKey x.2.spec == k)).length + ((gateWaits s).filter (fun x => wsKey x.2 == k)).length

/-! ### Pending signallers (R318) -/

/-- Key of the object that an operation's completion signal names. -/
def sigKey (h : Head) : Option Nat :=
  if h.sigKind = 1 then some (objKey 2 h.sigIndex) else if h.sigKind = 2 then some (objKey 1 h.sigIndex) else none

/-- Whether an operation has started on an engine and waits there for nothing. -/
def onEngine (s : State) (q : Nat) (o : Op) : Bool :=
  (o.progress == .started || o.progress == .finished) && (engineWaits s q).isEmpty &&
  !(match queueOf s q with
    | some x => (headOf x o).opcode == 6 && subopOf o.body == 0x0D
    | none => false)

/-- Object that a packet is addressed to. -/
def pkObject (k : Packet) : Option Nat :=
  if k.ty = 0x08 then
    let b := leNat (k.payload.take 64)
    if k.op = 0x08 then none else some (objKey (bits b 502 2) (bits b 484 18))
  else if k.cmode ≠ 0 then some (objKey 2 k.counter) else none

/-- Pending signallers of an object (0x2A03:04). -/
def pendingSignals (s : State) (k : Nat) : Nat :=
  (s.queues.foldl (fun n x => n + (x.2.ops.filter (fun o =>
    onEngine s x.1 o && decide (sigKey (headOf x.2 o) = some k))).length) 0) +
  (s.fab.flows.foldl (fun n f => n + (f.2.ahead.filter (fun a => decide (pkObject a.1 = some k))).length) 0)

/-! ### Operations on objects -/

/-- A fault of the unit: of the operation that caused it, or of the device (R323). -/
def syuFault (s : State) (who : Option (Nat × Op)) (code : Nat) (items : List (Nat × Nat)) : State :=
  match who with
  | some (q, o) => raiseOp s q o code srcSyu items
  | none => raiseDev s code srcSyu items

/-- An operation's new word of an object, with the time of the elapsed clock where it changed (R319); its watches follow. -/
def touchObj (s : State) (k : Nat) (o : SyncObj) : State :=
  let at_ := (objOf s k).changedAt
  evalWatches (setObj s k (if objOf s k = { o with changedAt := at_ } then objOf s k else { o with changedAt := s.clock.us })) k

/-- An object poisoned, with exactly one fault (R312). -/
def poisonObj (s : State) (who : Option (Nat × Op)) (k code : Nat) (items : List (Nat × Nat)) : State :=
  touchObj (bump (syuFault s who code items) 0x2A0205 1) k { objOf s k with state := 2 }

/-- A poison that arrives for an object (R312): 1 a completion signal, 2 a fill check, 3 a failed packet, and the device
it came from. -/
def peerPoison (s : State) (k cause dev : Nat) : State :=
  if (objOf s k).state = 1 then
    poisonObj s none k 0x900D [(keyKind k, 8), (keyIndex k, 18), (Config.causeCode 0x900D cause, 8), (dev, 12)]
  else bump s 0x2A0209 1

/-- What an operation on an object comes to. -/
inductive Syn where
  | done (s : State)
  | discarded (s : State)
  | refused (code : Nat) (items : List (Nat × Nat))

/-- Kind and index as detail items. -/
def objItems (k : Nat) : List (Nat × Nat) := [(keyKind k, 8), (keyIndex k, 18)]

/-- Refusal for the binding of an object. -/
def bindItems (s : State) (k : Nat) : List (Nat × Nat) := objItems k ++ [((objOf s k).owner, 12), ((objOf s k).epoch, 16)]

/-- Size of the collective group of a partition: the members of the job placed in it, or the device alone (R470). -/
def groupSize (s : State) (p : Nat) : Nat :=
  match (partOf s p).job with
  | some j => if (partOf s p).joinState = 3 then 1 else j.members.length
  | none => 1

/-- SYNC_INIT (R301, R317). -/
def objInit (s : State) (owner epoch k arg : Nat) (remoteOk : Bool) : Syn :=
  let o := objOf s k
  if o.frozen ∨ ((o.state = 1 ∨ o.state = 2) ∧ ¬ (o.owner = owner ∧ o.epoch = epoch)) then .refused 0x9003 (bindItems s k)
  else
    let base : SyncObj := { state := 1, owner := owner, epoch := epoch, remoteOk := remoteOk }
    let n :=
      if keyKind k = 0 then
        match stepPart s k with
        | some p => { base with participants := groupSize s p, phase := stepNumber s p % 65536, reduce := true }
        | none => { base with participants := arg % 65536, reduce := true }
      else { base with value := if keyKind k = 1 then arg % 2 else arg }
    .done (touchObj (bump s 0x2A0201 1) k n)

/-- SYNC_FREE (R302). -/
def objFree (s : State) (owner epoch k : Nat) : Syn :=
  let o := objOf s k
  if o.frozen then .refused 0x9003 (bindItems s k)
  else if ¬ (o.state = 3 ∨ (o.state ≠ 0 ∧ o.owner = owner ∧ o.epoch = epoch)) ∨ watchCount s k ≠ 0 ∨ pendingSignals s k ≠ 0 then
    .refused 0x900B (objItems k ++ [(watchCount s k, 16), (pendingSignals s k, 16)])
  else .done (setObj (bump s 0x2A0201 1) k {})

/-- The completion of a barrier's phase (R303); a step barrier's runs the steps of R317 before any watch fires. -/
def barrierDone (s : State) (k : Nat) (o : SyncObj) : State :=
  let n := { o with lastReduce := o.reduce, phase := (o.phase + 1) % 65536, arrived := 0, reduce := true }
  match stepPart s k with
  | none => touchObj s k n
  | some p =>
    let s1 := stepDone (setObj s k n) p n.lastReduce
    touchObj s1 k { n with phase := stepNumber s1 p % 65536 }

/-- BARRIER_ARRIVE (R303): count, phase, flag bit; the device it comes from, all ones for this one. -/
def objArrive (s : State) (who : Option (Nat × Op)) (k c phase : Nat) (flag : Bool) (dev : Nat) : State :=
  let o := objOf s k
  if phase ≠ o.phase then
    poisonObj s who k 0x9007 [(keyIndex k, 18), (o.phase, 16), (phase, 16), (dev, 12)]
  else if o.participants < o.arrived + c then
    poisonObj s who k 0x9006 [(keyIndex k, 18), (o.arrived, 16), (c, 16)]
  else
    let n := { o with arrived := o.arrived + c, reduce := o.reduce && flag }
    if n.arrived = n.participants then barrierDone s k n else touchObj s k n

/-- COUNTER_ADD (R304). -/
def objAdd (s : State) (who : Option (Nat × Op)) (k : Nat) (amount : Int) : State :=
  let o := objOf s k
  let v : Int := o.value + amount
  if v < 0 ∨ (2 ^ 64 : Nat) ≤ v then
    poisonObj s who k 0x9004 [(keyIndex k, 18), (o.value, 32), (ofSigned 64 amount, 32)]
  else touchObj s k { o with value := v.toNat }

/-- A signal by its subop (Table 13-6): 3 arrive, 4 flag set, 5 flag clear, 6 add, 7 write. A poisoned or abandoned object
discards it (R300, R312). -/
def objSignal (s : State) (who : Option (Nat × Op)) (sub k arg dev : Nat) : Syn :=
  let o := objOf s k
  if o.state = 0 then .refused 0x9002 (objItems k)
  else if o.state ≠ 1 then .discarded (bump s 0x2A0209 1)
  else
    let s1 := bump s 0x2A0201 1
    .done (
      if sub = 3 then objArrive s1 who k (bits arg 0 16) (bits arg 16 16) (bit arg 32) dev
      else if sub = 4 then touchObj s1 k { o with value := 1 }
      else if sub = 5 then touchObj s1 k { o with value := 0 }
      else if sub = 6 then objAdd s1 who k (toSigned 64 arg)
      else touchObj s1 k { o with value := arg % 2 ^ 64 })

/-- An increment of a counter by an engine of this device (R304): a counter that is not in use counts nothing. -/
def engineAdd (s : State) (counter n : Nat) : State :=
  match objSignal s none 6 (objKey 2 counter) n 0xFFF with
  | .done t => t
  | .discarded t => t
  | .refused c i => raiseDev s c srcSyu i

/-! ### Resets of objects (R298, R315, R316) -/

/-- Listed objects that pass a test. -/
def objKeys (s : State) (f : Nat → SyncObj → Bool) : List Nat := (tfilter s.syu.objs f).map (·.1)

/-- A watch's registrant: whether it belongs to the queues of a partition on this device. -/
def watchOfPart (s : State) (p : Nat) (w : Watch) : Bool :=
  match w.by_ with
  | .queue _ _ _ => w.partition == p
  | .engine q => queuePart s q == p
  | .remote _ _ _ _ _ => false

/-- Objects of a partition's ranges unset (R298): its own watches go without a message, others fire with reason 3. -/
def unsetRange (s : State) (p : Nat) : State :=
  let inR (w : Watch) : Bool := objIn s p (wsKind w.spec) (wsIndex w.spec)
  let mine := s.syu.watches.filter (fun x => inR x.2 && watchOfPart s p x.2)
  let other := s.syu.watches.filter (fun x => inR x.2 && !watchOfPart s p x.2)
  let s1 := mine.foldl (fun t x => dropWatch t x.1) s
  let s2 := other.foldl (fun t x => fireWatch t x.1 x.2 3) s1
  { s2 with syu := { s2.syu with objs := tfilter s2.syu.objs (fun k _ => !objIn s p (keyKind k) (keyIndex k)) } }

/-- Whether a watch was registered by an instance of an owner of an earlier epoch. -/
def watchOfOwner (s : State) (o : Nat) (w : Watch) : Bool :=
  match w.by_ with
  | .queue _ x e => x == o && e != ownerEpoch s o
  | .engine q => match queueOf s q with
    | some x => qOwner x == o
    | none => true
  | .remote _ _ _ _ _ => false

/-- The pass of R315 after an owner's epoch advanced. -/
def abandonOwner (s : State) (o : Nat) : State :=
  let s1 := (s.syu.watches.filter (fun x => watchOfOwner s o x.2)).foldl (fun t x => dropWatch t x.1) s
  let s2 := { s1 with syu := { s1.syu with tasks := tfilter s1.syu.tasks (fun _ t => !(t.owner == o && t.epoch != ownerEpoch s o)) } }
  (objKeys s2 (fun _ x => x.owner == o && x.epoch != ownerEpoch s o && (x.state == 1 || x.state == 2))).foldl (fun t k =>
    touchObj (bump t 0x2A0206 1) k { objOf t k with state := 3, frozen := false }) s2

/-- Frozen bits of an owner's objects set or cleared (R316). -/
def freezeObjs (s : State) (o : Nat) (f : Bool) : State :=
  let objs := tmap s.syu.objs (fun _ x => if x.owner = o ∧ x.epoch = ownerEpoch s o then { x with frozen := f } else x)
  { s with syu := { s.syu with objs := objs } }

end Sys2Proof.Machine
end

