-- ==== Sys2Proof/Machine/ArrayRun.lean ====
section
/-!
DEFINITION. Machine/ArrayRun.lean: grouped operations and their chains on the array: GROUPED, MATRIX, the start condition,
chains, early start, and the array's own faults (R91 to R108, R72 to R76, R164 to R167, R426).
-/
namespace Sys2Proof.Machine

/-! ### Walks -/

/-- A walk changed. -/
def modWalk (s : State) (q : Nat) (f : Walk → Walk) : State :=
  { s with units := { s.units with walks := tmod s.units.walks q f } }

/-- A walk removed, and with it the wait of its queue's head. -/
def dropWalk (s : State) (q : Nat) : State :=
  let u := { s.units with walks := tdel s.units.walks q,
                          running := if s.units.running = some q then none else s.units.running,
                          ahead := if s.units.ahead = some q then none else s.units.ahead }
  dropWaits { s with units := u } q

/-- Index of an entry in fault details: 0xFFFF for a single-problem operation (R78). -/
def detailIdx (w : Walk) (i : Nat) : Nat := if w.single then 0xFFFF else i

/-- An entry of a walk as its chains use it. -/
def walkProb (owner : Nat) (w : Walk) (i : Nat) : Prob :=
  let e := w.table.getD i 0
  { owner := owner, idx := i, e := e, prof := tgetD w.profiles (enProfile e) 0, fills := w.fills.getD i [],
    jm := w.mask, opk := w.opk }

/-- Entries of a walk with their index and fills. -/
def walkEntries (w : Walk) : List (Nat × Nat × List Nat) :=
  (indexed 0 w.table).map (fun x => (x.1, x.2, w.fills.getD x.1 []))

/-- Retained staged tiles that serve an entry (R103). -/
def servedBy (s : State) (w : Walk) (e : Nat) : Bool :=
  ent s 0x230102 == 1 && s.units.retained.any (fun r =>
    r.base == gcbStagingBase w.gcb && r.ptr == enStat e && r.fmt == pwStatFmt (enWord e) &&
    r.transpose == b2n (enTrans e) && r.n == enN e && r.x == enX e)

/-- Output extents of a walk with those of its row states. -/
def walkOuts (w : Walk) : List (Nat × Nat) :=
  (w.table.map (fun e => (outExts e (tgetD w.profiles (enProfile e) 0)).map (fun x => (x.1, x.2.1)))).flatten

/-- Input extents of a walk with its fill counts. -/
def walkIns (w : Walk) : List (Nat × Nat) :=
  (w.table.map (fun e => (inExts e ++ fillExts w.gcb e).map (fun x => (x.1, x.2.1)))).flatten

/-- Whether the operation overlaps an output with an input (R429). -/
def walkInPlace (w : Walk) : Bool := inPlace (walkIns w) (walkOuts w)

/-- Whether the walker waits for another array operation that is to run again first (R429). -/
def rerunFirst (s : State) (q : Nat) : Bool :=
  s.queues.any (fun x => x.1 != q && (match qHead x.2 with
    | some o => o.rerun && o.progress == .waiting && ((headOf x.2 o).opcode == 1 || (headOf x.2 o).opcode == 2)
    | none => false))

/-- Walks that are planned or streaming. -/
def plannedWalks (s : State) : List (Nat × Walk) := s.units.walks.filter (fun x => decide (1 ≤ x.2.stage))

/-- Whether the walker takes one operation more: one ahead of the array, and beside a running one only with lookahead
(Table 03-7b, 0x2301:03). -/
def walkerTakes (s : State) (q : Nat) : Bool :=
  decide ((plannedWalks s).length < 2) && (s.units.running.isNone || ent s 0x230103 == 1) && !rerunFirst s q

/-- Whether a control structure of an operation lies in an output of the running one (R94). -/
def clearOfRunning (s : State) (l : List (Nat × Nat)) : Bool :=
  match s.units.running.bind (fun r => tget? s.units.walks r) with
  | none => true
  | some w => !inPlace l (walkOuts w)

/-- Status vector of an operation refused in R91: every byte 0x04 (R108). -/
def refusedStatus (s : State) (o : Nat) (g : Nat) : State :=
  if gcbStatus g ∧ 1 ≤ gcbEntries g ∧ gcbEntries g ≤ 4096 ∧ ptrOk s o (gcbStatusPtr g) (gcbEntries g) .write then
    wr s o (gcbStatusPtr g) (List.replicate (gcbEntries g) 0x04)
  else s

/-- Source unit of a fault that the walker finds in R91: its own (R479), but for what the SYU refuses. -/
def badSrc (code : Nat) : Nat := if 0x9000 ≤ code then srcSyu else srcWalker

/-- An operation refused by the walker. -/
def refuseWalk (s : State) (q : Nat) (o : Op) (g : Nat) (b : Bad) : State :=
  let s1 := if b.1 = 0x200B ∨ b.1 = 0x2007 ∨ b.1 = 0x3005 then bump s 0x280203 1 else s
  bump (refuseOp (dropWalk (refusedStatus s1 o.owner g) q) q o b.1 (badSrc b.1) b.2) 0x230201 1

/-! ### The end of an operation -/

/-- Status byte of an entry (Table 03-5). -/
def entryStatus (w : Walk) (i : Nat) (fs : List Nat) : Nat :=
  let cs := w.chains.filter (fun c => c.entry == i)
  if filled fs = 0 then 0x02
  else if cs.all (fun c => c.state == 2) then 0x01
  else if cs.any (fun c => c.state != 0) then 0x03 else 0x04

def walkStatus (w : Walk) : List Nat := (walkEntries w).map (fun x => entryStatus w x.1 x.2.2)

/-- The staged tiles that stay after an operation (R103): the HBM weights of its entries that ask for it. -/
def retainTiles (s : State) (owner : Nat) (w : Walk) : State :=
  if ent s 0x230102 ≠ 1 then s
  else
    let live := (walkEntries w).filter (fun x => enRetain x.2.1 && !isTile (enStat x.2.1) && !enWgrad x.2.1 &&
      filled x.2.2 != 0 && !servedBy s w x.2.1)
    let new := live.map (fun x =>
      { base := gcbStagingBase w.gcb, ptr := enStat x.2.1, len := statBytes x.2.1, fmt := pwStatFmt (enWord x.2.1),
        transpose := b2n (enTrans x.2.1), n := enN x.2.1, x := enX x.2.1, order := s.units.stagings, owner := owner : Retained })
    { s with units := { s.units with retained := s.units.retained ++ new, stagings := s.units.stagings + 1 } }

/-- Counters of an operation that ends, and its status vector (R108, R110). -/
def closeWalk (s : State) (o : Op) (w : Walk) : State :=
  let st := walkStatus w
  let s1 := if gcbStatus w.gcb then wr s o.owner (gcbStatusPtr w.gcb) st else s
  bump (bump (bump s1 0x230201 1) 0x230202 (st.filter (· == 1)).length) 0x230203 (st.filter (· == 2)).length

/-- The cycles of a run, which only the device's clock shows, charged to its partition (R426). -/
def chargeArray (s : State) (q : Nat) (w : Walk) : State :=
  if ¬ w.started then s
  else
    let c := Config.duration s.free
    let s1 := bump (bump (bump { s with free := s.free + 3 } (pKey 0x3000 0x0A (queuePart s q)) c) 0x23020B (Config.duration (s.free + 1))) 0x23020C
      (Config.duration (s.free + 2))
    { s1 with units := { s1.units with array := drrCharge s1.units.array (queuePart s1 q) c } }

/-- What a run leaves in its journal entry for the completion record. -/
def carryBits (s : State) (q : Nat) (o : Op) (w : Walk) : State :=
  modOp s q o.seq (fun x => { x with statusBits := x.statusBits ||| w.statusBits,
                                     wroteNonfinite := x.wroteNonfinite || w.wroteNonfinite })

/-- A grouped operation done: every chain complete. -/
def finishWalk (s : State) (q : Nat) (o : Op) (w : Walk) : State :=
  doneOp (carryBits (dropWalk (retainTiles (closeWalk (chargeArray s q w) o w) o.owner w) q) q o w) q o

/-- An early-started successor goes back to step 1 (R429). -/
def returnAhead (s : State) (q : Nat) : State :=
  s.units.walks.foldl (fun t x =>
    if x.1 ≠ q ∧ x.2.stage = 2 then modOp (dropWalk t x.1) x.1 x.2.seq (fun y => { y with progress := .waiting }) else t) s

/-- An array operation stopped under R75. -/
def stopWalk (s : State) (q : Nat) (o : Op) (w : Walk) (code src : Nat) (items : List (Nat × Nat)) : State :=
  stopOp (carryBits (dropWalk (closeWalk (chargeArray s q w) o w) q) q o w) q o code src items

/-- What the array holds of an operation that stops for a cause of R429, dropped: its successor is back at step 1 where it
runs again. -/
def quitWalk (s : State) (q : Nat) (o : Op) (h : Head) (w : Walk) : State :=
  if (walkInPlace w && !h.twoPhase) || decide (8 ≤ o.runs) then carryBits (dropWalk (closeWalk (chargeArray s q w) o w) q) q o w
  else returnAhead (carryBits (dropWalk (chargeArray s q w) q) q o w) q

/-- An array operation stopped for a fault of R429: run again where it may be, its successor back to step 1. -/
def lostWalk (s : State) (q : Nat) (o : Op) (h : Head) (w : Walk) (code src : Nat) (items : List (Nat × Nat)) : State :=
  rerunOp (quitWalk s q o h w) q o h (walkInPlace w) code src items

/-! ### Steps 4 to 6, the metadata check, and the plan -/

/-- The check of R123 over the planned chains in ascending entry and column tile: metadata bytes checked, violation. -/
def checkSparse (s : State) (owner : Nat) (w : Walk) : List (Nat × Nat) → Nat → Nat × Option Bad
  | [], n => (n, none)
  | (i, u) :: r, n =>
    let x := walkProb owner w i
    match tileCheck s x (detailIdx w i) u with
    | some b => (n, some b.2)
    | none => checkSparse s owner w r (n + tileMeta x u)

/-- Column tiles of the sparse entries that no retained copy serves. -/
def sparseTiles (s : State) (w : Walk) : List (Nat × Nat) :=
  ((walkEntries w).map (fun x =>
    if enSparse x.2.1 ∧ filled x.2.2 ≠ 0 ∧ ¬ servedBy s w x.2.1 then
      (List.range (colTiles x.2.1)).map (fun u => (x.1, u)) else [])).flatten

/-- Retained copies given up, oldest first, until the plan's staging fits beside the rest (R103). -/
def giveUp (base size need : Nat) : Nat → List Retained → List Retained
  | 0, l => l
  | fuel + 1, l =>
    let mine := l.filter (fun r => r.base == base)
    if need + (mine.map (·.len)).foldl (· + ·) 0 ≤ size then l
    else
      let oldest := (mine.map (·.order)).foldl min (mine.map (·.order)).sum
      giveUp base size need fuel (l.filter (fun r => !(r.base == base && r.order == oldest)))

/-- The plan made: fills read and checked, chains placed, metadata checked; or the refusal. An operation without a filled
token is done. -/
def planWalk (s : State) (q : Nat) (o : Op) (h : Head) (w : Walk) : State :=
  let rows := (indexed 0 w.table).map (fun x => (x.1, x.2, readFills s o.owner w.gcb x.2))
  match rows.findSome? (fun x => fillCheck (detailIdx w x.1) x.2.1 x.2.2) with
  | some b => refuseWalk s q o w.gcb b
  | none =>
    let w1 := { w with fills := rows.map (fun x => x.2.2.map (·.getD 0)), mask := jMax s,
                       opk := opKey (stepKey (pEnt s 0x3020 1 (queuePart s q)) (stepNumber s (queuePart s q))) h.drawOp }
    match planOf s w.single (gcbStagingSize w.gcb) (walkEntries w1) with
    | .error b => refuseWalk s q o w.gcb b
    | .ok cs =>
      let w2 := { w1 with chains := cs, stage := 1 }
      let m := checkSparse s o.owner w2 (sparseTiles s w2) 0
      let s1 := bump s 0x240202 m.1
      match m.2 with
      | some b => refuseWalk s1 q o w.gcb b
      | none =>
        let n := (walkEntries w2).foldl (fun a x => a + (if filled x.2.2 = 0 then 0 else
          colTiles x.2.1 * chainProblems w2.mask x.2.1 x.2.2)) 0
        let s2 := bump s1 0x230206 n
        let s3 := { s2 with units := { s2.units with
          retained := giveUp (gcbStagingBase w.gcb) (gcbStagingSize w.gcb) (stagingNeed w2.mask (walkEntries w2))
            s2.units.retained.length s2.units.retained,
          walks := tput s2.units.walks q w2 } }
        if cs.isEmpty then finishWalk s3 q o w2 else s3

/-- Step 4 of R91: the wait for the start counter, a watch of the walker's own (R311), then the plan (R95). -/
def startWalk (s : State) (q : Nat) (o : Op) (h : Head) (w : Walk) : State :=
  let k := objKey 2 (gcbCounter w.gcb)
  if ¬ gcbWait w.gcb then planWalk s q o h w
  else if ¬ objIn s (queuePart s q) 2 (gcbCounter w.gcb) then refuseWalk s q o w.gcb (0x9001, objItems k)
  else
    let s1 := if (engineWaits s q).isEmpty && !thas s.syu.ended q then
        engineWatch s q (wsOf 2 2 (gcbCounter w.gcb) (gcbTarget w.gcb)) else s
    match tget? s1.syu.ended q with
    | none => { s1 with units := { s1.units with walks := tput s1.units.walks q w } }
    | some 1 => planWalk (dropWaits s1 q) q o h w
    | some _ => refuseWalk s1 q o w.gcb (0x200C, [(gcbCounter w.gcb, 16)])

/-- Steps 1 to 3 of R91 passed: the walk as it waits for its start condition. -/
def newWalk (o : Op) (gcbAt g : Nat) (single : Bool) (table : List Nat) (profs : Tbl Nat) : Walk :=
  { stage := 0, seq := o.seq, gcb := g, gcbAt := gcbAt, single := single, table := table, profiles := profs }

/-- Profiles that entries name, as read (R93). -/
def readProfiles (s : State) (o g : Nat) (table : List Nat) : Tbl Nat :=
  table.foldl (fun t e => tput t (enProfile e) (rdNat s o (gcbProfile g + 64 * enProfile e) 64)) []

/-- Entries of a group table, each as read. -/
def readTable (s : State) (o g : Nat) : List (Option Nat) :=
  (List.range (gcbEntries g)).map (fun i => readStruct s o (gcbTable g + 64 * i) 64)

/-- GROUPED: steps 1 to 3 of R91, and as much as follows at once. -/
def startGrouped (q : Nat) (s : State) (_x : Queue) (o : Op) (h : Head) : State :=
  let at_ := bits o.body 472 40
  if ¬ ptrOk s o.owner at_ 64 .read then badPtr s q o 472
  else
    let g? := readStruct s o.owner at_ 64
    let g := g?.getD 0
    match gcbCheck s o.owner g? with
    | some b => refuseWalk s q o g b
    | none =>
      let t := readTable s o.owner g
      match entriesCheck s o.owner g (fun i => readStruct s o.owner (gcbProfile g + 64 * i) 64) 0 t with
      | some b => refuseWalk s q o g b
      | none =>
        let table := t.map (·.getD 0)
        let profs := readProfiles s o.owner g table
        match overlapCheck (groupExts at_ g) g ((indexed 0 table).map (fun x => (x.1, x.2, tgetD profs (enProfile x.2) 0))) with
        | some b => refuseWalk s q o g b
        | none => startWalk s q o h (newWalk o at_ g false table profs)

/-- The control block that a MATRIX operation stands for: one entry, one profile, the partition's staging area. -/
def matrixGcb (aux base size : Nat) : Nat :=
  fld size 240 32 + fld base 208 32 + fld aux 128 40 + fld 1 32 16 + fld 1 8 16 + 2

/-- MATRIX: a grouped operation of the one entry that its body is (R420). -/
def startMatrix (q : Nat) (s : State) (x : Queue) (o : Op) (h : Head) : State :=
  let base := pEnt s 0x3000 5 x.partition
  let size := pEnt s 0x3000 6 x.partition
  let g := matrixGcb h.auxPtr base size
  if ¬ ptrOk s o.owner h.auxPtr 64 .read then badPtr s q o 328
  else if ¬ stagingOk s o.owner base size then refuseWalk s q o g (0x2004, [(0xFFFF, 16), (208, 16)])
  else
    match entryCheck s o.owner 0xFFFF g (some o.body) (fun i => readStruct s o.owner (h.auxPtr + 64 * i) 64) with
    | some b => refuseWalk s q o g b
    | none =>
      if enSegs o.body ≠ 1 then refuseWalk s q o g (0x200D, [(0xFFFF, 16), (104, 16)])
      else
        let profs : Tbl Nat := [(0, rdNat s o.owner h.auxPtr 64)]
        match overlapCheck [(h.auxPtr, 64, 128)] g [(0xFFFF, o.body, tgetD profs 0 0)] with
        | some b => refuseWalk s q o g b
        | none => startWalk s q o h (newWalk o 0 g true [o.body] profs)

/-- Control structures of the head of a queue, as far as its body names them. -/
def controlExts (s : State) (q : Nat) : List (Nat × Nat) :=
  match queueOf s q with
  | none => []
  | some x => match qHead x with
    | none => []
    | some o =>
      if (headOf x o).opcode = 2 then [((headOf x o).auxPtr, 64)]
      else
        let a := bits o.body 472 40
        let g := rdNat s o.owner a 64
        [(a, 64), (gcbTable g, 64 * gcbEntries g), (gcbProfile g, 64 * gcbProfiles g)] ++
          (if gcbFill g = 0 then [] else [(gcbFill g, 4)])

/-- GROUPED (R91): the head of a queue checked, and planned once its start condition holds. -/
def execGrouped (q : Nat) (s : State) : Host.Outcome State Fault Refusal :=
  .next (if walkerTakes s q ∧ clearOfRunning s (controlExts s q) then runHead s q 0x01 0 .ready (startGrouped q) else s)

/-- MATRIX (R71). -/
def execMatrix (q : Nat) (s : State) : Host.Outcome State Fault Refusal :=
  .next (if walkerTakes s q ∧ clearOfRunning s (controlExts s q) then runHead s q 0x02 0 .ready (startMatrix q) else s)

/-- The array operation that a queue's head runs, with its walk. -/
def arrayHead (s : State) (q : Nat) : Option (Op × Head × Walk) :=
  match goingHead s q 0x01, goingHead s q 0x02, tget? s.units.walks q with
  | some (_, o, h), _, some w => some (o, h, w)
  | none, some (_, o, h), some w => some (o, h, w)
  | _, _, _ => none

/-- WALKER_START_CONDITION (R95): the start counter has reached its target, or is poisoned. -/
def execWalkerStartCondition (q : Nat) (s : State) : Host.Outcome State Fault Refusal :=
  .next (match arrayHead s q with
    | some (o, h, w) =>
      if w.stage = 0 ∧ decide ((plannedWalks s).length < 2) then startWalk s q o h w else s
    | none => s)

/-! ### Chains -/

/-- What the rows of a chain come to. -/
structure RowsAcc where
  s : State
  stats : DrainStats := {}
  sat : Nat := 0
  nonfinite : Nat := 0
  flagged : Nat := 0
  corrected : Nat := 0
  stop : Option (Bad × Nat) := none

/-- An output row's elements, and its scales, in a column tile (R84, R159). -/
def writeRow (s : State) (x : Prob) (u row : Nat) (r : RowOut) : State :=
  let e := x.e
  let t := tileCols e u
  let parts := if enComplex e then 2 else 1
  let w := elemBits (pfFormat x.prof)
  let s1 := writePacked s x.owner (enOut e) w (parts * (row * enLdOut e + t.1)) r.words
  if r.scales.isEmpty then s1
  else wr s1 x.owner (outScaleAt e x.prof + row * ceilDiv (parts * enLdOut e) 32 + parts * t.1 / 32) r.scales

/-- Row-state record of a row. -/
def rowRecAt (x : Prob) (row : Nat) : Nat := pfRowstate x.prof + 32 * row

/-- Bias values of a column tile. -/
def biasOf (s : State) (x : Prob) (u : Nat) : List Fp :=
  let t := tileCols x.e u
  if pfBias x.prof then (List.range t.2).map (fun i => dec32 (rdNat s x.owner (pfBiasPtr x.prof + 4 * (t.1 + i)) 4))
  else []

/-- Threshold of a profile (Table 05-7). -/
def tauOf (s : State) (prof : Nat) : Nat := if pfTau prof = 0 then ent s 0x250102 else pfTau prof

/-- One row of a chain: its sums, its drain, its record, its output. -/
def runRow (di : Nat) (x : Prob) (toks : List (Nat × Bool)) (u : Nat) (cols : List Col) (bias : List Fp) (replay : Bool)
    (row : Nat) (acc : RowsAcc) : RowsAcc :=
  let s := acc.s
  let t := tileCols x.e u
  let uses := pfUsesRows x.prof
  match rowPoison s x toks u row with
  | some (k, a) => { acc with stop := some ((0x1009, [(di, 16), (k, 8)]), a) }
  | none =>
    if uses && poisonAt s (rowRecAt x row) 32 then
      { acc with stop := some ((0x4004, [(di, 16), (row, 32)]), rowRecAt x row) }
    else
      let rec_ : RowState := if uses then rdNat s x.owner (rowRecAt x row) 32 else 0
      let pv := pfPv x.prof
      let a := streamRow s x toks row
      let sums := (indexed 0 cols).map (fun c => chainElem x (seedOf s x (if pv then some rec_ else none) row (t.1 + c.1)) a c.2)
      let ctx : RowCtx :=
        { prof := x.prof, alpha := dec32 (pfAlpha x.prof), bias := bias,
          mref := if pfExp x.prof = 2 then rowMref replay rec_ else 0,
          outShift := if pv then rsOutShift rec_ else 0, opk := x.opk, entry := x.idx, col0 := t.1, row := row }
      let r := drainRow ctx (sums.map (fun y => accOut y.1))
      let acc1 := { acc with
        sat := acc.sat + (sums.map (·.2.1)).sum
        nonfinite := acc.nonfinite + (sums.map (·.2.2)).sum
        stats := dsAdd acc.stats r.1.stats
        s := writeRow s x u row r.1 }
      if pfExp x.prof ≠ 2 then acc1
      else match rowUpdate replay (tauOf s x.prof) rec_ r.2 with
        | .keep n => { acc1 with s := wr acc1.s x.owner (rowRecAt x row) (natLe 32 n), flagged := acc1.flagged + 1 }
        | .done n c => { acc1 with s := wr acc1.s x.owner (rowRecAt x row) (natLe 32 n),
                                   corrected := acc1.corrected + b2n c }
        | .flaggedReplay => { acc1 with stop := some ((0x4005, [(di, 16), (row, 32)]), 2 ^ 39) }

/-- The rows of a chain in order, to the first stop. -/
def runRows (di : Nat) (x : Prob) (toks : List (Nat × Bool)) (u : Nat) (cols : List Col) (bias : List Fp) (replay : Bool) :
    List Nat → RowsAcc → RowsAcc
  | [], acc => acc
  | row :: r, acc =>
    let a := runRow di x toks u cols bias replay row acc
    if a.stop.isSome then a else runRows di x toks u cols bias replay r a

/-- The run of a chain: a poisoned operand stops it, before any row where it is a weight or the chain holds more than
one problem (R75, R78). -/
def runChain (s : State) (w : Walk) (owner : Nat) (c : Chain) (replay : Bool) : RowsAcc :=
  let x := walkProb owner w c.entry
  let di := detailIdx w c.entry
  let toks := probTokens x
  let rows := probRows x
  let early : Option (Bad × Nat) :=
    match (if servedBy s w x.e then none else statPoison s x toks c.tile) with
    | some (k, a) => some ((0x1009, [(di, 16), (k, 8)]), a)
    | none =>
      if pfBias x.prof && poisonAt s (pfBiasPtr x.prof + 4 * (tileCols x.e c.tile).1) (4 * (tileCols x.e c.tile).2) then
        some ((0x1009, [(di, 16), (0xFF, 8)]), pfBiasPtr x.prof)
      else if 1 < chainProblems x.jm x.e x.fills then
        (rows.findSome? (rowPoison s x toks c.tile)).map (fun p => ((0x1009, [(di, 16), (p.1, 8)]), p.2))
      else none
  match early with
  | some b => { s := s, stop := some b }
  | none =>
    runRows di x toks c.tile ((List.range (tileCols x.e c.tile).2).map (fun i => loadCol s x toks ((tileCols x.e c.tile).1 + i)))
      (biasOf s x c.tile) replay rows { s := s }

/-- Counters of a run of a chain's drain units (Table 05-12, R77). -/
def drainCounters (s : State) (a : RowsAcc) : State :=
  let l : List (Nat × Nat) :=
    [(0x220406, a.nonfinite), (0x220407, a.sat), (0x250203, a.stats.exps), (0x250204, a.corrected), (0x250206, a.flagged),
     (0x250207, a.stats.nanLost), (0x250208, a.stats.dropped), (0x250209, a.stats.blocks), (0x25020A, a.stats.saturated)]
  l.foldl (fun t p => if p.2 = 0 then t else bump t p.1 p.2) s

/-- Bytes that the staging of a chain reads from HBM (R102). -/
def stagedBytes (s : State) (w : Walk) (owner : Nat) (c : Chain) : Nat :=
  let x := walkProb owner w c.entry
  let toks := probTokens x
  let size (l : List (Nat × Nat)) : Nat := (l.map (·.2)).sum
  let stat := if isTile (enStat x.e) ∨ servedBy s w x.e then 0 else size (statRanges x toks c.tile)
  let scales := if isTile (enStatScale x.e) ∨ servedBy s w x.e then 0 else size (statScaleRanges x toks c.tile)
  let stream := if enWgrad x.e ∧ c.tile = 0 ∧ ¬ isTile (enStream x.e) then
    size ((probRows x).map (fun m => streamRanges x toks m)).flatten else 0
  let seeds := if isTile (enSeed x.e) then 0 else size ((probRows x).map (fun m => seedRanges x c.tile m)).flatten
  stat + scales + stream + seeds

/-- Counters of a chain that streams (R77, R110): per problem its rows, band-cycles, loads, and the bubbles before the
next problem on each band. -/
def chainCounters (s : State) (w : Walk) (owner : Nat) (i : Nat) (c : Chain) : State :=
  let x := walkProb owner w c.entry
  let n := chainProblems x.jm x.e x.fills
  let m := rowsM x.e x.fills
  let later (b : Nat) : Bool := (w.chains.drop (i + 1)).any (fun d => decide (d.b0 ≤ b ∧ b < d.b0 + d.depth))
  let gaps := (n - 1) * c.depth + ((List.range c.depth).filter (fun j => later (c.b0 + j))).length
  let served := servedBy s w x.e
  let l : List (Nat × Nat) :=
    [(0x220401, n), (0x220402, n * m * c.depth), (0x220403, (128 - m) * gaps), (0x220404, 128 * n * c.depth),
     (0x220405, if enTrans x.e then n else 0), (0x230204, n * m),
     (0x230205, if enWgrad x.e then 0 else n * (enRes x.e - filled x.fills)),
     (0x230207, stagedBytes s w owner c), (0x230208, if served then (splitK x.jm x.e x.fills).1 else 0),
     (0x240201, if enSparse x.e then n else 0),
     (0x260101, if pfDropQ x.prof = 0 then 0 else m * (tileCols x.e c.tile).2),
     (0x260102, if pfSr x.prof then m * (tileCols x.e c.tile).2 else 0)]
  l.foldl (fun t p => if p.2 = 0 then t else bump t p.1 p.2) s

/-- Whether the bands of a chain have finished its predecessors (R100). -/
def groupReady (w : Walk) (i : Nat) (c : Chain) : Bool :=
  (w.chains.take i).all (fun d => d.state == 2 || !rangesMeet d.b0 d.depth c.b0 c.depth)

/-- Bands of a chain. -/
def chainBands (c : Chain) : List Nat := (List.range c.depth).map (· + c.b0)

/-- A chain of a walk changed. -/
def modChain (w : Walk) (i : Nat) (f : Chain → Chain) : Walk :=
  { w with chains := (indexed 0 w.chains).map (fun c => if c.1 = i then f c.2 else c.2) }

/-- The array taken by a walk: its staging area in use, the schedule served (R102, R426). -/
def takeArray (s : State) (q : Nat) (w : Walk) (d : Drr) : State :=
  let w' := { w with stage := 3, started := true }
  { s with
    mem := if w.stage = 2 then s.mem else spoilTile s.mem (gcbStagingBase w.gcb) (gcbStagingSize w.gcb)
    units := { s.units with walks := tput s.units.walks q w', running := some q, array := d,
                            ahead := if s.units.ahead = some q then none else s.units.ahead } }

/-- Queues with a planned walk that the schedule chooses from; an early-started one goes first. -/
def readyWalks (s : State) : List Nat :=
  match s.units.ahead with
  | some q => [q]
  | none => (plannedWalks s).map (·.1)

/-- The state in which a walk holds the array, if it may (R426). -/
def holdArray (s : State) (q : Nat) (w : Walk) : Option State :=
  if s.units.running = some q then some s
  else if s.units.running.isSome then none
  else match drrQueue s 3 s.units.array (readyWalks s) with
    | some (p, d) => if p = q then some (takeArray s q w d) else none
    | none => none

/-- Result of a chain's rows recorded in its walk: status bits of Table 13-10. -/
def walkBits (w : Walk) (a : RowsAcc) : Walk :=
  { w with statusBits := w.statusBits ||| (if a.stats.nonfiniteBit then bitNonfinite else 0) |||
                           (if 0 < a.sat then bitIntSat else 0),
           wroteNonfinite := w.wroteNonfinite || a.stats.wroteNonfinite }

/-- Source unit of a chain's stop. -/
def chainSrc (code : Nat) : Nat := if code = 0x4004 ∨ code = 0x4005 then srcDrain else srcArray

/-- A chain runs once: its rows drained, or the operation stopped. -/
def streamChain (s : State) (q : Nat) (o : Op) (w : Walk) (i : Nat) (c : Chain) (replay : Bool) : State :=
  let a := runChain s w o.owner c replay
  let w1 := walkBits (modChain w i (fun d => { d with state := 1, flagged := if replay then d.flagged else a.flagged })) a
  let s1 := drainCounters a.s a
  match a.stop with
  | some (b, p) => stopWalk (if b.1 = 0x4005 then s1 else countPoison s1 p) q o w1 b.1 (chainSrc b.1) b.2
  | none =>
    let x := walkProb o.owner w c.entry
    let s2 := chainCounters s1 w o.owner i c
    let t := tileCols x.e c.tile
    let cols := (List.range t.2).map (fun k => loadCol s x (probTokens x) (t.1 + k))
    let g := loadCells s2.units.regs x c.b0 c.depth false 0 cols
    { s2 with units := { s2.units with regs := { g with joins := joinBands g.joins c.b0 c.depth },
                                       walks := tput s2.units.walks q w1 } }

/-- CHAIN_START (R100): chain `chain` of the plan of a queue's operation streams, once the array is its own, its bands are
free, in service and awake, and its metadata still stands (R124). -/
def execChainStart (q : Nat) (chain : Nat) (s : State) : Host.Outcome State Fault Refusal :=
  .next (match arrayHead s q with
    | none => s
    | some (o, h, w0) =>
      if w0.stage = 0 then s
      else match holdArray s q w0, w0.chains[chain]? with
        | some s1, some c =>
          let w := { w0 with stage := 3, started := true }
          if c.state ≠ 0 ∨ ¬ groupReady w chain c then s
          else match (chainBands c).find? (fun b => !bandIn s1 b) with
            | some b => lostWalk s1 q o h w 0x100A srcArray [(b, 3)]
            | none =>
              let off := (chainBands c).filter (fun b => frondState s1 b != .on)
              if ¬ off.isEmpty then off.foldl requestWake s1
              else
                let x := walkProb o.owner w c.entry
                match (if enSparse x.e then injectBad s1 x c.tile else none) with
                | some (r, col) =>
                  stopWalk s1 q o (modChain w chain (fun d => { d with state := 1 })) 0x3006 srcArray
                    [(detailIdx w c.entry, 16), (c.b0 + r / 128 % c.depth, 3), (col, 10), (r % 1024, 10)]
                | none => streamChain s1 q o w chain c false
        | _, _ => s)

/-- CHAIN_COMPLETE (R165): the chain's last sum has drained; where rows were flagged it runs once more at once. The
operation is done with its last chain. -/
def execChainComplete (q : Nat) (chain : Nat) (s : State) : Host.Outcome State Fault Refusal :=
  .next (match arrayHead s q with
    | none => s
    | some (o, _, w0) =>
      match w0.chains[chain]? with
      | none => s
      | some c =>
        if c.state ≠ 1 then s
        else
          let s1 := if c.flagged = 0 then s else bump (streamChain s q o w0 chain c true) 0x250205 1
          match arrayHead s1 q, tget? s1.units.walks q with
          | some _, some w1 =>
            let w := modChain w1 chain (fun d => { d with state := 2 })
            if w.chains.all (fun d => d.state == 2) then finishWalk s1 q o w else modWalk s1 q (fun _ => w)
          | _, _ => s1)

/-- Whether an overlap forbids the early start of a walk (R106). -/
def earlyOverlap (w r : Walk) : Bool :=
  inPlace (walkIns w) (walkOuts r) ||
  rangesMeet (gcbStagingBase w.gcb) (gcbStagingSize w.gcb) (gcbStagingBase r.gcb) (gcbStagingSize r.gcb)

/-- EARLY_START (R106): the planned operation of a queue stages and loads while another one streams; an overlap holds it
back, and that is counted once. -/
def execEarlyStart (q : Nat) (s : State) : Host.Outcome State Fault Refusal :=
  .next (match arrayHead s q, s.units.running.bind (fun r => tget? s.units.walks r) with
    | some (o, _, w), some r =>
      if w.stage ≠ 1 ∨ s.units.running = some q ∨ s.units.ahead.isSome ∨ ¬ gcbEarly w.gcb ∨ ent s 0x230101 ≠ 1 then s
      else if earlyOverlap w r then
        if w.declined then s else modWalk (bump s 0x23020A 1) q (fun x => { x with declined := true })
      else
        let s1 := modWalk (bump s 0x230209 1) q (fun x => { x with stage := 2, started := true })
        let idle (b : Nat) : Bool := r.chains.all (fun d => d.state == 2 || !(decide (d.b0 ≤ b ∧ b < d.b0 + d.depth)))
        let firsts := (indexed 0 w.chains).filter (fun c => groupReady w c.1 c.2 && (chainBands c.2).all idle)
        let g := firsts.foldl (fun g c =>
          let x := walkProb o.owner w c.2.entry
          let t := tileCols x.e c.2.tile
          loadCells g x c.2.b0 c.2.depth true 0
            ((List.range t.2).map (fun k => loadCol s x (probTokens x) (t.1 + k)))) s1.units.regs
        { s1 with
          mem := spoilTile s1.mem (gcbStagingBase w.gcb) (gcbStagingSize w.gcb)
          units := { s1.units with regs := g, ahead := some q } }
    | _, _ => s)

/-! ### Faults of the array -/

/-- The chain that streams on a band: its queue, operation and walk. -/
def bandUser (s : State) (b : Nat) : Option (Nat × Op × Head × Walk) :=
  s.units.running.bind (fun q => (arrayHead s q).bind (fun x =>
    if x.2.2.chains.any (fun c => c.state == 1 && decide (c.b0 ≤ b ∧ b < c.b0 + c.depth)) then
      some (q, x.1, x.2.1, x.2.2) else none))

/-- A band taken into the fault mask. -/
def faultBand (s : State) (b : Nat) : State :=
  { s with units := { s.units with bandFaults := s.units.bandFaults ||| 2 ^ b } }

/-- ARRAY_REG_PARITY (R72): a register of a band fails its parity in use; its column and row are free values. -/
def execArrayRegParity (band : Nat) (s : State) : Host.Outcome State Fault Refusal :=
  .next (match bandUser s band with
    | none => s
    | some (q, o, h, w) =>
      let s1 := faultBand (bump { s with free := s.free + 2 } 0x220408 1) band
      lostWalk s1 q o h w 0x1007 srcArray
        [(band, 3), (Config.freeValue s.free, 10), (Config.freeValue (s.free + 1), 10)])

/-- ARRAY_FRONT_CHECK (R73): after a swap front, `counts` markers crossed the foot of each column, first column first, where
one entered at the top. -/
def execArrayFrontCheck (band : Nat) (counts : List Nat) (s : State) : Host.Outcome State Fault Refusal :=
  .next (match bandUser s band, (indexed 0 counts).find? (fun c => c.2 != 1) with
    | some (q, o, h, w), some c => lostWalk (faultBand s band) q o h w 0x1008 srcArray [(band, 3), (c.1, 10)]
    | _, _ => s)

/-- BIST_DONE (R76): the self-test of a band ends with its result. -/
def execBistDone (result : Nat) (s : State) : Host.Outcome State Fault Refusal :=
  .next (match s.units.bist with
    | none => s
    | some _ => setEnt (setEnt { s with units := { s.units with bist := none } } 0x220502 0) 0x220503 (result % 2 ^ 32))

end Sys2Proof.Machine
end

