-- ==== Sys2Proof/Machine/Sync.lean ====
section
/-!
DEFINITION. Machine/Sync.lean: the SYNC operations of queues (R300 to R314, Table 13-6), WAIT, and the deadlock detector
(R319, R320).
-/
namespace Sys2Proof.Machine

/-! ### The body of a SYNC operation (Table 13-6) -/

def syKind (b : Nat) : Nat := bits b 502 2
def syIndex (b : Nat) : Nat := bits b 484 18
def syDevice (b : Nat) : Nat := bits b 472 12
def syArg (b : Nat) : Nat := bits b 408 64
def syPtr (b : Nat) : Nat := bits b 368 40
def syCount (b : Nat) : Nat := bits b 356 12 + 1
def syRemoteOk (b : Nat) : Bool := bit b 355
def syKey (b : Nat) : Nat := objKey (syKind b) (syIndex b)

/-- The field of a SYNC body that makes its arguments malformed (R300): a kind that the operation does not act on, a count
or participants of 0. -/
def syBad (sub b : Nat) : Option Nat :=
  let k := syKind b
  if k = 3 ∨ (sub = 3 ∧ k ≠ 0) ∨ ((sub = 4 ∨ sub = 5) ∧ k ≠ 1) ∨ ((sub = 6 ∨ sub = 7) ∧ k ≠ 2) then some 502
  else if (sub = 3 ∨ (sub = 1 ∧ k = 0)) ∧ syArg b % 65536 = 0 then some 408
  else none

/-- Whether a device field of an operation names this device. -/
def syLocal (s : State) (d : Nat) : Bool := d == 0xFFF || d == ownDev s

/-- A refusal of the unit. -/
def syRefuse (s : State) (q : Nat) (o : Op) (code : Nat) (items : List (Nat × Nat)) : State := refuseOp s q o code srcSyu items

/-- An operation on an object of another device, sent to it as a SYNC packet (R306, R346). -/
def sySend (s : State) (q : Nat) (o : Op) (dev sub : Nat) (extra : List Nat) : State :=
  match guardWin s o.owner (ownRack s) dev 0 0 .sync with
  | none => refuseOp s q o 0xA006 srcGuard (guardItems o.owner dev 0 .sync)
  | some _ =>
    endOp (sendPk s dev q o.seq { ty := 0x08, src := ownDev s, dst := dev, owner := o.owner, epoch := o.epoch, op := sub,
                                  payload := natLe 64 o.body ++ extra }) q o 0x01

/-- An operation of a queue on one object of its partition (Table 10-4). -/
def syObject (sub q : Nat) (s : State) (x : Queue) (o : Op) (_h : Head) : State :=
  let b := o.body
  match syBad sub b with
  | some f => syRefuse s q o 0x9010 [(f, 16)]
  | none =>
    if ¬ syLocal s (syDevice b) then sySend s q o (syDevice b) sub []
    else if ¬ objIn s x.partition (syKind b) (syIndex b) then syRefuse s q o 0x9001 (objItems (syKey b))
    else
      let r :=
        if sub = 1 then objInit s o.owner o.epoch (syKey b) (syArg b) (syRemoteOk b)
        else if sub = 2 then objFree s o.owner o.epoch (syKey b)
        else objSignal s (some (q, o)) sub (syKey b) (syArg b) 0xFFF
      match r with
      | .done t => endOp t q o 0x01
      | .discarded t => endOp t q o 0x02
      | .refused c i => syRefuse s q o c i

/-- A row of the operations on one object. -/
def syExec (sub q : Nat) (s : State) : State := runHead s q 0x06 sub .ready (syObject sub q)

/-- SYNC_INIT (R301). -/
def execSyncInit (q : Nat) (s : State) : Host.Outcome State Fault Refusal := .next (syExec 1 q s)
/-- SYNC_FREE (R302). -/
def execSyncFree (q : Nat) (s : State) : Host.Outcome State Fault Refusal := .next (syExec 2 q s)
/-- FLAG_SET (R300). -/
def execFlagSet (q : Nat) (s : State) : Host.Outcome State Fault Refusal := .next (syExec 4 q s)
/-- FLAG_CLEAR (R300). -/
def execFlagClear (q : Nat) (s : State) : Host.Outcome State Fault Refusal := .next (syExec 5 q s)
/-- COUNTER_ADD (R304). -/
def execCounterAdd (q : Nat) (s : State) : Host.Outcome State Fault Refusal := .next (syExec 6 q s)
/-- COUNTER_WRITE (R300). -/
def execCounterWrite (q : Nat) (s : State) : Host.Outcome State Fault Refusal := .next (syExec 7 q s)

/-! ### Arrivals -/

/-- The argument of a device's own arrival at its step barrier: its local finite flag and its step's phase (R317). -/
def stepArg (s : State) (p c : Nat) : Nat :=
  fld (b2n (partOf s p).localFinite) 32 1 + fld (stepNumber s p) 16 16 + fld c 0 16

/-- The partition at whose step barrier an operation arrives. -/
def arrivesAt (s : State) (x : Queue) (b : Nat) : Option Nat :=
  if syBad 3 b = none ∧ syLocal s (syDevice b) then
    (stepPart s (syKey b)).bind (fun p => if p = x.partition then some p else none)
  else none

/-- Whether the step barrier arrival of a partition is held: for the work of its PLE and the agreement round of a placed job
(R382, R472). -/
def arrivalHeld (s : State) (p : Nat) : Bool := decide (1 < groupSize s p)

/-- BARRIER_ARRIVE: at the partition's step barrier with the device's own flag and phase, held where R382 says. -/
def syArrive (q : Nat) (s : State) (x : Queue) (o : Op) (h : Head) : State :=
  match arrivesAt s x o.body with
  | none => syObject 3 q s x o h
  | some p =>
    if arrivalHeld s p then
      modOp (modPart s p (fun y => { y with barrierWaits := true })) q o.seq (fun y => { y with progress := .waiting })
    else syObject 3 q s x { o with body := setBits o.body 408 64 (stepArg s p (syArg o.body)) } h

/-- BARRIER_ARRIVE (R303). -/
def execBarrierArrive (q : Nat) (s : State) : Host.Outcome State Fault Refusal :=
  .next (runHead s q 0x06 3 .ready (syArrive q))

/-! ### Watches -/

/-- The watch specification that an operation points to, read poisoned or outside its windows: none. -/
def sySpec (s : State) (o : Op) : Option Nat :=
  if ptrOk s o.owner (syPtr o.body) 32 .read then readStruct s o.owner (syPtr o.body) 32 else none

/-- Owner instance of a queue. -/
def queueInstance (s : State) (q : Nat) : Option (Nat × Nat) := (queueOf s q).map (fun x => (qOwner x, ownerEpoch s (qOwner x)))

/-- WATCH (R307). -/
def syWatch (q : Nat) (s : State) (x : Queue) (o : Op) (_h : Head) : State :=
  match sySpec s o with
  | none => badPtr s q o 368
  | some w =>
    let p := x.partition
    let here := syLocal s (wsDevice w)
    let mine := decide (queueInstance s (wsQueue w) = some (o.owner, o.epoch))
    match wsBad w with
    | some f => syRefuse s q o 0x9010 [(f, 16)]
    | none =>
      if here ∧ ¬ objIn s p (wsKind w) (wsIndex w) then syRefuse s q o 0x9001 (objItems (wsKey w))
      else if ¬ mine then
        syRefuse s q o 0x9003 (if here then bindItems s (wsKey w) else objItems (wsKey w) ++ [(ones 12, 12), (ones 16, 16)])
      else if ¬ here then
        let r := takeFree s
        modOp (sySend r.2 q o (wsDevice w) 8 (natLe 32 w)) q o.seq (fun y =>
          { y with detail := if y.status = 0x01 then r.1 % 2 ^ 20 else 0 })
      else if pEnt s 0x3028 7 p ≤ quotaUsed s p then
        syRefuse s q o 0x9009 [(p, 5), (pEnt s 0x3028 7 p, 32)]
      else
        let r := addWatch s { spec := w, by_ := .queue (wsQueue w) o.owner o.epoch, partition := p }
        endOp (modOp r.2 q o.seq (fun y => { y with detail := r.1 })) q o 0x01

/-- WATCH (R307). -/
def execWatch (q : Nat) (s : State) : Host.Outcome State Fault Refusal := .next (runHead s q 0x06 8 .ready (syWatch q))

/-- UNWATCH (R309): whether a watch on another device had fired is not told to this one. -/
def syUnwatch (q : Nat) (s : State) (_x : Queue) (o : Op) (_h : Head) : State :=
  let id := syArg o.body % 2 ^ 20
  if ¬ syLocal s (syDevice o.body) then
    let r := takeFree s
    modOp (sySend r.2 q o (syDevice o.body) 9 []) q o.seq (fun y =>
      { y with status := if y.status = 0x01 then 1 + r.1 % 2 else y.status })
  else
    match tget? s.syu.watches id with
    | none => endOp s q o 0x02
    | some w =>
      match w.by_ with
      | .queue _ owner _ =>
        if owner = o.owner then endOp (dropWatch s id) q o 0x01 else syRefuse s q o 0x9003 (bindItems s (wsKey w.spec))
      | _ => syRefuse s q o 0x9003 (bindItems s (wsKey w.spec))

/-- UNWATCH (R309). -/
def execUnwatch (q : Nat) (s : State) : Host.Outcome State Fault Refusal := .next (runHead s q 0x06 9 .ready (syUnwatch q))

/-- SYNC_READ: the object's word written at the pointer. -/
def syRead (q : Nat) (s : State) (x : Queue) (o : Op) (_h : Head) : State :=
  let b := o.body
  if ¬ ptrOk s o.owner (syPtr b) (objWordBytes (syKey b)) .write then badPtr s q o 368
  else if syKind b = 3 then syRefuse s q o 0x9010 [(502, 16)]
  else if ¬ syLocal s (syDevice b) then syRefuse s q o 0x9010 [(472, 16)]
  else if ¬ objIn s x.partition (syKind b) (syIndex b) then syRefuse s q o 0x9001 (objItems (syKey b))
  else endOp (wr s o.owner (syPtr b) (natLe (objWordBytes (syKey b)) (objWord s (syKey b)))) q o 0x01

/-- SYNC_READ (R300). -/
def execSyncRead (q : Nat) (s : State) : Host.Outcome State Fault Refusal := .next (runHead s q 0x06 0x0A .ready (syRead q))

/-! ### Tasks -/

/-- What TASK_BEGIN records of an object: its state in the low two bits, then participants and arrived, or its value. -/
def taskState (s : State) (k : Nat) : Nat :=
  let o := objOf s k
  o.state + 4 * (if keyKind k = 0 then o.participants * 65536 + o.arrived else o.value)

/-- Entries of an object list. -/
def taskList (s : State) (o : Op) (n : Nat) : List Nat := (List.range n).map (fun i => rdNat s o.owner (syPtr o.body + 4 * i) 4)

/-- The first entry of an object list that TASK_BEGIN refuses. -/
def taskBad (s : State) (p : Nat) : List Nat → Option (Nat × List (Nat × Nat))
  | [] => none
  | e :: r =>
    let k := bits e 0 20
    if bits e 20 12 ≠ 0 then some (0x9010, [(20, 16)])
    else if keyKind k = 3 then some (0x9010, [(18, 16)])
    else if ¬ objIn s p (keyKind k) (keyIndex k) then some (0x9001, objItems k)
    else taskBad s p r

/-- Detail of 0x900C: the queue, and which check failed: 1 the length, 2 an open task, 3 every slot in use, 4 none open. -/
def taskItems (q cause : Nat) : List (Nat × Nat) := [(q, 20), (Config.causeCode 0x900C cause, 8)]

/-- TASK_BEGIN (R313). -/
def syTaskBegin (q : Nat) (s : State) (x : Queue) (o : Op) (_h : Head) : State :=
  let n := syCount o.body
  if 1024 < n then syRefuse s q o 0x900C (taskItems q 1)
  else if ¬ ptrOk s o.owner (syPtr o.body) (4 * n) .read ∨ poisonAt s (syPtr o.body) (4 * n) then badPtr s q o 368
  else
    let l := taskList s o n
    match taskBad s x.partition l with
    | some (c, i) => syRefuse s q o c i
    | none =>
      if thas s.syu.tasks q then syRefuse s q o 0x900C (taskItems q 2)
      else if 4096 ≤ s.syu.tasks.length then syRefuse s q o 0x900C (taskItems q 3)
      else
        let t : Task := { owner := o.owner, epoch := o.epoch, entries := l.map (fun k => (k, taskState s k)) }
        endOp { s with syu := { s.syu with tasks := tput s.syu.tasks q t } } q o 0x01

/-- TASK_BEGIN (R313). -/
def execTaskBegin (q : Nat) (s : State) : Host.Outcome State Fault Refusal := .next (runHead s q 0x06 0x0B .ready (syTaskBegin q))

/-- Faults of a task's residue: the first sixteen of the objects that differ, the further ones counted in the last. -/
def residueFaults (s : State) (q : Nat) (o : Op) (n : Nat) : Nat → List (Nat × Nat) → State
  | _, [] => s
  | i, (k, r) :: rest =>
    if 16 ≤ i then s
    else
      let d := objItems k ++ [(r % 4, 2), (taskState s k % 4, 2)] ++ (if i = 15 ∧ 16 < n then [(n - 16, 16)] else [])
      residueFaults (bump (raiseOp s q { o with faults := o.faults + i } 0x9005 srcSyu d) 0x2A0207 1) q o n (i + 1) rest

/-- TASK_END (R314). -/
def syTaskEnd (q : Nat) (s : State) (_x : Queue) (o : Op) (_h : Head) : State :=
  match tget? s.syu.tasks q with
  | none => syRefuse s q o 0x900C (taskItems q 4)
  | some t =>
    let bad := t.entries.filter (fun e => taskState s e.1 != e.2)
    let s1 := { s with syu := { s.syu with tasks := tdel s.syu.tasks q } }
    endOp (residueFaults s1 q o bad.length 0 bad) q o (if bad.isEmpty then 0x01 else 0x02)

/-- TASK_END (R314). -/
def execTaskEnd (q : Nat) (s : State) : Host.Outcome State Fault Refusal := .next (runHead s q 0x06 0x0C .ready (syTaskEnd q))

/-! ### WAIT -/

/-- A WAIT whose watch has fired completes (R420). -/
def waitEnds (s : State) (q : Nat) (o : Op) : State :=
  match tget? s.syu.ended q with
  | none => s
  | some 1 => endOp (dropWaits s q) q o 0x01
  | some r => refuseOp (dropWaits s q) q o 0xB00E srcQueue (descItems q o r 8)

/-- A WAIT registers its watch, here or on another device. -/
def syWait (q : Nat) (s : State) (x : Queue) (o : Op) (_h : Head) : State :=
  match sySpec s o with
  | none => badPtr s q o 368
  | some w =>
    match wsBad w with
    | some f => syRefuse s q o 0x9010 [(f, 16)]
    | none =>
      if syLocal s (wsDevice w) then
        if objIn s x.partition (wsKind w) (wsIndex w) then waitEnds (engineWatch s q w) q o
        else syRefuse s q o 0x9001 (objItems (wsKey w))
      else
        match guardWin s o.owner (ownRack s) (wsDevice w) 0 0 .sync with
        | none => refuseOp s q o 0xA006 srcGuard (guardItems o.owner (wsDevice w) 0 .sync)
        | some _ =>
          let b := natLe 64 o.body ++ natLe 32 (setBits w 32 20 q)
          sendPk s (wsDevice w) q o.seq
            { ty := 0x08, src := ownDev s, dst := wsDevice w, owner := o.owner, epoch := o.epoch, op := 0x0D, payload := b }

/-- WAIT (R420): the head registers its watch, and completes when it fires. -/
def execWait (q : Nat) (s : State) : Host.Outcome State Fault Refusal :=
  .next (match goingHead s q 0x06 with
    | some (_, o, _) => if subopOf o.body = 0x0D then waitEnds s q o else s
    | none => runHead s q 0x06 0x0D .ready (syWait q))

/-! ### The deadlock detector -/

/-- What a queue's head waits on: the specification of its wait on an object of this device. -/
def headWait (s : State) (q : Nat) : Option Nat :=
  match engineWaits s q with
  | (_, w) :: _ => some w.spec
  | [] => ((gateWaits s).find? (fun x => x.1 == q)).map (·.2)

/-- Non-empty queues of running instances of a partition. -/
def runningQueues (s : State) (p : Nat) : List Nat :=
  (s.queues.filter (fun x => x.2.partition == p && (qHead x.2).isSome &&
    (ownerState s (qOwner x.2) == .active || ownerState s (qOwner x.2) == .preempting))).map (·.1)

/-- Whether a partition is stalled, with its waiting heads (R319). -/
def stalledHeads (s : State) (p : Nat) : Option (List (Nat × Nat)) :=
  let qs := runningQueues s p
  let waits := qs.filterMap (fun q => (headWait s q).map (fun w => (q, w)))
  if qs.isEmpty ∨ waits.length ≠ qs.length then none
  else if waits.all (fun x => pendingSignals s (wsKey x.2) == 0 &&
      (!(objOf s (wsKey x.2)).remoteOk || decide ((objOf s (wsKey x.2)).changedAt + 1000 * ent s 0x2A0102 ≤ s.clock.us)))
  then some waits else none

/-- What a sample keeps of the awaited objects: queue and object, the word and its time. -/
def stallWords (s : State) (l : List (Nat × Nat)) : List (Nat × Nat) :=
  l.map (fun x => (x.1 * 2 ^ 20 + wsKey x.2, objWord s (wsKey x.2) + (objOf s (wsKey x.2)).changedAt * 2 ^ 128))

/-- Edge of the snapshot (Table 10-7). -/
def stallEdge (s : State) (x : Nat × Nat) : Nat :=
  let o := objOf s (wsKey x.2)
  fld (objValue (wsKey x.2) o) 128 64 + fld (wsOperand x.2) 64 64 + fld x.1 44 20 + fld (wsCond x.2) 41 3 +
  fld (wsKind x.2) 39 2 + fld (wsIndex x.2) 21 18 + fld (((queueOf s x.1).map qOwner).getD 0) 9 12 + b2n o.remoteOk

/-- End of the owner's first window that covers a write of n bytes. -/
def coverEnd (s : State) (o a n : Nat) : Nat :=
  ((List.range 8).findSome? (fun w =>
    let e := tgetD s.mc.windows (o * 8 + w) 0
    if winAdmits e a n .write then some (bits e 39 39) else none)).getD 0

/-- The snapshot of R320. -/
def writeSnapshot (s : State) (p : Nat) (l : List (Nat × Nat)) : State :=
  let ptr := pEnt s 0x3028 0x0A p
  if ptr = 0 then s
  else match coveringOwner s p ptr 64 with
    | none => s
    | some o =>
      let n := min (min l.length (pEnt s 0x3028 0x0B p)) ((coverEnd s o ptr 64 - (ptr + 64)) / 32)
      let hdr := fld (s.clock.ns / 1000) 128 64 + fld l.length 96 32 + fld n 64 32 + fld p 8 5 + 2
      wr s o ptr (natLe 64 hdr ++ (l.take n).flatMap (fun x => natLe 32 (stallEdge s x)))

/-- The sample of a partition (R319). -/
def samplePart (s : State) (p : Nat) : State :=
  let put (t : State) (x : Stall) : State :=
    { t with syu := { t.syu with stalls := if x = {} then tdel t.syu.stalls p else tput t.syu.stalls p x } }
  match stalledHeads s p with
  | none => put s {}
  | some l =>
    let old := tgetD s.syu.stalls p {}
    let words := stallWords s l
    if old.stalled = false ∨ old.words ≠ words then put s { stalled := true, words := words }
    else if old.declared then s
    else
      let s1 := bump (bump (raiseDev s 0x9008 srcSyu [(p, 5), (l.length, 32)]) 0x2A0208 1) (pKey 0x3028 0x0C p) 1
      put (writeSnapshot s1 p l) { old with declared := true }

/-- DEADLOCK_SAMPLE (R319). -/
def execDeadlockSample (s : State) : Host.Outcome State Fault Refusal :=
  .next (if ent s 0x2A0101 = 0 then s else (List.range 32).foldl samplePart s)

end Sys2Proof.Machine
end

