-- ==== Sys2Proof/Machine/Host.lean ====
section
/-!
DEFINITION. Machine/Host.lean: doorbells, descriptor reads, acceptance, completion and retirement of operations, queue
administration, NOP, and the end of the accepted-work guarantee (R406 to R432).
-/
namespace Sys2Proof.Machine

/-! ### The journal (R430) -/

/-- Operations that hold an entry of the journal, or will once they are in it. -/
def queueEntries (x : Queue) : Nat := x.ops.length + x.journalled.length

/-- Entries not retired (0x2101:04); queues of the PLE's own, numbered past 2^20, have none. -/
def journalUse (s : State) : Nat := s.queues.foldl (fun n x => if x.1 < 2 ^ 20 then n + x.2.ops.length else n) 0

/-- Whether the journal and the partition's quota have room for one entry more (R417). -/
def journalRoom (s : State) (p : Nat) : Bool :=
  decide (s.queues.foldl (fun n x => if x.1 < 2 ^ 20 then n + queueEntries x.2 else n) 0 < ent s 0x210103) &&
  (pEnt s 0x3000 7 p == 0 ||
    decide (s.queues.foldl (fun n x => if x.2.partition = p ∧ x.1 < 2 ^ 20 then n + queueEntries x.2 else n) 0 < pEnt s 0x3000 7 p))

/-- Whether the journal accepts: it stands, and two stacks have not failed (R430). -/
def journalAccepts (s : State) : Bool :=
  (s.host.journalState == 1 || (s.host.journalState == 2 && s.host.journalCopyTo.isSome)) &&
  decide (((List.range 8).filter (fun t => !s.mem.failedStack.contains t)).length ≥ 2)

/-! ### Doorbells -/

/-- Whether a queue's owner admits doorbells: it is bound and neither free nor resetting. -/
def doorbellOwner (s : State) (fn q : Nat) : Bool :=
  match queueOf s q with
  | none => false
  | some x =>
    let o := qOwner x
    ownerFn s o == fn && (ownerState s o == .active || ownerState s o == .preempting || ownerState s o == .preempted)

/-- Smallest number not below `lo` whose low 32 bits are given. -/
def extend32 (lo v : Nat) : Nat :=
  let x := lo / 2 ^ 32 * 2 ^ 32 + v % 2 ^ 32
  if x < lo then x + 2 ^ 32 else x

/-- Slot that a queue reads next. -/
def nextSlot (x : Queue) : Nat := x.nextSeq + x.journalled.length

/-- A queue's next slot read is issued, where it is to read and there is room. -/
def issueRead (s : State) (q : Nat) : State :=
  match queueOf s q with
  | none => s
  | some x =>
    if x.reading ∧ nextSlot x ≤ x.target ∧ journalRoom s x.partition ∧ ¬ bit x.ctx 277 then
      toHost s (.slotRead q (nextSlot x)) else s

/-- A write to the doorbell register (R406): discarded and counted, reported where foreign, or taken. -/
def doorbell (s : State) (fn size value : Nat) (f : State → Nat → Queue → Nat → State) : State :=
  let q := bits value 32 20
  if ¬ deviceServes s then s
  else if size ≠ 8 ∨ bits value 52 11 ≠ 0 then bump s 0x210406 1
  else if ¬ doorbellOwner s fn q then raiseDev (bump s 0x210406 1) 0xB005 srcQueue [(fn, 11), (q, 20)]
  else match queueOf s q with
    | some x => f s q x (bits value 0 32)
    | none => s

/-- A submit doorbell: reading starts at next_seq (R416). -/
def submit (s : State) (q : Nat) (x : Queue) (v : Nat) : State :=
  let s1 := modQueue s q (fun y => { y with target := extend32 x.nextSeq v, reading := true, stopped := false })
  if x.reading then s1 else issueRead s1 q

/-- SUBMIT_DOORBELL (R416). -/
def execSubmitDoorbell (fn : Nat) (size : Nat) (value : Nat) (s : State) : Host.Outcome State Fault Refusal :=
  .next (if size = 8 ∧ bit value 63 then s else doorbell s fn size value submit)

/-- Messages read up to the newest one named: a number among those landed and not read. -/
def consume (s : State) (q : Nat) (x : Queue) (v : Nat) : State :=
  let n := extend32 x.consumed v + 1
  if n ≤ x.posted then modQueue s q (fun y => { y with consumed := n }) else s

/-- CONSUMED_DOORBELL (R406). -/
def execConsumedDoorbell (fn : Nat) (size : Nat) (value : Nat) (s : State) : Host.Outcome State Fault Refusal :=
  .next (if size = 8 ∧ ¬ bit value 63 then s else doorbell s fn size value consume)

/-! ### Reading and acceptance -/

/-- What the read of a slot returns: from the host, or from a ring in local HBM under the owner's key. -/
def slotBytes (s : State) (x : Queue) (r : SlotRead) : Option (List Nat) :=
  if bit x.ctx 277 then
    let a := bits x.ctx 448 64 + 128 * (nextSlot x % 2 ^ bits x.ctx 283 5)
    if winOk s (qOwner x) a 128 .read ∧ ¬ poisonAt s a 128 then some (rd s (qOwner x) a 128) else none
  else match r with
    | .bytes b => some (padTo 128 b)
    | .failed => none

/-- Whether a slot's sequence field holds the number expected: in a queue of version 1, its low 32 bits. -/
def slotSeqOk (x : Queue) (hdr n : Nat) : Bool :=
  if qVersion x = 1 then bits hdr 480 32 == n % 2 ^ 32 else bits hdr 448 64 == n

/-- DESCRIPTOR_READ_RETURN (R416). -/
def execDescriptorReadReturn (q : Nat) (slot : SlotRead) (s : State) : Host.Outcome State Fault Refusal :=
  .next (match queueOf s q with
    | none => s
    | some x =>
      let n := nextSlot x
      if ¬ (x.reading ∧ n ≤ x.target ∧ deviceServes s ∧ journalRoom s x.partition) then s
      else match slotBytes s x slot with
        | none =>
          raise (modQueue s q (fun y => { y with reading := false, stopped := true }))
            { code := 0xB00B, src := srcQueue, owner := qOwner x, queue := q, seq := n, first := true, items := [(q, 20), (n, 64)] }
        | some b =>
          let hdr := leNat (b.take 64)
          if ¬ slotSeqOk x hdr n then bump (modQueue s q (fun y => { y with reading := false })) 0x210407 1
          else
            let o : Op := { seq := n, hdr := hdr, body := leNat (b.drop 64), owner := qOwner x, epoch := ownerEpoch s (qOwner x) }
            issueRead (modQueue s q (fun y => { y with journalled := y.journalled ++ [o],
                                                       reading := decide (n < y.target) })) q)

/-- DESCRIPTOR_ACCEPT (R417): the first descriptor read is in both journal copies. -/
def execDescriptorAccept (q : Nat) (s : State) : Host.Outcome State Fault Refusal :=
  .next (match queueOf s q with
    | none => s
    | some x => match x.journalled with
      | [] => s
      | o :: r =>
        if ¬ (journalAccepts s ∧ deviceServes s) ∨ ownerState s (qOwner x) = .resetting then s
        else
          let s1 := modQueue s q (fun y => { y with journalled := r, ops := y.ops ++ [{ o with epoch := ownerEpoch s o.owner }],
                                                    nextSeq := y.nextSeq + 1, watermarkDue := true })
          bump (bump s1 0x210401 1) (pKey 0x3000 8 x.partition) 1)

/-- WATERMARK_WRITE (R417). -/
def execWatermarkWrite (q : Nat) (s : State) : Host.Outcome State Fault Refusal :=
  .next (match queueOf s q with
    | none => s
    | some x =>
      if x.watermarkDue then
        hostWr (modQueue s q (fun y => { y with watermarkDue := false })) (qOwner x) (bits x.ctx 320 64) (natLe 8 (x.nextSeq - 1))
      else s)

/-! ### Completion -/

/-- The completion signal of an operation (R425): an object outside the partition's ranges, or unset, refuses it. -/
def applySignal (s : State) (q : Nat) (x : Queue) (o : Op) : State :=
  match sigKey (headOf x o) with
  | none => s
  | some k =>
    if ¬ objIn s x.partition (keyKind k) (keyIndex k) then raiseOp s q o 0x9001 srcSyu (objItems k)
    else if 0x10 ≤ o.status then peerPoison s k 1 0xFFF
    else match objSignal s (some (q, o)) (if keyKind k = 2 then 6 else 4) k 1 0xFFF with
      | .done t => t
      | .discarded t => t
      | .refused c i => raiseOp s q o c srcSyu i

/-- The completion record of an operation posted (R424), and counted. -/
def postCompletion (s : State) (q seq : Nat) : State :=
  match (queueOf s q).bind (fun x => (x.ops.find? (fun o => o.seq == seq)).map (fun o => (x, o))) with
  | none => s
  | some (x, o) =>
    let s1 := modOp (postMsg s q (completionOf s o) false) q seq (fun y => { y with progress := .completed })
    let s2 := modQueue s1 q (fun y => { y with completedSeq := seq })
    let s3 := bump (bump s2 0x210402 1) (pKey 0x3000 9 x.partition) 1
    if o.status = 0x10 ∨ o.status = 0x11 then bump s3 0x210404 1 else s3

/-- Whether an operation of a queue runs and is not merely waiting (R411). -/
def opRuns (s : State) (q : Nat) (x : Queue) : Bool :=
  match qHead x with
  | none => false
  | some o => o.progress == .finished || onEngine s q o

/-- Whether an owner has a running operation. -/
def ownerRuns (s : State) (o : Nat) : Bool := s.queues.any (fun x => qOwner x.2 == o && opRuns s x.1 x.2)

/-- An owner that is pre-empting is pre-empted once none of its operations runs (R411). -/
def settlePreempt (s : State) (o : Nat) : State :=
  if ownerState s o = .preempting ∧ ¬ ownerRuns s o then modOwner s o (fun x => { x with state := .preempted }) else s

/-- Units that an operation held are free again. -/
def freeUnits (s : State) (q : Nat) : State :=
  { s with units := { s.units with vecQueue := if s.units.vecQueue = some q then none else s.units.vecQueue } }

/-- MESSAGE_POST (R310). -/
def execMessagePost (q : Nat) (s : State) : Host.Outcome State Fault Refusal := .next (postHeld s q)

/-- An owner's fault ring signals again, as for its queues (R407, Table 15-3). -/
def ringHoldoffEnds (s : State) (o : Nat) : State :=
  let w := ownerRec s o
  if w.ringDue then
    toHost (modOwner s o (fun x => { x with ringDue := false })) (.msix (ownerFn s o) (bits w.ring 17 11))
  else modOwner s o (fun x => { x with ringHoldoff := false })

/-- MSIX_HOLDOFF_EXPIRY (R407). -/
def execMsixHoldoffExpiry (q : Nat) (s : State) : Host.Outcome State Fault Refusal :=
  .next (match queueOf s q with
    | none => s
    | some x =>
      let s1 := modQueue s q (fun y => { y with holdoff := false, signalDue := false })
      let s2 := if x.signalDue then signalQueue s1 q { x with holdoff := false } else s1
      if (ownerRec s (qOwner x)).ringHoldoff then ringHoldoffEnds s2 (qOwner x) else s2)

/-! ### Retirement -/

/-- Whether the completion record of an operation is among those that wait for ring space. -/
def recordHeld (x : Queue) (o : Op) : Bool := x.held.any (fun m => bits m.msg 24 8 == 2 && bits m.msg 192 64 == o.seq)

/-- JOURNAL_RETIRE (R430): the flushing read returns, and the entries whose records have landed are free. -/
def execJournalRetire (q : Nat) (s : State) : Host.Outcome State Fault Refusal :=
  .next (match queueOf s q with
    | none => s
    | some x =>
      let keep := x.ops.filter (fun o => !(o.progress == .completed && !recordHeld x o))
      if keep.length = x.ops.length ∨ ¬ s.host.up then s
      else issueRead (modQueue (emit s (.flushRead q)) q (fun y => { y with ops := keep })) q)

/-- JOURNAL_REMIRROR_DONE (R430). -/
def execJournalRemirrorDone (s : State) : Host.Outcome State Fault Refusal :=
  .next (match s.host.journalCopyTo with
    | none => s
    | some t => { s with host := { s.host with journalB := t, journalState := 1, journalCopyTo := none } })

/-! ### Where the guarantee ends (R432) -/

/-- Whether an operation is of class S (Table 13-6). -/
def classS (opcode : Nat) : Bool := [5, 6, 7, 0x0B, 0x0C, 0x0D, 0x0E, 0x0F, 0x10].contains opcode

/-- The slot of an outstanding atomic of an operation: target and slot. -/
def atomSlotOf (s : State) (q seq : Nat) : Option Nat :=
  (s.fab.slots.find? (fun x => x.2.queue == q && x.2.seq == seq)).map (·.1)

/-- Fate of the first lost operation (Table 13-15, R499). -/
def headState (s : State) (q : Nat) (x : Queue) (o : Op) : Nat :=
  let h := headOf x o
  if o.progress = .accepted ∨ o.progress = .waiting then 0
  else if classS h.opcode then
    if o.progress = .finished then (if o.status < 0x10 then 2 else 3)
    else if h.opcode = 0x0B then
      match atomSlotOf s q o.seq, (ownerRec s o.owner).reset with
      | some k, some r =>
        match tget? r.answers (k / 256) with
        | some m => if bit m (k % 256) then 2 else 3
        | none => 4
      | some _, none => 4
      | none, _ => 3
    else 3
  else if h.twoPhase ∧ switchDone s q o h then 2
  else 1

/-- What the units hold of a queue's head, dropped. -/
def dropHead (s : State) (q : Nat) : State :=
  let s1 := dropWalk (freeUnits s q) q
  { s1 with card := { s1.card with ops := tdel s1.card.ops q } }

/-- An accepted operation that ends not run (0x12): fault 0xB009, its signal's object poisoned, its record. -/
def loseOp (s : State) (q cause : Nat) (x : Queue) (o : Op) : State :=
  let s1 := endOp (raiseOp s q o 0xB009 srcQueue (descItems q o cause 8)) q o 0x12
  let s2 := match sigKey (headOf x o) with
    | some k => if objIn s x.partition (keyKind k) (keyIndex k) then peerPoison s1 k 1 0xFFF else s1
    | none => s1
  let s3 := if clearsFinite (headOf x o).check { o with status := 0x12 } then clearLocalFinite s2 x.partition else s2
  postCompletion s3 q o.seq

/-- The guarantee ends for a queue (R432): its loss record, then its other accepted operations. -/
def loseQueue (s : State) (cause : Nat) (q : Nat) : State :=
  match (if q < 2 ^ 20 then queueOf s q else none) with
  | none => { s with queues := if q < 2 ^ 20 then s.queues else tdel s.queues q }
  | some x =>
    let lost := x.ops.filter (fun o => o.progress != .completed)
    let hs := ((qHead x).map (headState s q x)).getD 0
    let first := ((qHead x).map (·.seq)).getD x.nextSeq
    let s1 := bump (postMsg s q (lossOf s first ((x.nextSeq + 2 ^ 64 - 1) % 2 ^ 64) cause hs) false) 0x210405 1
    let s2 := modQueue (dropHead s1 q) q (fun y => { y with
      ops := y.ops.filter (fun o => o.progress == .completed || o.seq != first), journalled := [],
      reading := y.reading || !y.journalled.isEmpty })
    (lost.drop 1).foldl (fun t o => loseOp t q cause x o) s2

/-- The guarantee ends for the queues that pass a test. -/
def loseQueues (s : State) (cause : Nat) (f : Queue → Bool) : State :=
  ((s.queues.filter (fun x => f x.2)).map (·.1)).foldl (fun t q => loseQueue t cause q) s

/-- Stack onto which a surviving journal copy is written: the lowest that has not failed and is not the survivor. -/
def journalTarget (s : State) (survivor : Nat) : Option Nat :=
  (List.range 8).find? (fun t => t != survivor && !s.mem.failedStack.contains t)

/-- A stack that has failed held a journal copy (R430). -/
def journalStackFails (s : State) (st : Nat) : State :=
  let h := s.host
  if h.journalState = 1 ∧ (st = h.journalA ∨ st = h.journalB) then
    let keep := if st = h.journalA then h.journalB else h.journalA
    let t := journalTarget s keep
    raiseDev { s with host := { h with journalA := keep, journalState := 2, journalCopyTo := t } } 0xB007 srcQueue
      [(st, 3), (t.getD 7, 3)]
  else if h.journalState = 2 ∧ st = h.journalA then
    let a := journalTarget s 8
    let b := a.bind (journalTarget s)
    let s1 := raiseDev s 0xB008 srcQueue [(st, 3), (h.journalCopyTo.getD 7, 3)]
    let s2 := loseQueues s1 4 (fun _ => true)
    { s2 with host := { s2.host with journalA := a.getD st, journalState := 3, journalCopyTo := b } }
  else if h.journalState = 2 ∧ h.journalCopyTo = some st then
    { s with host := { h with journalCopyTo := journalTarget s h.journalA } }
  else s

/-! ### Queue administration -/

/-- What R413 and R414 find in a context, by the field's lowest bit. -/
def contextBad (s : State) (o c : Nat) : Option Nat :=
  let q := bits c 300 20
  let p := ownerPart s o
  let localBad (a : Nat) : Bool := isTile a || decide (hbmBytes ≤ a) || a == 0
  if ¬ (pEnt s 0x3000 1 p ≤ q ∧ q < pEnt s 0x3000 1 p + pEnt s 0x3000 2 p) ∨ (queueOf s q).isSome then some 300
  else if bits c 288 12 ≠ o then some 288
  else if bits c 283 5 < 6 ∨ 16 < bits c 283 5 then some 283
  else if bits c 278 5 < 6 ∨ 20 < bits c 278 5 then some 278
  else match reservedBad c [(0, 8), (8, 88), (96, 32), (128, 64), (192, 64), (256, 4)] with
    | some f => some f
    | none =>
      if ¬ vectorHeld s (ownerFn s o) (bits c 261 11) then some 261
      else if bits c 272 2 = 0 then some 272
      else if bits c 320 64 % 8 ≠ 0 then some 320
      else if bit c 277 ∧ localBad (bits c 448 64) then some 448
      else if bit c 276 ∧ localBad (bits c 384 64) then some 384
      else none

/-- A queue made from a context that passed its checks: the granted version is at most 2 (R414). -/
def makeQueue (s : State) (o c : Nat) : State :=
  let x : Queue := { ctx := setBits c 272 2 (min (bits c 272 2) 2), partition := ownerPart s o }
  { s with queues := tput s.queues (bits c 300 20) x }

/-- Context of a queue as it reads (Table 13-3); zeros where there is none. -/
def contextOf (s : State) (q : Nat) : Nat :=
  match queueOf s q with
  | none => 0
  | some x => x.ctx + fld x.nextSeq 192 64 + fld x.completedSeq 128 64 + fld x.msgSeq 96 32 + (if x.stopped then 2 else 1)

/-- Whether a queue is the admin queue of the operation's owner. -/
def onAdmin (s : State) (q : Nat) (o : Op) : Bool := ownerAdmin s o.owner == q

/-- An operation accepted only on the admin queue (0xB004). -/
def offAdmin (s : State) (q : Nat) (o : Op) (opcode : Nat) : State := refuseOp s q o 0xB004 srcQueue [(q, 20), (opcode, 8)]

/-- QUEUE_CREATE (R413, R414). -/
def queueMake (q : Nat) (s : State) (_x : Queue) (o : Op) (_h : Head) : State :=
  if ¬ onAdmin s q o then offAdmin s q o 0x0E
  else match contextBad s o.owner o.body with
    | some f => refuseOp s q o 0xB006 srcQueue [(bits o.body 300 20, 20), (f, 16)]
    | none =>
      endOp (modOp (makeQueue s o.owner o.body) q o.seq (fun y => { y with detail := min (bits o.body 272 2) 2 })) q o 0x01

/-- QUEUE_CREATE (R413). -/
def execQueueCreate (q : Nat) (s : State) : Host.Outcome State Fault Refusal := .next (runHead s q 0x0E 0 .ready (queueMake q))

/-- QUEUE_DESTROY (R412): of a queue of the owner with nothing accepted and not completed. -/
def queueEnd (q : Nat) (s : State) (_x : Queue) (o : Op) (_h : Head) : State :=
  let d := bits o.body 492 20
  if ¬ onAdmin s q o then offAdmin s q o 0x0F
  else match queueOf s d with
    | some y =>
      if qOwner y = o.owner ∧ (qHead y).isNone then
        endOp { s with queues := tdel s.queues d, syu := { s.syu with tasks := tdel s.syu.tasks d } } q o 0x01
      else refuseOp s q o 0xB006 srcQueue [(d, 20), (492, 16)]
    | none => refuseOp s q o 0xB006 srcQueue [(d, 20), (492, 16)]

/-- QUEUE_DESTROY (R412). -/
def execQueueDestroy (q : Nat) (s : State) : Host.Outcome State Fault Refusal := .next (runHead s q 0x0F 0 .ready (queueEnd q))

/-- QUEUE_QUERY (Table 13-6). -/
def queueShow (q : Nat) (s : State) (_x : Queue) (o : Op) (_h : Head) : State :=
  let a := bits o.body 452 40
  if ptrOk s o.owner a 64 .write then endOp (wr s o.owner a (natLe 64 (contextOf s (bits o.body 492 20)))) q o 0x01
  else badPtr s q o 452

/-- QUEUE_QUERY (R420). -/
def execQueueQuery (q : Nat) (s : State) : Host.Outcome State Fault Refusal := .next (runHead s q 0x10 0 .ready (queueShow q))

/-- NOP (R420). -/
def execNop (q : Nat) (s : State) : Host.Outcome State Fault Refusal :=
  .next (runHead s q 0x0D 0 .ready (fun t _ o _ => endOp t q o 0x01))

end Sys2Proof.Machine
end

