-- ==== Sys2Proof/Machine/Dma.lean ====
section
/-!
DEFINITION. Machine/Dma.lean: DMA copies: plain, 2:4 compression and expansion, the run-length form (R125 to R135, R349, R422),
and GROUP_FENCE (R350).
-/
namespace Sys2Proof.Machine

/-! ### The body (Table 13-9) and the sparse word (Table 04-5) -/

def dmSrc (b : Nat) : Nat := bits b 460 52
def dmSrcRack (b : Nat) : Nat := bits b 448 12
def dmSrcTile (b : Nat) : Bool := bit b 447
def dmDst (b : Nat) : Nat := bits b 395 52
def dmDstRack (b : Nat) : Nat := bits b 383 12
def dmDstTile (b : Nat) : Bool := bit b 382
def dmRows (b : Nat) : Nat := bits b 350 32
def dmCols (b : Nat) : Nat := bits b 318 32
def dmLdSrc (b : Nat) : Nat := bits b 286 32
def dmLdDst (b : Nat) : Nat := bits b 254 32
def dmWord (b : Nat) : Nat := bits b 222 32
def dmGroup (b : Nat) : Nat := bits b 206 16
def dmCounter (b : Nat) : Nat := bits b 190 16
def dmCmode (b : Nat) : Nat := bits b 188 2
def dmFmt (b : Nat) : Nat := bits (dmWord b) 20 4
def dmAxis (b : Nat) : Bool := bit (dmWord b) 19
def dmMode (b : Nat) : Nat := bits (dmWord b) 16 3

/-- Bits of an element of the copy. -/
def dmW (b : Nat) : Nat := elemBits (dmFmt b)

/-- An end of a copy: local memory at a walker pointer, or another device's memory. -/
inductive DmaEnd where
  | here (ptr : Nat)
  | far (rack dev off : Nat)
  | bad
  deriving DecidableEq, Repr

/-- An end from its address, rack and tile bit; reserved address bits are bad (R8). -/
def dmEnd (s : State) (a rack : Nat) (tile : Bool) : DmaEnd :=
  if tile then (if a / 2 ^ 39 = 0 then .here (tilePtr a) else .bad)
  else if raBad a then .bad
  else if rack = ownRack s ∧ raDev a = ownDev s then .here (raOff a)
  else .far rack (raDev a) (raOff a)

/-- Whether the sparse word is refused (0x3021), prune being enabled or not. -/
def dmWordBad (b : Nat) (prune : Bool) : Bool :=
  let w := dmWord b
  let m := dmMode b
  bits w 24 8 != 0 || bits w 0 16 != 0 || decide (5 < m) || dmFmt b == 0xF || (dmFmt b == 0xE && m != 3 && m != 5) ||
  (dmAxis b && m != 1 && m != 2 && m != 4) || (m == 2 && !prune)

/-- Whether rows of a format lie at whole bytes with a leading dimension (R82). -/
def dmLdOk (ld w : Nat) : Bool := (w != 4 || ld % 2 == 0) && (w != 6 || ld % 4 == 0)

/-- Kept elements of a row of a 2:4 tensor as its leading dimension must hold them (Table 04-2). -/
def dmKeptLd (b ld : Nat) : Bool :=
  if dmAxis b then ld % 4 == 0 && decide (padDense (dmCols b) / 2 ≤ ld) else decide (dmCols b ≤ ld)

/-- The field of a body that makes it malformed (0xB002): shape, leading dimensions, counter mode. -/
def dmBad (b : Nat) : Option Nat :=
  let m := dmMode b
  let w := dmW b
  let srcDense := m != 4 && m != 5
  let dstDense := m == 0 || m == 4 || m == 5
  if dmRows b = 0 ∨ (m = 0 ∧ 2 ^ 32 ≤ dmRows b * dmCols b * w / 8) then some 350
  else if dmCols b = 0 then some 318
  else if (srcDense && !(dmLdOk (dmLdSrc b) w && decide (dmCols b ≤ dmLdSrc b))) || (m == 4 && !dmKeptLd b (dmLdSrc b)) then some 286
  else if (dstDense && !dmLdOk (dmLdDst b) w) || (m == 0 && decide (dmLdDst b < dmCols b)) ||
      ((m == 1 || m == 2) && dmAxis b && dmLdDst b % 4 != 0) then some 254
  else if dmCmode b = 3 then some 188
  else none

/-- Largest encoded size of a run-length tensor of n elements (R127). -/
def rleMax (n w : Nat) : Nat := 40 + (n * w + 7) / 8 + 8 * ceilDiv n 65535

/-- Bytes of a dense array with its MX scales at the next 256-byte boundary, axis as the blocks run (R131). -/
def dmDenseBytes (b ld ptr : Nat) : Nat :=
  let v := extBytes (dmRows b) (dmCols b) ld (dmW b)
  if isMx (dmFmt b) ∧ dmMode b ≠ 3 ∧ dmMode b ≠ 5 ∧ dmMode b ≠ 0 then
    roundUp (ptr + v) 256 - ptr + (if dmAxis b then dmRows b * ceilDiv ld 32 else extBytes (ceilDiv (dmRows b) 32) (dmCols b) ld 8)
  else v

/-- Where the scales of a dense MX array begin, from its pointer. -/
def dmScaleAt (b ld ptr : Nat) : Nat := roundUp (ptr + extBytes (dmRows b) (dmCols b) ld (dmW b)) 256

/-- Layout of a 2:4 tensor (R114): offsets of metadata and scales, and its bytes. -/
def dmKept (b ld ptr : Nat) : Nat × Nat × Nat := sparseLayout (dmFmt b) (dmAxis b) (dmRows b) (dmCols b) ld ptr

/-- Size needed and size given of the destination (R132): the extent that its leading dimension names. -/
def dmSizes (b ptr : Nat) : Nat × Nat :=
  let m := dmMode b
  let w := dmW b
  if m = 3 then (rleMax (dmRows b * dmCols b) w, (dmRows b * dmLdDst b * w + 7) / 8)
  else if m = 1 ∨ m = 2 then
    ((dmKept b (if dmAxis b then roundUp (padDense (dmCols b) / 2) 4 else dmCols b) ptr).2.2, (dmKept b (dmLdDst b) ptr).2.2)
  else ((dmDenseBytes b (dmCols b) ptr), (dmDenseBytes b (dmLdDst b) ptr))

/-- Whether a destination's extent is below the largest output. -/
def dmSmall (b : Nat) : Bool :=
  let m := dmMode b
  if m = 3 then decide ((dmRows b * dmLdDst b * dmW b + 7) / 8 < rleMax (dmRows b * dmCols b) (dmW b))
  else if m = 1 ∨ m = 2 then !dmKeptLd b (dmLdDst b)
  else if m = 4 ∨ m = 5 then decide (dmLdDst b < dmCols b)
  else false

/-! ### Elements -/

/-- n raw elements of a packed array from an element index. -/
def rawElems (s : State) (o ptr w i n : Nat) : List Nat :=
  let x := rdNat s o (ptr + i * w / 8) (ceilDiv (n * w) 8)
  (List.range n).map (fun j => bits x (j * w) w)

/-- The rows of a dense source, elements beyond the columns left out. -/
def srcRows (s : State) (o b ptr : Nat) : List (List Nat) :=
  (List.range (dmRows b)).map (fun i => rawElems s o ptr (dmW b) (i * dmLdSrc b) (dmCols b))

/-- Rows written to a dense destination. -/
def putRows (s : State) (o w ptr ld : Nat) (rows : List (List Nat)) : State :=
  (indexed 0 rows).foldl (fun t x => writePacked t o ptr w (x.1 * ld) x.2) s

/-- The first poisoned byte of an extent, as an offset. -/
def firstPoison (s : State) (ptr n : Nat) : Option Nat :=
  if poisonAt s ptr n then (List.range n).find? (fun i => poisonAt s (ptr + i) 1) else none

/-- Lines of a tensor along the compressed axis: rows row-wise, columns column-wise. -/
def linesOf (b : Nat) (rows : List (List Nat)) : List (List Nat) :=
  if dmAxis b then rows
  else (List.range (dmCols b)).map (fun c => rows.map (fun r => (r[c]?).getD 0))

/-- Rows again from lines. -/
def rowsOf (b n : Nat) (lines : List (List Nat)) : List (List Nat) :=
  if dmAxis b then lines
  else (List.range n).map (fun i => lines.map (fun l => (l[i]?).getD 0))

/-! ### 2:4 compression (R130, R131) -/

/-- Order of magnitudes in R130: NaN above infinity above every finite value. -/
def magAbove (x y : Fp) : Bool :=
  match x, y with
  | .nan, .nan => false
  | .nan, _ => true
  | _, .nan => false
  | .inf _, .inf _ => false
  | .inf _, _ => true
  | _, .inf _ => false
  | .num _ m e, .num _ n f => fpLt (.num false n f) (.num false m e)

/-- Elements of a group by rank: magnitude, then lower position. -/
def rankInsert (code : Nat) (x : Nat × Nat) : List (Nat × Nat) → List (Nat × Nat)
  | [] => [x]
  | y :: r => if magAbove (elemDecode code x.2) (elemDecode code y.2) then x :: y :: r else y :: rankInsert code x r

/-- Non-zero elements of a group, (position, bits), by rank. -/
def rankedOf (code : Nat) (g : List Nat) : List (Nat × Nat) :=
  ((indexed 0 g).filter (fun x => !fpIsZero (elemDecode code x.2))).foldl (fun a x => rankInsert code x a) []

/-- The kept pair of a group (R130): positions in ascending order with their bits. -/
def keptPair (code : Nat) (g : List Nat) : (Nat × Nat) × (Nat × Nat) :=
  let zeros := (indexed 0 g).filter (fun x => fpIsZero (elemDecode code x.2))
  match (rankedOf code g).take 2 ++ zeros with
  | x :: y :: _ => if x.1 < y.1 then (x, y) else (y, x)
  | _ => ((0, 0), (1, 0))

/-- Groups of four of a line padded with zeros to eight (R112). -/
def groupsOf (l : List Nat) : List (List Nat) := splitEvery 4 (padDense l.length / 4) (padTo (padDense l.length) l)

/-- What compressing a line gives: kept elements, metadata bytes, groups that dropped a non-zero element, elements dropped. -/
structure Compressed where
  kept : List Nat
  codes : List Nat
  pruned : Nat
  dropped : Nat
  deriving DecidableEq, Repr

/-- Metadata bytes of codes of groups, two groups to a byte (Table 04-1). -/
def packCodes : List Nat → List Nat
  | a :: b :: r => (a + 16 * b) :: packCodes r
  | [a] => [a]
  | [] => []

/-- A line compressed. -/
def compressLine (code : Nat) (l : List Nat) : Compressed :=
  let gs := groupsOf l
  let pairs := gs.map (keptPair code)
  let nz := gs.map (fun g => (rankedOf code g).length)
  { kept := pairs.flatMap (fun p => [p.1.2, p.2.2])
    codes := packCodes (pairs.map (fun p => p.1.1 + 4 * p.2.1))
    pruned := (nz.filter (fun n => decide (2 < n))).length
    dropped := (nz.map (· - 2)).foldl (· + ·) 0 }

/-- The first group with more than two non-zero elements: line and group. -/
def firstCrowded (code : Nat) (lines : List (List Nat)) : Option (Nat × Nat) :=
  (indexed 0 lines).findSome? (fun l =>
    ((indexed 0 (groupsOf l.2)).find? (fun g => decide (2 < (rankedOf code g.2).length))).map (fun g => (l.1, g.1)))

/-- An element moved to a larger block scale: divided by 2^k and rounded to its format (R131). -/
def requantElem (code k raw : Nat) : Nat :=
  match fmtOf code, elemDecode code raw with
  | some f, .num a m e => fpEncode f (rneFmt f (.num a m (e - k)))
  | _, _ => raw

/-- Kept elements of a line under the larger of the two scales of each kept block: elements, scales, elements changed. -/
def requantLine (code : Nat) (codes kept scales : List Nat) : List Nat × List Nat × Nat :=
  let blocks := ceilDiv kept.length 32
  let sc (j : Nat) : Nat := max ((scales[2 * j]?).getD 0) ((scales[2 * j + 1]?).getD 0)
  let out := (indexed 0 kept).map (fun x =>
    let cd := bits ((codes[x.1 / 4]?).getD 0) (2 * (x.1 % 4)) 2
    let dense := (x.1 / 2 * 4 + cd) / 32
    requantElem code (sc (x.1 / 32) - (scales[dense]?).getD 0) x.2)
  (out, (List.range blocks).map sc, ((List.zip out kept).filter (fun p => p.1 != p.2)).length)

/-- Scales of a dense source by line: one per 32 elements along the compressed axis (R131). -/
def lineScales (s : State) (o b ld ptr i : Nat) : List Nat :=
  let n := ceilDiv (if dmAxis b then dmCols b else dmRows b) 32
  let at_ := dmScaleAt b ld ptr
  (List.range n).map (fun u => rdNat s o (if dmAxis b then at_ + i * ceilDiv ld 32 + u else at_ + u * ld + i) 1)

/-- Bytes of an array of bytes by line, written at base + line and position. -/
def putLineBytes (s : State) (o : Nat) (at_ : Nat → Nat → Nat) (lines : List (List Nat)) : State :=
  (indexed 0 lines).foldl (fun t l => (indexed 0 l.2).foldl (fun u x => wr u o (at_ l.1 x.1) [x.2]) t) s

/-- Modes 1 and 2: the compressed tensor written (R114), and counted. -/
def writeCompressed (s : State) (o b src dst : Nat) (lines : List (List Nat)) : State :=
  let code := dmFmt b
  let ld := dmLdDst b
  let lay := dmKept b ld dst
  let cs := lines.map (compressLine code)
  let rq := (indexed 0 cs).map (fun c =>
    if isMx code then requantLine code c.2.codes c.2.kept (lineScales s o b (dmLdSrc b) src c.1) else (c.2.kept, [], 0))
  let rows := rowsOf b (padDense (dmRows b) / 2) (rq.map (·.1))
  let s1 := putRows s o (dmW b) dst ld rows
  let s2 := putLineBytes s1 o (fun l h => if dmAxis b then dst + lay.1 + l * (ld / 4) + h else dst + lay.1 + h * ld + l)
    (cs.map (·.codes))
  let s3 := putLineBytes s2 o (fun l u => if dmAxis b then dst + lay.2.1 + l * ceilDiv ld 32 + u else dst + lay.2.1 + u * ld + l)
    (rq.map (·.2.1))
  let s4 := bump s3 0x240203 ((cs.map (fun c => c.kept.length / 2)).foldl (· + ·) 0)
  let s5 := bump s4 0x240206 ((rq.map (·.2.2)).foldl (· + ·) 0)
  if dmMode b = 2 then
    bump (bump s5 0x240204 ((cs.map (·.pruned)).foldl (· + ·) 0)) 0x240205 ((cs.map (·.dropped)).foldl (· + ·) 0)
  else s5

/-! ### 2:4 expansion (R133) -/

/-- A 2:4 source by line: kept elements and metadata bytes. -/
def keptLines (s : State) (o b src : Nat) : List (List Nat × List Nat) :=
  let ld := dmLdSrc b
  let m := (dmKept b ld src).1
  let w := dmW b
  if dmAxis b then
    (List.range (dmRows b)).map (fun i =>
      (rawElems s o src w (i * ld) (padDense (dmCols b) / 2), rd s o (src + m + i * (ld / 4)) (padDense (dmCols b) / 8)))
  else
    let vals := (List.range (padDense (dmRows b) / 2)).map (fun j => rawElems s o src w (j * ld) (dmCols b))
    let metas := (List.range (padDense (dmRows b) / 8)).map (fun h => rd s o (src + m + h * ld) (dmCols b))
    (List.range (dmCols b)).map (fun c => (vals.map (fun r => (r[c]?).getD 0), metas.map (fun r => (r[c]?).getD 0)))

/-- Code of kept element j of a line. -/
def codeAt (metas : List Nat) (j : Nat) : Nat := bits ((metas[j / 4]?).getD 0) (2 * (j % 4)) 2

/-- What breaks R112 in a 2:4 source, each with its byte offset. -/
def keptBad (b src : Nat) (lines : List (List Nat × List Nat)) : List (Nat × Bad) :=
  let ld := dmLdSrc b
  let m := (dmKept b ld src).1
  let d := if dmAxis b then dmCols b else dmRows b
  (indexed 0 lines).flatMap (fun l =>
    (indexed 0 l.2.1).filterMap (fun x =>
      let pos := x.1 / 2 * 4 + codeAt l.2.2 x.1
      if d ≤ pos ∧ ¬ fpIsZero (elemDecode (dmFmt b) x.2) then
        some ((if dmAxis b then l.1 * ld + x.1 else x.1 * ld + l.1) * dmW b / 8,
          (0x3004, [(0xFFFF, 16), (0xFFFF, 16), (l.1, 16), (pos, 16)]))
      else none) ++
    (indexed 0 l.2.2).filterMap (fun x =>
      let off := m + (if dmAxis b then l.1 * (ld / 4) + x.1 else x.1 * ld + l.1)
      (metaBad x.2).map (fun c => (off, (c, [(0xFFFF, 16), (0xFFFF, 16), (off, 32), (x.2, 8)])))))

/-- A line expanded to its dense positions. -/
def expandLine (d : Nat) (kept metas : List Nat) : List Nat :=
  (List.range d).map (fun p =>
    let j := p / 4 * 2
    if codeAt metas j = p % 4 then (kept[j]?).getD 0
    else if codeAt metas (j + 1) = p % 4 then (kept[j + 1]?).getD 0
    else 0)

/-- Mode 4: the dense tensor written, with its scales. -/
def writeExpanded (s : State) (o b src dst : Nat) (lines : List (List Nat × List Nat)) : State :=
  let d := if dmAxis b then dmCols b else dmRows b
  let rows := rowsOf b (dmRows b) (lines.map (fun l => expandLine d l.1 l.2))
  let s1 := putRows s o (dmW b) dst (dmLdDst b) rows
  if ¬ isMx (dmFmt b) then s1
  else
    let ls := dmLdSrc b
    let from_ := src + (dmKept b ls src).2.1
    let at_ := dmScaleAt b (dmLdDst b) dst
    let ld := dmLdDst b
    let scales := (List.range lines.length).map (fun l =>
      (List.range (ceilDiv d 32)).map (fun u =>
        rdNat s o (if dmAxis b then from_ + l * ceilDiv ls 32 + u / 2 else from_ + u / 2 * ls + l) 1))
    putLineBytes s1 o (fun l u => if dmAxis b then at_ + l * ceilDiv ld 32 + u else at_ + u * ld + l) scales

/-! ### The run-length form (R125 to R128) -/

/-- All-zero elements at the front of a list, at most n. -/
def zeroRun : Nat → List Nat → Nat
  | 0, _ => 0
  | _ + 1, [] => 0
  | n + 1, e :: r => if e = 0 then zeroRun n r + 1 else 0

/-- Literal elements from the front up to the next run of zmin zeros, at most n. -/
def literalRun (zmin : Nat) : Nat → List Nat → Nat
  | 0, _ => 0
  | _ + 1, [] => 0
  | n + 1, e :: r => if zeroRun zmin (e :: r) < zmin then literalRun zmin n r + 1 else 0

/-- Shortest run of zeros that a record carries: ceil(64 / b). -/
def zminOf (w : Nat) : Nat := ceilDiv 64 w

/-- A record's bytes (R126): the head, then the literals padded to four bytes. -/
def rleRecord (w z : Nat) (lits : List Nat) : List Nat :=
  natLe 4 (z + 65536 * lits.length) ++ natLe (4 * ceilDiv (lits.length * w) 32) (packWord w lits)

/-- The records of elements (R127). -/
def rleRecords (w : Nat) : Nat → List Nat → List Nat
  | 0, _ => []
  | _ + 1, [] => []
  | fuel + 1, e =>
    let z0 := zeroRun 65535 e
    let z := if z0 < zminOf w then 0 else z0
    let rest := e.drop z
    let l := literalRun (zminOf w) 65535 rest
    rleRecord w z (rest.take l) ++ rleRecords w fuel (rest.drop l)

/-- A run-length tensor: header and records (Table 04-4). -/
def rleEncode (fmt rows cols : Nat) (e : List Nat) : List Nat :=
  let body := rleRecords (elemBits fmt) (e.length + 1) e
  natLe 32 (fld body.length 128 32 + fld cols 96 32 + fld rows 64 32 + fld fmt 8 4 + 2) ++ body

/-- The field of a run-length header that is invalid (0x3010); its shape and format are those the copy names. -/
def rleHeaderBad (b h : Nat) : Option Nat :=
  if bits h 0 8 ≠ 2 then some 0
  else if bits h 8 4 ≠ dmFmt b then some 8
  else match reservedBad h [(12, 52)] with
    | some f => some f
    | none =>
      if bits h 64 32 ≠ dmRows b then some 64
      else if bits h 96 32 ≠ dmCols b then some 96
      else if bits h 128 32 % 4 ≠ 0 then some 128
      else reservedBad h [(160, 96)]

/-- What decoding comes to: the elements, or a violation. -/
inductive Rle where
  | ok (e : List Nat)
  | bad (x : Bad)

/-- Records decoded (R128) from a position in the stream, after `count` of `total` elements. -/
def rleDecode (w total : Nat) : Nat → Nat → List Nat → Nat → List Nat → Rle
  | 0, _, _, _, _ => .bad (0x3012, [])
  | fuel + 1, pos, bytes, count, acc =>
    if bytes.isEmpty then (if count = total then .ok acc else .bad (0x3012, [(pos, 32), (count, 32)]))
    else if count = total then .bad (0x3012, [(pos, 32), (count, 32)])
    else
      let z := leNat (bytes.take 2)
      let l := leNat ((bytes.drop 2).take 2)
      let n := 4 * ceilDiv (l * w) 32
      let lits := leNat ((bytes.drop 4).take n)
      if z = 0 ∧ l = 0 then .bad (0x3013, [(pos, 32)])
      else if total < count + z + l then .bad (0x3011, [(pos, 32), (count + z + l, 32)])
      else if bytes.length < 4 + n then .bad (0x3012, [(pos, 32), (count, 32)])
      else if lits / 2 ^ (l * w) ≠ 0 then .bad (0x3013, [(pos, 32)])
      else rleDecode w total fuel (pos + 4 + n) (bytes.drop (4 + n)) (count + z + l)
        (acc ++ List.replicate z 0 ++ (List.range l).map (fun j => bits lits (j * w) w))

/-! ### Running a copy -/

/-- A copy refused before it writes. -/
def dmRefuse (s : State) (q : Nat) (o : Op) (code : Nat) (items : List (Nat × Nat)) : State := refuseOp s q o code srcDma items

/-- Signals of a copy to a counter of this device (R349): its bytes, or 1. -/
def dmSignal (s : State) (q : Nat) (o : Op) (n : Nat) : State :=
  let b := o.body
  if dmCmode b = 0 then s
  else match objSignal s (some (q, o)) 6 (objKey 2 (dmCounter b)) (if dmCmode b = 1 then n else 1) 0xFFF with
    | .done t => t
    | .discarded t => t
    | .refused c i => raiseOp s q o c srcSyu i

/-- A contiguous run cut into packets of at most 8,192 bytes that end at granule boundaries: offset and bytes. -/
def cutRun : Nat → Nat → List Nat → List (Nat × List Nat)
  | 0, _, _ => []
  | fuel + 1, a, b =>
    if b.isEmpty then []
    else
      let n := 8192 - a % 256
      (a, b.take n) :: cutRun fuel (a + n) (b.drop n)

/-- Runs of a copy's rows at the destination: offset and bytes. -/
def dmRuns (b off : Nat) (rows : List (List Nat)) : List (Nat × List Nat) :=
  (indexed 0 rows).flatMap (fun r =>
    let bytes := packElems (dmFmt b) r.2
    cutRun (bytes.length + 1) (off + r.1 * dmLdDst b * dmW b / 8) bytes)

/-- A packet of a copy. -/
def copyPacket (s : State) (owner epoch b dev off : Nat) (last : Bool) (bytes : List Nat) : Packet :=
  { ty := 0x07, src := ownDev s, dst := dev, owner := owner, epoch := epoch, addr := fld dev 39 6 + off,
    counter := if dmCmode b = 0 then 0xFFFF else dmCounter b, cmode := dmCmode b, group := dmGroup b,
    flags := b2n last, payload := bytes }

/-- The packets of a copy sent to another device, for an operation or for another initiator. -/
def sendCopy (s : State) (q seq owner epoch b rack dev : Nat) (runs : List (Nat × List Nat)) : State :=
  (indexed 1 runs).foldl (fun t r =>
    sendPk t (flowKey t rack dev) q seq (copyPacket t owner epoch b dev r.2.1 (decide (r.1 = runs.length)) r.2.2)) s

/-- Whether a copy group lies in its partition's range (R350, Table 11-12). -/
def groupIn (s : State) (p g : Nat) : Bool :=
  decide (pEnt s 0x3030 1 p ≤ g ∧ g < pEnt s 0x3030 1 p + pEnt s 0x3030 2 p ∧ g < 0xF000)

/-- Bytes of the source that a copy reads, from its pointer. -/
def dmSrcBytes (b ptr : Nat) : Nat := if dmMode b = 4 then (dmKept b (dmLdSrc b) ptr).2.2 else dmDenseBytes b (dmLdSrc b) ptr

/-- Bytes of the destination that a copy may write. -/
def dmDstBytes (b ptr : Nat) : Nat :=
  let m := dmMode b
  if m = 1 ∨ m = 2 then (dmKept b (dmLdDst b) ptr).2.2
  else if m = 3 then rleMax (dmRows b * dmCols b) (dmW b)
  else dmDenseBytes b (dmLdDst b) ptr

/-- The modes that change form, between local ends (R130 to R133). -/
def dmForm (s : State) (q : Nat) (o : Op) (src dst : Nat) : State :=
  let b := o.body
  let m := dmMode b
  if m = 5 then
    let h := rdNat s o.owner src 32
    let n := 32 + bits h 128 32
    match firstPoison s src 32 with
    | some off => dmRefuse (countPoison s src) q o 0x3014 [(off, 32)]
    | none => match rleHeaderBad b h with
      | some f => dmRefuse s q o 0x3010 [(f, 16)]
      | none =>
        if ¬ ptrOk s o.owner src n .read then badPtr s q o 460
        else match firstPoison s src n with
          | some off => dmRefuse (countPoison s src) q o 0x3014 [(off, 32)]
          | none => match rleDecode (dmW b) (dmRows b * dmCols b) n 32 (rd s o.owner (src + 32) (n - 32)) 0 [] with
            | .bad x => dmRefuse s q o x.1 x.2
            | .ok e => doneOp (dmSignal (bump (putRows s o.owner (dmW b) dst (dmLdDst b) (splitEvery (dmCols b) (dmRows b) e)) 0x240208 1) q o
                (dmDenseBytes b (dmLdDst b) dst)) q o
  else match firstPoison s src (dmSrcBytes b src) with
    | some off => dmRefuse (countPoison s src) q o 0x3005 [(0xFFFF, 16), (off, 32)]
    | none =>
      if m = 4 then
        let lines := keptLines s o.owner b src
        let s1 := bump s 0x240202 ((lines.map (fun l => l.2.length)).foldl (· + ·) 0)
        match lowestBad (keptBad b src lines) with
        | some x => dmRefuse s1 q o x.2.1 x.2.2
        | none => doneOp (dmSignal (writeExpanded s1 o.owner b src dst lines) q o (dmDenseBytes b (dmLdDst b) dst)) q o
      else if m = 3 then
        let e := rleEncode (dmFmt b) (dmRows b) (dmCols b) (srcRows s o.owner b src).flatten
        let s1 := modOp (bump (wr s o.owner dst e) 0x240207 1) q o.seq (fun y => { y with detail := e.length % 2 ^ 32 })
        doneOp (dmSignal s1 q o e.length) q o
      else
        let lines := linesOf b (srcRows s o.owner b src)
        match (if m = 1 then firstCrowded (dmFmt b) lines else none) with
        | some g => dmRefuse s q o 0x3023 [(g.1, 16), (g.2, 16)]
        | none => doneOp (dmSignal (writeCompressed s o.owner b src dst lines) q o (dmDstBytes b dst)) q o

/-- A plain copy between local ends, or to another device (R349). -/
def dmPlain (s : State) (q : Nat) (o : Op) (src : Nat) (d : DmaEnd) : State :=
  let b := o.body
  match firstPoison s src (dmSrcBytes b src) with
  | some off => dmRefuse (countPoison s src) q o 0x3005 [(0xFFFF, 16), (off, 32)]
  | none =>
    let rows := srcRows s o.owner b src
    match d with
    | .here dst => doneOp (dmSignal (putRows s o.owner (dmW b) dst (dmLdDst b) rows) q o (packedBytes (dmFmt b) (dmCols b) * dmRows b)) q o
    | .far rack dev off => doneOp (sendCopy s q o.seq o.owner o.epoch b rack dev (dmRuns b off rows)) q o
    | .bad => s

/-- A copy asked of the device that holds its source (R349): the body goes to it in one packet. -/
def askCopy (s : State) (q : Nat) (o : Op) (rack dev : Nat) : State :=
  doneOp (sendPk s (flowKey s rack dev) q o.seq
    { ty := 0x07, src := ownDev s, dst := dev, owner := o.owner, epoch := o.epoch, op := 0x04, group := dmGroup o.body,
      payload := natLe 64 o.body }) q o

/-- The guard's answer for an end on another device. -/
def dmGuard (s : State) (o : Op) (e : DmaEnd) (n : Nat) (k : Rem) : Option (List (Nat × Nat)) :=
  match e with
  | .far rack dev off => match guardWin s o.owner rack dev off n k with
    | some _ => none
    | none => some (guardItems o.owner dev (fld dev 39 6 + off) k)
  | _ => none

/-- A copy that has started. -/
def dmRun (engine q : Nat) (s : State) (x : Queue) (o : Op) (h : Head) : State :=
  let b := o.body
  let s0 := modOp s q o.seq (fun y => { y with stage := engine + 1 })
  let se := dmEnd s (dmSrc b) (dmSrcRack b) (dmSrcTile b)
  let de := dmEnd s (dmDst b) (dmDstRack b) (dmDstTile b)
  let far := (match se with | .far _ _ _ => true | _ => false) || (match de with | .far _ _ _ => true | _ => false)
  let isHere (e : DmaEnd) : Bool := match e with | .here _ => true | _ => false
  let ptr (e : DmaEnd) : Nat := match e with | .here p => p | .far _ _ p => p | .bad => 0
  let sn := if dmMode b = 5 then 32 else dmSrcBytes b (ptr se)
  let dn := dmDstBytes b (ptr de)
  if dmWordBad b (entAt s 0x240101 (engine + 2) == 1) then dmRefuse s0 q o 0x3021 [(dmWord b, 32)]
  else match dmBad b with
    | some f => refuseOp s0 q o 0xB002 srcDma (descItems q o f 16)
    | none =>
      if dmMode b ≠ 0 ∧ far then refuseOp s0 q o 0xB002 srcDma (descItems q o 222 16)
      else if se = .bad then (if dmSrcTile b then badPtr s0 q o 460
        else refuseOp s0 q o 0xA006 srcGuard (guardItems o.owner (raDev (dmSrc b)) (dmSrc b) .copyFrom))
      else if de = .bad then (if dmDstTile b then badPtr s0 q o 395
        else refuseOp s0 q o 0xA006 srcGuard (guardItems o.owner (raDev (dmDst b)) (dmDst b) .copyTo))
      else if isHere se ∧ ¬ winOk s o.owner (ptr se) sn .read then badPtr s0 q o 460
      else if dmSmall b then
        dmRefuse s0 q o 0x3022 [((dmSizes b (ptr de)).1, 32), ((dmSizes b (ptr de)).2, 32)]
      else if isHere de ∧ ¬ winOk s o.owner (ptr de) dn .write then badPtr s0 q o 395
      else if far ∧ ¬ groupIn s x.partition (dmGroup b) then refuseOp s0 q o 0xA007 srcFabric [(o.owner, 12), (dmGroup b, 16)]
      else if isHere de ∧ dmCmode b ≠ 0 ∧ ¬ objIn s x.partition 2 (dmCounter b) then
        refuseOp s0 q o 0x9001 srcSyu (objItems (objKey 2 (dmCounter b)))
      else if h.twoPhase ∧ isHere se ∧ isHere de ∧ rangesMeet (ptr se) sn (ptr de) dn then
        refuseOp s0 q o 0xB00D srcQueue (descItems q o 0 0)
      else match dmGuard s o se sn .copyFrom, dmGuard s o de dn .copyTo with
        | some i, _ => refuseOp s0 q o 0xA006 srcGuard i
        | none, some i => refuseOp s0 q o 0xA006 srcGuard i
        | none, none =>
          match se with
          | .far rack dev _ => askCopy s0 q o rack dev
          | .here src => if dmMode b = 0 then dmPlain s0 q o src de else dmForm s0 q o src (ptr de)
          | .bad => s0

/-- DMA engines that a running copy holds. -/
def dmaBusy (s : State) : List Nat := (runningHeads s).filterMap (fun x => if x.1 = 4 ∧ 0 < x.2.1 then some (x.2.1 - 1) else none)

/-- The engine that takes the next copy, with what it needs: the lowest idle one that is awake, or the lowest idle one. -/
def dmaEngine (s : State) : Option (Nat × Need) :=
  let idle := (List.range 8).filter (fun e => !(dmaBusy s).contains e)
  match idle.find? (fun e => frondState s (43 + e) == .on) with
  | some e => some (e, .ready)
  | none => match idle.find? (fun e => frondState s (43 + e) != .failed) with
    | some e => some (e, .wake [43 + e])
    | none => if (dmaBusy s).isEmpty then some (0, .failed 43) else none

/-- Whether a queue's head is a sound copy of another mode than a row's; reserved modes belong to every row. -/
def dmaOther (s : State) (q mode : Nat) : Bool :=
  match queueOf s q with
  | none => true
  | some x => match qHead x with
    | none => true
    | some o => (descCheck (qVersion x) o.hdr o.body).isNone && decide (dmMode o.body ≤ 5) && dmMode o.body != mode

/-- A row of a mode. -/
def dmaExec (mode q : Nat) (s : State) : State :=
  if dmaOther s q mode then s
  else match dmaEngine s with
    | none => s
    | some (e, n) => runHead s q 0x04 0 n (dmRun e q)

/-- DMA_PLAIN_COPY (R349). -/
def execDmaPlainCopy (q : Nat) (s : State) : Host.Outcome State Fault Refusal := .next (dmaExec 0 q s)
/-- DMA_COMPRESS_STRICT (R130). -/
def execDmaCompressStrict (q : Nat) (s : State) : Host.Outcome State Fault Refusal := .next (dmaExec 1 q s)
/-- DMA_COMPRESS_PRUNE (R130). -/
def execDmaCompressPrune (q : Nat) (s : State) : Host.Outcome State Fault Refusal := .next (dmaExec 2 q s)
/-- DMA_COMPRESS_RLE (R127). -/
def execDmaCompressRle (q : Nat) (s : State) : Host.Outcome State Fault Refusal := .next (dmaExec 3 q s)
/-- DMA_EXPAND_24 (R133). -/
def execDmaExpand24 (q : Nat) (s : State) : Host.Outcome State Fault Refusal := .next (dmaExec 4 q s)
/-- DMA_EXPAND_RLE (R128). -/
def execDmaExpandRle (q : Nat) (s : State) : Host.Outcome State Fault Refusal := .next (dmaExec 5 q s)

/-! ### GROUP_FENCE (R350) -/

/-- Tag of a fence on the packets it waits for. -/
def fenceTag (q seq : Nat) : Nat := q * 2 ^ 64 + seq

/-- Whether a fence still waits for a packet. -/
def fenceOpen (s : State) (q seq : Nat) : Bool :=
  s.fab.flows.any (fun f => (f.2.unacked ++ f.2.waiting).any (fun x => x.fences.contains (fenceTag q seq)))

/-- The posted packets of a group marked as those a fence waits for. -/
def tagGroup (s : State) (g tag : Nat) : State :=
  let mark (x : Sent) : Sent := if x.pk.group = g ∧ pkPosted x.pk.ty then { x with fences := x.fences ++ [tag] } else x
  let flows := tmap s.fab.flows (fun _ f => { f with unacked := f.unacked.map mark, waiting := f.waiting.map mark })
  { s with fab := { s.fab with flows := flows } }

/-- A fence whose packets are all acknowledged completes: done, or with the first late fault's code; the error bit clears. -/
def settleFence (s : State) (q : Nat) (o : Op) : State :=
  let n := bits o.body 496 16
  if fenceOpen s q o.seq then s
  else
    let g := tgetD s.fab.groups n {}
    let s1 := { s with fab := { s.fab with groups := tdel s.fab.groups n } }
    if g.err then
      endOp (modOp s1 q o.seq (fun y => { y with faults := y.faults + 1, code := if y.faults = 0 then g.first else y.code })) q o 0x02
    else endOp s1 q o 0x01

/-- A GROUP_FENCE that has started. -/
def fenceRun (q : Nat) (s : State) (x : Queue) (o : Op) (_h : Head) : State :=
  let n := bits o.body 496 16
  if groupIn s x.partition n then settleFence (tagGroup s n (fenceTag q o.seq)) q o
  else refuseOp s q o 0xA007 srcFabric [(o.owner, 12), (n, 16)]

/-- GROUP_FENCE (R350). -/
def execGroupFence (q : Nat) (s : State) : Host.Outcome State Fault Refusal :=
  .next (match goingHead s q 0x05 with
    | some (_, o, _) => settleFence s q o
    | none => runHead s q 0x05 0 .ready (fenceRun q))

end Sys2Proof.Machine
end

