-- ==== Sys2Proof/Machine/Pools.lean ====
section
/-!
DEFINITION. Machine/Pools.lean: the Bobbin Pool Manager: pools, links and records, allocation, acquire and release, building
and rebuilding, revocation and the age audit (R272 to R297).
-/
namespace Sys2Proof.Machine

/-! ### Descriptors (Table 09-1) -/

def pdBase (d : Nat) : Nat := bits d 0 39
def pdLog (d : Nat) : Nat := bits d 156 5
def pdPart (d : Nat) : Nat := bits d 161 5
def pdDev (d : Nat) : Bool := bit d 166
def pdChained (d : Nat) : Bool := bit d 167
def pdFallback (d : Nat) : Nat := bits d 168 8
def pdCount (d : Nat) : Nat := bits d 176 24
def pdFirst (d : Nat) : Nat := bits d 200 24
def pdLimit (d : Nat) : Nat := bits d 224 32
def pdEnd (d : Nat) : Nat := pdBase d + pdCount d * 2 ^ pdLog d

/-- The index that ends a list (Table 09-3). -/
def listEnd : Nat := 0xFFFFFF

def poolOf (s : State) (p : Nat) : Pool := tgetD s.pools.pools p {}
def setPool (s : State) (p : Nat) (x : Pool) : State := { s with pools := { s.pools with pools := tput s.pools.pools p x } }
def recAt (s : State) (i : Nat) : BufRec := tgetD s.pools.recs i {}
def setRec (s : State) (i : Nat) (r : BufRec) : State := { s with pools := { s.pools with recs := tput s.pools.recs i r } }

/-- Place of a record in the buffer record table, at the top of the device region (R236, R275). -/
def recPtr (i : Nat) : Nat := hbmBytes - 2 ^ 28 + 16 * i

/-- Whether a record is read poisoned (R283). -/
def recPoisoned (s : State) (i : Nat) : Bool := poisonAt s (recPtr i) 16

/-- Offset of buffer i of a pool (R272). -/
def bufPtr (d i : Nat) : Nat := pdBase d + i * 2 ^ pdLog d

/-- Up-time in milliseconds (R276). -/
def uptimeMs (s : State) : Nat := s.clock.us / 1000

/-- The latest written value of an entry, pending or in force (R527). -/
def latest (s : State) (k : Nat) : Nat := match tget? s.shadow k with
  | some v => valNat v
  | none => ent s k

/-- Bytes of the fixed areas at the top of the device region (R236), for given entries. -/
def fixedBytes (journal coherent : Nat) : Nat := 2 ^ 28 + journal * 2048 + coherent * 2 ^ 26 + 2 ^ 24

/-- The extent that a pool's descriptor may use (R273). -/
def poolSpace (s : State) (d : Nat) : Nat × Nat :=
  if pdDev d then
    (hbmBytes - ent s 0x280007 * 2 ^ 30, hbmBytes - fixedBytes (latest s 0x210103) (latest s 0x2B0503))
  else
    let b := pEnt s 0x3008 1 (pdPart d) * 2 ^ 30
    (b, b + pEnt s 0x3008 2 (pdPart d) * 2 ^ 30)

/-- A fallback against the pool that names it (R273). -/
def fallbackFits (d f : Nat) : Bool :=
  decide (pdLog d < pdLog f) && (pdDev d == pdDev f) && (pdPart d == pdPart f)

/-- The layout of a descriptor (Table 09-1, R273). -/
def poolLayoutOk (d : Nat) : Bool :=
  bits d 39 117 == 0 &&
  (if pdCount d = 0 then d == 0
   else decide (64 ≤ pdCount d ∧ 8 ≤ pdLog d ∧ pdLog d ≤ 24 ∧ pdBase d % min (2 ^ pdLog d) 4096 = 0 ∧
      pdFirst d + pdCount d ≤ 2 ^ 24) && (!pdDev d || pdPart d == 0))

/-- Ranges [a, b) and [c, d) meet. -/
def spansMeet (a b c d : Nat) : Bool := decide (a < d ∧ c < b)

/-- A descriptor against the rest of the state (R272, R273). -/
def poolStateOk (s : State) (p d : Nat) : Bool :=
  (poolOf s p).state == 0 &&
  (pdCount d == 0 ||
    (decide ((poolSpace s d).1 ≤ pdBase d ∧ pdEnd d ≤ (poolSpace s d).2) &&
     s.pools.pools.all (fun x => x.1 == p || pdCount x.2.desc == 0 ||
       (!spansMeet (pdBase d) (pdEnd d) (pdBase x.2.desc) (pdEnd x.2.desc) &&
        !spansMeet (pdFirst d) (pdFirst d + pdCount d) (pdFirst x.2.desc) (pdFirst x.2.desc + pdCount x.2.desc))) &&
     (!pdChained d || (pdFallback d != p && fallbackFits d (poolOf s (pdFallback d)).desc))))

/-! ### Links, records and failures -/

/-- The link word of a free buffer (Table 09-3). -/
def linkWord (gen p i next : Nat) : Nat :=
  let low := fld gen 80 16 + fld p 72 8 + fld i 48 24 + fld next 0 24
  fld (crc32c (natLe 12 low)) 96 32 + low

/-- The first granule of a free buffer written: its link, then zeros (R277). -/
def writeLink (s : State) (p i next : Nat) : State :=
  let x := poolOf s p
  wr s 0 (bufPtr x.desc i) (natLe 256 (linkWord x.gen p i next))

/-- A pool whose record is read poisoned fails (R283). -/
def failPool (s : State) (p i : Nat) : State :=
  raiseDev (setPool s p { poolOf s p with state := 4, cache := [], head := listEnd }) 0x8007 srcBpm [(p, 8), (i, 24)]

/-- A pool starts to rebuild its list from its records (R282). -/
def startRebuild (s : State) (p : Nat) : State :=
  let x := poolOf s p
  setPool s p { x with state := 3, cache := [], head := listEnd, free := pdCount x.desc - x.held }

/-- A link check fails (R282). -/
def breakPool (s : State) (p i field : Nat) : State :=
  startRebuild (raiseDev s 0x8002 srcBpm [(p, 8), (i, 24), (field, 16)]) p

/-- The number by which 0x8002 names a record that is not free, which is no field of the link. -/
def recordCheck : Nat := Config.causeCode 0x8002 1

/-- The field of the link at a pool's head that fails a check of R282. -/
def linkBad (s : State) (p : Nat) (x : Pool) : Option Nat :=
  let a := bufPtr x.desc x.head
  let w := rdNat s 0 a 16
  let nx := bits w 0 24
  if poisonAt s a 16 ∨ bits w 96 32 ≠ crc32c (natLe 12 (bits w 0 96)) then some 96
  else if bits w 80 16 ≠ x.gen then some 80
  else if bits w 72 8 ≠ p then some 72
  else if bits w 48 24 ≠ x.head then some 48
  else if bits w 24 24 ≠ 0 then some 24
  else if nx ≠ listEnd ∧ pdCount x.desc ≤ nx then some 0
  else if (recAt s (pdFirst x.desc + x.head)).state ≠ 0 then some recordCheck
  else if decide (nx = listEnd) != decide (x.free - x.cache.length = 1) then some 0
  else none

/-- The buffer at the head of the list in memory taken into the head cache, behind those it holds (R281, R282). -/
def refillOne (s : State) (p : Nat) : State :=
  let x := poolOf s p
  if x.state ≠ 1 ∨ x.head = listEnd ∨ 16 ≤ x.cache.length then s
  else if recPoisoned s (pdFirst x.desc + x.head) then failPool s p (pdFirst x.desc + x.head)
  else match linkBad s p x with
    | some f => breakPool s p x.head f
    | none => setPool s p { x with cache := x.cache ++ [x.head], head := rdNat s 0 (bufPtr x.desc x.head) 3 }

/-- The head cache filled from the list in memory. -/
def refill (p : Nat) : Nat → State → State
  | 0, s => s
  | n + 1, s => refill p n (refillOne s p)

/-- A free buffer pushed onto the list: onto the head cache, which spills its oldest (R277, R281). -/
def pushBuf (s : State) (p i : Nat) : State :=
  let x := poolOf s p
  let s1 := writeLink s p i (x.cache.headD x.head)
  let c := i :: x.cache
  if c.length ≤ 16 then setPool s1 p { x with cache := c }
  else setPool s1 p { x with cache := c.take 16, head := (c.drop 16).headD x.head }

/-- A buffer freed (R289); a rebuild places it itself (R282). -/
def freeBuf (s : State) (p i : Nat) : State :=
  let x := poolOf s p
  let k := pdFirst x.desc + i
  let r := recAt s k
  let s1 := bump (setRec s k { r with gen := (r.gen + 1) % 2 ^ 16, state := 0, refs := 0, owner := 0 }) 0x290302 1
  let s2 := setPool s1 p { x with held := x.held - 1, free := x.free + 1 }
  if x.state = 1 then pushBuf s2 p i else s2

/-! ### Allocation (R285, R286) -/

/-- One buffer popped from a pool's list, its record checked (R281). -/
def popBuf (s : State) (p : Nat) : State × Option Nat :=
  let s1 := if (poolOf s p).cache.isEmpty then refill p 16 s else s
  let x := poolOf s1 p
  match x.cache with
  | [] => (s1, none)
  | i :: c =>
    let k := pdFirst x.desc + i
    if x.state ≠ 1 then (s1, none)
    else if recPoisoned s1 k then (failPool s1 p k, none)
    else if (recAt s1 k).state ≠ 0 then (breakPool s1 p i recordCheck, none)
    else (setPool s1 p { x with cache := c, free := x.free - 1 }, some i)

/-- n buffers popped from a pool, or fewer where a check fails. -/
def popBufs (p : Nat) : Nat → State → State × List Nat
  | 0, s => (s, [])
  | n + 1, s =>
    match popBuf s p with
    | (t, none) => (t, [])
    | (t, some i) => let r := popBufs p n t; (r.1, i :: r.2)

/-- Whether a pool's free count admits a request (R285). -/
def poolAdmits (x : Pool) (n : Nat) (recovery : Bool) : Bool :=
  if recovery then decide (n ≤ x.free) else decide (n + ceilDiv (pdCount x.desc) 64 ≤ x.free)

/-- The walk of a request along its chain, at most 16 pools: the pool that serves it and the buffers' indexes (R273, R285). -/
def walkChain (n : Nat) (recovery : Bool) : Nat → State → Option Nat → Nat → State × Option (Nat × List Nat)
  | 0, s, _, _ => (s, none)
  | fuel + 1, s, namer, p =>
    let x := poolOf s p
    let fits := match namer with
      | none => true
      | some d => fallbackFits d x.desc
    let r := if x.state == 1 && fits && poolAdmits x n recovery then popBufs p n s else (s, [])
    if n ≠ 0 ∧ r.2.length = n then (r.1, some (p, r.2))
    else if pdChained x.desc then walkChain n recovery fuel r.1 (some x.desc) (pdFallback x.desc)
    else (r.1, none)

/-- Handle of a buffer (Table 09-4). -/
def handleOf (s : State) (p i : Nat) : Nat :=
  fld p 56 8 + fld (recAt s (pdFirst (poolOf s p).desc + i)).gen 40 16 + fld i 16 24

/-- A popped buffer given to its requester: its record set, its first granule cleared under the requester's key (R286). -/
def grantBuf (p owner epoch : Nat) (s : State) (i : Nat) : State :=
  let x := poolOf s p
  let k := pdFirst x.desc + i
  let r := recAt s k
  let s1 := setRec s k { r with alloc := uptimeMs s, epoch := epoch, refs := 1, owner := owner, state := 1, reported := false, pool := p }
  wr (setPool s1 p { x with held := x.held + 1, low := min x.low x.free }) owner (bufPtr x.desc i) (List.replicate 256 0)

/-- A request of n buffers to the chain of a pool: the buffers' handles and offsets, none where the chain is empty. -/
def allocBufs (s : State) (named n : Nat) (recovery : Bool) (owner epoch : Nat) : State × Option (List (Nat × Nat)) :=
  match walkChain n recovery 16 s none named with
  | (t, none) => (bump t 0x290305 1, none)
  | (t, some (p, l)) =>
    let t1 := bump (l.foldl (grantBuf p owner epoch) t) 0x290301 n
    let t2 := if recovery then bump t1 0x290306 n else t1
    let t3 := if p = named then t2 else bump t2 0x290304 1
    (t3, some (l.map (fun i => (handleOf t3 p i, bufPtr (poolOf t3 p).desc i))))

/-- A request of one buffer by a device unit: a named pool that is no enabled device pool is empty (R274). -/
def deviceBuf (s : State) (named : Nat) (recovery : Bool) : State × Option (Nat × Nat) :=
  let x := poolOf s named
  if ¬ pdDev x.desc ∨ x.state = 0 ∨ x.state = 4 then (bump s 0x290305 1, none)
  else match allocBufs s named 1 recovery 0 0 with
    | (t, some (b :: _)) => (t, some b)
    | (t, _) => (t, none)

/-! ### Pool operations of queues (R287, R289, R291) -/

def plPool (b : Nat) : Nat := bits b 496 8
def plCount (b : Nat) : Nat := bits b 488 8
def plPtr (b : Nat) : Nat := bits b 448 40
def plHandle (b : Nat) : Nat := bits b 384 64

/-- A command of an ended epoch, discarded without a completion record (R291). -/
def discardOld (s : State) (q : Nat) (o : Op) : State :=
  bump (modQueue s q (fun x => { x with ops := x.ops.filter (fun y => y.seq != o.seq) })) 0x290308 1

/-- POOL_ALLOCATE (R287). -/
def poolTake (q : Nat) (s : State) (x : Queue) (o : Op) (_h : Head) : State :=
  let b := o.body
  let d := (poolOf s (plPool b)).desc
  if o.epoch ≠ ownerEpoch s o.owner then discardOld s q o
  else if ¬ ptrOk s o.owner (plPtr b) (16 * plCount b) .write then badPtr s q o 448
  else if pdDev d ∨ pdPart d ≠ x.partition ∨ (poolOf s (plPool b)).state = 0 ∨ plCount b = 0 ∨ 64 < plCount b then
    refuseOp s q o 0x8001 srcBpm [(plPool b, 8), (plCount b, 32)]
  else match allocBufs s (plPool b) (plCount b) false o.owner o.epoch with
    | (t, none) => endOp t q o 0x02
    | (t, some l) =>
      let e := l.flatMap (fun x => natLe 8 x.1 ++ natLe 8 x.2)
      endOp (modOp (wr t o.owner (plPtr b) e) q o.seq (fun y => { y with detail := l.length })) q o 0x01

/-- POOL_ALLOCATE (R287). -/
def execPoolAllocate (q : Nat) (s : State) : Host.Outcome State Fault Refusal := .next (runHead s q 0x07 1 .ready (poolTake q))

/-- Parts of a handle. -/
def hdPool (h : Nat) : Nat := bits h 56 8
def hdGen (h : Nat) : Nat := bits h 40 16
def hdIndex (h : Nat) : Nat := bits h 16 24

/-- Whether a handle is valid (R278). -/
def handleOk (s : State) (h : Nat) : Bool :=
  let x := poolOf s (hdPool h)
  let r := recAt s (pdFirst x.desc + hdIndex h)
  (x.state == 1 || x.state == 3) && decide (hdIndex h < pdCount x.desc) && r.gen == hdGen h && (r.state == 1 || r.state == 2) &&
    bits h 0 16 == 0

/-- The record of a handle's buffer read: where it is poisoned the pool fails (R283). -/
def readRec (s : State) (h : Nat) : State :=
  let x := poolOf s (hdPool h)
  let k := pdFirst x.desc + hdIndex h
  if (x.state = 1 ∨ x.state = 3) ∧ hdIndex h < pdCount x.desc ∧ recPoisoned s k then failPool s (hdPool h) k else s

/-- One reference released (R289). -/
def dropRef (s : State) (h : Nat) : State :=
  let k := pdFirst (poolOf s (hdPool h)).desc + hdIndex h
  let r := recAt s k
  if r.refs ≤ 1 then freeBuf s (hdPool h) (hdIndex h) else setRec s k { r with refs := r.refs - 1 }

/-- POOL_ACQUIRE and POOL_RELEASE of a handle by an operation of a queue (R283, R289). -/
def poolRef (acquire : Bool) (q : Nat) (s : State) (x : Queue) (o : Op) (_h : Head) : State :=
  let h := plHandle o.body
  let d := (poolOf s (hdPool h)).desc
  if o.epoch ≠ ownerEpoch s o.owner then discardOld s q o
  else if pdDev d ∨ pdPart d ≠ x.partition then refuseOp s q o 0x8001 srcBpm [(hdPool h, 8), (ones 32, 32)]
  else
    let s1 := readRec s h
    let r := recAt s1 (pdFirst d + hdIndex h)
    if (poolOf s1 (hdPool h)).state = 4 then
      if acquire then refuseOp s1 q o 0x8003 srcBpm [(h, 64)] else endOp (bump s1 0x290308 1) q o 0x02
    else if ¬ handleOk s1 h then refuseOp s1 q o 0x8003 srcBpm [(h, 64)]
    else if ¬ acquire then endOp (dropRef s1 h) q o 0x01
    else if r.state = 2 then refuseOp s1 q o 0x8005 srcBpm [(h, 64)]
    else if 65535 ≤ r.refs then refuseOp s1 q o 0x8004 srcBpm [(h, 64)]
    else endOp (bump (setRec s1 (pdFirst d + hdIndex h) { r with refs := r.refs + 1 }) 0x290303 1) q o 0x01

/-- POOL_ACQUIRE (R289). -/
def execPoolAcquire (q : Nat) (s : State) : Host.Outcome State Fault Refusal := .next (runHead s q 0x07 2 .ready (poolRef true q))
/-- POOL_RELEASE (R289). -/
def execPoolRelease (q : Nat) (s : State) : Host.Outcome State Fault Refusal := .next (runHead s q 0x07 3 .ready (poolRef false q))

/-- A buffer of a device unit released. -/
def deviceRelease (s : State) (h : Nat) : State :=
  let s1 := readRec s h
  if (poolOf s1 (hdPool h)).state = 4 then bump s1 0x290308 1
  else if handleOk s1 h then dropRef s1 h
  else raiseDev s1 0x8003 srcBpm [(h, 64)]

/-! ### Enabling, building, refilling -/

/-- A pool enabled afresh (R279): its generation, its records; its links follow. -/
def enablePool (s : State) (p : Nat) : State :=
  let x := poolOf s p
  let n := pdCount x.desc
  let recs := (List.range n).foldl (fun t i =>
    let k := pdFirst x.desc + i
    tput t k { gen := ((tgetD t k {}).gen + 1) % 2 ^ 16, pool := p }) s.pools.recs
  let s1 := { s with pools := { s.pools with recs := recs } }
  setPool s1 p { x with state := 2, gen := (x.gen + 1) % 2 ^ 16, cache := [], head := listEnd, free := n, held := 0, low := n }

/-- Whether a command to a pool is accepted (R279, R280, R282): 1 enable, 2 disable, 3 rebuild. -/
def poolCmdOk (s : State) (p c : Nat) : Bool :=
  let x := poolOf s p
  if c = 1 then x.state == 0 && pdCount x.desc != 0
  else if c = 2 then
    (x.state == 1 || x.state == 2 || x.state == 3) && x.held == 0 &&
    !s.pools.pools.any (fun y => y.1 != p && (y.2.state == 1 || y.2.state == 2 || y.2.state == 3) && pdChained y.2.desc && pdFallback y.2.desc == p)
  else c == 3 && (x.state == 1 || x.state == 3)

/-- A command to a pool. -/
def poolCmd (s : State) (p c : Nat) : State :=
  if c = 1 then enablePool s p
  else if c = 2 then setPool s p { poolOf s p with state := 0, cache := [], head := listEnd }
  else startRebuild s p

/-- The links of a list of buffers written, each to the next; the last ends the list. -/
def writeLinks (p : Nat) : State → List Nat → State
  | s, [] => s
  | s, [i] => writeLink s p i listEnd
  | s, i :: j :: r => writeLinks p (writeLink s p i j) (j :: r)

/-- POOL_BUILD_DONE: the last link of a pool that builds or rebuilds is written (R279, R282). -/
def execPoolBuildDone (pool : Nat) (s : State) : Host.Outcome State Fault Refusal :=
  .next (
    let x := poolOf s pool
    let n := List.range (pdCount x.desc)
    if x.state ≠ 2 ∧ x.state ≠ 3 then s
    else match (if x.state = 3 then n.find? (fun i => recPoisoned s (pdFirst x.desc + i)) else none) with
      | some i => failPool s pool (pdFirst x.desc + i)
      | none =>
        let l := n.filter (fun i => (recAt s (pdFirst x.desc + i)).state == 0)
        setPool (writeLinks pool s l) pool { x with state := 1, head := l.headD listEnd, free := l.length })

/-- HEAD_CACHE_REFILL (R281, R282). -/
def execHeadCacheRefill (pool : Nat) (s : State) : Host.Outcome State Fault Refusal := .next (refill pool 16 s)

/-! ### Revocation and the audit -/

/-- Pools of a partition. -/
def poolsOfPart (s : State) (p : Nat) : List Nat :=
  (s.pools.pools.filter (fun x => pdCount x.2.desc != 0 && !pdDev x.2.desc && pdPart x.2.desc == p)).map (·.1)

/-- The walk of R292 over one record of a pool; the counts are of buffers freed and revoked. -/
def revokeRec (o p : Nat) (a : State × Nat × Nat) (k : Nat) : State × Nat × Nat :=
  let s := a.1
  let x := poolOf s p
  let r := recAt s k
  if x.state = 4 ∨ r.state ≠ 1 ∨ r.owner ≠ o ∨ r.epoch = ownerEpoch s o then a
  else if recPoisoned s k then (failPool s p k, a.2)
  else if r.refs ≤ 1 then (bump (freeBuf s p (k - pdFirst x.desc)) 0x290307 1, a.2.1 + 1, a.2.2)
  else (bump (setRec s k { r with refs := r.refs - 1, state := 2, owner := 0 }) 0x290307 1, a.2.1, a.2.2 + 1)

/-- The walk of R292 over the pools of an owner's partition: the state, buffers freed, buffers revoked. -/
def revokeOwner (s : State) (o : Nat) : State × Nat × Nat :=
  (poolsOfPart s (ownerPart s o)).foldl (fun a p =>
    let d := (poolOf a.1 p).desc
    ((a.1.pools.recs.map (·.1)).filter (fun k => decide (pdFirst d ≤ k ∧ k < pdFirst d + pdCount d))).foldl (revokeRec o p) a)
    (s, 0, 0)

/-- Buffers whose accounting owner an owner is (R293). -/
def ownerHeld (s : State) (o : Nat) : Nat := (s.pools.recs.filter (fun x => x.2.state != 0 && x.2.owner == o)).length

/-- Histogram bucket of an age (R294). -/
def ageBucket (a : Nat) : Nat := min 23 (if a = 0 then 0 else Nat.log2 a + 1)

/-- One record of a scan: the histograms so far, and the reports raised. -/
def scanRec (a : State × Tbl (List Nat) × Nat) (x : Nat × Nat × Nat) : State × Tbl (List Nat) × Nat :=
  let s := a.1
  let p := x.2.1
  let d := (poolOf s p).desc
  let r := recAt s x.1
  if (poolOf s p).state ≠ 1 then a
  else if recPoisoned s x.1 then (failPool s p x.1, a.2)
  else if r.state = 0 then a
  else
    let age := uptimeMs s - r.alloc
    let h := tgetD a.2.1 r.owner (List.replicate 24 0)
    let hs := tput a.2.1 r.owner (h.set (ageBucket age) ((h[ageBucket age]?).getD 0 + 1))
    if pdLimit d = 0 ∨ age ≤ pdLimit d ∨ r.reported then (s, hs, a.2.2)
    else if 256 ≤ a.2.2 then (bump s 0x290206 1, hs, a.2.2)
    else (raiseOwner (setRec s x.1 { r with reported := true }) 0x8006 srcBpm r.owner
      [(p, 8), (x.2.2, 24), (r.owner, 12), (age, 16)], hs, a.2.2 + 1)

/-- Insertion of a record to scan by its index. -/
def insertScan (x : Nat × Nat × Nat) : List (Nat × Nat × Nat) → List (Nat × Nat × Nat)
  | [] => [x]
  | y :: r => if x.1 ≤ y.1 then x :: y :: r else y :: insertScan x r

/-- Pools by their first record, as a scan takes them: (first record, pool, count). -/
def scanPools (s : State) : List (Nat × Nat × Nat) :=
  ((s.pools.pools.filter (fun x => x.2.state == 1)).map (fun x => (pdFirst x.2.desc, x.1, pdCount x.2.desc))).foldl
    (fun l x => insertScan x l) []

/-- POOL_AUDIT_SCAN (R294). -/
def execPoolAuditScan (s : State) : Host.Outcome State Fault Refusal :=
  .next (
    if ent s 0x290201 = 0 then s
    else
      let l := (scanPools s).flatMap (fun x => (List.range x.2.2).map (fun i => (x.1 + i, x.2.1, i)))
      let r := l.foldl scanRec (s, [], 0)
      bump { r.1 with pools := { r.1.pools with hist := r.2.1 } } 0x290205 1)

end Sys2Proof.Machine
end

