-- ==== Sys2Proof/Machine/FaultLog.lean ====
section
/-!
DEFINITION. Machine/FaultLog.lean: the pages of the fault log (R288, R482, R483).
-/
namespace Sys2Proof.Machine

/-- Number of the oldest record held (0x2D01:02). -/
def logOldest (s : State) : Nat := match s.log.pages with
  | [] => s.log.next - s.log.onDie
  | x :: _ => x.first

/-- The oldest page given back to its pool, with the records it holds. -/
def dropOldest (s : State) : State :=
  match s.log.pages with
  | [] => s
  | x :: r =>
    deviceRelease { s with log := { s.log with pages := r, records := tfilter s.log.records (fun k _ => decide (x.first + x.count ≤ k)) } } x.handle

/-- Records held on the die written into a page that has been had, in the order of their numbers; with room on the die
again, the record of a loss is taken (R483). -/
def fillPage (s : State) (handle ptr : Nat) : State :=
  let cap := 2 ^ pdLog (poolOf s (hdPool handle)).desc / 32
  let n := min s.log.onDie cap
  let first := s.log.next - s.log.onDie
  let b := (List.range n).flatMap (fun i => natLe 32 (tgetD s.log.records (first + i) 0))
  let pg : Page := { handle := handle, ptr := ptr, first := first, count := n, cap := cap }
  let s1 := wr { s with log := { s.log with pages := s.log.pages ++ [pg], onDie := s.log.onDie - n, exhausted := false } } 0 ptr b
  if s1.log.lostSince = 0 then s1
  else storeRecord { s1 with log := { s1.log with lostSince := 0 } }
    (recordOf s1 { code := 0xC013, src := srcRecorder, items := [(min s1.log.lostSince 0xFFFF, 16), (s1.log.next - 1, 48)] })

/-- The chain of the fault-record pool is empty even for a recovery request: 0x8008, once per exhaustion (R288). -/
def noPage (s : State) (pool : Nat) : State :=
  if s.log.exhausted then s
  else raiseDev { s with log := { s.log with exhausted := true } } 0x8008 srcRecorder [(pool, 8), (srcRecorder, 7)]

/-- The recorder asks for a page by ordinary request, then by recovery request (R482). -/
def takePage (s : State) : State :=
  let s0 := if ent s 0x2D0101 ≤ s.log.pages.length then dropOldest s else s
  let p := ent s0 0x290402
  match deviceBuf s0 p false with
  | (t, some (h, a)) => fillPage t h a
  | (t, none) => match deviceBuf t p true with
    | (u, some (h, a)) => fillPage u h a
    | (u, none) => noPage u p

/-- FAULT_LOG_PAGE_TAKEN (R483): where records wait on the die. -/
def execFaultLogPageTaken (s : State) : Host.Outcome State Fault Refusal :=
  .next (if s.log.onDie = 0 ∨ s.power.railState ≠ 2 then s else takePage s)

end Sys2Proof.Machine
end

