-- ==== Sys2Proof/Machine/MemMgmt.lean ====
section
/-!
DEFINITION. Machine/MemMgmt.lean: what the Memory Controller does beside reads and writes: errors and the patrol scrub, failed
parts, repairs, maintenance and test access, windows and keys (R245 to R271).
-/
namespace Sys2Proof.Machine

def setMc (s : State) (f : Mc → Mc) : State := { s with mc := f s.mc }

/-! ### Failed parts (R259) -/

/-- A stack fails: its cause 1 pseudo-channels, 2 an absent temperature report. -/
def failStack (s : State) (st cause : Nat) : State :=
  if s.mem.failedStack.contains st then s
  else
    let s1 := { s with mem := { s.mem with failedStack := insertKey s.mem.failedStack st } }
    journalStackFails (raiseDev s1 0x7006 srcMc [(st, 3), (Config.causeCode 0x7006 cause, 8)]) st

/-- A pseudo-channel fails: its cause 1 retraining, 2 rows with uncorrectable errors. -/
def failPc (s : State) (pc cause : Nat) : State :=
  if s.mem.failedPc.contains pc then s
  else
    let s1 := { s with mem := { s.mem with failedPc := insertKey s.mem.failedPc pc } }
    let s2 := raiseDev s1 0x7005 srcMc [(pc / 64, 3), (pc, 9), (Config.causeCode 0x7005 cause, 8)]
    if 16 ≤ (s2.mem.failedPc.filter (fun x => x / 64 == pc / 64)).length then failStack s2 (pc / 64) 1 else s2

/-- PC_RETRAIN_FAILURE (R259): three in a row fail the pseudo-channel. -/
def execPcRetrainFailure (pc : Nat) (s : State) : Host.Outcome State Fault Refusal :=
  .next (
    let n := tgetD s.mc.retrainFails pc 0 + 1
    if 512 ≤ pc ∨ s.power.railState ≠ 2 then s
    else if n < 3 then setMc s (fun m => { m with retrainFails := tput m.retrainFails pc n })
    else failPc (setMc s (fun m => { m with retrainFails := tdel m.retrainFails pc })) pc 1)

/-! ### Repairs (R258, R266, R267, R268) -/

/-- A row by its pseudo-channel, bank and row. -/
def rowKeyOf (o : Nat) : Nat := (pcOf o * 64 + bankOf o) * 2 ^ 14 + rowOf o

/-- The soft row repair request of a row (Table 08-3). -/
def repairOf (k : Nat) : Nat :=
  let pc := k / 2 ^ 20
  fld 1 56 8 + fld (pc / 64) 53 3 + fld (pc % 64 / 2) 48 5 + fld (pc % 2) 47 1 + fld (k / 2 ^ 14) 41 6 + fld k 27 14

/-- Fields of a repair request. -/
def rqKind (r : Nat) : Nat := bits r 56 8
def rqStack (r : Nat) : Nat := bits r 53 3
def rqPc (r : Nat) : Nat := bits r 53 3 * 64 + bits r 48 5 * 2 + bits r 47 1
def rqGroup (r : Nat) : Nat := rqPc r * 4 + bits r 43 2
def rqRow (r : Nat) : Nat := (rqPc r * 64 + bits r 41 6) * 2 ^ 14 + bits r 27 14

/-- Layout of a repair request (Table 08-3). -/
def repairLayoutOk (r : Nat) : Bool :=
  decide (1 ≤ rqKind r ∧ rqKind r ≤ 3) && bits r 0 21 == 0 &&
  (if rqKind r = 3 then bits r 27 14 == 0 && decide (bits r 21 6 < 32) else bits r 21 6 == 0)

/-- Whether a spare row or lane is left for a request. -/
def spareLeft (s : State) (r : Nat) : Bool :=
  if rqKind r = 3 then decide (tgetD s.mc.lanesUsed (rqPc r) 0 < Config.spareLanes (rqPc r))
  else decide (tgetD s.mc.rowsUsed (rqGroup r) 0 < Config.spareRows (rqGroup r))

/-- A repair begins, by request or by the MC itself: with no spare left it is refused with fault 0x7009. -/
def beginRepair (s : State) (r : Nat) (auto : Bool) : State :=
  if ¬ spareLeft s r then
    raiseDev (if auto then s else setEnt s 0x280605 3) 0x7009 srcMc [(r, 64)]
  else setMc (if auto then s else setEnt s 0x280605 1) (fun m => { m with repairing := some (if auto then r + 2 ^ 64 else r) })

/-- The MC takes the oldest candidate to repair, where it repairs of itself and no repair runs. -/
def nextRepair (s : State) : State :=
  if s.mc.repairing.isSome ∨ ent s 0x280103 = 0 then s
  else match s.mc.candidates.find? (spareLeft s) with
    | some r => beginRepair s r true
    | none => s

/-- The configuration copy that was written last, of those that are valid (R456). -/
def newestCopy (s : State) : Copy :=
  if s.th.copyB.valid ∧ (¬ s.th.copyA.valid ∨ s.th.copyA.seq < s.th.copyB.seq) then s.th.copyB else s.th.copyA

/-- Whether slot A is the one written first: it is not valid, or holds no higher sequence than a valid slot B (R455). -/
def slotAFirst (s : State) : Bool := !s.th.copyA.valid || (s.th.copyB.valid && decide (s.th.copyA.seq ≤ s.th.copyB.seq))

/-- Both copies written with a change, the slot of the lower sequence first (R455). -/
def storeCopies (s : State) (f : Copy → Copy) : State :=
  let n := newestCopy s
  let c := f { n with valid := true }
  let x := { c with seq := n.seq + 1 }
  let y := { c with seq := n.seq + 2 }
  { s with th := if slotAFirst s then { s.th with copyA := x, copyB := y } else { s.th with copyA := y, copyB := x } }

/-- A repair done and verified. -/
def repairDone (s : State) (r : Nat) : State :=
  if rqKind r = 3 then
    setMc (storeCopies s (fun c => { c with laneRepairs := c.laneRepairs ++ [r] }))
      (fun m => { m with lanesUsed := tupd m.lanesUsed (rqPc r) 0 (· + 1) })
  else
    let s1 := setMc s (fun m => { m with rowsUsed := tupd m.rowsUsed (rqGroup r) 0 (· + 1),
                                         candidates := m.candidates.filter (fun x => rqRow x != rqRow r),
                                         tracker := m.tracker.filter (fun x => x.1 != rqRow r) })
    if rqKind r = 2 then s1
    else
      setMc (bump (storeCopies s1 (fun c => { c with softRepairs := c.softRepairs ++ [r] })) 0x280205 1)
        (fun m => { m with softRepairs := m.softRepairs ++ [r] })

/-- REPAIR_DONE (R267, Table 08-4): 0x02 done and verified, otherwise failed verification. -/
def execRepairDone (result : Nat) (s : State) : Host.Outcome State Fault Refusal :=
  .next (match s.mc.repairing with
    | none => s
    | some x =>
      let r := x % 2 ^ 64
      let s1 := setMc s (fun m => { m with repairing := none })
      let st (t : State) (v : Nat) : State := if 2 ^ 64 ≤ x then t else setEnt t 0x280605 v
      if result = 2 then nextRepair (st (repairDone s1 r) 2)
      else
        let s2 := setMc s1 (fun m => { m with candidates := m.candidates.filter (fun y => rqRow y != rqRow r) })
        nextRepair (raiseDev (st s2 4) 0x7007 srcMc [(r, 64)]))

/-! ### Errors (R254 to R258) -/

/-- The entry that a full tracker gives up: the lowest count, the oldest on ties. -/
def trackerVictim : List (Nat × Nat) → Option Nat
  | [] => none
  | x :: r => match trackerVictim r with
    | none => some x.1
    | some k => if ((r.find? (fun y => y.1 == k)).map (·.2)).getD 0 < x.2 then some k else some x.1

/-- A corrected event counted for its row (R258). -/
def trackRow (s : State) (k : Nat) : State :=
  let t := s.mc.tracker
  let t1 := if t.any (fun x => x.1 == k) then t.map (fun x => if x.1 = k then (k, x.2 + 1) else x)
    else (if 4096 ≤ t.length then t.filter (fun x => some x.1 != trackerVictim t) else t) ++ [(k, 1)]
  let s1 := setMc s (fun m => { m with tracker := t1 })
  let n := ((t1.find? (fun x => x.1 == k)).map (·.2)).getD 0
  if n ≠ ent s 0x280102 then s1
  else if ¬ spareLeft s1 (repairOf k) then raiseDev s1 0x7009 srcMc [(repairOf k, 64)]
  else if s1.mc.candidates.contains (repairOf k) ∨ 256 ≤ s1.mc.candidates.length then s1
  else nextRepair (setMc s1 (fun m => { m with candidates := m.candidates ++ [repairOf k] }))

/-- An error found by a read or by the patrol (R255 to R257); poisoned codewords are passed over. -/
def eccFound (s : State) (code owner : Nat) (e : EccEvent) : State :=
  let o := e.offset % hbmBytes
  if poisonAt s o 1 then s
  else if e.corrected then trackRow (bump s 0x280201 1) (rowKeyOf o)
  else
    let s1 := bump (poisonS s o) 0x280202 1
    let s2 := raiseOwner s1 code srcMc owner [(o, 39), (stackOf o, 3), (pcOf o, 9), (rowOf o, 14)]
    let s3 := setMc s2 (fun m => { m with badRows := insertKey m.badRows (rowKeyOf o) })
    if 64 ≤ (s3.mc.badRows.filter (fun k => k / 2 ^ 20 == pcOf o)).length then failPc s3 (pcOf o) 2 else s3

/-- PATROL_SCRUB (R257): what the patrol finds on its way, and the end of a pass. -/
def execPatrolScrub (found : List EccEvent) (passEnd : Bool) (s : State) : Host.Outcome State Fault Refusal :=
  .next (
    if ent s 0x280101 = 0 ∨ s.power.railState ≠ 2 then s
    else
      let s1 := found.foldl (fun t e => eccFound t 0x7002 0 e) s
      if passEnd then setMc (bump s1 0x280204 1) (fun m => { m with tracker := [], badRows := [] }) else s1)

/-! ### Maintenance and test access (R268, R269) -/

/-- Whether any operation of any partition has started and not completed (R268). -/
def anyRuns (s : State) : Bool := !(runningHeads s).isEmpty

/-- Whether a stack may enter maintenance. -/
def maintOk (s : State) : Bool := ent s 0x200703 != 0 && !anyRuns s

/-- A stack's granules rewritten with zero data (R265, R269). -/
def zeroStack (s : State) (st : Nat) : State :=
  let m := s.mem
  { s with mem := { m with
    tags := tfilter m.tags (fun g _ => stackOf (g * 256) != st)
    cells := m.cells.filter (fun c => isTile c.1 || stackOf (ptrOff c.1) != st)
    poison := m.poison.filter (fun k => decide (2 ^ 40 ≤ k) || stackOf (k * 64) != st) } }

/-- A stack's maintenance begins or ends by a write of 0x2806:01. -/
def setMaint (s : State) (v : Nat) : State :=
  let old := ent s 0x280601
  let s1 := if old ≠ 0xFF ∧ old ≠ v then zeroStack s old else s
  setEnt s1 0x280601 v

/-- IEEE1500_SHIFT_DONE (R269): the data shifted out is returned, and 0x2806:04 reads false. -/
def execIeee1500ShiftDone (data : List Nat) (s : State) : Host.Outcome State Fault Refusal :=
  .next (if ent s 0x280604 = 1 then setEnt (setEntV s 0x280603 (.bytes data)) 0x280604 0 else s)

/-! ### Windows and keys (R245 to R247, R262) -/

/-- Fields of a local window entry (Table 08-2). -/
def lwValid (e : Nat) : Bool := bit e 95
def lwTile (e : Nat) : Bool := bit e 94
def lwBase (e : Nat) : Nat := bits e 0 39
def lwEnd (e : Nat) : Nat := bits e 39 39

/-- Layout of a local window entry. -/
def lwLayoutOk (e : Nat) : Bool :=
  bits e 108 20 == 0 && bits e 78 13 == 0 && lwBase e % 4096 == 0 && lwEnd e % 4096 == 0 &&
  (!lwValid e || decide (lwBase e < lwEnd e))

/-- Range of a partition in a space, as bytes (R246). -/
def partRange (s : State) (p : Nat) (tile : Bool) : Nat × Nat :=
  let u := if tile then 2 ^ 20 else 2 ^ 30
  let b := pEnt s 0x3008 (if tile then 3 else 1) p * u
  (b, b + pEnt s 0x3008 (if tile then 4 else 2) p * u)

/-- A local window entry against its owner (R247). -/
def lwStateOk (s : State) (o e : Nat) : Bool :=
  o != 0 && bits e 96 12 == o &&
  (!lwValid e ||
    (keyActive s o &&
     decide ((partRange s (ownerPart s o) (lwTile e)).1 ≤ lwBase e ∧ lwEnd e ≤ (partRange s (ownerPart s o) (lwTile e)).2)))

/-- A local window written: Tile Store bytes that it no longer covers are zeroed first (R245, R250). -/
def writeLocalWin (s : State) (sel e : Nat) : State :=
  let old := tgetD s.mc.windows sel 0
  let s1 :=
    if lwValid old ∧ lwTile old then
      let lo := lwBase old
      let hi := lwEnd old
      let nb := if lwValid e ∧ lwTile e then lwBase e else 0
      let ne := if lwValid e ∧ lwTile e then lwEnd e else 0
      zeroTileS (zeroTileS s lo (min hi nb - lo)) (max lo ne) (hi - max lo ne)
    else s
  setMc s1 (fun m => { m with windows := tputNZ m.windows sel e })

/-- Whether an owner has a valid window (R262). -/
def anyLocalWin (s : State) (o : Nat) : Bool := (List.range 8).any (fun w => lwValid (tgetD s.mc.windows (o * 8 + w) 0))

/-- A key slot's command (R262): 1 generate, 2 zeroise. -/
def keyCmd (s : State) (o c : Nat) : State :=
  let k := keySlot s o
  if c = 1 then
    setMc s (fun m => { m with keys := tput m.keys o { active := true, gen := k.gen + 1, fresh := m.keyDraws }, keyDraws := m.keyDraws + 1 })
  else setMc s (fun m => { m with keys := tput m.keys o { k with active := false } })

/-- Layout of a remote window entry (Table 11-6, R345). -/
def rwLayoutOk (e : Nat) : Bool :=
  bits e 208 48 == 0 && bits e 185 3 == 0 && bits e 78 99 == 0 &&
  (!bit e 184 ||
    (decide (bits e 188 6 ≤ bits e 194 6 ∧ bits e 0 39 < bits e 39 39 ∧ bits e 0 39 % 4096 = 0 ∧ bits e 39 39 % 4096 = 0) &&
     (!bit e 178 || bit e 179)))

/-- A remote window entry against the device's own rack: another rack's window is one of copies only (Table 11-6). -/
def rwStateOk (s : State) (e : Nat) : Bool :=
  !bit e 184 || bits e 200 8 == ownRack s || !(bit e 181 || bit e 179 || bit e 178 || bit e 177)

/-- A remote window written. -/
def writeRemoteWin (s : State) (sel e : Nat) : State := { s with fab := { s.fab with rwins := tputNZ s.fab.rwins sel e } }

end Sys2Proof.Machine
end

