-- ==== Sys2Proof/Machine/ResetList.lean ====
section
/-!
DEFINITION. Machine/ResetList.lean: the resets in progress: which are absorbed, taken over or merged, and how one completes
(R487, R489, R502).
-/
namespace Sys2Proof.Machine

/-- Causes of a reset as this model lists them; fault 0xC012 names one by Config.causeCode. -/
def causeLock : Nat := 1
def causeRequest : Nat := 2
def causeOwnFault : Nat := 3
def causeEnable : Nat := 4
def causeUnit : Nat := 5
def causeCommand : Nat := 6
def causeFlr : Nat := 7
def causeCensus : Nat := 8
def causeHot : Nat := 9
def causePerst : Nat := 10
def causeOverrun : Nat := 11
def causeInput : Nat := 12
def causePhase : Nat := 13
def causeRecovery : Nat := 14

/-- Whether the scope of a reset in progress of a higher level holds that of another. A device reset holds every scope until
host-ready. -/
def resetHolds (s : State) (x r : Reset) : Bool :=
  decide (r.level < x.level) &&
  (if 6 ≤ x.level then !s.startup.hostReady
   else if x.level = 5 then r.level == 4 && ownerPart s r.target == x.target
   else x.level == 2 && r.level == 1 && r.target / 32 == x.target)

/-- Whether a reset in progress takes a request in: one of its level and target, or one whose scope holds it (R489). -/
def resetAbsorbed (s : State) (r : Reset) : Bool :=
  s.resets.any (fun x => (x.level == r.level && x.target == r.target && (decide (x.level < 6) || !s.startup.hostReady)) ||
    resetHolds s x r)

/-- A reset begins; it takes over the lower ones whose scope it holds (R489). -/
def addReset (s : State) (r : Reset) : State :=
  { s with resets := s.resets.filter (fun x => !(decide (x.level < r.level) && (decide (6 ≤ r.level) ||
      resetHolds { s with startup := { s.startup with hostReady := false } } r x))) ++ [r] }

/-- A reset that completes is counted, and written to the log where its level's own fault has not said it (R487). -/
def completeReset (s : State) (r : Reset) : State :=
  let s1 := bump { s with resets := s.resets.erase r } (0x2D0600 + r.level) 1
  if r.cause = causeOwnFault then s1
  else raise s1 { code := 0xC012, src := srcThallus, owner := if r.level = 4 then r.target else 0,
                  items := [(r.level, 8), (r.target, 12), (Config.causeCode 0xC012 r.cause, 8)] }

/-- A lane or port reset noted, where no reset in progress takes it in. -/
def noteReset (s : State) (r : Reset) : State := if resetAbsorbed s r then s else addReset s r

end Sys2Proof.Machine
end

