-- ==== Sys2Proof/Machine/FabPorts.lean ====
section
/-!
DEFINITION. Machine/FabPorts.lean: the fabric's ports: bring-up, identity, flits and replay, lanes, silence, pauses
(R324 to R334, R363).
-/
namespace Sys2Proof.Machine

/-- Lanes of a port (Table 11-1). -/
def portLanes (p : Nat) : Nat := if 16 ≤ p ∧ p ≤ 18 then 32 else 4

/-- Lanes below which a port goes down (R334): an Ethernet port, and one linked to a D1, drops none. -/
def portMinLanes (s : State) (p : Nat) : Nat := if 19 ≤ p ∨ portD1 s p then 4 else if 16 ≤ p then 8 else 1

/-- Fronds of a port (Table 14-8), and the port of a frond. -/
def portFronds (p : Nat) : List Nat := if p < 16 then [67 + p] else if p < 19 then [83 + 2 * (p - 16), 84 + 2 * (p - 16)] else [70 + p]
def frondPort (f : Nat) : Option Nat :=
  if 67 ≤ f ∧ f ≤ 82 then some (f - 67) else if 83 ≤ f ∧ f ≤ 88 then some (16 + (f - 83) / 2) else if f = 89 ∨ f = 90 then some (f - 70) else none

/-- Whether a port's fronds are powered (R462). -/
def portPowered (s : State) (p : Nat) : Bool := (portFronds p).all (fun f => frondState s f == .on)

/-- A port as it starts to train, with what it counts and the lanes retired. -/
def trainAgain (x : Port) (state : Nat) : Port :=
  { x with state := state, lanes := 0, rate := 0, highRate := false, txSeq := 0, replayBuf := [], rxSeq := 0,
           replayAsked := 0, reqSeq := 0, reqCount := 0, credits := 0, queued := 0, txWait := [] }

/-- Flows that no port reaches any more fail at once (R341). -/
def failUnreached (s : State) : State :=
  (s.fab.flows.filter (fun f => !f.2.failed && !(f.2.unacked.isEmpty && f.2.waiting.isEmpty))).foldl (fun t f =>
    if (reachPort t f.1 none).isNone then failFlow t f.1 else t) s

/-- A port reset for a fault of its own (Table 15-5): it goes down and trains again. -/
def retrainPort (s : State) (p : Nat) : State :=
  failUnreached (modPort (noteReset s { level := 2, target := p, cause := causeOwnFault }) p (fun x => { trainAgain x 1 with faulted := true }))

/-- A port goes down and starts over (R334). -/
def portDown (s : State) (p : Nat) : State :=
  retrainPort (raiseDev s 0xA003 srcPort [(p, 5), ((portOf s p).lanes, 32)]) p

/-! ### Bring-up (R329, R332) -/

/-- Device that the cabling of R330 puts behind a near port. -/
def nearDevice (s : State) (n : Nat) : Nat := ownDev s / 4 * 4 + (ownDev s % 4 + n + 1) % 4

/-- What a record must hold on a port (R332), as (lowest bit, width, value). -/
def expectedId (s : State) (p : Nat) : List (Nat × Nat × Nat) :=
  (if p < 16 then [(240, 8, 2), (232, 8, 1), (216, 8, p)]
   else [(240, 8, 1), (232, 8, 2), (224, 8, 2 - (p - 16)), (192, 12, nearDevice s (p - 16)), (248, 8, 2)]) ++
  [(204, 12, ownRack s), (288, 32, ent s 0x2B0304)]

/-- The first check that a record fails: width, expected and received. -/
def identityBad (s : State) (p r : Nat) : Option (Nat × Nat × Nat) :=
  match (expectedId s p).find? (fun c => bits r c.1 c.2.1 != c.2.2) with
  | some c => some (c.2.1, c.2.2, bits r c.1 c.2.1)
  | none =>
    let crc := crc32c (natLe 60 (r / 2 ^ 32))
    if bits r 0 32 = crc then none else some (32, crc, bits r 0 32)

/-- The identity check: the port comes up, or is refused with fault 0xA004. -/
def checkIdentity (s : State) (p : Nat) : State :=
  match identityBad s p (portOf s p).peer with
  | some (w, e, g) =>
    failUnreached (modPort (raiseDev s 0xA004 srcPort [(p, 5), (e, w), (g, w)]) p (fun x => { x with state := 5 }))
  | none => modPort s p (fun x => { x with
      state := if popCount x.lanes 32 = portLanes p then 3 else 4, trainFails := 0, faulted := false,
      credits := if x.state = 3 ∨ x.state = 4 then x.credits else 256 })

/-- A port enabled (R329): one that is up or refused has its record checked again, and any other trains. -/
def enablePort (s : State) (p : Nat) : State :=
  let x := portOf s p
  let s1 := modPort ((portFronds p).foldl requestWake s) p (fun y => { y with enable := true, trainFails := 0, lost := [], retired := 0 })
  if (x.state = 3 ∨ x.state = 4 ∨ x.state = 5) ∧ p < 19 then checkIdentity s1 p
  else if x.state = 3 ∨ x.state = 4 then s1
  else modPort s1 p (fun y => trainAgain y 1)

/-- A port disabled; its fronds lose power. -/
def disablePort (s : State) (p : Nat) : State :=
  let st := (portFronds p).foldl (fun t f => if frondState s f = .failed then t else tdel t f) s.fronds.st
  let fr : Fronds := { st := st, queue := s.fronds.queue.filter (fun f => !(portFronds p).contains f) }
  failUnreached (modPort { s with fronds := fr } p (fun x => { trainAgain x 0 with enable := false, faulted := false }))

/-- Capabilities of the device's own identity record: all of Table 11-3. -/
def ownCaps : Nat := 0x1F

/-- Lanes that a training brings into service: the lowest of a number, retired ones left out. -/
def trainedLanes (x : Port) (n : Nat) : Nat := (2 ^ min n 32 - 1) &&& ((2 ^ 32 - 1) ^^^ x.retired)

/-- PORT_TRAINING_COMPLETE (R329): rate 0 is 106.25 Gb/s per lane and rate 1 is 212.5 Gb/s. -/
def execPortTrainingComplete (port rate lanes : Nat) (s : State) : Host.Outcome State Fault Refusal :=
  .next (
    let x := portOf s port
    let m := trainedLanes x (min lanes (portLanes port))
    if 21 ≤ port ∨ ¬ portPowered s port ∨ x.state ≠ 1 ∨ rate ≠ (if x.highRate ∨ 19 ≤ port then 1 else 0) ∨ popCount m 32 < portMinLanes s port then s
    else
      let s1 := modPort s port (fun y => { y with lanes := m, rate := if rate = 1 then 212500 else 106250 })
      if 19 ≤ port then modPort s1 port (fun y => { y with state := 3, trainFails := 0, faulted := false })
      else if x.highRate then checkIdentity s1 port
      else modPort s1 port (fun y => { y with state := 2 }))

/-- PORT_TRAINING_FAILED (R329): the step that failed is 1, 2 or 3 of the order of R329. -/
def execPortTrainingFailed (port : Nat) (s : State) : Host.Outcome State Fault Refusal :=
  .next (
    let x := portOf s port
    if 21 ≤ port ∨ ¬ (x.state = 1 ∨ x.state = 2) then s
    else
      let step := if x.state = 2 then 2 else if x.highRate then 3 else 1
      if 3 ≤ x.trainFails + 1 then
        modPort (raiseDev s 0xA001 srcPort [(port, 5), (step, 8)]) port (fun y => { trainAgain y 6 with trainFails := 3, faulted := true })
      else modPort s port (fun y => { trainAgain y 1 with trainFails := y.trainFails + 1 }))

/-- IDENTITY_RECORD_RECEIVE (R329, R332): where both ends can, the port trains again at 212.5 Gb/s first. -/
def execIdentityRecordReceive (port record : Nat) (s : State) : Host.Outcome State Fault Refusal :=
  .next (
    let x := portOf s port
    if 19 ≤ port ∨ ¬ (x.state = 2 ∨ x.state = 5) then s
    else
      let s1 := modPort s port (fun y => { y with peer := record % 2 ^ 512 })
      if x.state = 2 ∧ bit record 320 ∧ bit ownCaps 0 then
        modPort s1 port (fun y => { y with state := 1, highRate := true, lanes := 0, rate := 0 })
      else checkIdentity s1 port)

/-! ### Flits and replay (R326 to R328) -/

/-- Kind of a link symbol in what a port sends: a flit of a type of Table 11-2. -/
def flitWhat (ty : Nat) : Nat := 0x100 + ty

/-- A replay requested from the last good flit (type 0b01). -/
def askReplay (s : State) (p : Nat) : State :=
  let x := portOf s p
  emit s (.port p (flitWhat 1) (flitBytes x.txSeq ((x.rxSeq + 4095) % 4096) 1 0 (List.replicate 1016 0)))

/-- Flits acknowledged up to a link sequence number leave the replay buffer. -/
def ackFlits (x : Port) (ack : Nat) : Port :=
  let first := (x.txSeq + 4096 - x.replayBuf.length % 4096) % 4096
  let n := (ack + 1 + 4096 - first) % 4096
  if n ≤ x.replayBuf.length then { x with replayBuf := x.replayBuf.drop n } else x

/-- A bad flit: a replay is requested; the sixteenth request in a row for one flit retrains the port (0xA00E). -/
def badFlit (s : State) (p : Nat) : State :=
  let x := portOf s p
  let s1 := modPort (askReplay s p) p (fun y => { y with replayAsked := y.replayAsked + 1 })
  if 16 ≤ x.replayAsked + 1 then
    retrainPort (raiseDev s1 0xA00E srcPort [(p, 5), (x.rxSeq, 12)]) p
  else s1

/-- LINK_FLIT_RECEIVE (R326, R327, R328). -/
def execLinkFlitReceive (port : Nat) (flit : Flit) (s : State) : Host.Outcome State Fault Refusal :=
  .next (
    let x := portOf s port
    if 19 ≤ port ∨ ¬ portUp s port then s
    else if ¬ flit.ok then badFlit s port
    else if flit.seq ≠ x.rxSeq then (if x.replayAsked = 0 then badFlit s port else s)
    else modPort s port (fun y =>
      pumpPort 4096 (ackFlits { y with rxSeq := (y.rxSeq + 1) % 4096, replayAsked := 0,
                                       credits := min 256 (y.credits + flit.credit) } flit.ack)))

/-- Flits sent again, in order, from a link sequence number. -/
def resendFlits (p seq ack : Nat) : State → List (List Nat) → State
  | s, [] => s
  | s, b :: r => resendFlits p ((seq + 1) % 4096) ack (emit s (.port p (flitWhat 0) (flitBytes seq ack 0 0 b))) r

/-- REPLAY_REQUEST (R327): every flit after the one named is sent again; a peer that asks 16 times for one flit retrains,
and the port with it. -/
def execReplayRequest (port seq : Nat) (s : State) : Host.Outcome State Fault Refusal :=
  .next (
    if 19 ≤ port ∨ ¬ portUp s port then s
    else
      let s1 := modPort s port (fun y => { ackFlits y (seq % 4096) with
        replays := satAdd 64 y.replays 1, reqSeq := seq, reqCount := if y.reqSeq = seq then y.reqCount + 1 else 1 })
      let x := portOf s1 port
      if 16 ≤ x.reqCount then failUnreached (modPort s1 port (fun y => trainAgain y 1))
      else resendFlits port ((x.txSeq + 4096 - x.replayBuf.length % 4096) % 4096) ((x.rxSeq + 4095) % 4096) s1 x.replayBuf)

/-! ### Lanes (R333, R334) -/

/-- A lane in service loses lock (R333, R334). -/
def laneLost (s : State) (port lane : Nat) : State :=
  let x := portOf s port
  if 21 ≤ port ∨ ¬ portUp s port ∨ ¬ bit x.lanes lane then s
  else
    let hour := (tgetD x.lost lane []).filter (fun t => decide (s.clock.us < t + 3600000000)) ++ [s.clock.us]
    let m := x.lanes - 2 ^ lane
    let s1 := modPort s port (fun y => { y with lanes := m, drops := satAdd 64 y.drops 1, lost := tput y.lost lane hour })
    let s2 := if 8 ≤ hour.length ∧ ¬ bit x.retired lane then
        modPort (raiseDev s1 0xA002 srcPort [(port, 5), (lane, 7)]) port (fun y => { y with retired := y.retired + 2 ^ lane })
      else s1
    if popCount m 32 < portMinLanes s port then portDown s2 port
    else askReplay (noteReset (modPort s2 port (fun y => { y with state := 4 }))
      { level := 1, target := port * 32 + lane, cause := causeLock }) port

/-- LANE_LOSS_OF_LOCK (R333, R334). -/
def execLaneLossOfLock (port lane : Nat) (s : State) : Host.Outcome State Fault Refusal := .next (laneLost s port lane)

/-- LANE_RETRAINED (R333). -/
def execLaneRetrained (port lane : Nat) (s : State) : Host.Outcome State Fault Refusal :=
  .next (
    let x := portOf s port
    if 21 ≤ port ∨ ¬ portUp s port ∨ portLanes port ≤ lane ∨ bit x.lanes lane ∨ bit x.retired lane then s
    else modPort s port (fun y =>
      let m := y.lanes + 2 ^ lane
      { y with lanes := m, state := if popCount m 32 = portLanes port then 3 else 4 }))

/-- PEER_SILENT_TIMEOUT (R334). -/
def execPeerSilentTimeout (port : Nat) (s : State) : Host.Outcome State Fault Refusal :=
  .next (if port < 21 ∧ portUp s port then portDown s port else s)

/-! ### Priority flow control (R363) -/

/-- Datagrams that waited for the end of a pause leave. -/
def endPause (s : State) (p : Nat) : State :=
  let x := portOf s p
  x.txWait.foldl (fun t d => emit t (.port p (d.headD 0) (d.drop 1))) (modPort s p (fun y => { y with pause := 0, txWait := [] }))

/-- PRIORITY_FLOW_CONTROL (R363): a pause in quanta of 512 bit times at 800 Gb/s, none to resume. -/
def execPriorityFlowControl (port priority quanta : Nat) (s : State) : Host.Outcome State Fault Refusal :=
  .next (
    if ¬ (port = 19 ∨ port = 20) ∨ priority ≠ ent s 0x2B0605 then s
    else if quanta = 0 then endPause s port
    else modPort s port (fun x => { x with pause := ceilDiv (quanta * 512) 800 }))

end Sys2Proof.Machine
end

