-- ==== Sys2Proof/Machine/FabMem.lean ====
section
/-!
DEFINITION. Machine/FabMem.lean: what packets of other devices do at their target: loads, stores, copies, atomics and their
ledger, operations on objects, messages, late faults, epochs (R306, R347 to R355).
-/
namespace Sys2Proof.Machine

/-! ### Late faults (R351) -/

/-- Late fault payload (Table 11-8). -/
def latePayload (s : State) (k : Packet) (code counter : Nat) : List Nat :=
  natLe 32 (fld k.owner 180 12 + fld k.epoch 164 16 + fld k.group 148 16 + fld code 132 16 + fld (ownDev s) 120 12 +
    fld k.addr 68 52 + fld k.seq 36 32 + fld counter 0 16)

/-- A late fault for a packet, on the flow that brought it. -/
def lateOnly (s : State) (key : Nat) (k : Packet) (code counter : Nat) : State :=
  sendPk s key 0xFFFFF 0 { ty := 0x0C, src := ownDev s, dst := keyDev key, owner := k.owner, epoch := k.epoch, addr := k.addr,
                           group := k.group, payload := latePayload s k code counter }

/-- A packet that fails at its target: its counter is poisoned, and a late fault returns. -/
def sendLate (s : State) (key : Nat) (k : Packet) (code : Nat) : State :=
  if k.cmode = 0 then lateOnly s key k code 0xFFFF
  else lateOnly (peerPoison s (objKey 2 k.counter) 3 k.src) key k code k.counter

/-- The code by which a late fault names a refusal under R306, which raises no fault of its own. -/
def refusedCode : Nat := Config.causeCode 0xA008 1

/-! ### Memory at the target (R249, R347) -/

/-- Walker pointer of the bytes that a packet's address names: HBM, or for a copy's packet to a Tile Store that one. -/
def pkOff (k : Packet) : Nat := if k.ty = 0x07 ∧ k.op = 0x08 then tilePtr (raOff k.addr) else raOff k.addr

/-- What keeps an access of a packet from memory, if anything: the code of its failure. -/
def farBad (s : State) (k : Packet) (off n : Nat) : Option Nat :=
  if ¬ extentExists off n then some 0x7003
  else if isTile off then none
  else if k.owner ≠ 0 ∧ ¬ keyActive s k.owner then some 0x7004
  else if (granulesOf off n).any (fun g => s.mem.failedStack.contains (stackOf (g * 256))) then some 0x7006
  else if (granulesOf off n).any (fun g => s.mem.failedPc.contains (pcOf (g * 256))) then some 0x7005
  else none

/-- The fault of an access refused at the target (R249); a failed part's fault was raised as it failed. -/
def farFault (s : State) (k : Packet) (off code kind : Nat) : State :=
  if code = 0x7004 then raiseOwner s 0x7004 srcMc k.owner [(k.owner, 12), (k.src, 12)]
  else if code = 0x7003 then
    bump (raiseOwner s 0x7003 srcMc k.owner [(ptrOff off, 39), (Config.causeCode 0x7003 kind, 8), (srcFabric, 7)]) 0x280206 1
  else s

/-- A write of a packet, whole or not at all: the state, and the code where it failed. -/
def farWrite (s : State) (k : Packet) (off : Nat) (b : List Nat) : State × Option Nat :=
  match farBad s k off b.length with
  | none => (wr s k.owner off b, none)
  | some c =>
    let s1 := farFault s k off c 2
    (if c = 0x7005 ∨ c = 0x7006 then
      bump s1 0x280208 ((granulesOf off b.length).filter (fun g => failedPart s.mem (g * 256))).length else s1, some c)

/-- A reply on the flow back to a packet's sender. -/
def replyTo (s : State) (key : Nat) (k r : Packet) : State :=
  sendPk s key 0xFFFFF 0 { r with src := ownDev s, dst := k.src, owner := k.owner, epoch := k.epoch, addr := k.addr, slot := k.slot }

/-- LOAD (R347): what the read finds is dealt with first (R255, R256). -/
def applyLoad (s : State) (key : Nat) (k : Packet) (ecc : List EccEvent) : State :=
  let off := pkOff k
  let n := k.length
  match farBad s k off n with
  | some c => replyTo (farFault s k off c 1) key k { ty := 0x02, src := 0, dst := 0, payload := List.replicate n 0, poisoned := true }
  | none =>
    let near := ecc.filter (fun e => decide (off / 64 ≤ e.offset / 64 ∧ e.offset / 64 ≤ (off + n - 1) / 64))
    let s1 := near.foldl (fun t e => eccFound t 0x7001 k.owner e) s
    let bad := poisonAt s1 off n
    replyTo (if bad then countPoison s1 off else s1) key k { ty := 0x02, src := 0, dst := 0, payload := rd s1 k.owner off n, poisoned := bad }

/-- STORE (R347). -/
def applyStore (s : State) (key : Nat) (k : Packet) : State :=
  match farWrite s k (pkOff k) k.payload with
  | (t, none) => t
  | (t, some c) => sendLate t key k c

/-- An increment of an object by a packet: admitted only where its remote_ok is set (R306). -/
def farAdmits (s : State) (obj : Nat) : Bool := (objOf s obj).state == 1 && (objOf s obj).remoteOk

/-- The counter of a copy's packet (R349). -/
def copyCount (s : State) (key : Nat) (k : Packet) : State :=
  let n := if k.cmode = 1 then k.payload.length else if k.cmode = 2 ∧ bit k.flags 0 then 1 else 0
  if k.cmode = 0 ∨ n = 0 then s
  else if ¬ farAdmits s (objKey 2 k.counter) then lateOnly (bump s 0x2A0209 1) key k refusedCode 0xFFFF
  else engineAdd s k.counter n

/-- Whether a packet names an ended instance of an owner of this device: what it brings is suppressed and counted
(0x2D06:08). -/
def endedHere (s : State) (k : Packet) : Bool := k.owner != 0 && k.epoch != ownerEpoch s k.owner

/-- COPY_DATA (R349). Data that a device sends back for a copy of this device carries this device's owner instance, whose
epoch is checked as the data lands (R240). -/
def applyCopy (s : State) (key : Nat) (k : Packet) : State :=
  if k.op = 0x08 ∧ endedHere s k then bump s 0x280207 1
  else
    match farWrite s k (pkOff k) k.payload with
    | (t, none) => copyCount t key k
    | (t, some c) => sendLate t key k c

/-- What an atomic stores (Table 11-7): by kind, bytes, old value and operands; none for a kind or width there is not. -/
def atomicResult (kind bytes old a b : Nat) : Option Nat :=
  let w := 8 * bytes
  let sg (x : Nat) : Int := toSigned w x
  if kind = 0x01 then some ((old + a) % 2 ^ w)
  else if kind = 0x02 then (if bytes = 4 then some (enc32 (fpAdd (dec32 old) (dec32 a))) else none)
  else if kind = 0x03 then some a
  else if kind = 0x04 then some (if old = a then b else old)
  else if kind = 0x05 then some (old &&& a)
  else if kind = 0x06 then some (old ||| a)
  else if kind = 0x07 then some (old ^^^ a)
  else if kind = 0x08 then some (if sg old ≤ sg a then old else a)
  else if kind = 0x09 then some (if sg old ≤ sg a then a else old)
  else if kind = 0x0A then some (min old a)
  else if kind = 0x0B then some (max old a)
  else none

/-- Bytes of an atomic's field, from the length of its operands. -/
def atomicBytes (k : Packet) : Nat := if k.op = 0x04 then k.payload.length / 2 else k.payload.length

/-- Key of a ledger entry: initiator and slot. -/
def ledgerKey (k : Packet) : Nat := k.src * 256 + k.slot

/-- Answer to an atomic. -/
def atomicReply (s : State) (key : Nat) (k : Packet) (n old : Nat) (bad : Bool) : State :=
  replyTo s key k { ty := 0x05, src := 0, dst := 0, payload := natLe n old, poisoned := bad }

/-- ATOMIC at its target (R353). -/
def applyAtomic (s : State) (key : Nat) (k : Packet) : State :=
  let n := atomicBytes k
  let off := pkOff k
  match tget? s.fab.ledger (ledgerKey k) with
  | some e =>
    if e.owner = k.owner ∧ e.epoch = k.epoch ∧ e.crc = k.crc then atomicReply (bump s 0x2B0705 1) key k e.width e.old false
    else atomicReply (raiseOwner s 0xA00C srcLedger k.owner [(k.src, 12), (k.slot, 8)]) key k n 0 true
  | none =>
    match farBad s k off n with
    | some c => atomicReply (farFault s k off c 3) key k n 0 true
    | none =>
      let old := rdNat s k.owner off n
      match atomicResult k.op n old (leNat (k.payload.take n)) (leNat (k.payload.drop n)) with
      | none => atomicReply s key k n 0 true
      | some v =>
        if poisonAt s off n ∨ ¬ (n = 4 ∨ n = 8) ∨ off % n ≠ 0 then atomicReply (countPoison s off) key k n 0 true
        else
          let e : Ledger := { owner := k.owner, epoch := k.epoch, crc := k.crc, old := old, width := n }
          let s1 := wr s k.owner off (natLe n v)
          atomicReply { s1 with fab := { s1.fab with ledger := tput s1.fab.ledger (ledgerKey k) e } } key k n old false

/-- ATOMIC_RELEASE (R353). -/
def applyRelease (s : State) (k : Packet) : State :=
  { s with fab := { s.fab with ledger := tdel s.fab.ledger (ledgerKey k) } }

/-! ### Objects, messages -/

/-- An operation of another device on an object (R306). -/
def applySignalPk (s : State) (key : Nat) (k : Packet) (b : Nat) : State :=
  let obj := syKey b
  if ¬ farAdmits s obj then lateOnly (bump s 0x2A0209 1) key k refusedCode 0xFFFF
  else
    let r :=
      if k.op = 1 then objInit s k.owner k.epoch obj (syArg b) (syRemoteOk b)
      else if k.op = 2 then objFree s k.owner k.epoch obj
      else objSignal s none k.op obj (syArg b) k.src
    match r with
    | .done t => t
    | .discarded t => lateOnly t key k refusedCode 0xFFFF
    | .refused c i => lateOnly (raiseOwner s c srcSyu k.owner i) key k c 0xFFFF

/-- A watch of another device (R307). -/
def applyWatchPk (s : State) (key : Nat) (k : Packet) (w : Nat) : State :=
  let p := (objPart s (wsKey w)).getD 0
  let waits := k.op == 0x0D
  if ¬ farAdmits s (wsKey w) then lateOnly (bump s 0x2A0209 1) key k refusedCode 0xFFFF
  else if ¬ waits ∧ pEnt s 0x3028 7 p ≤ quotaUsed s p then
    lateOnly (raiseOwner s 0x9009 srcSyu k.owner [(p, 5), (pEnt s 0x3028 7 p, 32)]) key k 0x9009 0xFFFF
  else (addWatch s { spec := w, by_ := .remote k.src (wsQueue w) k.owner k.epoch waits, partition := p }).2

/-- A watch of another device removed (R309). -/
def applyUnwatchPk (s : State) (k : Packet) (id : Nat) : State :=
  match tget? s.syu.watches id with
  | some w => match w.by_ with
    | .remote d _ o _ _ => if d = k.src ∧ o = k.owner then dropWatch s id else s
    | _ => s
  | none => s

/-- SYNC (R306). -/
def applySync (s : State) (key : Nat) (k : Packet) : State :=
  let b := leNat (k.payload.take 64)
  if k.op = 0x08 ∨ k.op = 0x0D then applyWatchPk s key k (leNat (k.payload.drop 64))
  else if k.op = 0x09 then applyUnwatchPk s k (syArg b % 2 ^ 20)
  else applySignalPk s key k b

/-- WATCH_MESSAGE (R310): to its queue's ring, or to the WAIT at its head. -/
def applyMessage (s : State) (k : Packet) : State :=
  let m := leNat (k.payload.take 32)
  if endedHere s k then bump s 0x2D0608 1
  else if k.op = 0x0D then { s with syu := { s.syu with ended := tput s.syu.ended k.addr (bits m 8 8) } }
  else postMsg s k.addr (setBits m 32 32 0) true

/-! ### Late faults and results at the initiator -/

/-- The packet of this device that a late fault names, among those not acknowledged. -/
def failedSent (s : State) (key seq : Nat) : Option Sent := (flowOf s key).unacked.find? (fun x => x.pk.seq == seq)

/-- LATE_FAULT (R351): at a relay it passes on to the source of the packet. -/
def applyLate (s : State) (key : Nat) (k : Packet) : State :=
  let b := leNat (k.payload.take 32)
  let code := bits b 132 16
  let target := bits b 120 12
  let s1 := bump s 0x2B0707 1
  match failedSent s key (bits b 36 32) with
  | some x =>
    if x.pk.src = ownDev s then takeLate s1 x target code
    else sendPk s1 (2 ^ 20 + x.pk.srcRack * 4096 + x.pk.src) 0xFFFFF 0
      { ty := 0x0C, src := ownDev s, dst := x.pk.src, owner := k.owner, epoch := k.epoch, addr := k.addr, group := k.group,
        payload := natLe 32 (setBits b 36 32 x.orig) }
  | none =>
    takeLate s1 { pk := { ty := 0, src := ownDev s, dst := target, owner := bits b 180 12, epoch := bits b 164 16,
                          addr := bits b 68 52, group := bits b 148 16 } } target code

/-- Key of a ledger slot of a target. -/
def slotKey (dev slot : Nat) : Nat := dev * 256 + slot

/-- Ledger slots that the device holds at a target (R352, R366). -/
def slotLimit (d1 : Bool) : Nat := if d1 then 64 else 256

/-- Whether a target is a Druner D1: every port up towards it is linked to one (R366). -/
def isD1 (s : State) (dev : Nat) : Bool :=
  let up := (List.range 16).filter (portUp s)
  (match nearPort s dev with
    | some n => !portUp s n
    | none => true) && !up.isEmpty && up.all (portD1 s)

/-- A free slot of a target. -/
def freeSlot (s : State) (dev : Nat) : Option Nat :=
  (List.range (slotLimit (isD1 s dev))).find? (fun i => !thas s.fab.slots (slotKey dev i))

/-- Fields of an ATOMIC body (Table 13-6). -/
def amAddr (b : Nat) : Nat := bits b 460 52
def amRack (b : Nat) : Nat := bits b 448 12
def amKind (b : Nat) : Nat := bits b 440 8
def amBytes (b : Nat) : Nat := if bit b 439 then 8 else 4
def amOp1 (b : Nat) : Nat := bits b 374 64 % 2 ^ (8 * amBytes b)
def amOp2 (b : Nat) : Nat := bits b 310 64 % 2 ^ (8 * amBytes b)
def amResult (b : Nat) : Nat := bits b 270 40

/-- An atomic of a queue's head sent in a slot of its target. -/
def sendAtomic (s : State) (q : Nat) (o : Op) (slot : Nat) : State :=
  let b := o.body
  let dev := raDev (amAddr b)
  let x : AtomSlot := { owner := o.owner, epoch := o.epoch, queue := q, seq := o.seq }
  let s1 := { s with fab := { s.fab with slots := tput s.fab.slots (slotKey dev slot) x } }
  sendPk s1 dev q o.seq
    { ty := 0x04, src := ownDev s, dst := dev, owner := o.owner, epoch := o.epoch, addr := amAddr b, slot := slot, op := amKind b,
      payload := natLe (amBytes b) (amOp1 b) ++ (if amKind b = 0x04 then natLe (amBytes b) (amOp2 b) else []) }

/-- Atomics that wait for a slot of a target leave in issue order (R352). -/
def issueAtomics (dev : Nat) : Nat → State → State
  | 0, s => s
  | n + 1, s =>
    match s.fab.atomWait.find? (fun x => x.1 == dev), freeSlot s dev with
    | some w, some slot =>
      let s1 := { s with fab := { s.fab with atomWait := s.fab.atomWait.erase w } }
      match (queueOf s1 w.2.1).bind (fun x => x.ops.find? (fun o => o.seq == w.2.2 && o.progress == .started)) with
      | some o => issueAtomics dev n (sendAtomic s1 w.2.1 o slot)
      | none => issueAtomics dev n s1
    | _, _ => s

/-- Slots of a target freed, and the atomics that waited for them sent. -/
def freeSlots (s : State) (dev : Nat) (f : Nat → AtomSlot → Bool) : State :=
  issueAtomics dev 256 { s with fab := { s.fab with slots := tfilter s.fab.slots (fun k x => !(k / 256 == dev && f k x)) } }

/-- ATOMIC_RESULT (R353): the old value to its pointer, the operation done, the slot released; data marked poisoned is
written so marked. -/
def applyResult (s : State) (key : Nat) (k : Packet) : State :=
  let sk := slotKey k.src k.slot
  match tget? s.fab.slots sk with
  | none => s
  | some a =>
    if k.owner ≠ a.owner ∨ k.epoch ≠ a.epoch ∨ endedHere s k then bump s 0x2D0608 1
    else
      let done := match senderOp s a.queue a.seq with
        | none => s
        | some o =>
          let p := amResult o.body
          if o.progress ≠ .started then s
          else
            let s1 := if p = 0 then s else wr s o.owner p k.payload
            endOp (if k.poisoned ∧ p ≠ 0 then poisonS s1 p else s1) a.queue o 0x01
      let s2 := sendPk done key 0xFFFFF 0 { ty := 0x06, src := ownDev s, dst := k.src, owner := a.owner, epoch := a.epoch, slot := k.slot }
      freeSlots s2 k.src (fun x _ => x == sk)

/-! ### Epochs (R354) -/

/-- Key of an owner instance of another device. -/
def peerKey (dev owner : Nat) : Nat := dev * 4096 + owner

/-- Whether an epoch is older than another, modulo 2^16. -/
def olderEpoch (e cur : Nat) : Bool := let d := (cur + 65536 - e) % 65536; decide (0 < d ∧ d < 32768)

/-- Whether a packet carries an epoch that its device has ended (R354). -/
def stalePk (s : State) (k : Packet) : Bool :=
  k.owner != 0 && (match tget? s.fab.peerEpochs (peerKey k.src k.owner) with
    | some e => olderEpoch k.epoch e
    | none => false)

/-- Owner and epoch that an epoch packet's payload names. -/
def epOwner (k : Packet) : Nat := leNat (k.payload.take 2) % 4096
def epEpoch (k : Packet) : Nat := leNat ((k.payload.drop 2).take 2)

/-- Payload of an epoch packet. -/
def epPayload (owner epoch : Nat) : List Nat := natLe 2 owner ++ natLe 2 epoch

/-- EPOCH_NOTICE (R354, R361). -/
def applyNotice (s : State) (k : Packet) : State :=
  let s1 := { s with fab := { s.fab with peerEpochs := tput s.fab.peerEpochs (peerKey k.src (epOwner k)) (epEpoch k) } }
  homeForget s1 k.src (fun d => d.owner == epOwner k)

/-- EPOCH_CLOSE (R354): the bitmap of slots that hold applied atomics of the instance, whose entries are freed. -/
def applyClose (s : State) (key : Nat) (k : Packet) : State :=
  let mine := tfilter s.fab.ledger (fun x e => x / 256 == k.src && e.owner == epOwner k && e.epoch == epEpoch k)
  let map := mine.foldl (fun m x => m + 2 ^ (x.1 % 256)) 0
  let s1 := { s with fab := { s.fab with ledger := tfilter s.fab.ledger (fun x _ => !thas mine x) } }
  sendPk s1 key 0xFFFFF 0 { ty := 0x0F, src := ownDev s, dst := k.src, owner := epOwner k, epoch := epEpoch k,
                            payload := epPayload (epOwner k) (epEpoch k) ++ natLe 32 map }

/-- EPOCH_CLOSED (R354): the bitmap joins the reset report, and the owner's slots at the target are free. -/
def applyClosed (s : State) (k : Packet) : State :=
  let o := epOwner k
  let map := leNat ((k.payload.drop 4).take 32)
  let s1 := modOwner s o (fun x => { x with reset := x.reset.map (fun r =>
    if r.oldEpoch = epEpoch k then
      { r with answers := tput r.answers k.src ((tgetD r.answers k.src 0) ||| map), closes := r.closes.filter (· != k.src) }
    else r) })
  freeSlots s1 k.src (fun _ a => a.owner == o && a.epoch == epEpoch k)

/-! ### Copies run for another device (R349) -/

/-- REMOTE_SOURCE_COPY (R349): the copy of a body whose source is this device, run under its initiator's owner and group. -/
def applyRemoteSource (s : State) (key : Nat) (k : Packet) : State :=
  let b := leNat (k.payload.take 64)
  let src := raOff (dmSrc b)
  let n := dmSrcBytes b src
  match farBad s k src n with
  | some c => sendLate (farFault s k src c 1) key k c
  | none =>
    match firstPoison s src n with
    | some off =>
      sendLate (raiseOwner (countPoison s src) 0x3005 srcDma k.owner [(0xFFFF, 16), (off, 32)]) key k 0x3005
    | none =>
      let rows := srcRows s k.owner b src
      if dmDstTile b then
        (indexed 1 (dmRuns b (dmDst b) rows)).foldl (fun t r =>
          sendPk t key 0xFFFFF 0 { copyPacket t k.owner k.epoch b k.src r.2.1 (decide (r.1 = (dmRuns b (dmDst b) rows).length)) r.2.2
            with op := 0x08 }) s
      else match dmEnd s (dmDst b) (dmDstRack b) false with
        | .here dst =>
          copyCount (putRows s k.owner (dmW b) dst (dmLdDst b) rows) key
            { k with cmode := dmCmode b, counter := dmCounter b, flags := 1,
                     payload := List.replicate (packedBytes (dmFmt b) (dmCols b) * dmRows b) 0 }
        | .far rack dev off => sendCopy s 0xFFFFF 0 k.owner k.epoch b rack dev (dmRuns b off rows)
        | .bad => sendLate s key k 0xA006

end Sys2Proof.Machine
end

