-- ==== Sys2Proof/Machine/Coherence.lean ====
section
/-!
DEFINITION. Machine/Coherence.lean: the far-line cache and the requests of this device, and a cycle of the home
(R356 to R361).
-/
namespace Sys2Proof.Machine

/-! ### The far-line cache (R356) -/

/-- Set of a line. -/
def lineSet (addr : Nat) : Nat := bits addr 8 14

/-- The line of an owner at a rack address. -/
def lineOf (s : State) (owner addr : Nat) : Option Line :=
  s.fab.lines.find? (fun x => x.owner == owner && decide (x.addr = addr / 256 * 256))

/-- Lines left after those that pass a test go. -/
def dropLines (s : State) (f : Line → Bool) : State := { s with fab := { s.fab with lines := s.fab.lines.filter (fun x => !f x) } }

/-- A modified line written back to its home (R359). -/
def writeBack (s : State) (x : Line) : State :=
  if x.state = 2 then
    sendPk s (raDev x.addr) 0xFFFFF 0 { ty := 0x16, src := ownDev s, dst := raDev x.addr, owner := x.owner,
                                        epoch := ownerEpoch s x.owner, addr := x.addr, payload := x.data, poisoned := x.poisoned }
  else s

/-- The least recently used of a set's lines. -/
def oldestLine : List Line → Option Line
  | [] => none
  | x :: r => match oldestLine r with
    | none => some x
    | some y => if y.use < x.use then some y else some x

/-- A line allocated, the least recently used of a full set evicted (R356). -/
def allocLine (s : State) (x : Line) : State :=
  let old := s.fab.lines.filter (fun y => y.owner == x.owner && y.addr == x.addr)
  let s1 := dropLines s (fun y => old.contains y)
  let set := s1.fab.lines.filter (fun y => lineSet y.addr == lineSet x.addr)
  let s2 := match (if 16 ≤ set.length then oldestLine set else none) with
    | some v => writeBack (dropLines s1 (fun y => decide (y = v))) v
    | none => s1
  { s2 with fab := { s2.fab with lines := s2.fab.lines ++ [{ x with use := s2.fab.useClock }], useClock := s2.fab.useClock + 1 } }

/-- Bytes replaced in a line. -/
def patchLine (data : List Nat) (at_ : Nat) (b : List Nat) : List Nat := data.take at_ ++ b ++ data.drop (at_ + b.length)

/-- The first waiting request that passes a test changed. -/
def modRequest (s : State) (f : Request → Bool) (g : Request → Request) : State :=
  match s.fab.requests.find? (fun r => !r.done && f r) with
  | none => s
  | some r =>
    let i := s.fab.requests.idxOf r
    { s with fab := { s.fab with requests := s.fab.requests.set i (g r) } }

/-- Whether a request awaits an answer of a device about an address. -/
def awaits (k : Packet) (r : Request) : Bool :=
  r.home == k.src && r.owner == k.owner && decide (r.addr / 256 = k.addr / 256)

/-- LOAD_DATA (R347, R356): the waiting load completes, or its line is filled and serves it. -/
def applyLoadData (s : State) (k : Packet) : State :=
  if endedHere s k then bump s 0x2D0608 1
  else
    let s1 := match s.fab.requests.find? (fun r => !r.done && decide (r.kind ≤ 1) && awaits k r) with
      | some r => if r.kind = 1 ∧ ent s 0x2B0501 = 1 then
          allocLine s { owner := k.owner, addr := k.addr / 256 * 256, state := 0, data := k.payload, poisoned := k.poisoned, use := 0 }
        else s
      | none => s
    modRequest s1 (fun r => decide (r.kind ≤ 1) && awaits k r) (fun r =>
      { r with done := true, poisoned := k.poisoned,
               result := if r.kind = 1 then (k.payload.drop (r.addr % 256)).take r.len else k.payload })

/-- DATA (R359): the line is held in the state granted, and a store that waited for it is applied. -/
def applyData (s : State) (k : Packet) : State :=
  if endedHere s k then bump s 0x2D0608 1
  else match s.fab.requests.find? (fun r => !r.done && decide (2 ≤ r.kind) && awaits k r) with
    | none => s
    | some r =>
      let d := if r.kind = 3 then patchLine k.payload r.storeAt r.store else k.payload
      let s1 := allocLine s { owner := k.owner, addr := k.addr / 256 * 256, state := if k.op = 2 then 2 else 1, data := d,
                              poisoned := k.poisoned, use := 0 }
      modRequest s1 (fun x => decide (2 ≤ x.kind) && awaits k x) (fun x =>
        { x with done := true, poisoned := k.poisoned, result := (d.drop (x.addr % 256)).take x.len })

/-- An answer of this device to the home of a line. -/
def answerHome (s : State) (k : Packet) (ty : Nat) (data : List Nat) (bad : Bool) : State :=
  sendPk s k.src 0xFFFFF 0 { ty := ty, src := ownDev s, dst := k.src, owner := k.owner, epoch := k.epoch, addr := k.addr,
                             payload := data, poisoned := bad }

/-- INV (R359). -/
def applyInv (s : State) (k : Packet) : State :=
  answerHome (dropLines s (fun x => decide (x.addr = k.addr / 256 * 256) && x.state != 0)) k 0x14 [] false

/-- RECALL (R359): a line that has gone was written back before, and its PUT_M answers (R360). -/
def applyRecall (s : State) (k : Packet) : State :=
  match s.fab.lines.find? (fun x => decide (x.addr = k.addr / 256 * 256) && x.state == 2) with
  | some x => answerHome (dropLines s (fun y => decide (y = x))) { k with owner := x.owner } 0x16 x.data x.poisoned
  | none => s

/-- RETRY_AFTER (R360). -/
def applyRetryAfter (s : State) (k : Packet) : State :=
  modRequest s (fun r => decide (2 ≤ r.kind) && awaits k r) (fun r => { r with retry := true })

/-- A request's message to the home. -/
def sendRequest (s : State) (r : Request) : State :=
  sendPk s r.home 0xFFFFF 0 { ty := if r.kind = 3 then 0x11 else 0x10, src := ownDev s, dst := r.home, owner := r.owner,
                              epoch := r.epoch, addr := r.addr / 256 * 256 }

/-- RETRY_AFTER_EXPIRY (R360): the request is sent again. -/
def execRetryAfterExpiry (request : Nat) (s : State) : Host.Outcome State Fault Refusal :=
  .next (match s.fab.requests[request]? with
    | none => s
    | some r =>
      if r.retry ∧ ¬ r.done then
        sendRequest { s with fab := { s.fab with requests := s.fab.requests.set request { r with retry := false } } } r
      else s)

/-- Coherent requests of this device that a late fault refuses complete poisoned (R358). -/
def refuseRequests (s : State) (dev addr : Nat) : State :=
  modRequest s (fun r => r.home == dev && decide (2 ≤ r.kind ∧ r.addr / 256 = addr / 256)) (fun r =>
    { r with done := true, poisoned := true })

/-! ### A cycle of the home (R360) -/

/-- Line of the region that a message names. -/
def pkLine (k : Packet) : Nat := raOff k.addr / 256

/-- Device IDs as a contest takes them, from the pointer up. -/
def contestRank (ptr d : Nat) : Nat := (d + 64 - ptr % 64) % 64

/-- Requests in the order of the contest. -/
def insertContest (ptr : Nat) (x : Nat × Packet) : List (Nat × Packet) → List (Nat × Packet)
  | [] => [x]
  | y :: r => if contestRank ptr x.2.src < contestRank ptr y.2.src then x :: y :: r else y :: insertContest ptr x r

/-- RETRY_AFTER sent to losers, by rank. -/
def sendRetries (s : State) : Nat → List (Nat × Packet) → State
  | _, [] => s
  | rank, x :: r =>
    let wait := ent s 0x2B0504 * (1 + rank)
    sendRetries (bump (sendPk s x.1 0xFFFFF 0 { ty := 0x17, src := ownDev s, dst := x.2.src, owner := x.2.owner, epoch := x.2.epoch,
                                                addr := x.2.addr, payload := natLe 4 wait }) 0x2B0708 1) (rank + 1) r

/-- GET_S and GET_M of one cycle about one line (R360). -/
def homeGets (s : State) (l : Nat) (gets : List (Nat × Packet)) : State :=
  if (dirOf s l).busy then gets.foldl (fun t x => sendRetries t 0 [x]) s
  else match gets.foldl (fun a x => insertContest s.fab.rrPtr x a) [] with
    | [] => s
    | w :: losers =>
      let s1 := { s with fab := { s.fab with rrPtr := (w.2.src + 1) % 64 } }
      sendRetries (homeStart s1 l (if w.2.ty = 0x11 then 2 else 1) w.2.src w.2.owner w.2.epoch) 0 losers

/-- A coherent request outside the region (R358). -/
def refuseRange (s : State) (x : Nat × Packet) : State :=
  lateOnly (raiseOwner s 0xA00F srcFlc x.2.owner [(x.2.src, 12), (x.2.addr, 52)]) x.1 x.2 0xA00F 0xFFFF

/-- The messages that a cycle brings to the home, each with its flow: write-backs, then requests, line by line. -/
def homeCycle (s : State) (msgs : List (Nat × Packet)) : State :=
  let s1 := (msgs.filter (fun x => x.2.ty == 0x16)).foldl (fun t x => homePut t (pkLine x.2) x.2.src x.2.owner x.2.payload) s
  let gets := msgs.filter (fun x => x.2.ty == 0x10 || x.2.ty == 0x11)
  let s2 := (gets.filter (fun x => !cohIn s1 (raOff x.2.addr))).foldl refuseRange s1
  let inR := gets.filter (fun x => cohIn s1 (raOff x.2.addr))
  ((inR.map (fun x => pkLine x.2)).eraseDups).foldl (fun t l => homeGets t l (inR.filter (fun x => pkLine x.2 == l))) s2

/-! ### FLC_INVALIDATE (R357) -/

/-- Lines of an owner dropped, modified ones written back first. -/
def evictLines (s : State) (f : Line → Bool) : State :=
  let l := s.fab.lines.filter f
  l.foldl (fun t x => writeBack t x) (dropLines s f)

/-- FLC_INVALIDATE: one owner's lines in a rack address range, or all of them. -/
def flcDrop (q : Nat) (s : State) (_x : Queue) (o : Op) (_h : Head) : State :=
  let b := o.body
  let a := bits b 460 52
  let n := bits b 420 40
  let all := bit b 419
  endOp (evictLines s (fun y => y.owner == o.owner && (all || decide (a / 256 * 256 ≤ y.addr ∧ y.addr < a + n)))) q o 0x01

/-- FLC_INVALIDATE (R357). -/
def execFlcInvalidate (q : Nat) (s : State) : Host.Outcome State Fault Refusal := .next (runHead s q 0x0C 0 .ready (flcDrop q))

end Sys2Proof.Machine
end

