-- ==== Sys2Proof/Machine/Atomics.lean ====
section
/-!
DEFINITION. Machine/Atomics.lean: the ATOMIC operations of queues (R348, R352, R366).
-/
namespace Sys2Proof.Machine

/-- Kinds of Table 11-7 that a width admits. -/
def amKnown (kind bytes : Nat) : Bool := decide (1 ≤ kind ∧ kind ≤ 0x0B) && (kind != 0x02 || bytes == 4)

/-- Whether the guard refuses an atomic for its form: reserved address bits, kind, width, alignment, or a target that is a
Druner D1 outside Table 11-10 (R346, R348, R366). -/
def amFormBad (s : State) (b : Nat) : Bool :=
  raBad (amAddr b) || !amKnown (amKind b) (amBytes b) || raOff (amAddr b) % amBytes b != 0 ||
  (amRack b == ownRack s && isD1 s (raDev (amAddr b)) && !(amBytes b == 8 && [0x01, 0x03, 0x04].contains (amKind b)))

/-- A refusal of the guard. -/
def amRefuse (s : State) (q : Nat) (o : Op) : State :=
  refuseOp s q o 0xA006 srcGuard (guardItems o.owner (raDev (amAddr o.body)) (amAddr o.body) .atomic)

/-- An atomic on the device's own memory, one read-modify-write at the MC (R239, R346). -/
def amLocal (s : State) (q : Nat) (o : Op) : State :=
  let b := o.body
  let a := raOff (amAddr b)
  let n := amBytes b
  if ¬ winOk s o.owner a n .atomic then
    refuseOp (bump s 0x280206 1) q o 0x7003 srcMc [(a, 39), (Config.causeCode 0x7003 3, 8), (srcQueue, 7)]
  else
    let old := rdNat s o.owner a n
    let bad := poisonAt s a n
    let v := (atomicResult (amKind b) n old (amOp1 b) (amOp2 b)).getD old
    let s1 := if bad then countPoison s a else wr s o.owner a (natLe n v)
    let p := amResult b
    let s2 := if p = 0 then s1 else wr s1 o.owner p (natLe n old)
    endOp (if bad ∧ p ≠ 0 then poisonS s2 p else s2) q o 0x01

/-- An ATOMIC that has passed its queue's checks. -/
def amRun (q : Nat) (s : State) (_x : Queue) (o : Op) (_h : Head) : State :=
  let b := o.body
  let dev := raDev (amAddr b)
  if amResult b ≠ 0 ∧ ¬ ptrOk s o.owner (amResult b) (amBytes b) .write then badPtr s q o 270
  else if amFormBad s b then amRefuse s q o
  else if amRack b = ownRack s ∧ dev = ownDev s then amLocal s q o
  else match guardWin s o.owner (amRack b) dev (raOff (amAddr b)) (amBytes b) .atomic with
    | none => amRefuse s q o
    | some _ =>
      if amRack b ≠ ownRack s then amRefuse s q o
      else match (if s.fab.atomWait.any (fun x => x.1 == dev) then none else freeSlot s dev) with
        | some slot => sendAtomic s q o slot
        | none => { s with fab := { s.fab with atomWait := s.fab.atomWait ++ [(dev, q, o.seq)] } }

/-- Whether a queue's head is a sound atomic of another kind than a row's; unknown kinds belong to every row. -/
def amOther (s : State) (q kind : Nat) : Bool :=
  match queueOf s q with
  | none => true
  | some x => match qHead x with
    | none => true
    | some o => (descCheck (qVersion x) o.hdr o.body).isNone && decide (1 ≤ amKind o.body ∧ amKind o.body ≤ 0x0B) && amKind o.body != kind

/-- A row of a kind. -/
def amExec (kind q : Nat) (s : State) : State :=
  if amOther s q kind then s else runHead s q 0x0B 0 .ready (amRun q)

/-- ATOMIC_ADD (R348). -/
def execAtomicAdd (q : Nat) (s : State) : Host.Outcome State Fault Refusal := .next (amExec 0x01 q s)
/-- ATOMIC_FADD (R348). -/
def execAtomicFadd (q : Nat) (s : State) : Host.Outcome State Fault Refusal := .next (amExec 0x02 q s)
/-- ATOMIC_SWAP (R348). -/
def execAtomicSwap (q : Nat) (s : State) : Host.Outcome State Fault Refusal := .next (amExec 0x03 q s)
/-- ATOMIC_CAS (R348). -/
def execAtomicCas (q : Nat) (s : State) : Host.Outcome State Fault Refusal := .next (amExec 0x04 q s)
/-- ATOMIC_AND (R348). -/
def execAtomicAnd (q : Nat) (s : State) : Host.Outcome State Fault Refusal := .next (amExec 0x05 q s)
/-- ATOMIC_OR (R348). -/
def execAtomicOr (q : Nat) (s : State) : Host.Outcome State Fault Refusal := .next (amExec 0x06 q s)
/-- ATOMIC_XOR (R348). -/
def execAtomicXor (q : Nat) (s : State) : Host.Outcome State Fault Refusal := .next (amExec 0x07 q s)
/-- ATOMIC_SMIN (R348). -/
def execAtomicSmin (q : Nat) (s : State) : Host.Outcome State Fault Refusal := .next (amExec 0x08 q s)
/-- ATOMIC_SMAX (R348). -/
def execAtomicSmax (q : Nat) (s : State) : Host.Outcome State Fault Refusal := .next (amExec 0x09 q s)
/-- ATOMIC_UMIN (R348). -/
def execAtomicUmin (q : Nat) (s : State) : Host.Outcome State Fault Refusal := .next (amExec 0x0A q s)
/-- ATOMIC_UMAX (R348). -/
def execAtomicUmax (q : Nat) (s : State) : Host.Outcome State Fault Refusal := .next (amExec 0x0B q s)

end Sys2Proof.Machine
end

