-- ==== Sys2Proof/Machine/CardLand.lean ====
section
/-!
DEFINITION. Machine/CardLand.lean: the carding control block, slot maps and their headers, and what rows and fill messages
do where they land (R202 to R217, R223, R227, R229).
-/
namespace Sys2Proof.Machine

/-! ### The carding control block (Table 07-10) -/

def ccOut (b : Nat) : Nat := bits b 744 40
def ccAux (b : Nat) : Nat := bits b 704 40
def ccGg (b : Nat) : Nat := bits b 664 40
def ccDy (b : Nat) : Nat := bits b 624 40
def ccSummary (b : Nat) : Nat := bits b 584 40
def ccIndex (b : Nat) : Nat := bits b 544 40
def ccX (b : Nat) : Nat := bits b 504 40
def ccBias (b : Nat) : Nat := bits b 464 40
def ccLogits (b : Nat) : Nat := bits b 424 40
def ccMapPtr (b : Nat) : Nat := bits b 384 40
def ccListPtr (b : Nat) : Nat := bits b 344 40
def ccHome (b : Nat) : Nat := bits b 304 39
def ccPlane (b : Nat) : Nat := bits b 272 32 * 1024
def ccSlotMap (b : Nat) : Nat := bits b 232 39
def ccArrival (b : Nat) : Nat := bits b 216 16
def ccTarget (b : Nat) : Nat := bits b 184 32
def ccStart (b : Nat) : Nat := bits b 168 16
def ccScale (b : Nat) : Nat := bits b 136 32
def ccOutFmt (b : Nat) : Nat := bits b 128 8
def ccDxFmt (b : Nat) : Nat := bits b 120 8
def ccGFmt (b : Nat) : Nat := bits b 112 8
def ccYFmt (b : Nat) : Nat := bits b 104 8
def ccXFmt (b : Nat) : Nat := bits b 96 8
def ccLayer (b : Nat) : Nat := bits b 80 16
def ccMembers (b : Nat) : Nat := bits b 67 10 + 1
def ccExperts (b : Nat) : Nat := bits b 55 12 + 1
def ccWidth (b : Nat) : Nat := bits b 40 15
def ccTokens (b : Nat) : Nat := bits b 24 16 + 1
def ccChoices (b : Nat) : Nat := bits b 20 4 + 1
def ccHasBias (b : Nat) : Bool := bit b 18
def ccBf16 (b : Nat) : Bool := bit b 17
def ccChunks (b : Nat) : Nat := 2 ^ bits b 14 3
def ccGate (b : Nat) : Nat := bits b 12 2
def ccKind (b : Nat) : Nat := bits b 8 4

/-- Row bytes of a format byte and width (R229). -/
def cardRowBytes (f d : Nat) : Nat :=
  roundUp (d * elemBits (fbCode f) / 8 + (if isMx (fbCode f) then d / 32 else 0)) 64

/-- Sliver length (R202). -/
def sliverLen (t : Nat) : Nat := ceilDiv t 16

/-- Tokens of chunk c (R20): first, and after the last. -/
def chunkTokens (t c chunks : Nat) : Nat × Nat :=
  let n := ceilDiv t chunks
  (min (c * n) t, min ((c + 1) * n) t)

/-- Whether a sliver belongs to a chunk (R202). -/
def sliverIn (v c chunks : Nat) : Bool := decide (v * chunks / 16 = c)

/-! ### Slot maps (R203, R206, Table 07-5) -/

/-- Rows reserved for an expert. -/
def mapRexp (members sliver : Nat) : Nat := 16 * members * sliver

/-- Bytes of a fill area. -/
def fillBytes (hosted members : Nat) : Nat := hosted * 64 * members

/-- Offset of the chunk fill areas, of the tag area, and the end of the control areas. -/
def mapFills (hosted members : Nat) : Nat := roundUp (4096 + fillBytes hosted members) 4096
def mapTags (hosted members chunks : Nat) : Nat := roundUp (mapFills hosted members + chunks * fillBytes hosted members) 4096
def mapEnd (hosted members sliver chunks : Nat) : Nat := mapTags hosted members chunks + hosted * mapRexp members sliver * 8

/-- Offset of the first row of a home plane (R223). -/
def homeRows (tokens choices : Nat) : Nat := roundUp (ceilDiv (tokens * choices) 8) 4096

/-- A slot map header of a binding (Table 07-6). -/
def mapHeader (layer step digest : Nat) : Nat := fld step 256 64 + fld layer 240 16 + fld 1 232 8 + fld digest 192 32

/-- What keeps a row or message from landing: a fault's code and detail. -/
abbrev CardBad := Nat × List (Nat × Nat)

/-- What reads poisoned (0x600C): the structure by its number, and the offset of what was read in its space. -/
def cardPoisoned (structure_ at_ : Nat) : CardBad :=
  (0x600C, [(Config.causeCode 0x600C structure_, 16), (ptrOff at_, if isTile at_ then 29 else 39)])

/-- What a slot map's binding says to an event of a layer, step and digest (R209): unbound, the same, or a refusal. -/
def mapBinding (s : State) (o off layer step digest source : Nat) : Option CardBad × Bool :=
  if poisonAt s off 64 then (some (cardPoisoned 10 off), false)
  else
    let h := rdNat s o off 64
    let st := bits h 232 8
    if st = 0 then (none, true)
    else if st ≠ 1 ∨ bits h 240 16 ≠ layer ∨ bits h 256 64 ≠ step then
      (some (0x6003, [(bits h 240 16, 16), (bits h 256 64, 64)]), false)
    else if bits h 192 32 ≠ digest then (some (0x6004, [(bits h 192 32, 32), (digest, 32), (source, 12)]), false)
    else (none, false)

/-- A slot map bound (R209): its header written whole, and its rows counted from zero. -/
def bindMap (s : State) (o off layer step digest : Nat) : State :=
  let s1 := wr s o off (natLe 64 (mapHeader layer step digest))
  { s1 with card := { s1.card with maps := tput s1.card.maps off {} } }

/-- Count of rows landed. -/
def landedKey (g : Geom) (chunk : Nat) : Nat := chunk * 1024 + g.source
def landedF (s : State) (g : Geom) (chunk : Nat) : Nat := tgetD (tgetD s.card.maps g.mapOff {}).rowsF (landedKey g chunk) 0
def landedB (s : State) (g : Geom) (chunk : Nat) : Nat := tgetD (tgetD s.card.maps g.mapOff {}).rowsB (landedKey g chunk) 0

/-- One row more counted, forward or backward. -/
def countLanded (s : State) (g : Geom) (chunk : Nat) (fwd : Bool) : State :=
  let m := tgetD s.card.maps g.mapOff {}
  let k := landedKey g chunk
  let n := if fwd then { m with rowsF := tput m.rowsF k (tgetD m.rowsF k 0 + 1) } else { m with rowsB := tput m.rowsB k (tgetD m.rowsB k 0 + 1) }
  bump { s with card := { s.card with maps := tput s.card.maps g.mapOff n } } 0x270203 1

/-- What landing comes to. -/
structure Landed where
  s : State
  bad : Option CardBad := none

/-- A write of the landing logic (R249): refused by a failed part, an empty key slot or an address there is not. -/
def landWrite (s : State) (o off : Nat) (b : List Nat) (next : State → Landed) : Landed :=
  match farWrite s { ty := 0x0A, src := ownDev s, dst := ownDev s, owner := o } off b with
  | (t, none) => next t
  | (t, some c) => ⟨t, some (c, [])⟩

/-- The step that binding compares and writes: the current step of the owner's partition (R209). -/
def ownerStep (s : State) (o : Nat) : Nat := if o = 0 then 0 else stepNumber s (ownerPart s o)

/-- The binding of a slot map by an arriving packet (R209). -/
def landBind (s : State) (o layer : Nat) (g : Geom) (next : State → Landed) : Landed :=
  match mapBinding s o g.mapOff layer g.step g.digest g.source with
  | (some b, _) => ⟨s, some b⟩
  | (none, true) => next (bindMap s o g.mapOff layer (ownerStep s o) g.digest)
  | (none, false) => next s

/-! ### Rows -/

/-- A slot tag (Table 07-8). -/
def slotTag (home choice token : Nat) : Nat := fld home 38 10 + fld choice 34 4 + fld token 0 32

/-- Carding prefix of a row segment (R336). -/
def cardPrefix (tag layer chunk dir seg : Nat) : List Nat := natLe 8 tag ++ natLe 2 layer ++ [chunk, dir] ++ natLe 2 seg ++ [0, 0]

/-- Whether a slot row lies in the segments of its source and chunk (R215). -/
def slotIn (g : Geom) (chunk : Nat) : Bool :=
  let r := mapRexp g.members g.sliver
  let j := g.slot % r / g.sliver
  decide (g.slot / r < g.hosted) && decide (j / 16 = g.source) && sliverIn (j % 16) chunk g.chunks

/-- A segment of a row in its plane; the first byte of segment i lies 8,192·i from the row's. -/
def segAt (g : Geom) (base row seg : Nat) : Nat := base + row * g.rowBytes + 8192 * seg

/-- Place of a slot's tag. -/
def tagAt (g : Geom) : Nat := g.mapOff + mapTags g.hosted g.members g.chunks + 8 * g.slot

/-- A forward row's segment (R215): the checks apply to the assembled row, and its tag and count come with the last. -/
def landForward (s : State) (o layer chunk tag seg : Nat) (g : Geom) (data : List Nat) : Landed :=
  landBind s o layer g (fun s1 =>
    if ¬ slotIn g chunk then ⟨s1, some (0x6006, [(g.source, 12), (chunk, 4), (g.slot, 32)])⟩
    else landWrite s1 o (segAt g (g.mapOff + g.plane) g.slot seg) data (fun s2 =>
      if seg + 1 < g.segs then ⟨s2, none⟩
      else landWrite s2 o (tagAt g) (natLe 8 tag) (fun s3 => ⟨countLanded s3 g chunk true, none⟩)))

/-- Detail of fault 0x600A. -/
def returnItems (member token choice : Nat) : List (Nat × Nat) := [(member, 12), (token, 32), (choice, 4)]

/-- A backward row's segment (R227), against the tag that forward wrote. -/
def landBackward (s : State) (o chunk tag seg : Nat) (g : Geom) (data : List Nat) : Landed :=
  if g.hosted * mapRexp g.members g.sliver ≤ g.slot then
    ⟨s, some (0x600A, returnItems g.source (bits tag 0 32) (bits tag 34 4))⟩
  else if poisonAt s (tagAt g) 8 then ⟨s, some (cardPoisoned 5 (tagAt g))⟩
  else if rdNat s o (tagAt g) 8 ≠ tag then ⟨s, some (0x600A, returnItems g.source (bits tag 0 32) (bits tag 34 4))⟩
  else landWrite s o (segAt g (g.mapOff + g.plane) g.slot seg) data (fun s1 =>
    if seg + 1 < g.segs then ⟨s1, none⟩ else ⟨countLanded s1 g chunk false, none⟩)

/-- Key of a layer's index table. -/
def layerKey (o layer : Nat) : Nat := o * 2 ^ 16 + layer

/-- What the home's index entry says of a returned row: poison, or its expert; none where no operation of the layer has
named an index table here. -/
def homeExpert (s : State) (o layer row : Nat) : Option (Option Nat) :=
  match tget? s.card.indexes (layerKey o layer) with
  | none => some none
  | some e => match readStruct s e.1 (e.2 + 16 * row) 16 with
    | none => none
    | some x => some (some (bits x 52 12))

/-- An increment of the landing logic by 1 for a packet of another device (R306) or for this one's own. -/
def landCount (s : State) (far : Bool) (counter : Nat) : Landed :=
  if far ∧ ¬ farAdmits s (objKey 2 counter) then ⟨bump s 0x2A0209 1, some (refusedCode, [])⟩
  else ⟨engineAdd s counter 1, none⟩

/-- A returned row's segment (R223). -/
def landReturn (s : State) (far : Bool) (o layer chunk tag seg : Nat) (g : Geom) (data : List Nat) : Landed :=
  let t := bits tag 0 32
  let r := bits tag 34 4
  let row := t * g.choices + r
  match homeExpert s o layer row with
  | none => ⟨s, some (cardPoisoned 4 ((((tget? s.card.indexes (layerKey o layer)).map (·.2)).getD 0) + 16 * row))⟩
  | some e =>
    if e ≠ some g.expert then ⟨s, some (0x600A, returnItems g.source t r)⟩
    else landWrite s o (segAt g (g.mapOff + homeRows g.tokens g.choices) row seg) data (fun s1 =>
      if seg + 1 < g.segs then ⟨s1, none⟩
      else
        let at_ := g.mapOff + row / 8
        let b := rdNat s1 o at_ 1
        let s2 := bump s1 0x270203 1
        if bit b (row % 8) then ⟨bump s2 0x27020A 1, none⟩
        else landWrite s2 o at_ [b + 2 ^ (row % 8)] (fun s3 => landCount s3 far (g.arrival + chunk)))

/-! ### Fill messages (Table 07-9) -/

/-- Fields of a fill message's header. -/
def fhTotal (h : Nat) : Nat := bits h 224 32
def fhDigest (h : Nat) : Nat := bits h 192 32
def fhStep (h : Nat) : Nat := bits h 128 64
def fhLayer (h : Nat) : Nat := bits h 112 16
def fhHosted (h : Nat) : Nat := bits h 99 13
def fhSource (h : Nat) : Nat := bits h 89 10
def fhChunk (h : Nat) : Nat := bits h 85 4
def fhBack (h : Nat) : Bool := bit h 84
def fhAbort (h : Nat) : Bool := bit h 83

/-- A fill message's header. -/
def fillHeader (total digest step layer hosted source chunk : Nat) (back abort : Bool) : Nat :=
  fld total 224 32 + fld digest 192 32 + fld step 128 64 + fld layer 112 16 + fld hosted 99 13 + fld source 89 10 +
  fld chunk 85 4 + fld (b2n back) 84 1 + fld (b2n abort) 83 1 + 2

/-- Words of a string of bytes. -/
def leWords (b : List Nat) : List Nat := (splitEvery 4 (b.length / 4) b).map leNat

/-- Whether a fill message passes the checks of R216. -/
def fillOk (g : Geom) (h rows : Nat) (counts : List Nat) : Bool :=
  bits h 8 75 == 0 && bits h 0 8 == 2 && fhHosted h == g.hosted && counts.length == 16 * g.hosted && fhTotal h == rows &&
  counts.foldl (· + ·) 0 == fhTotal h && counts.all (fun n => decide (n ≤ g.sliver))

/-- Detail of fault 0x6007. -/
def fillItems (g : Geom) (h rows : Nat) : List (Nat × Nat) := [(g.source, 12), (fhChunk h, 4), (fhTotal h, 32), (rows, 32)]

/-- Place of the 16 counts of a source and a local expert in a fill area. -/
def fillWord (g : Geom) (area l : Nat) : Nat := area + 4 * (l * 16 * g.members + g.source * 16)

/-- Chunk fill area and aggregate fill area. -/
def chunkArea (g : Geom) (chunk : Nat) : Nat := g.mapOff + mapFills g.hosted g.members + chunk * fillBytes g.hosted g.members
def aggArea (g : Geom) : Nat := g.mapOff + 4096

/-- Counts that a fill area holds for a source. -/
def heldCounts (s : State) (o area : Nat) (g : Geom) : List Nat :=
  (List.range g.hosted).flatMap (fun l => leWords (rd s o (fillWord g area l) 64))

/-- Counts written into the chunk fill area, and those of the chunk's own slivers into the aggregate. -/
def writeFills (s : State) (o chunk : Nat) (g : Geom) (counts : List Nat) : State :=
  let w := 16 / g.chunks
  (List.range g.hosted).foldl (fun t l =>
    let c := (counts.drop (16 * l)).take 16
    let t1 := wr t o (fillWord g (chunkArea g chunk) l) (c.flatMap (natLe 4))
    wr t1 o (fillWord g (aggArea g) l + 4 * chunk * w) (((c.drop (chunk * w)).take w).flatMap (natLe 4))) s

/-- Place and bit of the receipt of a chunk from a source. -/
def receiptAt (g : Geom) (chunk : Nat) : Nat × Nat := (g.mapOff + 64 + (chunk * 1024 + g.source) / 8, g.source % 8)

/-- An aborting fill message poisons its chunk's counter (R216). -/
def landAbort (s : State) (src counter : Nat) : State := peerPoison s (objKey 2 counter) 2 src

/-- A forward fill message (R216, R217). -/
def landFill (s : State) (far : Bool) (o src : Nat) (g : Geom) (h : Nat) (counts : List Nat) : Landed :=
  landBind s o (fhLayer h) { g with step := fhStep h, digest := fhDigest h } (fun s0 =>
    let c := fhChunk h
    let s1 := bump s0 0x270204 1
    let rows := landedF s1 g c
    let r := receiptAt g c
    let b := rdNat s1 o r.1 1
    if fhAbort h then ⟨landAbort s1 src (g.arrival + c), none⟩
    else if bit b r.2 then
      (if heldCounts s1 o (chunkArea g c) g = counts then ⟨bump s1 0x27020A 1, none⟩
       else ⟨s1, some (0x6007, fillItems g h rows)⟩)
    else if ¬ fillOk g h rows counts then ⟨s1, some (0x6007, fillItems g h rows)⟩
    else landWrite s1 o r.1 [b + 2 ^ r.2] (fun s2 => landCount (writeFills s2 o c g counts) far (g.arrival + c)))

/-- A backward fill message (R227). -/
def landFillBack (s : State) (far : Bool) (o src : Nat) (g : Geom) (h : Nat) (counts : List Nat) : Landed :=
  let c := fhChunk h
  let s1 := bump s 0x270204 1
  let rows := landedB s1 g c
  if fhAbort h then ⟨landAbort s1 src (g.arrival + c), none⟩
  else if ¬ fillOk g h rows counts then ⟨s1, some (0x6007, fillItems g h rows)⟩
  else if heldCounts s1 o (chunkArea g c) g ≠ counts then ⟨s1, some (0x6008, [(g.source, 12), (c, 4)])⟩
  else landCount s1 far (g.arrival + c)

/-! ### Landing of a packet of another device -/

/-- A row's packet landed: what its prefix and its exchange say. -/
def landRowPk (s : State) (far : Bool) (k : Packet) (g : Geom) : Landed :=
  let tag := leNat (k.payload.take 8)
  let layer := leNat ((k.payload.drop 8).take 2)
  let chunk := leNat ((k.payload.drop 10).take 1)
  let seg := leNat ((k.payload.drop 12).take 2)
  let data := k.payload.drop 16
  if g.kind = 0 then landForward s k.owner layer chunk tag seg g data
  else if g.kind = 1 then landBackward s k.owner chunk tag seg g data
  else landReturn s far k.owner layer chunk tag seg g data

/-- A fill message's packet landed. -/
def landFillPk (s : State) (far : Bool) (k : Packet) (g : Geom) : Landed :=
  let h := leNat (k.payload.take 32)
  let counts := leWords (k.payload.drop 32)
  if g.kind = 0 then landFill s far k.owner k.src g h counts else landFillBack s far k.owner k.src g h counts

/-- A packet of the exchange landed. -/
def landPk (s : State) (far : Bool) (k : Packet) : Landed :=
  match k.geom with
  | none => ⟨s, none⟩
  | some g => if k.ty = 0x0B then landFillPk s far k g else landRowPk s far k g

/-- Codes of the Carding Engine's own faults, which it raises as the check fails; memory's are raised there. -/
def cardCode (c : Nat) : Bool := decide (0x6000 ≤ c ∧ c < 0x7000)

/-- A packet of the exchange from another device (R209, R215, R216, R351): what fails raises its fault, poisons the
counter of its chunk, and returns a late fault. -/
def applyCard (s : State) (key : Nat) (k : Packet) : State :=
  let r := landPk s true k
  match r.bad with
  | none => r.s
  | some (c, items) =>
    let s1 := if cardCode c then raiseOwner r.s c srcCde k.owner items else r.s
    if c = refusedCode then lateOnly s1 key k c 0xFFFF
    else lateOnly (peerPoison s1 (objKey 2 k.counter) 2 k.src) key k c k.counter

end Sys2Proof.Machine
end

