-- ==== Sys2Proof/Machine/VectorLib.lean ====
section
/-!
DEFINITION. Machine/VectorLib.lean: the functions of the Vector Engine on rows of values (R137 to R143, R169).
-/
namespace Sys2Proof.Machine

/-- One level of a pairwise sum (R141). -/
def pairLevel : List Fp → List Fp
  | a :: b :: r => rne32 (fpAdd a b) :: pairLevel r
  | l => l

/-- Levels of a pairwise sum until one value remains. -/
def pairLevels : Nat → List Fp → List Fp
  | 0, l => l
  | n + 1, l => pairLevels n (pairLevel l)

/-- ceil(log2 n). -/
def clog2 (n : Nat) : Nat := if n ≤ 1 then 0 else Nat.log2 (n - 1) + 1

/-- The pairwise sum of R141, padded with +0 to a power of two. -/
def pairSum (v : List Fp) : Fp :=
  let k := clog2 v.length
  (pairLevels k (v ++ List.replicate (2 ^ k - v.length) (fpZero false))).headD (fpZero false)

/-- sum_d1 of R169 over blocks of 32 values. -/
def sumD1Blocks : Nat → List Fp → Fp → Fp
  | 0, _, s => s
  | n + 1, v, s =>
    let b := v.take 32
    sumD1Blocks n (v.drop 32) (rne32 (fpAdd s (pairSum (b ++ List.replicate (32 - b.length) (fpZero false)))))

/-- sum_d1 of R169. -/
def sumD1 (v : List Fp) : Fp := sumD1Blocks (ceilDiv v.length 32) v (fpZero false)

/-- Row sum under the special function mode (R141). -/
def rowSum (d1 : Bool) (v : List Fp) : Fp := if d1 then sumD1 v else pairSum v

/-- Maximum in ascending element order (Table 05-1). -/
def rowMax : List Fp → Fp
  | [] => .inf true
  | x :: r => r.foldl fpMax x

/-- Fused multiply-add: one rounding to FP32 (R137). -/
def fma32 (a b c : Fp) : Fp := rne32 (fpAdd (fpMul a b) c)

/-- inv_d of R142. -/
def invD (d : Nat) : Fp := rneQuot 1 d

/-- Mean of a row (R142). -/
def rowMean (d1 : Bool) (x : List Fp) : Fp := rne32 (fpMul (rowSum d1 x) (invD x.length))

/-- dv of R142. -/
def rowDev (d1 : Bool) (x : List Fp) : List Fp := let m := rowMean d1 x; x.map (fun v => rne32 (fpSub v m))

/-- Variance of a row (R142). -/
def rowVariance (d1 : Bool) (x : List Fp) : Fp :=
  rne32 (fpMul (rowSum d1 ((rowDev d1 x).map (fun v => rne32 (fpMul v v)))) (invD x.length))

/-- Mean square of a row, rms² of R142. -/
def rowRms (d1 : Bool) (x : List Fp) : Fp :=
  rne32 (fpMul (rowSum d1 (x.map (fun v => rne32 (fpMul v v)))) (invD x.length))

/-- norm_apply of R142. -/
def normApply (d1 : Bool) (eps : Fp) (x g b : List Fp) : List Fp :=
  let r := sfu d1 .rsqrt (rne32 (fpAdd (rowVariance d1 x) eps))
  (List.zip (rowDev d1 x) (List.zip g b)).map (fun t => fma32 (rne32 (fpMul t.1 r)) t.2.1 t.2.2)

/-- rms_apply of R142. -/
def rmsApply (d1 : Bool) (eps : Fp) (x g : List Fp) : List Fp :=
  let r := sfu d1 .rsqrt (rne32 (fpAdd (rowRms d1 x) eps))
  (List.zip x g).map (fun t => rne32 (fpMul (rne32 (fpMul t.1 r)) t.2))

/-- gated_unit of one element (R143). -/
def gatedElem (d1 : Bool) (g u : Fp) : Fp :=
  let t := sfu d1 .exp (fpNegate g)
  let v := sfu d1 .recip (rne32 (fpAdd fpOne t))
  rne32 (fpMul (rne32 (fpMul g v)) u)

/-- One row of softmax_tile_d1 (R169): new m, l, output partial and p. -/
def softmaxD1Row (m l : Fp) (o y : List Fp) : Fp × Fp × List Fp × List Fp :=
  let mnew := fpMax m (rowMax y)
  let up := fpLt m mnew
  let g := d1Exp2 (rne32 (fpSub m mnew))
  let l1 := if up then rne32 (fpMul l g) else l
  let o1 := if up then o.map (fun v => rne32 (fpMul v g)) else o
  let m1 := if up then mnew else m
  let p := y.map (fun v => d1Exp2 (rne32 (fpSub v m1)))
  (m1, rne32 (fpAdd l1 (sumD1 p)), o1, p)

end Sys2Proof.Machine
end

