-- ==== Sys2Proof/Machine/Vector.lean ====
section
/-!
DEFINITION. Machine/Vector.lean: the operations of the Vector Engine (R137 to R143, R169, R175, R178, R421), and its faults
(R171). Block scales of an MX operand lie at the next 256-byte boundary after its elements, as R159 places them.
-/
namespace Sys2Proof.Machine

/-! ### The body (Table 13-7) -/

def vcFn (b : Nat) : Nat := bits b 504 8
def vcSrc0 (b : Nat) : Nat := bits b 464 40
def vcSrc1 (b : Nat) : Nat := bits b 424 40
def vcSrc2 (b : Nat) : Nat := bits b 384 40
def vcOut (b : Nat) : Nat := bits b 344 40
def vcLd (b : Nat) : Nat := bits b 320 24
def vcCols (b : Nat) : Nat := bits b 296 24
def vcRows (b : Nat) : Nat := bits b 264 32
def vcScalar (b : Nat) : Nat := bits b 232 32
def vcDropQ (b : Nat) : Nat := bits b 208 24
def vcIn (b : Nat) : Nat := bits b 200 8
def vcOutFmt (b : Nat) : Nat := bits b 192 8
def vcRound (b : Nat) : Nat := bits b 190 2
def vcFwdSr (b : Nat) : Bool := bit b 189
def vcEntry (b : Nat) : Nat := bits b 177 12

/-- What src1 and src2 are to a function: 0 nothing, 1 a row operand, 2 a vector of one FP32 per column, 3 one FP32 per
row, 4 a row state of 8 bytes per row, 5 rows of FP32 read and written. -/
def vcKinds (f : Nat) : Nat × Nat :=
  if f = 0x03 then (1, 1)
  else if f = 0x01 ∨ f = 0x02 ∨ f = 0x04 ∨ f = 0x05 ∨ f = 0x27 then (1, 0)
  else if f = 0x25 then (2, 2)
  else if f = 0x26 then (2, 0)
  else if f = 0x28 then (3, 0)
  else if f = 0x29 then (4, 5)
  else (0, 0)

/-- Whether a function writes one FP32 per row. -/
def vcReduces (f : Nat) : Bool := decide (0x20 ≤ f ∧ f ≤ 0x24)

/-- Whether a leading dimension serves the rows of a format. -/
def vcLdOk (b fmt : Nat) : Bool := ldOk (vcLd b) (vcCols b) (elemBits (fbCode fmt))

/-- The first field that the function does not define (0xB002): its lowest bit. -/
def vcBadField (b : Nat) : Option Nat :=
  let f := vcFn b
  let k := vcKinds f
  let i := vcIn b
  let o := vcOutFmt b
  let l : List (Bool × Nat) :=
    [(k.1 == 0 && vcSrc1 b != 0, 424), (k.2 == 0 && vcSrc2 b != 0, 384),
     (vcCols b == 0, 296), (vcRows b == 0, 264),
     (f != 0x25 && f != 0x26 && vcScalar b != 0, 232), (f != 0x30 && vcDropQ b != 0, 208),
     (bits i 5 3 != 0 || fbCode i == 0xF || (fbTile i && !isMx (fbCode i)) || (f == 0x29 && i != 0xE), 200),
     (bits o 4 4 != 0 || fbCode o == 0xF || (vcReduces f && o != 0xE), 192),
     (decide (1 < vcRound b), 190), (f != 0x30 && vcFwdSr b, 189), (f != 0x30 && vcEntry b != 0, 177),
     (!vcLdOk b i || (!vcReduces f && !vcLdOk b o) || (f == 0x29 && !vcLdOk b 0xE), 320)]
  (l.find? (·.1)).map (·.2)

/-- Bytes of a row operand of a format byte, its scales included. -/
def vcRowBytes (b fmt ptr : Nat) : Nat :=
  let c := fbCode fmt
  let n := extBytes (vcRows b) (vcCols b) (vcLd b) (elemBits c)
  if isMx c then
    roundUp (ptr + n) 256 - ptr + rowScales (if fbTile fmt then ceilDiv (vcRows b) 32 else vcRows b) (vcLd b)
  else n

/-- Where the scales of a row operand begin. -/
def vcScaleAt (b fmt ptr : Nat) : Nat :=
  roundUp (ptr + extBytes (vcRows b) (vcCols b) (vcLd b) (elemBits (fbCode fmt))) 256

/-- Bytes of an operand of a kind. -/
def vcKindBytes (b k ptr : Nat) : Nat :=
  if k = 1 then vcRowBytes b (vcIn b) ptr
  else if k = 2 then 4 * vcCols b
  else if k = 3 then 4 * vcRows b
  else if k = 4 then 8 * vcRows b
  else if k = 5 then vcRowBytes b 0xE ptr
  else 0

/-- Bytes of the output. -/
def vcOutBytes (b : Nat) : Nat :=
  if vcReduces (vcFn b) then 4 * vcRows b else vcRowBytes b (vcOutFmt b) (vcOut b)

/-- Operands as (pointer, bytes, field, kind of access). -/
def vcOperands (b : Nat) : List (Nat × Nat × Nat × Acc) :=
  let k := vcKinds (vcFn b)
  [(vcSrc0 b, vcRowBytes b (vcIn b) (vcSrc0 b), 464, .read)] ++
  (if k.1 = 0 then [] else [(vcSrc1 b, vcKindBytes b k.1 (vcSrc1 b), 424, .read)]) ++
  (if k.1 = 4 then [(vcSrc1 b, vcKindBytes b k.1 (vcSrc1 b), 424, .write)] else []) ++
  (if k.2 = 0 then [] else [(vcSrc2 b, vcKindBytes b k.2 (vcSrc2 b), 384, .read)]) ++
  (if k.2 = 5 then [(vcSrc2 b, vcKindBytes b k.2 (vcSrc2 b), 384, .write)] else []) ++
  [(vcOut b, vcOutBytes b, 344, .write)]

/-- Input and output extents, for R429. -/
def vcInPlace (b : Nat) : Bool :=
  let l := vcOperands b
  inPlace ((l.filter (fun x => x.2.2.2 == .read)).map (fun x => (x.1, x.2.1)))
    ((l.filter (fun x => x.2.2.2 == .write)).map (fun x => (x.1, x.2.1)))

/-! ### Rows -/

/-- Ranges of row i of a row operand and of its scales. -/
def vcRowRanges (b fmt ptr i : Nat) : List (Nat × Nat) :=
  let c := fbCode fmt
  elemRange ptr (elemBits c) (i * vcLd b) (vcCols b) ::
    (if isMx c then
      [(vcScaleAt b fmt ptr + (if fbTile fmt then i / 32 else i) * ceilDiv (vcLd b) 32, ceilDiv (vcCols b) 32)] else [])

/-- Row i of a row operand as values. -/
def vcRow (s : State) (o b fmt ptr i : Nat) : List Fp :=
  let c := fbCode fmt
  let sc := vcScaleAt b fmt ptr
  (List.range (vcCols b)).map (fun j => elemVal c
    ⟨memElem s o ptr (elemBits c) (i * vcLd b + j),
     if isMx c then some (memByte s o (sc + (if fbTile fmt then tileScaleAt (vcLd b) i j else i * ceilDiv (vcLd b) 32 + j / 32)))
     else none⟩)

/-- n consecutive FP32 values. -/
def vcFloats (s : State) (o ptr n : Nat) : List Fp := (List.range n).map (fun j => dec32 (rdNat s o (ptr + 4 * j) 4))

/-- Ranges that row i reads of an operand of a kind. -/
def vcKindRanges (b k ptr i : Nat) : List (Nat × Nat) :=
  if k = 1 then vcRowRanges b (vcIn b) ptr i
  else if k = 2 then [(ptr, 4 * vcCols b)]
  else if k = 3 then [(ptr + 4 * i, 4)]
  else if k = 4 then [(ptr + 8 * i, 8)]
  else if k = 5 then vcRowRanges b 0xE ptr i
  else []

/-- Values that row i reads of an operand of a kind. -/
def vcKindVals (s : State) (o b k ptr i : Nat) : List Fp :=
  if k = 1 then vcRow s o b (vcIn b) ptr i
  else if k = 2 then vcFloats s o ptr (vcCols b)
  else if k = 3 then vcFloats s o (ptr + 4 * i) 1
  else if k = 4 then vcFloats s o (ptr + 8 * i) 2
  else if k = 5 then vcRow s o b 0xE ptr i
  else []

/-- The operand of row i that reads poisoned: its number and an address. -/
def vcPoison (s : State) (b i : Nat) : Option (Nat × Nat) :=
  let k := vcKinds (vcFn b)
  if anyPoison s (vcRowRanges b (vcIn b) (vcSrc0 b) i) then some (0, vcSrc0 b)
  else if anyPoison s (vcKindRanges b k.1 (vcSrc1 b) i) then some (1, vcSrc1 b)
  else if anyPoison s (vcKindRanges b k.2 (vcSrc2 b) i) then some (2, vcSrc2 b)
  else none

/-- Whether the lanes run a packed BF16 operation: BF16 in and out, rounding to nearest (R138). -/
def vcPacked (b : Nat) : Bool := fbCode (vcIn b) == 0xC && fbCode (vcOutFmt b) == 0xC && vcRound b == 0

/-- The one rounding of a lane operation (R137, R138). -/
def vcRnd (b : Nat) (x : Fp) : Fp := if vcPacked b then rneBf16 x else rne32 x

/-- SFU function of a code. -/
def vcSfu (f : Nat) : SfuFn :=
  if f = 0x10 then .exp else if f = 0x11 then .exp2 else if f = 0x12 then .ln else if f = 0x13 then .log2
  else if f = 0x14 then .recip else .rsqrt

/-- The zip of two rows. -/
def zipMap (f : Fp → Fp → Fp) (a b : List Fp) : List Fp := (List.zip a b).map (fun p => f p.1 p.2)

/-- masked_mul of row i: an element is kept or dropped as the forward problem's draw says (R178). -/
def maskedRow (opk b i : Nat) (x : List Fp) : List Fp :=
  (indexed 0 x).map (fun e =>
    let u := draw (streamKey opk (drainStream (vcEntry b) e.1)) ((1 + b2n (vcFwdSr b)) * i)
    if isDropped (vcDropQ b) u then fpZero false else rne32 (fpMul e.2 (dropScale (vcDropQ b))))

/-- The result of row i: output values, SFU requests, and for softmax_tile_d1 the new row state and output partial. -/
structure VcRes where
  out : List Fp
  calls : Nat := 0
  state : Option (Fp × Fp × List Fp) := none

/-- One row of a function (Table 05-1). -/
def vcApply (d1 : Bool) (opk b i : Nat) (x y z : List Fp) : VcRes :=
  let f := vcFn b
  if f = 0x01 then ⟨zipMap (fun a c => vcRnd b (fpAdd a c)) x y, 0, none⟩
  else if f = 0x02 then ⟨zipMap (fun a c => vcRnd b (fpMul a c)) x y, 0, none⟩
  else if f = 0x03 then ⟨zipMap (fun p c => vcRnd b (fpAdd p c)) (zipMap fpMul x y) z, 0, none⟩
  else if f = 0x04 then ⟨zipMap fpMin x y, 0, none⟩
  else if f = 0x05 then ⟨zipMap fpMax x y, 0, none⟩
  else if f = 0x06 then ⟨x, 0, none⟩
  else if f ≤ 0x15 then ⟨x.map (sfu d1 (vcSfu f)), x.length, none⟩
  else if f = 0x20 then ⟨[rowSum d1 x], 0, none⟩
  else if f = 0x21 then ⟨[rowMax x], 0, none⟩
  else if f = 0x22 then ⟨[rowMean d1 x], 0, none⟩
  else if f = 0x23 then ⟨[rowVariance d1 x], 0, none⟩
  else if f = 0x24 then ⟨[rowRms d1 x], 0, none⟩
  else if f = 0x25 then ⟨normApply d1 (dec32 (vcScalar b)) x y z, 1, none⟩
  else if f = 0x26 then ⟨rmsApply d1 (dec32 (vcScalar b)) x y, 1, none⟩
  else if f = 0x27 then ⟨zipMap (gatedElem d1) x y, 2 * x.length, none⟩
  else if f = 0x28 then
    let r := sfu d1 .recip (y.headD (fpZero false))
    ⟨x.map (fun v => rne32 (fpMul v r)), 1, none⟩
  else if f = 0x29 then
    let m := y.headD (fpZero false)
    let r := softmaxD1Row m ((y[1]?).getD (fpZero false)) z x
    ⟨r.2.2.2, x.length + b2n (fpLt m r.1), some (r.1, r.2.1, r.2.2.1)⟩
  else ⟨maskedRow opk b i x, 0, none⟩

/-- A row of values written at an output (R158, R159, R175). -/
def vcWrite (s : State) (o opk b i : Nat) (v : List Fp) : State × DrainStats :=
  let code := fbCode (vcOutFmt b)
  let key := streamKey opk (vectorStream i)
  let r := convRow code false ((indexed 0 v).map (fun e => (e.2, if vcRound b = 1 then some (draw key e.1) else none)))
  if vcReduces (vcFn b) then (wr s o (vcOut b + 4 * i) (natLe 4 (r.words.headD 0)), r.stats)
  else
    let s1 := writePacked s o (vcOut b) (elemBits code) (i * vcLd b) r.words
    (if r.scales.isEmpty then s1 else wr s1 o (vcScaleAt b (vcOutFmt b) (vcOut b) + i * ceilDiv (vcLd b) 32) r.scales, r.stats)

/-- What the rows of an operation come to. -/
structure VcAcc where
  s : State
  stats : DrainStats := {}
  calls : Nat := 0
  rows : Nat := 0
  stop : Option (Nat × Nat) := none

/-- Row i of an operation. -/
def vcRunRow (d1 : Bool) (o opk b i : Nat) (acc : VcAcc) : VcAcc :=
  let s := acc.s
  let k := vcKinds (vcFn b)
  match vcPoison s b i with
  | some p => { acc with stop := some p }
  | none =>
    let r := vcApply d1 opk b i (vcRow s o b (vcIn b) (vcSrc0 b) i) (vcKindVals s o b k.1 (vcSrc1 b) i)
      (vcKindVals s o b k.2 (vcSrc2 b) i)
    let s1 := match r.state with
      | some (m, l, op) =>
        writePacked (wr s o (vcSrc1 b + 8 * i) (natLe 4 (enc32 m) ++ natLe 4 (enc32 l))) o (vcSrc2 b) 32 (i * vcLd b)
          (op.map enc32)
      | none => s
    let w := vcWrite s1 o opk b i r.out
    { s := w.1, stats := dsAdd acc.stats w.2, calls := acc.calls + r.calls, rows := acc.rows + 1, stop := none }

/-- Rows from i on, to the first stop. -/
def vcRunRows (d1 : Bool) (o opk b : Nat) : Nat → Nat → VcAcc → VcAcc
  | 0, _, acc => acc
  | n + 1, i, acc =>
    let a := vcRunRow d1 o opk b i acc
    if a.stop.isSome then a else vcRunRows d1 o opk b n (i + 1) a

/-- Counters of a run, and its cycles charged to its partition (R170, R426). -/
def vcCounters (s : State) (p b : Nat) (a : VcAcc) : State :=
  let c := Config.duration s.free
  let wait := Config.duration (s.free + 1)
  let l : List (Nat × Nat) :=
    [(0x250201, a.calls), (0x250202, if a.calls = 0 then 0 else wait), (0x250207, a.stats.nanLost),
     (0x250209, a.stats.blocks), (0x25020A, a.stats.saturated),
     (0x260101, if vcFn b = 0x30 then a.rows * vcCols b else 0), (0x260102, if vcRound b = 1 then a.rows * vcCols b else 0),
     (pKey 0x3000 0x0B p, c)]
  let s1 := l.foldl (fun t x => if x.2 = 0 then t else bump t x.1 x.2) { s with free := s.free + 2 }
  { s1 with units := { s1.units with
      vector := drrCharge s1.units.vector p c, laneUses := s1.units.laneUses + 1, sfuUses := if a.calls = 0 then s1.units.sfuUses else
        ((List.range 32).filter (fun k => !bit (coresOut s1) k)).foldl (fun t k => tput t k (s1.units.laneUses + 1)) s1.units.sfuUses } }

/-- Grant pointer of SFU i: 0 after a reset of its core, and what the requests since have left (R146). -/
def sfuGrant (s : State) (i : Nat) : Nat :=
  match tget? s.units.sfuUses (i / 32) with
  | none => 0
  | some n => (Config.grantPointer n i).toNat

/-- The fault and retire masks of the vector cores. -/
def vcMasks (s : State) : List (Nat × Nat) := [(s.units.coreFaults, 32), (ent s 0x250103, 32)]

/-- A VECTOR operation that has started. -/
def vcRun (q : Nat) (s : State) (x : Queue) (o : Op) (h : Head) : State :=
  let b := o.body
  match vcBadField b with
  | some f => refuseOp s q o 0xB002 srcVector (descItems q o f 16)
  | none =>
    if coresOut s = 2 ^ 32 - 1 then refuseOp s q o 0x400A srcVector (vcMasks s)
    else match (vcOperands b).find? (fun p => !ptrOk s o.owner p.1 p.2.1 p.2.2.2) with
      | some p => badPtr s q o p.2.2.1
      | none =>
        if h.twoPhase && vcInPlace b then refuseOp s q o 0xB00D srcQueue (descItems q o 0 0) else
        let opk := opKey (stepKey (pEnt s 0x3020 1 x.partition) (stepNumber s x.partition)) h.drawOp
        let a := vcRunRows (entAt s 0x250101 x.partition == 1) o.owner opk b (vcRows b) 0 { s := s }
        let s1 := vcCounters a.s x.partition b a
        let s2 := modOp { s1 with units := { s1.units with vecQueue := some q } } q o.seq (fun y =>
          { y with statusBits := y.statusBits ||| (if a.stats.nonfiniteBit then bitNonfinite else 0),
                   wroteNonfinite := y.wroteNonfinite || a.stats.wroteNonfinite })
        match a.stop with
        | some (k, p) => stopOp (countPoison s2 p) q o 0x4008 srcVector [(k, 8)]
        | none => doneOp s2 q o

/-- Whether a queue's head is a VECTOR operation that is ready to run (R426). -/
def vcReady (s : State) (x : Queue) : Bool :=
  match qHead x with
  | none => false
  | some o =>
    let h := headOf x o
    mayStart s x && (o.progress == .accepted || o.progress == .waiting) && h.opcode == 3 &&
      (descCheck (qVersion x) o.hdr o.body).isNone && (gateOf s x.partition o h == .run)

/-- Queues whose heads are ready for the Vector Engine. -/
def vcReadyQueues (s : State) : List Nat := (s.queues.filter (fun x => vcReady s x.2)).map (·.1)

/-- A row of the Vector Engine's functions: the head of a queue runs when the schedule takes it. -/
def vcExec (f q : Nat) (s : State) : State :=
  let ready := vcReadyQueues s
  let need := needAll s (coreFronds s)
  if ¬ ready.contains q then runHead s q 0x03 f need (vcRun q)
  else match drrQueue s 4 s.units.vector ready with
    | some (p, d) =>
      if p = q then runHead { s with units := { s.units with vector := d } } q 0x03 f need (vcRun q) else s
    | none => s

/-- VECTOR_ADD. -/
def execVectorAdd (q : Nat) (s : State) : Host.Outcome State Fault Refusal := .next (vcExec 0x01 q s)
/-- VECTOR_MUL. -/
def execVectorMul (q : Nat) (s : State) : Host.Outcome State Fault Refusal := .next (vcExec 0x02 q s)
/-- VECTOR_FMA. -/
def execVectorFma (q : Nat) (s : State) : Host.Outcome State Fault Refusal := .next (vcExec 0x03 q s)
/-- VECTOR_MIN. -/
def execVectorMin (q : Nat) (s : State) : Host.Outcome State Fault Refusal := .next (vcExec 0x04 q s)
/-- VECTOR_MAX. -/
def execVectorMax (q : Nat) (s : State) : Host.Outcome State Fault Refusal := .next (vcExec 0x05 q s)
/-- VECTOR_CONVERT. -/
def execVectorConvert (q : Nat) (s : State) : Host.Outcome State Fault Refusal := .next (vcExec 0x06 q s)
/-- VECTOR_EXP. -/
def execVectorExp (q : Nat) (s : State) : Host.Outcome State Fault Refusal := .next (vcExec 0x10 q s)
/-- VECTOR_EXP2. -/
def execVectorExp2 (q : Nat) (s : State) : Host.Outcome State Fault Refusal := .next (vcExec 0x11 q s)
/-- VECTOR_LN. -/
def execVectorLn (q : Nat) (s : State) : Host.Outcome State Fault Refusal := .next (vcExec 0x12 q s)
/-- VECTOR_LOG2. -/
def execVectorLog2 (q : Nat) (s : State) : Host.Outcome State Fault Refusal := .next (vcExec 0x13 q s)
/-- VECTOR_RECIP. -/
def execVectorRecip (q : Nat) (s : State) : Host.Outcome State Fault Refusal := .next (vcExec 0x14 q s)
/-- VECTOR_RSQRT. -/
def execVectorRsqrt (q : Nat) (s : State) : Host.Outcome State Fault Refusal := .next (vcExec 0x15 q s)
/-- ROW_SUM. -/
def execRowSum (q : Nat) (s : State) : Host.Outcome State Fault Refusal := .next (vcExec 0x20 q s)
/-- ROW_MAX. -/
def execRowMax (q : Nat) (s : State) : Host.Outcome State Fault Refusal := .next (vcExec 0x21 q s)
/-- MEAN. -/
def execMean (q : Nat) (s : State) : Host.Outcome State Fault Refusal := .next (vcExec 0x22 q s)
/-- VARIANCE. -/
def execVariance (q : Nat) (s : State) : Host.Outcome State Fault Refusal := .next (vcExec 0x23 q s)
/-- RMS. -/
def execRms (q : Nat) (s : State) : Host.Outcome State Fault Refusal := .next (vcExec 0x24 q s)
/-- NORM_APPLY. -/
def execNormApply (q : Nat) (s : State) : Host.Outcome State Fault Refusal := .next (vcExec 0x25 q s)
/-- RMS_APPLY. -/
def execRmsApply (q : Nat) (s : State) : Host.Outcome State Fault Refusal := .next (vcExec 0x26 q s)
/-- GATED_UNIT. -/
def execGatedUnit (q : Nat) (s : State) : Host.Outcome State Fault Refusal := .next (vcExec 0x27 q s)
/-- SOFTMAX_NORMALISE. -/
def execSoftmaxNormalise (q : Nat) (s : State) : Host.Outcome State Fault Refusal := .next (vcExec 0x28 q s)
/-- SOFTMAX_TILE_D1. -/
def execSoftmaxTileD1 (q : Nat) (s : State) : Host.Outcome State Fault Refusal := .next (vcExec 0x29 q s)
/-- MASKED_MUL. -/
def execMaskedMul (q : Nat) (s : State) : Host.Outcome State Fault Refusal := .next (vcExec 0x30 q s)

/-! ### Faults of the cores -/

/-- The VECTOR operation that holds the engine: it has run and has not completed. -/
def vcHolder (s : State) : Option (Nat × Op × Head) :=
  s.units.vecQueue.bind (fun q => (queueOf s q).bind (fun x => (qHead x).bind (fun o =>
    let h := headOf x o
    if h.opcode = 3 ∧ o.progress = .finished ∧ o.status = 0x01 then some (q, o, h) else none)))

/-- A core lost to a fault while an operation holds it: the core enters the fault mask and the operation stops (R171, R429). -/
def vcLose (s : State) (core code : Nat) (items : List (Nat × Nat)) : State :=
  match vcHolder s with
  | none => s
  | some (q, o, h) =>
    if bit (coresOut s) core then s
    else
      let s1 := { s with units := { s.units with coreFaults := s.units.coreFaults ||| 2 ^ core, vecQueue := none } }
      rerunOp s1 q o h (vcInPlace o.body) code (if code = 0x4006 then srcSfu else srcVector) items

/-- VECTOR_REG_PARITY (R171): a lane register of a core fails its parity; the lane is a free value. -/
def execVectorRegParity (vcore : Nat) (s : State) : Host.Outcome State Fault Refusal :=
  .next (vcLose { s with free := s.free + 1 } vcore 0x4007 [(vcore, 5), (Config.freeValue s.free, 7)])

/-- SFU_TABLE_PARITY (R171): a table word of an SFU of a core fails its check in use; the SFU is a free value. -/
def execSfuTableParity (vcore : Nat) (s : State) : Host.Outcome State Fault Refusal :=
  .next (vcLose { s with free := s.free + 1 } vcore 0x4006 [(vcore, 5), (Config.freeValue s.free, 5)])

/-- TILE_STORE_DOUBLE_ERROR (R241): a word of the Tile Store has a double error; its line is poisoned. -/
def execTileStoreDoubleError (offset : Nat) (s : State) : Host.Outcome State Fault Refusal :=
  .next (if offset < tileBytes then
    poisonS (raiseDev s 0x7008 srcTile [(offset, 29)]) (tilePtr offset) else s)

/-- GATED_OP_START (R183): the gated head of a queue waits for its step's decision; once that is formed it may run, is
skipped, or is held. -/
def execGatedOpStart (q : Nat) (s : State) : Host.Outcome State Fault Refusal :=
  .next (match queueOf s q with
    | none => s
    | some x => match qHead x with
      | none => s
      | some o =>
        let h := headOf x o
        if mayStart s x ∧ (o.progress = .accepted ∨ o.progress = .waiting) ∧ (descCheck (qVersion x) o.hdr o.body).isNone ∧
            h.gated then
          match startGate s q x o h .ready with
          | .ends t => t
          | _ => modOp s q o.seq (fun y => { y with progress := .waiting })
        else s)

end Sys2Proof.Machine
end

