-- ==== Sys2Proof/Machine/CardOps.lean ====
section
/-!
DEFINITION. Machine/CardOps.lean: what the operations of the Carding Engine and Ply Unit share: their checks (R230), routing
of a token (R193 to R200), sending of rows and messages (R214, R219), and how they stop (R218).
-/
namespace Sys2Proof.Machine

/-! ### Checks (R230) -/

/-- Kinds of operation. -/
def kDispatch : Nat := 1
def kReturn : Nat := 2
def kCombine : Nat := 3
def kScatter : Nat := 4
def kGradCombine : Nat := 5
def kRelease : Nat := 6

/-- Fields of a control block that each kind uses (R229), beside version and kind: lowest bit, width and the kinds. -/
def cardFields : List (Nat × Nat × List Nat) :=
  [(12, 2, [1, 2, 4]), (14, 3, [1, 2, 3, 4, 5]), (17, 1, [1]), (18, 1, [1]), (19, 1, []), (20, 4, [1, 2, 3, 4, 5]), (24, 16, [1, 2, 3, 4, 5]),
   (40, 15, [1, 2, 3, 4, 5]), (55, 12, [1, 2, 4]), (67, 10, [1, 2, 3, 4, 5]), (77, 3, []), (80, 16, [1, 2, 3, 4, 5, 6]),
   (96, 8, [1, 2, 4]), (104, 8, [1, 2, 3, 4]), (112, 8, [1, 2, 4]), (120, 8, [1, 2, 4, 5]), (128, 8, [3, 4, 5]),
   (136, 32, [1]), (168, 16, [1, 2, 4]), (184, 32, [1, 2, 4]), (216, 16, [1, 2, 3, 4, 5]), (232, 39, [1, 2, 4, 6]),
   (271, 1, []), (272, 32, [1, 2, 4]), (304, 39, [2, 3, 4, 5]), (343, 1, []), (344, 40, [1, 2, 3, 4, 5]), (384, 40, [1, 2, 4]),
   (424, 40, [1]), (464, 40, [1]), (504, 40, [1]), (544, 40, [1, 3, 4]), (584, 40, [1]), (624, 40, [4]), (664, 40, [4]),
   (704, 40, [5]), (744, 40, [3, 5]), (784, 240, [])]

/-- Whether a kind uses a field. -/
def cardUses (kind lsb : Nat) : Bool := cardFields.any (fun f => f.1 == lsb && f.2.2.contains kind)

/-- The field that breaks check 2 (0x6001). -/
def cardFieldBad (b : Nat) : Option Nat :=
  if bits b 0 8 ≠ 2 then some 0
  else if ccKind b = 0 ∨ 6 < ccKind b then some 8
  else if ccGate b = 3 then some 12
  else ((cardFields.filter (fun f => !f.2.2.contains (ccKind b) && bits b f.1 f.2.1 != 0)).head?).map (·.1)

/-- A format byte of rows: code 0x0 to 0xE, not tile-scaled (R229). -/
def rowFmtOk (f : Nat) : Bool := bits f 0 4 != 0xF && bits f 4 4 == 0

/-- The field and value that break check 3 (0x6002). -/
def cardRangeBad (b : Nat) : Option (Nat × Nat) :=
  let u := cardUses (ccKind b)
  let d := ccWidth b
  let fmts := [96, 104, 112, 120, 128].filter (fun l => u l && !rowFmtOk (bits b l 8))
  if u 40 && !(decide (64 ≤ d ∧ d ≤ 16384) && d % 64 == 0) then some (40, d)
  else if u 14 && decide (4 < bits b 14 3) then some (14, bits b 14 3)
  else if u 55 && decide (ccExperts b < ccChoices b) then some (20, bits b 20 4)
  else if u 14 && decide (1 < ccChunks b) && ccTokens b % 16 != 0 then some (24, bits b 24 16)
  else if u 216 && decide (65535 < ccArrival b + ccChunks b - 1) then some (216, ccArrival b)
  else if u 168 && decide (65535 < ccStart b + ccChunks b - 1) then some (168, ccStart b)
  else if u 136 && !fpFinite (dec32 (ccScale b)) then some (136, ccScale b)
  else if u 232 && ccSlotMap b % 4096 != 0 then some (232, ccSlotMap b)
  else if u 304 && ccHome b % 4096 != 0 then some (304, ccHome b)
  else if u 272 && ccPlane b % 4096 != 0 then some (272, bits b 272 32)
  else (fmts.head?).map (fun l => (l, bits b l 8))

/-- Formats of rows of the home plane: dgrad rows for GRAD_COMBINE. -/
def homeFmt (b : Nat) : Nat := if ccKind b = 5 then ccDxFmt b else ccYFmt b

/-- Bytes of the dispatch summary (R201). -/
def summaryBytes (e : Nat) : Nat := roundUp (4 * e) 64 + 4 * e

/-- Bytes of the home plane (R223). -/
def homeBytes (b f : Nat) : Nat := homeRows (ccTokens b) (ccChoices b) + ccTokens b * ccChoices b * cardRowBytes f (ccWidth b)

/-- Pointers of a control block with their bytes, field and kinds of access. -/
def cardPointers (b : Nat) : List (Nat × Nat × Nat × List Acc) :=
  let t := ccTokens b
  let k := ccChoices b
  let d := ccWidth b
  let e := ccExperts b
  let u := cardUses (ccKind b)
  let row (f : Nat) : Nat := t * cardRowBytes f d
  (if u 344 then [(ccListPtr b, 4 * ccMembers b, 344, [.read])] else []) ++
  (if u 384 then [(ccMapPtr b, 16 * e, 384, [.read])] else []) ++
  (if u 424 then [(ccLogits b, t * e * (if ccBf16 b then 2 else 4), 424, [.read])] else []) ++
  (if u 464 ∧ (ccHasBias b ∨ ccBias b ≠ 0) then [(if ccHasBias b then ccBias b else 0, 4 * e, 464, [.read])] else []) ++
  (if u 504 then [(ccX b, row (ccXFmt b), 504, [.read])] else []) ++
  (if u 544 then [(ccIndex b, 16 * t * k, 544, [if ccKind b = 1 then .write else .read])] else []) ++
  (if u 584 ∧ ccSummary b ≠ 0 then [(ccSummary b, summaryBytes e, 584, [.write])] else []) ++
  (if u 624 then [(ccDy b, row (ccOutFmt b), 624, [.read])] else []) ++
  (if u 664 then [(ccGg b, 4 * t * k, 664, [.write])] else []) ++
  (if u 704 then [(ccAux b, row (ccDxFmt b), 704, [.read])] else []) ++
  (if u 744 then [(ccOut b, row (ccOutFmt b), 744, [.write])] else [])

/-- Areas that an operation names by their offsets, with their field: the slot map's first page and the home plane. -/
def cardAreas (b : Nat) : List (Nat × Nat × Nat × List Acc) :=
  (if cardUses (ccKind b) 232 then [(ccSlotMap b, 4096, 232, [.read, .write])] else []) ++
  (if ccKind b = 3 ∨ ccKind b = 4 ∨ ccKind b = 5 then
    [(ccHome b, homeBytes b (homeFmt b), 304, if ccKind b = 4 then [.read] else [.read, .write])] else [])

/-- The field of the first pointer that breaks check 4 (0x600B). -/
def cardPointerBad (s : State) (o b : Nat) : Option Nat :=
  match (cardPointers b).find? (fun p => p.1 == 0 || !p.2.2.2.all (winOk s o p.1 p.2.1)) with
  | some p => some p.2.2.1
  | none => ((cardAreas b).find? (fun p => !p.2.2.2.all (winOk s o p.1 p.2.1))).map (fun p => p.2.2.1)

/-- Rack and device of a member list entry (Table 07-1). -/
def mbRack (e : Nat) : Nat := bits e 12 12
def mbDev (e : Nat) : Nat := bits e 0 12

/-- Whether a list holds an entry twice, by its place. -/
def twice : List Nat → Nat → Option Nat
  | [], _ => none
  | x :: r, i => match twice r (i + 1) with
    | some j => some j
    | none => (indexIn x r).map (fun j => i + 1 + j)

/-- Entry of this device among members. -/
def ownIndex (s : State) (ms : List Nat) : Option Nat := indexIn (fld (ownRack s) 12 12 + ownDev s) ms

/-- What breaks a member list (R193): table 0 and the entry, all ones where it is none of its entries. -/
def memberBad (s : State) (ms : List Nat) : Option Nat :=
  match (indexed 0 ms).find? (fun e => decide (e.2 / 2 ^ 24 ≠ 0 ∨ 255 < mbRack e.2 ∨ 63 < mbDev e.2)) with
  | some e => some e.1
  | none => match twice ms 0 with
    | some i => some i
    | none => if (ownIndex s ms).isNone ∨ 16 < ((ms.map mbRack).eraseDups).length then some 0xFFFF else none

/-- Replicas of an expert map entry (Table 07-2): their count, and replica h as (member, local). -/
def exCount (e : Nat) : Nat := bits e 88 2 + 1
def exReplica (e h : Nat) : Nat × Nat := (bits e (22 * h + 12) 10, bits e (22 * h) 12)

/-- Whether an expert map entry keeps its own rules (R194, R195). -/
def exOk (members e : Nat) : Bool :=
  decide (e / 2 ^ 90 = 0) && (List.range 4).all (fun h =>
    if h < exCount e then decide ((exReplica e h).1 < members) else decide (bits e (22 * h) 22 = 0))

/-- Local indexes of the replicas that name a member. -/
def exLocals (map : List Nat) (d : Nat) : List Nat :=
  map.flatMap (fun e => ((List.range (exCount e)).filter (fun h => (exReplica e h).1 == d)).map (fun h => (exReplica e h).2))

/-- Experts hosted at a member (R195). -/
def exHosted (map : List Nat) (d : Nat) : Nat := (exLocals map d).length

/-- What breaks an expert map (R195): the entry, or the member whose local indexes or count do. -/
def mapBad (members : Nat) (map : List Nat) : Option Nat :=
  match (indexed 0 map).find? (fun e => !exOk members e.2) with
  | some e => some e.1
  | none => (List.range members).find? (fun d =>
      let l := exLocals map d
      !((List.range l.length).all (fun i => l.contains i)) || decide (4096 < l.length * members))

/-- The geometry digest (R208). -/
def geomDigest (b : Nat) (list map : List Nat) : Nat :=
  let low := clearFields (bits b 0 128) [(0, 12), (17, 3), (77, 3)]
  crc32c (natLe 16 low ++ natLe 8 (ccSlotMap b) ++ list.flatMap (natLe 4) ++ map.flatMap (natLe 16))

/-- Words of a table of n-byte entries, none where it reads poisoned. -/
def readTableOf (s : State) (o ptr n count : Nat) : Option (List Nat) :=
  if poisonAt s ptr (n * count) then none else some ((splitEvery n count (rd s o ptr (n * count))).map leNat)

/-- Format byte of the rows that an operation sends: a RETURN's are dgrad rows once backward rows have landed in its slot
map, expert outputs before. -/
def planeFmt (s : State) (b : Nat) : Nat :=
  if ccKind b = 1 then ccXFmt b
  else if ccKind b = 4 then ccGFmt b
  else if (tgetD s.card.maps (ccSlotMap b) {}).rowsB = [] then ccYFmt b else ccDxFmt b

/-- The part of checks 3 and 4 that needs the tables: the plane lies past the control areas (R206), and both in windows. -/
def planeBad (s : State) (o b hosted : Nat) : Option CardBad :=
  let v := sliverLen (ccTokens b)
  let m := ccMembers b
  let e := mapEnd hosted m v (ccChunks b)
  let n := hosted * mapRexp m v * cardRowBytes (planeFmt s b) (ccWidth b)
  let ok (off n : Nat) : Bool := n == 0 || (winOk s o off n .read && winOk s o off n .write)
  if n ≠ 0 ∧ ccPlane b < e then some (0x6002, [(272, 16), (bits b 272 32, 32)])
  else if ¬ ok (ccSlotMap b) e ∨ ¬ ok (ccSlotMap b + ccPlane b) n then some (0x600B, [(272, 16)])
  else none

/-- Counters that an operation waits on, inside its partition's ranges (R298, R311). -/
def counterBad (s : State) (p b : Nat) : Option CardBad :=
  let base := if ccKind b = 3 ∨ ccKind b = 5 then ccArrival b else ccStart b
  let waits := ccKind b = 3 ∨ ccKind b = 5 ∨ ccTarget b ≠ 0
  if ¬ waits then none
  else ((List.range (ccChunks b)).find? (fun c => !objIn s p 2 (base + c))).map (fun c => (0x9001, objItems (objKey 2 (base + c))))

/-- Check 6: the binding of the slot map (R209, R210, R492). -/
def bindingBad (s : State) (o p b digest source : Nat) : Option CardBad :=
  let off := ccSlotMap b
  let k := ccKind b
  if k = 3 ∨ k = 5 then none
  else if poisonAt s off 64 then some (cardPoisoned 10 off)
  else
    let h := rdNat s o off 64
    let bound : List (Nat × Nat) := [(bits h 240 16, 16), (bits h 256 64, 64)]
    if k = 6 then
      (if bits h 232 8 = 0 ∨ (bits h 232 8 = 1 ∧ bits h 240 16 = ccLayer b) then none else some (0x6003, bound))
    else if k = 1 then
      (match mapBinding s o off (ccLayer b) (stepNumber s p) digest source with
       | (some x, _) => some x
       | (none, new) => if new ∧ 1024 ≤ s.card.leases.length then some (0xC017, [(o, 12), (off, 39)]) else none)
    else if bits h 232 8 = 1 ∧ bits h 240 16 = ccLayer b ∧ bits h 256 64 = stepNumber s p then none
    else some (0x6003, bound)

/-- What the checks of an operation come to. -/
inductive CardChk where
  | bad (x : CardBad)
  | ok (c : Card)

/-- Checks 5 and 6 on the tables as read. -/
def cardTables (s : State) (o : Op) (p b : Nat) (ms map : List Nat) : CardChk :=
  match memberBad s ms with
  | some i => .bad (0x6005, [(0, 16), (i, 16)])
  | none => match mapBad ms.length map with
    | some i => .bad (0x6005, [(1, 16), (i, 16)])
    | none =>
      let me := (ownIndex s ms).getD 0
      let dig := geomDigest b ms map
      match (if cardUses (ccKind b) 272 then planeBad s o.owner b (exHosted map me) else none) with
      | some x => .bad x
      | none => match counterBad s p b with
        | some x => .bad x
        | none => match bindingBad s o.owner p b dig me with
          | some x => .bad x
          | none => .ok { seq := o.seq, ccb := b, members := ms, experts := map, digest := dig, step := stepNumber s p,
                          group := 0xF000 + s.card.groups % 4096 }

/-- The checks of R230, in order. -/
def cardCheck (s : State) (o : Op) (p at_ : Nat) : CardChk :=
  match readStruct s o.owner at_ 128 with
  | none => .bad (cardPoisoned 1 at_)
  | some b => match cardFieldBad b with
    | some f => .bad (0x6001, [(f, 16)])
    | none => match cardRangeBad b with
      | some x => .bad (0x6002, [(x.1, 16), (x.2, 32)])
      | none => match cardPointerBad s o.owner b with
        | some f => .bad (0x600B, [(f, 16)])
        | none =>
          if ccKind b = 6 then
            (match bindingBad s o.owner p b 0 0 with
             | some x => .bad x
             | none => .ok { seq := o.seq, ccb := b, members := [], experts := [], digest := 0, step := 0, group := 0 })
          else match readTableOf s o.owner (ccListPtr b) 4 (ccMembers b) with
            | none => .bad (cardPoisoned 7 (ccListPtr b))
            | some ms =>
              if cardUses (ccKind b) 384 then
                (match readTableOf s o.owner (ccMapPtr b) 16 (ccExperts b) with
                 | none => .bad (cardPoisoned 8 (ccMapPtr b))
                 | some map =>
                   if ccHasBias b ∧ poisonAt s (ccBias b) (4 * ccExperts b) then .bad (cardPoisoned 9 (ccBias b))
                   else cardTables s o p b ms map)
              else cardTables s o p b ms []

/-! ### The exchange -/

/-- An operation's record kept. -/
def setCard (s : State) (q : Nat) (c : Card) : State := { s with card := { s.card with ops := tput s.card.ops q c } }

/-- An operation's record forgotten. -/
def dropCard (s : State) (q : Nat) : State := { s with card := { s.card with ops := tdel s.card.ops q } }

/-- This device's index among an operation's members. -/
def cardMe (s : State) (c : Card) : Nat := (ownIndex s c.members).getD 0

/-- What a destination d knows of the exchange of an operation: kind 0 forward, 1 backward, 2 returned. -/
def cardGeom (s : State) (c : Card) (d : Nat) : Geom :=
  let b := c.ccb
  let k := ccKind b
  let n := cardRowBytes (planeFmt s b) (ccWidth b)
  { kind := if k = 1 then 0 else if k = 4 then 1 else 2
    mapOff := if k = 2 then ccHome b else ccSlotMap b
    plane := if k = 2 then 0 else ccPlane b
    members := c.members.length
    sliver := sliverLen (ccTokens b)
    chunks := ccChunks b
    hosted := exHosted c.experts d
    tokens := ccTokens b
    choices := ccChoices b
    rowBytes := n
    step := c.step
    digest := c.digest
    source := cardMe s c
    segs := max 1 (ceilDiv n 8192)
    arrival := ccArrival b }

/-- The relay of traffic from rack a to rack b (R219): a device of rack b. -/
def relayOf (ms : List Nat) (a b layer : Nat) : Nat :=
  let l := ms.filter (fun m => mbRack m == b)
  mbDev ((l[mix (w64 (a * 2 ^ 32 ^^^ b * 2 ^ 16 ^^^ layer)) % max 1 l.length]?).getD 0)

/-- A packet of the exchange to a member: over Skein, or to the relay of its rack (R219). -/
def sendCard (s : State) (q : Nat) (o : Op) (c : Card) (d chunk ty epoch : Nat) (g : Geom) (payload : List Nat) : State :=
  let m := (c.members[d]?).getD 0
  let k : Packet := { ty := ty, src := ownDev s, dst := mbDev m, owner := o.owner, epoch := epoch, addr := fld (mbDev m) 39 6 + g.mapOff,
                      counter := ccArrival c.ccb + chunk, group := c.group, payload := payload, geom := some g }
  if mbRack m = ownRack s then sendPk s (mbDev m) q o.seq k
  else sendPk s (2 ^ 20 + mbRack m * 4096 + relayOf c.members (ownRack s) (mbRack m) (ccLayer c.ccb)) q o.seq { k with flags := 4 }

/-- What running a part of an operation comes to: a fault stops it. -/
structure CardRun where
  s : State
  c : Card
  stop : Option CardBad := none

/-- A local landing's failure stops the operation, and poisons the counter of its chunk. -/
def landHere (c : Card) (chunk : Nat) (r : Landed) : CardRun :=
  match r.bad with
  | none => ⟨r.s, c, none⟩
  | some x => ⟨peerPoison r.s (objKey 2 (ccArrival c.ccb + chunk)) 2 (ownDev r.s), c, some x⟩

/-- Segments of a row (R336): at most 8,192 bytes each. -/
def rowSegs (b : List Nat) : List (List Nat) := splitEvery 8192 (ceilDiv b.length 8192) b

/-- A row sent to member d, or landed in this device's own memory (R213). -/
def sendRow (q : Nat) (o : Op) (d chunk tag dir : Nat) (g : Geom) (row : List Nat) (a : CardRun) : CardRun :=
  if a.stop.isSome then a
  else
    let s := bump a.s 0x270202 1
    let layer := ccLayer a.c.ccb
    if d = cardMe s a.c then
      landHere a.c chunk (
        if g.kind = 0 then landForward s o.owner layer chunk tag 0 { g with segs := 1 } row
        else if g.kind = 1 then landBackward s o.owner chunk tag 0 { g with segs := 1 } row
        else landReturn s false o.owner layer chunk tag 0 { g with segs := 1 } row)
    else { a with s := (indexed 0 (rowSegs row)).foldl (fun t x =>
      sendCard t q o a.c d chunk 0x0A (ownerEpoch t o.owner) g (cardPrefix tag layer chunk dir x.1 ++ x.2)) s }

/-- Counts of an operation's rows to member d by local expert and sliver. -/
def cntKey (d l v : Nat) : Nat := (d * 4096 + l) * 16 + v
def memberCounts (c : Card) (d chunk : Nat) : List Nat :=
  (List.range (exHosted c.experts d)).flatMap (fun l =>
    (List.range 16).map (fun v => if sliverIn v chunk (ccChunks c.ccb) then tgetD c.cnt (cntKey d l v) 0 else 0))

/-- The fill message of a chunk to member d (R214). -/
def sendFill (q : Nat) (o : Op) (chunk : Nat) (back : Bool) (a : CardRun) (d : Nat) : CardRun :=
  if a.stop.isSome then a
  else
    let s := a.s
    let g := cardGeom s a.c d
    let counts := memberCounts a.c d chunk
    let h := fillHeader (counts.foldl (· + ·) 0) a.c.digest a.c.step (ccLayer a.c.ccb) g.hosted g.source chunk back false
    if d = g.source then
      landHere a.c chunk (if back then landFillBack s false o.owner (ownDev s) g h counts else landFill s false o.owner (ownDev s) g h counts)
    else { a with s := sendCard s q o a.c d chunk 0x0B (ownerEpoch s o.owner) g (natLe 32 h ++ counts.flatMap (natLe 4)) }

/-- An aborting fill message of a chunk to member d (R218), under the owner's epoch as it now is (R494). -/
def sendAbort (q : Nat) (o : Op) (c : Card) (back : Bool) (s : State) (x : Nat × Nat) : State :=
  let g := cardGeom s c x.2
  let h := fillHeader 0 c.digest c.step (ccLayer c.ccb) g.hosted g.source x.1 back true
  let s1 := bump s 0x270208 1
  if x.2 = g.source then
    (if back then landFillBack s1 false o.owner (ownDev s1) g h [] else landFill s1 false o.owner (ownDev s1) g h []).s
  else sendCard s1 q o c x.2 x.1 0x0B (ownerEpoch s1 o.owner) g (natLe 32 h)

/-- A DISPATCH or SCATTER that stops aborts every chunk whose fill messages it has not sent (R218). -/
def abortCard (s : State) (q : Nat) (o : Op) (c : Card) : State :=
  if ccKind c.ccb = kDispatch ∨ ccKind c.ccb = kScatter then
    ((List.range (ccChunks c.ccb)).filter (fun i => decide (c.chunk ≤ i))).foldl (fun t i =>
      (List.range c.members.length).foldl (fun u d => sendAbort q o c (ccKind c.ccb == kScatter) u (i, d)) t) s
  else s

/-- Source unit of an operation's faults. -/
def cardSrc (b : Nat) : Nat := if ccKind b = 3 ∨ ccKind b = 4 ∨ ccKind b = 5 then srcPly else srcCde

/-- An operation of the Carding Engine or Ply Unit stopped by a fault. -/
def stopCard (s : State) (q : Nat) (o : Op) (c : Card) (x : CardBad) : State :=
  let s1 := if cardCode x.1 then stopOp s q o x.1 (cardSrc c.ccb) x.2 else stopFar s q o.seq x.1
  abortCard (dropWaits (dropCard s1 q) q) q o c

/-! ### Routing (R196 to R200) -/

/-- Whether key x ranks above key y: NaN below −Inf below every finite value below +Inf. -/
def ranksAbove (x y : Fp) : Bool :=
  match x, y with
  | .nan, _ => false
  | _, .nan => true
  | .inf a, .inf b => !a && b
  | .inf a, .num _ _ _ => !a
  | .num _ _ _, .inf b => b
  | .num _ _ _, .num _ _ _ => fpLt y x

/-- The highest-ranking of (expert, key), the lower expert on ties. -/
def bestKey : List (Nat × Fp) → Option (Nat × Fp)
  | [] => none
  | x :: r => match bestKey r with
    | none => some x
    | some y => if ranksAbove y.2 x.2 then some y else some x

/-- The experts of the k highest ranks (R197). -/
def topKeys : Nat → List (Nat × Fp) → List Nat
  | 0, _ => []
  | n + 1, l => match bestKey l with
    | none => []
    | some x => x.1 :: topKeys n (l.filter (fun y => y.1 != x.1))

/-- Sequential sum in ascending order (R198). -/
def seqSum : List Fp → Fp
  | [] => fpZero false
  | x :: r => r.foldl (fun a v => rne32 (fpAdd a v)) x

/-- Gate weights of the chosen experts before scaling (Table 07-3). -/
def gateWeights (d1 : Bool) (mode : Nat) (z : List Fp) (chosen : List Nat) : List Fp :=
  let zr := chosen.map (fun e => (z[e]?).getD .nan)
  let ex (m v : Fp) : Fp := sfu d1 .exp (rne32 (fpSub v m))
  let norm (l : List Fp) (t : Fp) : List Fp := let r := sfu d1 .recip t; l.map (fun v => rne32 (fpMul v r))
  if mode = 0 then
    let a := zr.map (ex (rowMax zr))
    norm a (seqSum a)
  else if mode = 1 then
    let m := rowMax z
    norm (zr.map (ex m)) (rowSum d1 (z.map (ex m)))
  else
    let a := zr.map (fun v => sfu d1 .recip (rne32 (fpAdd fpOne (sfu d1 .exp (fpNegate v)))))
    norm a (seqSum a)

/-- A NaN or +Inf logit (R200). -/
def oddLogit : Fp → Bool
  | .nan => true
  | .inf a => !a
  | .num _ _ _ => false

/-- A routed token: chosen experts with their gate weights, and whether a logit was NaN or +Inf. -/
def routeToken (d1 : Bool) (mode scale k : Nat) (z : List Fp) (bias : Option (List Fp)) : List (Nat × Fp) × Bool :=
  let keys := match bias with
    | none => z
    | some b => (List.zip z b).map (fun p => rne32 (fpAdd p.1 p.2))
  let chosen := topKeys k (indexed 0 keys)
  let w := (gateWeights d1 mode z chosen).map (fun v => rne32 (fpMul v (dec32 scale)))
  (List.zip chosen w, z.any oddLogit)

/-! ### Rows as values -/

/-- Values of a dense row of a format byte (R229). -/
def rowValues (f d : Nat) (b : List Nat) : List Fp :=
  let code := fbCode f
  let w := elemBits code
  let x := leNat (b.take (d * w / 8))
  let sc := b.drop (d * w / 8)
  (List.range d).map (fun i =>
    let v := elemDecode code (bits x (i * w) w)
    if isMx code then scaled ((sc[i / 32]?).getD 0) v else v)

/-- A row of values as bytes of a format byte: nearest even, not saturating (R224), padded to its row bytes. -/
def rowOut (f : Nat) (v : List Fp) : List Nat × DrainStats :=
  let code := fbCode f
  let r := convRow code false (v.map (fun y => (y, none)))
  (padTo (cardRowBytes f v.length) (packElems code r.words ++ r.scales), r.stats)

/-- What writing rows reports to the operation (R180). -/
def noteRows (s : State) (q seq : Nat) (st : DrainStats) : State :=
  modOp s q seq (fun y => { y with statusBits := y.statusBits ||| (if st.nonfiniteBit then bitNonfinite else 0),
                                   wroteNonfinite := y.wroteNonfinite || st.wroteNonfinite })

/-- Special function mode of an operation (R199). -/
def cardD1 (s : State) (q : Nat) : Bool := entAt s 0x250101 (queuePart s q) == 1

end Sys2Proof.Machine
end

