-- ==== Sys2Proof/Machine/Carding.lean ====
section
/-!
DEFINITION. Machine/Carding.lean: the operations of the Carding Engine and the Ply Unit (R201, R210 to R213, R222 to R228).
-/
namespace Sys2Proof.Machine

/-! ### DISPATCH (R213) -/

/-- Logits of a token as values (R197). -/
def tokenLogits (s : State) (o b t : Nat) : List Fp :=
  let e := ccExperts b
  if ccBf16 b then
    (leShorts (rd s o (ccLogits b + 2 * e * t) (2 * e))).map (fun x => dec32 (x * 2 ^ 16))
  else (leWords (rd s o (ccLogits b + 4 * e * t) (4 * e))).map dec32
where
  /-- Halfwords of a string of bytes. -/
  leShorts (b : List Nat) : List Nat := (splitEvery 2 (b.length / 2) b).map leNat

/-- Bytes of a token's logits and where they lie. -/
def logitAt (b t : Nat) : Nat × Nat := let n := ccExperts b * (if ccBf16 b then 2 else 4); (ccLogits b + n * t, n)

/-- Index entry (Table 07-7). -/
def indexEntry (gate slot expert local_ member replica : Nat) (self odd : Bool) : Nat :=
  fld gate 96 32 + fld slot 64 32 + fld expert 52 12 + fld local_ 40 12 + fld member 30 10 + fld replica 28 2 +
  fld (b2n self) 1 1 + fld (b2n odd) 0 1

/-- Fields of an index entry. -/
def ixGate (e : Nat) : Nat := bits e 96 32
def ixSlot (e : Nat) : Nat := bits e 64 32
def ixLocal (e : Nat) : Nat := bits e 40 12
def ixMember (e : Nat) : Nat := bits e 30 10

/-- One choice of a token placed (R196, R203), and its index entry written (R211). -/
def placeChoice (o t : Nat) (odd : Bool) (a : CardRun) (x : Nat × Nat × Fp) : CardRun :=
  let b := a.c.ccb
  let me := cardMe a.s a.c
  let e := (a.c.experts[x.2.1]?).getD 0
  let h := (me + t) % exCount e
  let dl := exReplica e h
  let v := t / sliverLen (ccTokens b)
  let key := cntKey dl.1 dl.2 v
  let n := tgetD a.c.cnt key 0
  let q := dl.2 * mapRexp a.c.members.length (sliverLen (ccTokens b)) + (me * 16 + v) * sliverLen (ccTokens b) + n
  let entry := indexEntry (enc32 x.2.2) q x.2.1 dl.2 dl.1 h (dl.1 == me) odd
  { a with
    s := wr a.s o (ccIndex b + 16 * (t * ccChoices b + x.1)) (natLe 16 entry)
    c := { a.c with cnt := tput a.c.cnt key (n + 1), chosen := tput a.c.chosen x.2.1 (tgetD a.c.chosen x.2.1 0 + 1) } }

/-- Stage F2 of a token. -/
def routeOne (q o : Nat) (bias : Option (List Fp)) (a : CardRun) (t : Nat) : CardRun :=
  if a.stop.isSome then a
  else
    let b := a.c.ccb
    let l := logitAt b t
    if poisonAt a.s l.1 l.2 then { a with s := countPoison a.s l.1, stop := some (cardPoisoned 2 l.1) }
    else
      let r := routeToken (cardD1 a.s q) (ccGate b) (ccScale b) (ccChoices b) (tokenLogits a.s o b t) bias
      let s1 := bump a.s 0x270201 1
      let s2 := if r.2 then bump s1 0x270209 1 else s1
      (indexed 0 r.1).foldl (placeChoice o t r.2) { a with s := s2, c := { a.c with nonfinite := a.c.nonfinite || r.2 } }

/-- The selection bias (R197). -/
def cardBias (s : State) (o b : Nat) : Option (List Fp) :=
  if ccHasBias b then some ((leWords (rd s o (ccBias b) (4 * ccExperts b))).map dec32) else none

/-- A row of an area at a pointer, none where it reads poisoned. -/
def areaRow (s : State) (o ptr n i : Nat) : Option (List Nat) :=
  if poisonAt s (ptr + n * i) n then none else some (rd s o (ptr + n * i) n)

/-- An index entry as read. -/
def indexRead (s : State) (o b t r : Nat) : Option Nat := readStruct s o (ccIndex b + 16 * (t * ccChoices b + r)) 16

/-- Stage F3 of a token: its row to each choice's slot. -/
def sendToken (q : Nat) (o : Op) (chunk : Nat) (a : CardRun) (t : Nat) : CardRun :=
  if a.stop.isSome then a
  else
    let b := a.c.ccb
    let n := cardRowBytes (ccXFmt b) (ccWidth b)
    match areaRow a.s o.owner (ccX b) n t with
    | none => { a with s := countPoison a.s (ccX b), stop := some (cardPoisoned 3 (ccX b + n * t)) }
    | some row => (List.range (ccChoices b)).foldl (fun x r =>
        let e := rdNat x.s o.owner (ccIndex b + 16 * (t * ccChoices b + r)) 16
        let g := { cardGeom x.s x.c (ixMember e) with slot := ixSlot e }
        sendRow q o (ixMember e) chunk (slotTag (cardMe x.s x.c) r t) 0 g row x) a

/-- Tokens of the chunk that an operation comes to. -/
def chunkList (c : Card) : List Nat :=
  let t := chunkTokens (ccTokens c.ccb) c.chunk (ccChunks c.ccb)
  (List.range (t.2 - t.1)).map (· + t.1)

/-- A chunk of DISPATCH: every entry of it before its first row (R19), its rows before its fill messages. -/
def dispatchChunk (q : Nat) (o : Op) (a : CardRun) : CardRun :=
  let ts := chunkList a.c
  let ch := a.c.chunk
  let a1 := ts.foldl (routeOne q o.owner (cardBias a.s o.owner a.c.ccb)) a
  let a2 := ts.foldl (sendToken q o ch) a1
  (List.range a2.c.members.length).foldl (sendFill q o ch false) a2

/-- Exclusive prefix sums. -/
def exclSums : Nat → List Nat → List Nat
  | _, [] => []
  | n, x :: r => n :: exclSums (n + x) r

/-- The dispatch summary (R201). -/
def writeSummary (s : State) (o : Nat) (c : Card) : State :=
  let b := c.ccb
  let counts := (List.range (ccExperts b)).map (fun e => tgetD c.chosen e 0)
  if ccSummary b = 0 then s
  else wr (wr s o (ccSummary b) (counts.flatMap (natLe 4))) o (ccSummary b + roundUp (4 * ccExperts b) 64)
    ((exclSums 0 counts).flatMap (natLe 4))

/-! ### RETURN (R222) -/

/-- Global expert of a local one at a member. -/
def globalExpert (map : List Nat) (d l : Nat) : Nat :=
  ((indexed 0 map).findSome? (fun e =>
    if (List.range (exCount e.2)).any (fun h => exReplica e.2 h == (d, l)) then some e.1 else none)).getD 0xFFF

/-- One filled row returned to its home. -/
def returnRow (q : Nat) (o : Op) (l : Nat) (a : CardRun) (row : Nat) : CardRun :=
  if a.stop.isSome then a
  else
    let b := a.c.ccb
    let me := cardMe a.s a.c
    let hosted := exHosted a.c.experts me
    let tg := ccSlotMap b + mapTags hosted a.c.members.length (ccChunks b) + 8 * row
    let g0 := cardGeom a.s a.c me
    match readStruct a.s o.owner tg 8, areaRow a.s o.owner (ccSlotMap b + ccPlane b) g0.rowBytes row with
    | none, _ => { a with s := countPoison a.s tg, stop := some (cardPoisoned 5 tg) }
    | some _, none => { a with s := countPoison a.s (ccSlotMap b), stop := some (cardPoisoned 3 (ccSlotMap b + ccPlane b + g0.rowBytes * row)) }
    | some tag, some bytes =>
      sendRow q o (bits tag 38 10) a.c.chunk tag (b2n (planeFmt a.s b != ccYFmt b))
        { cardGeom a.s a.c (bits tag 38 10) with slot := row, expert := globalExpert a.c.experts me l } bytes a

/-- A chunk of RETURN: local experts, segments and rows in ascending order. -/
def returnChunk (q : Nat) (o : Op) (a : CardRun) : CardRun :=
  let b := a.c.ccb
  let me := cardMe a.s a.c
  let d := a.c.members.length
  let hosted := exHosted a.c.experts me
  let v := sliverLen (ccTokens b)
  let area := ccSlotMap b + mapFills hosted d + a.c.chunk * fillBytes hosted d
  if poisonAt a.s area (fillBytes hosted d) then { a with s := countPoison a.s area, stop := some (cardPoisoned 11 area) }
  else
    let fills := leWords (rd a.s o.owner area (fillBytes hosted d))
    (indexed 0 fills).foldl (fun x f =>
      let l := f.1 / (16 * d)
      let j := f.1 % (16 * d)
      (List.range f.2).foldl (fun y n => returnRow q o l y (l * mapRexp d v + j * v + n)) x) a

/-! ### COMBINE and GRAD_COMBINE (R224) -/

/-- Rows of the home plane of a token, with the gate of each choice; what reads poisoned. -/
def homeChoice (s : State) (o b t r : Nat) : Except CardBad (Fp × List Fp) :=
  let f := homeFmt b
  let n := cardRowBytes f (ccWidth b)
  let at_ := ccHome b + homeRows (ccTokens b) (ccChoices b)
  match (if ccKind b = 5 then some (fld 0x3F800000 96 32) else indexRead s o b t r), areaRow s o at_ n (t * ccChoices b + r) with
  | none, _ => .error (cardPoisoned 4 (ccIndex b + 16 * (t * ccChoices b + r)))
  | some _, none => .error (cardPoisoned 6 (at_ + n * (t * ccChoices b + r)))
  | some e, some row => .ok (dec32 (ixGate e), rowValues f (ccWidth b) row)

/-- Weighted rows of a token summed in ascending choice order, from +0. -/
def combineRows (s : State) (o b t : Nat) : Nat → Nat → List Fp → Except CardBad (List Fp)
  | 0, _, acc => .ok acc
  | n + 1, r, acc => match homeChoice s o b t r with
    | .error x => .error x
    | .ok (w, row) => combineRows s o b t n (r + 1) ((List.zip acc row).map (fun p => fma32 w p.2 p.1))

/-- A token's output: the sum, and for GRAD_COMBINE the router-path row added last (R26). -/
def combineToken (s : State) (o b t : Nat) : Except CardBad (List Fp) :=
  match combineRows s o b t (ccChoices b) 0 (List.replicate (ccWidth b) (fpZero false)) with
  | .error x => .error x
  | .ok v =>
    if ccKind b = 5 then
      let n := cardRowBytes (ccDxFmt b) (ccWidth b)
      match areaRow s o (ccAux b) n t with
      | none => .error (cardPoisoned 3 (ccAux b + n * t))
      | some row => .ok ((List.zip v (rowValues (ccDxFmt b) (ccWidth b) row)).map (fun p => rne32 (fpAdd p.1 p.2)))
    else .ok v

/-- One token combined. -/
def combineOne (q : Nat) (o : Op) (a : CardRun) (t : Nat) : CardRun :=
  if a.stop.isSome then a
  else
    let b := a.c.ccb
    match combineToken a.s o.owner b t with
    | .error x => { a with s := bump a.s 0x280203 1, stop := some x }
    | .ok v =>
      let r := rowOut (ccOutFmt b) v
      { a with s := noteRows (bump (wr a.s o.owner (ccOut b + t * cardRowBytes (ccOutFmt b) (ccWidth b)) r.1) 0x270206 1) q o.seq r.2 }

/-- Receipt bits from `lo` to below `hi` zeroed (R223). -/
def clearReceipts (s : State) (o base lo hi : Nat) : State :=
  if hi ≤ lo then s
  else
    let n := (hi - 1) / 8 - lo / 8 + 1
    let x := rdNat s o (base + lo / 8) n
    wr s o (base + lo / 8) (natLe n (setBits x (lo % 8) (hi - lo) 0))

/-- A chunk of COMBINE or GRAD_COMBINE. -/
def combineChunk (q : Nat) (o : Op) (a : CardRun) : CardRun :=
  let b := a.c.ccb
  let t := chunkTokens (ccTokens b) a.c.chunk (ccChunks b)
  let a1 := (chunkList a.c).foldl (combineOne q o) a
  if a1.stop.isSome then a1
  else { a1 with s := clearReceipts a1.s o.owner (ccHome b) (t.1 * ccChoices b) (t.2 * ccChoices b) }

/-! ### SCATTER (R226) -/

/-- B1 to B3 for one choice of a token. -/
def scatterChoice (q : Nat) (o : Op) (t : Nat) (dy : List Fp) (a : CardRun) (r : Nat) : CardRun :=
  if a.stop.isSome then a
  else
    let b := a.c.ccb
    let n := cardRowBytes (ccYFmt b) (ccWidth b)
    let at_ := ccHome b + homeRows (ccTokens b) (ccChoices b)
    match indexRead a.s o.owner b t r, areaRow a.s o.owner at_ n (t * ccChoices b + r) with
    | none, _ => { a with s := bump a.s 0x280203 1, stop := some (cardPoisoned 4 (ccIndex b + 16 * (t * ccChoices b + r))) }
    | some _, none => { a with s := bump a.s 0x280203 1, stop := some (cardPoisoned 6 (at_ + n * (t * ccChoices b + r))) }
    | some e, some row =>
      let w := dec32 (ixGate e)
      let g := rowOut (ccGFmt b) (dy.map (fun v => rne32 (fpMul v w)))
      let dw := pairSum ((List.zip dy (rowValues (ccYFmt b) (ccWidth b) row)).map (fun p => rne32 (fpMul p.1 p.2)))
      let s1 := wr (noteRows a.s q o.seq g.2) o.owner (ccGg b + 4 * (t * ccChoices b + r)) (natLe 4 (enc32 dw))
      let key := cntKey (ixMember e) (ixLocal e) (t / sliverLen (ccTokens b))
      let c1 := { a.c with cnt := tput a.c.cnt key (tgetD a.c.cnt key 0 + 1) }
      sendRow q o (ixMember e) a.c.chunk (slotTag (cardMe s1 c1) r t) 1
        { cardGeom s1 c1 (ixMember e) with slot := ixSlot e } g.1 { a with s := s1, c := c1 }

/-- One token scattered. -/
def scatterOne (q : Nat) (o : Op) (a : CardRun) (t : Nat) : CardRun :=
  if a.stop.isSome then a
  else
    let b := a.c.ccb
    let n := cardRowBytes (ccOutFmt b) (ccWidth b)
    match areaRow a.s o.owner (ccDy b) n t with
    | none => { a with s := countPoison a.s (ccDy b), stop := some (cardPoisoned 3 (ccDy b + n * t)) }
    | some row =>
      let a1 := (List.range (ccChoices b)).foldl (scatterChoice q o t (rowValues (ccOutFmt b) (ccWidth b) row)) a
      { a1 with s := bump a1.s 0x270206 1 }

/-- A chunk of SCATTER. -/
def scatterChunk (q : Nat) (o : Op) (a : CardRun) : CardRun :=
  let a1 := (chunkList a.c).foldl (scatterOne q o) a
  (List.range a1.c.members.length).foldl (sendFill q o a1.c.chunk true) a1

/-! ### Running by chunks -/

/-- A chunk of an operation of any kind. -/
def cardChunk (q : Nat) (o : Op) (a : CardRun) : CardRun :=
  let k := ccKind a.c.ccb
  if k = 1 then dispatchChunk q o a
  else if k = 2 then returnChunk q o a
  else if k = 4 then scatterChunk q o a
  else combineChunk q o a

/-- What a chunk waits for: counter and value; 0 for no wait (R213, R224). -/
def chunkWaits (c : Card) : Nat × Nat :=
  let b := c.ccb
  if ccKind b = 3 ∨ ccKind b = 5 then
    let t := chunkTokens (ccTokens b) c.chunk (ccChunks b)
    (ccArrival b + c.chunk, (t.2 - t.1) * ccChoices b)
  else (ccStart b + c.chunk, ccTarget b)

/-- The wait of the chunk that comes next, registered once (R311), and its end. -/
def chunkWait (s : State) (q : Nat) (c : Card) : State × Option Nat :=
  let w := chunkWaits c
  if w.2 = 0 then (s, some 1)
  else
    let s1 := if (engineWaits s q).isEmpty && !thas s.syu.ended q then engineWatch s q (wsOf 2 2 w.1 w.2) else s
    match tget? s1.syu.ended q with
    | none => (setCard s1 q { c with waiting := true }, none)
    | some r => (dropWaits s1 q, some r)

/-- The last chunk is done. -/
def finishCard (s : State) (q : Nat) (o : Op) (c : Card) : State :=
  let s1 := if ccKind c.ccb = 1 then countDispatch (writeSummary s o.owner c) (queuePart s q) (ccLayer c.ccb) c.chosen else s
  let s2 := if c.nonfinite then modOp s1 q o.seq (fun y => { y with statusBits := y.statusBits ||| bitNonfinite }) else s1
  doneOp (dropCard s2 q) q o

/-- Chunks in ascending order, as far as their conditions hold. -/
def cardLoop (q : Nat) (o : Op) : Nat → State → State
  | 0, s => s
  | n + 1, s =>
    match tget? s.card.ops q with
    | none => s
    | some c =>
      if (goingHead s q 0x08).isNone then abortCard (dropWaits (dropCard s q) q) q o c
      else if ccChunks c.ccb ≤ c.chunk then finishCard s q o c
      else match chunkWait s q c with
        | (t, none) => t
        | (t, some 1) =>
          let r := cardChunk q o { s := t, c := { c with waiting := false } }
          match r.stop with
          | some x => stopCard r.s q o r.c x
          | none => cardLoop q o n (setCard r.s q { r.c with chunk := c.chunk + 1 })
        | (t, some _) => stopCard t q o c (0x6009, [(c.chunk, 4), ((chunkWaits c).1, 16)])

/-- The slot map of a DISPATCH bound by its start, with its lease (R209, R491). -/
def startBinding (s : State) (o : Op) (c : Card) : State :=
  let b := c.ccb
  if ccKind b = 1 ∧ (mapBinding s o.owner (ccSlotMap b) (ccLayer b) c.step c.digest 0).2 then
    let s1 := bindMap s o.owner (ccSlotMap b) (ccLayer b) c.step c.digest
    { s1 with card := { s1.card with leases := s1.card.leases ++ [⟨ccSlotMap b, o.owner, o.epoch⟩] } }
  else s

/-- The index table that an operation names, remembered for the rows that return to it. -/
def startIndex (s : State) (o : Op) (b : Nat) : State :=
  if cardUses (ccKind b) 544 then
    { s with card := { s.card with indexes := tput s.card.indexes (layerKey o.owner (ccLayer b)) (o.owner, ccIndex b) } }
  else s

/-- A slot map's header and receipt bitmap zeroed, its lease and row counts gone (R210, R491). -/
def unbindMap (s : State) (o off : Nat) : State :=
  let s1 := wr s o off (List.replicate 2112 0)
  { s1 with card := { s1.card with maps := tdel s1.card.maps off, leases := s1.card.leases.filter (fun l => l.mapOff != off) } }

/-- RELEASE (R210): a map that is unbound stays as it is. -/
def releaseMap (s : State) (o : Nat) (c : Card) : State :=
  if bits (rdNat s o (ccSlotMap c.ccb) 64) 232 8 = 0 then s else unbindMap s o (ccSlotMap c.ccb)

/-- Inputs and outputs of an operation in local memory. -/
def cardExtents (b : Nat) : List (Nat × Nat) × List (Nat × Nat) :=
  let l := (cardPointers b ++ cardAreas b)
  ((l.filter (fun p => p.2.2.2.contains .read)).map (fun p => (p.1, p.2.1)), (l.filter (fun p => p.2.2.2.contains .write)).map (fun p => (p.1, p.2.1)))

/-- Members of this rack that are a Druner D1 and to which rows of more than 8,192 bytes would go (R366). -/
def cardD1Bad (s : State) (c : Card) : Option Nat :=
  let k := ccKind c.ccb
  if (k = 1 ∨ k = 2 ∨ k = 4) ∧ 8192 < (cardGeom s c 0).rowBytes then
    (c.members.find? (fun m => mbRack m == ownRack s && mbDev m != ownDev s && isD1 s (mbDev m))).map mbDev
  else none

/-- An operation of the Carding Engine or Ply Unit that has started. -/
def cardRun (q : Nat) (s : State) (x : Queue) (o : Op) (h : Head) : State :=
  let at_ := bits o.body 472 40
  if ¬ ptrOk s o.owner at_ 128 .read then badPtr s q o 472
  else match cardCheck s o x.partition at_ with
    | .bad b => refuseOp s q o b.1 (cardSrc (rdNat s o.owner at_ 128)) b.2
    | .ok c =>
      let e := cardExtents c.ccb
      if h.twoPhase && inPlace (e.1.filter (fun a => !e.2.contains a)) e.2 then refuseOp s q o 0xB00D srcQueue (descItems q o 0 0)
      else if ccKind c.ccb = 6 then doneOp (releaseMap s o.owner c) q o
      else match cardD1Bad s c with
        | some d => refuseOp s q o 0xA006 srcGuard (guardItems o.owner d (fld d 39 6 + ccSlotMap c.ccb) .copyTo)
        | none =>
          let s1 := startIndex (startBinding s o c) o c.ccb
          cardLoop q o 17 (setCard { s1 with card := { s1.card with groups := s1.card.groups + 1 } } q c)

/-! ### Rows -/

/-- The kind that a queue's head names, where its control block can be read and names one. -/
def headKind (s : State) (q : Nat) : Option Nat :=
  (headOp s q).bind (fun o => (readStruct s o.owner (bits o.body 472 40) 128).bind (fun b =>
    if bits b 0 8 = 2 ∧ 1 ≤ ccKind b ∧ ccKind b ≤ 6 then some (ccKind b) else none))

/-- The frond of the unit that runs a kind. -/
def kindFrond (k : Nat) : Nat := if k = 3 ∨ k = 4 ∨ k = 5 then plyFrond else cdeFrond

/-- An operation refused because its unit's frond has failed (R464): the queue engine sends the aborts of a DISPATCH or
SCATTER, or the poisons of a RETURN's counters. -/
def cardUnwoken (s : State) (q : Nat) (o : Op) (p : Nat) : State :=
  match cardCheck s o p (bits o.body 472 40) with
  | .bad _ => s
  | .ok c =>
    if ccKind c.ccb = 2 then
      (List.range (ccChunks c.ccb)).foldl (fun t i => (List.range c.members.length).foldl (fun u d => sendAbort q o c true u (i, d)) t) s
    else abortCard s q o c

/-- A row of a kind. -/
def cardExec (kind q : Nat) (s : State) : State :=
  if (headKind s q).getD kind ≠ kind then s
  else
    let t := runHead s q 0x08 0 (needAll s [kindFrond kind]) (cardRun q)
    match frondState s (kindFrond kind), headOp s q, queueOf s q with
    | .failed, some o, some x =>
      if (senderOp t q o.seq).any (fun y => y.status == 0x10 && y.code == 0xC009) ∧ (senderOp s q o.seq).any (fun y => y.status == 0) then
        cardUnwoken t q o x.partition
      else t
    | _, _, _ => t

/-- A chunk's start condition met. -/
def cardGoOn (kinds : List Nat) (q : Nat) (s : State) : State :=
  match goingHead s q 0x08, tget? s.card.ops q with
  | some (_, o, _), some c => if kinds.contains (ccKind c.ccb) ∧ thas s.syu.ended q then cardLoop q o 17 s else s
  | _, _ => s

/-- Operations of the Carding Engine and Ply Unit that a far side has stopped leave their unit, and a DISPATCH or SCATTER
among them aborts the chunks whose fill messages it has not sent (R218, R351). -/
def settleCards (s : State) : State :=
  s.card.ops.foldl (fun t c => match headOp t c.1 with
    | some o =>
      if o.seq = c.2.seq ∧ o.progress = .finished ∧ 0x10 ≤ o.status then abortCard (dropWaits (dropCard t c.1) c.1) c.1 o c.2 else t
    | none => t) s

/-- DISPATCH (R213). -/
def execDispatch (q : Nat) (s : State) : Host.Outcome State Fault Refusal := .next (cardExec 1 q s)
/-- DISPATCH_CHUNK_START (R213). -/
def execDispatchChunkStart (q : Nat) (s : State) : Host.Outcome State Fault Refusal := .next (cardGoOn [1] q s)
/-- RETURN (R222). -/
def execCardReturn (q : Nat) (s : State) : Host.Outcome State Fault Refusal := .next (cardExec 2 q s)
/-- RETURN_CHUNK_START (R222). -/
def execReturnChunkStart (q : Nat) (s : State) : Host.Outcome State Fault Refusal := .next (cardGoOn [2] q s)
/-- COMBINE (R224). -/
def execCombine (q : Nat) (s : State) : Host.Outcome State Fault Refusal := .next (cardExec 3 q s)
/-- COMBINE_CHUNK_START (R224). -/
def execCombineChunkStart (q : Nat) (s : State) : Host.Outcome State Fault Refusal := .next (cardGoOn [3, 5] q s)
/-- SCATTER (R226). -/
def execScatter (q : Nat) (s : State) : Host.Outcome State Fault Refusal := .next (cardExec 4 q s)
/-- SCATTER_CHUNK_START (R226). -/
def execScatterChunkStart (q : Nat) (s : State) : Host.Outcome State Fault Refusal := .next (cardGoOn [4] q s)
/-- GRAD_COMBINE (R224). -/
def execGradCombine (q : Nat) (s : State) : Host.Outcome State Fault Refusal := .next (cardExec 5 q s)
/-- RELEASE (R210). -/
def execRelease (q : Nat) (s : State) : Host.Outcome State Fault Refusal := .next (cardExec 6 q s)

end Sys2Proof.Machine
end

