-- ==== Sys2Proof/Machine/FabRx.lean ====
section
/-!
DEFINITION. Machine/FabRx.lean: the receive side of the fabric: header and trust checks, order of flows, acknowledgement,
relays, and one row per packet (R219 to R221, R335 to R344, R351, R360).
-/
namespace Sys2Proof.Machine

/-! ### Acknowledgement (R340) -/

/-- A FLOW_ACK naming the highest flow_seq applied in order. -/
def sendAck (s : State) (key : Nat) : State :=
  let f := flowOf s key
  sendLoose (setFlow s key { f with ackDue := 0 }) key
    { ty := 0x0D, src := ownDev s, dst := keyDev key, payload := natLe 4 ((f.rxNext + 2 ^ 32 - 1) % 2 ^ 32) }

/-- An acknowledgement after every 64 applied packets. -/
def ackIfDue (s : State) (key : Nat) : State := if 64 ≤ (flowOf s key).ackDue then sendAck s key else s

/-! ### Relays (R220, R221) -/

/-- Whether a packet is to be relayed onwards. -/
def toRelay (s : State) (k : Packet) : Bool := k.eth && pkRelayed k && k.dst != ownDev s

/-- A relayed packet that is discarded, with a late fault to its source. -/
def dropRelay (s : State) (key : Nat) (k : Packet) (code : Nat) : State := lateOnly s key k code 0xFFFF

/-- A packet to relay taken into a buffer of the relay pool; none where no buffer is free. -/
def relayTake (s : State) (key : Nat) (k : Packet) : Option State :=
  if frondState s cdeFrond = .failed then some (dropRelay s key k 0xC009)
  else if 63 < k.dst then
    some (dropRelay (raiseDev s 0x600D srcCde [((k.geom.map (·.source)).getD 0xFFF, 12), (k.dst, 12)]) key k 0x600D)
  else match deviceBuf s (entAt s 0x270101 10) false with
    | (t, some b) => some { t with fab := { t.fab with relays := t.fab.relays ++ [(k, b.1)] } }
    | (_, none) => none

/-! ### Applying a packet -/

/-- Message of an attestation sent (R343). -/
def sendSpdm (s : State) (dev exchange : Nat) : State :=
  let a := tgetD s.fab.attests dev {}
  let s1 := { s with fab := { s.fab with attests := tput s.fab.attests dev { a with sent := exchange + 1 } } }
  sendPk s1 dev 0xFFFFF 0 { ty := 0x19, src := ownDev s, dst := dev, op := exchange }

/-- Exchanges of the attestation: GET_VERSION to GET_MEASUREMENTS. -/
def spdmSteps : Nat := 6

/-- A pair whose attestation fails (R343). -/
def failAttest (s : State) (dev step : Nat) : State :=
  { raiseDev s 0xA005 srcFabric [(dev, 12), (step, 8)] with fab := { s.fab with attests := tput s.fab.attests dev { failed := true } } }

/-- A message of a peer: checked, answered, and after the last the peer is trusted. -/
def takeSpdm (s : State) (k : Packet) (m : Spdm) : State :=
  let dev := k.src
  let a := tgetD s.fab.attests dev {}
  if a.failed ∨ m.exchange ≠ a.step then s
  else if ¬ m.valid then failAttest s dev m.exchange
  else
    let last := m.exchange + 1 = spdmSteps
    if last ∧ (m.domain ≠ ent s 0x2B0304 ∨ m.rack ≠ ownRack s) then failAttest s dev m.exchange
    else
      let s1 := { s with fab := { s.fab with attests := tput s.fab.attests dev { a with step := m.exchange + 1 } } }
      let s2 := if a.sent ≤ m.exchange then sendSpdm s1 dev m.exchange
        else if ¬ last ∧ a.sent = m.exchange + 1 then sendSpdm s1 dev (m.exchange + 1) else s1
      if last then pumpFlow 4096 { s2 with fab := { s2.fab with trusted := if s2.fab.trusted.contains dev then s2.fab.trusted
                                                                 else insertKey s2.fab.trusted dev } } dev
      else s2

/-- LATE_FAULT at its source; one of code 0xA00F also ends the coherent request it refuses (R358). -/
def applyLateAll (s : State) (key : Nat) (k : Packet) : State :=
  let b := leNat (k.payload.take 32)
  let s1 := settleCards (applyLate s key k)
  if bits b 132 16 = 0xA00F then refuseRequests s1 (bits b 120 12) (bits b 68 52) else s1

/-- A packet applied by its type (R338); messages to the home are taken together in `homeCycle`. -/
def applyPk (s : State) (key : Nat) (k : Packet) (ecc : List EccEvent) : State :=
  match k.ty with
  | 0x01 => applyLoad s key k ecc
  | 0x02 => applyLoadData s k
  | 0x03 => applyStore s key k
  | 0x04 => applyAtomic s key k
  | 0x05 => applyResult s key k
  | 0x06 => applyRelease s k
  | 0x07 => if k.op = 0x04 then applyRemoteSource s key k else applyCopy s key k
  | 0x08 => applySync s key k
  | 0x09 => applyMessage s k
  | 0x0A => applyCard s key k
  | 0x0B => applyCard s key k
  | 0x0C => applyLateAll s key k
  | 0x0E => applyNotice s k
  | 0x0F => if k.payload.length ≤ 4 then applyClose s key k else applyClosed s k
  | 0x12 => applyData s k
  | 0x13 => applyInv s k
  | 0x14 => homeAnswer s (pkLine k) k.src none
  | 0x15 => applyRecall s k
  | 0x17 => applyRetryAfter s k
  | 0x19 => match k.spdm with
    | some m => takeSpdm s k m
    | none => s
  | _ => s

/-- Messages that the home takes cycle by cycle (R360). -/
def toHome (k : Packet) : Bool := k.ty == 0x10 || k.ty == 0x11 || k.ty == 0x16

/-- Packets that are next in their flows, each with its flow, applied in order; those to the home in one cycle. -/
def applyReady (s : State) (ready : List (Nat × Packet)) (ecc : List EccEvent) : State :=
  let live := ready.filter (fun x => !stalePk s x.2)
  let s1 := (live.filter (fun x => !toHome x.2)).foldl (fun t x => if stalePk t x.2 then t else applyPk t x.1 x.2 ecc) s
  homeCycle s1 (live.filter (fun x => toHome x.2))

/-! ### Order of a flow (R337, R342) -/

/-- A packet next in order counted as applied. -/
def countApplied (s : State) (key : Nat) (k : Packet) : State :=
  let s1 := bump (modFlow s key (fun f => { f with rxNext := (f.rxNext + 1) % 2 ^ 32, ackDue := f.ackDue + 1 })) 0x2B0702 1
  if k.owner = 0 then s1 else bump s1 (pKey 0x3030 4 (ownerPart s1 k.owner)) k.payload.length

/-- A packet that arrived ahead and waits, and that is next now: from its buffer, or from behind withheld credit. -/
def heldNext (s : State) (key : Nat) : Option (Packet × State) :=
  let f := flowOf s key
  match f.ahead.find? (fun x => x.1.seq == f.rxNext) with
  | some x => some (x.1, deviceRelease (setFlow s key { f with ahead := f.ahead.erase x }) x.2)
  | none => match f.withheld.find? (fun x => x.seq == f.rxNext) with
    | some x => some (x, setFlow s key { f with withheld := f.withheld.erase x })
    | none => none

/-- A packet next in order released: to be applied, or into a relay's buffer; where that has none the flow is held. -/
def release (s : State) (key : Nat) (k : Packet) : Option (State × List (Nat × Packet)) :=
  if toRelay s k then (relayTake s key k).map (fun t => (countApplied t key k, []))
  else some (countApplied s key k, [(key, k)])

/-- A packet released with those that were held behind it. -/
def releaseAll (key : Nat) : Nat → State → Packet → List (Nat × Packet) → State × List (Nat × Packet)
  | 0, s, _, acc => (s, acc)
  | n + 1, s, k, acc =>
    match release s key k with
    | none => ({ s with fab := { s.fab with holdRelays := s.fab.holdRelays ++ [(key, k)] } }, acc)
    | some (t, l) => match heldNext t key with
      | some (k1, t1) => releaseAll key n t1 k1 (acc ++ l)
      | none => (t, acc ++ l)

/-- Whether a flow is held back by a packet it cannot release. -/
def flowHeld (s : State) (key : Nat) : Bool := s.fab.holdRelays.any (fun x => x.1 == key)

/-- A sequenced packet taken in its flow: the packets that become next in order. -/
def takeSeq (s : State) (key : Nat) (k : Packet) : State × List (Nat × Packet) :=
  let f := flowOf s key
  let d := (k.seq + 2 ^ 32 - f.rxNext) % 2 ^ 32
  let again := bump s 0x2B0704 1
  if d = 0 then (if flowHeld s key then (again, []) else releaseAll key 4097 s k [])
  else if 2 ^ 31 ≤ d then (sendAck again key, [])
  else if 4095 < d then (bump s 0x2B0706 1, [])
  else if f.ahead.any (fun x => x.1.seq == k.seq) ∨ f.withheld.any (fun x => x.seq == k.seq) then (again, [])
  else match deviceBuf s (ent s 0x290401) false with
    | (t, some b) => (modFlow t key (fun g => { g with ahead := g.ahead ++ [(k, b.1)] }), [])
    | (t, none) => (modFlow t key (fun g => { g with withheld := g.withheld ++ [k] }), [])

/-! ### Arrival -/

/-- Flow that brings a packet. -/
def keyOfPk (k : Packet) : Nat := if k.eth then 2 ^ 20 + k.srcRack * 4096 + k.src else pkSender k

/-- Whether a port receives. -/
def portHears (s : State) (p : Nat) : Bool := decide (p < 21) && s.power.railState == 2 && portUp s p

/-- A packet whose header or end-to-end check fails (R335): discarded. -/
def badPacket (s : State) (k : Packet) : State := raiseDev s 0xA00A srcFabric [(k.src, 12), (k.seq, 32)]

/-- An untrusted sender's packet (R344): discarded and counted, its fault at most once per second. -/
def untrustedPk (s : State) (key : Nat) : State :=
  let s1 := bump s 0x2B0709 1
  if s.fab.untrustedRaised.contains key then s1
  else raiseDev { s1 with fab := { s1.fab with untrustedRaised := s1.fab.untrustedRaised ++ [key] } } 0xA00B srcFabric [(keyDev key, 12)]

/-- A packet as the port hands it on: one of a Druner D1 translated to version 2 (R366). -/
def portTranslate (s : State) (p : Nat) (k : Packet) : Packet := if portD1 s p ∧ k.version = 1 then { k with version := 2 } else k

/-- A packet that arrives: checks, and its place in its flow. -/
def arrive (s : State) (p : Nat) (k0 : Packet) : State × List (Nat × Packet) :=
  let k := portTranslate s p k0
  let key := keyOfPk k
  if ¬ portHears s p ∨ (k.eth != decide (19 ≤ p)) then (s, [])
  else if k.eth ∧ (k.dstRack ≠ ownRack s ∨ k.srcRack = ownRack s) then (s, [])
  else if ¬ pkHeaderOk k ∨ ¬ pkCrcOk k then (badPacket s k, [])
  else if k.ty ≠ 0x19 ∧ ¬ trustedKey s key then (untrustedPk s key, [])
  else takeSeq s key k

/-- Packets of one arrival and its rivals of the same cycle: all arrive, then what is next in order is applied, then what is
due is acknowledged. -/
def receive (s : State) (arrivals : List (Nat × Packet)) (ecc : List EccEvent) : State :=
  let r := arrivals.foldl (fun (a : State × List (Nat × Packet)) x => let y := arrive a.1 x.1 x.2; (y.1, a.2 ++ y.2)) (s, [])
  let t := applyReady r.1 r.2 ecc
  ((arrivals.map (fun x => keyOfPk x.2)).eraseDups).foldl ackIfDue t

/-- A row of a kind of packet: a packet of another kind is not its event; one of a reserved type is any row's. -/
def rxRow (s : State) (p : Nat) (k : Packet) (mine : Bool) (ecc : List EccEvent) : State :=
  if mine ∨ ¬ pkKnown k.ty then receive s [(p, k)] ecc else s

/-- LOAD (R347). -/
def execLoad (port : Nat) (k : Packet) (ecc : List EccEvent) (s : State) : Host.Outcome State Fault Refusal :=
  .next (rxRow s port k (k.ty == 0x01) ecc)
/-- LOAD_DATA (R347). -/
def execLoadData (port : Nat) (k : Packet) (s : State) : Host.Outcome State Fault Refusal := .next (rxRow s port k (k.ty == 0x02) [])
/-- STORE (R347). -/
def execStore (port : Nat) (k : Packet) (s : State) : Host.Outcome State Fault Refusal := .next (rxRow s port k (k.ty == 0x03) [])
/-- ATOMIC (R353). -/
def execAtomicPacket (port : Nat) (k : Packet) (s : State) : Host.Outcome State Fault Refusal :=
  .next (rxRow s port k (k.ty == 0x04) [])
/-- ATOMIC_RESULT (R353). -/
def execAtomicResult (port : Nat) (k : Packet) (s : State) : Host.Outcome State Fault Refusal :=
  .next (rxRow s port k (k.ty == 0x05) [])
/-- ATOMIC_RELEASE (R353). -/
def execAtomicRelease (port : Nat) (k : Packet) (s : State) : Host.Outcome State Fault Refusal :=
  .next (rxRow s port k (k.ty == 0x06) [])
/-- COPY_DATA (R349). -/
def execCopyData (port : Nat) (k : Packet) (s : State) : Host.Outcome State Fault Refusal :=
  .next (rxRow s port k (k.ty == 0x07 && k.op != 0x04) [])
/-- REMOTE_SOURCE_COPY (R349). -/
def execRemoteSourceCopy (port : Nat) (k : Packet) (s : State) : Host.Outcome State Fault Refusal :=
  .next (rxRow s port k (k.ty == 0x07 && k.op == 0x04) [])
/-- SYNC (R306). -/
def execSyncPacket (port : Nat) (k : Packet) (s : State) : Host.Outcome State Fault Refusal :=
  .next (rxRow s port k (k.ty == 0x08) [])
/-- WATCH_MESSAGE (R310). -/
def execWatchMessage (port : Nat) (k : Packet) (s : State) : Host.Outcome State Fault Refusal :=
  .next (rxRow s port k (k.ty == 0x09) [])

/-- Kind of exchange that a Carding packet belongs to. -/
def cardKindOf (k : Packet) : Nat := (k.geom.map (·.kind)).getD 3

/-- CARD_ROW, forward (R215). -/
def execCardRowForward (port : Nat) (k : Packet) (s : State) : Host.Outcome State Fault Refusal :=
  .next (rxRow s port k (k.ty == 0x0A && cardKindOf k == 0 && !toRelay s k) [])
/-- CARD_ROW, backward (R227). -/
def execCardRowBackward (port : Nat) (k : Packet) (s : State) : Host.Outcome State Fault Refusal :=
  .next (rxRow s port k (k.ty == 0x0A && cardKindOf k == 1 && !toRelay s k) [])
/-- CARD_ROW, returned (R223). -/
def execCardRowReturn (port : Nat) (k : Packet) (s : State) : Host.Outcome State Fault Refusal :=
  .next (rxRow s port k (k.ty == 0x0A && cardKindOf k == 2 && !toRelay s k) [])
/-- CARD_FILL, forward (R216). -/
def execCardFillForward (port : Nat) (k : Packet) (s : State) : Host.Outcome State Fault Refusal :=
  .next (rxRow s port k (k.ty == 0x0B && cardKindOf k == 0 && !toRelay s k) [])
/-- CARD_FILL, backward, or the poison that R464 sends for a RETURN (R227). -/
def execCardFillBackward (port : Nat) (k : Packet) (s : State) : Host.Outcome State Fault Refusal :=
  .next (rxRow s port k (k.ty == 0x0B && (cardKindOf k == 1 || cardKindOf k == 2) && !toRelay s k) [])
/-- A packet to relay (R221). -/
def execRelayPacketReceive (port : Nat) (k : Packet) (s : State) : Host.Outcome State Fault Refusal :=
  .next (rxRow s port k (toRelay s k) [])

/-- LATE_FAULT (R351). -/
def execLateFault (port : Nat) (k : Packet) (s : State) : Host.Outcome State Fault Refusal :=
  .next (rxRow s port k (k.ty == 0x0C) [])
/-- EPOCH_NOTICE (R354). -/
def execEpochNotice (port : Nat) (k : Packet) (s : State) : Host.Outcome State Fault Refusal :=
  .next (rxRow s port k (k.ty == 0x0E) [])
/-- EPOCH_CLOSE (R354). -/
def execEpochClose (port : Nat) (k : Packet) (s : State) : Host.Outcome State Fault Refusal :=
  .next (rxRow s port k (k.ty == 0x0F && decide (k.payload.length ≤ 4)) [])
/-- EPOCH_CLOSED (R354). -/
def execEpochClosed (port : Nat) (k : Packet) (s : State) : Host.Outcome State Fault Refusal :=
  .next (rxRow s port k (k.ty == 0x0F && decide (4 < k.payload.length)) [])

/-- Coherent requests that reach the home in one cycle, each on the port that brings it. -/
def rivalsOf (port : Nat) (k : Packet) (rivals : List Packet) : List (Nat × Packet) :=
  ((k :: rivals).filter (fun x => toHome x)).map (fun x => (port, x))

/-- GET_S (R360), with the messages of the same cycle. -/
def execGetS (port : Nat) (k : Packet) (rivals : List Packet) (s : State) : Host.Outcome State Fault Refusal :=
  .next (if k.ty = 0x10 then receive s (rivalsOf port k rivals) [] else rxRow s port k false [])
/-- GET_M (R360), with the messages of the same cycle. -/
def execGetM (port : Nat) (k : Packet) (rivals : List Packet) (s : State) : Host.Outcome State Fault Refusal :=
  .next (if k.ty = 0x11 then receive s (rivalsOf port k rivals) [] else rxRow s port k false [])
/-- DATA (R359). -/
def execData (port : Nat) (k : Packet) (s : State) : Host.Outcome State Fault Refusal := .next (rxRow s port k (k.ty == 0x12) [])
/-- INV (R359). -/
def execInv (port : Nat) (k : Packet) (s : State) : Host.Outcome State Fault Refusal := .next (rxRow s port k (k.ty == 0x13) [])
/-- INV_ACK (R359). -/
def execInvAck (port : Nat) (k : Packet) (s : State) : Host.Outcome State Fault Refusal := .next (rxRow s port k (k.ty == 0x14) [])
/-- RECALL (R359). -/
def execRecall (port : Nat) (k : Packet) (s : State) : Host.Outcome State Fault Refusal := .next (rxRow s port k (k.ty == 0x15) [])
/-- PUT_M (R360). -/
def execPutM (port : Nat) (k : Packet) (s : State) : Host.Outcome State Fault Refusal := .next (rxRow s port k (k.ty == 0x16) [])
/-- RETRY_AFTER (R360). -/
def execRetryAfter (port : Nat) (k : Packet) (s : State) : Host.Outcome State Fault Refusal :=
  .next (rxRow s port k (k.ty == 0x17) [])
/-- ATTEST (R343). -/
def execAttest (port : Nat) (k : Packet) (m : Spdm) (s : State) : Host.Outcome State Fault Refusal :=
  .next (rxRow s port { k with spdm := some m } (k.ty == 0x19 && !k.eth) [])

/-- ATTEST_RETRY (R343): a failed pair is tried again. -/
def execAttestRetry (device : Nat) (s : State) : Host.Outcome State Fault Refusal :=
  .next (if (tgetD s.fab.attests device {}).failed then
    sendSpdm { s with fab := { s.fab with attests := tput s.fab.attests device {} } } device 0 else s)

/-! ### Relays forward -/

/-- A flow held back for want of a relay buffer tried again, its hold counted (R221). -/
def retryHeld (s : State) (x : Nat × Packet) : State :=
  match relayTake s x.1 x.2 with
  | none => s
  | some _ =>
    let s1 := bump { s with free := s.free + 1, fab := { s.fab with holdRelays := s.fab.holdRelays.erase x } } 0x270207 (Config.duration s.free)
    let r := releaseAll x.1 4097 s1 x.2 []
    ackIfDue (applyReady r.1 r.2 []) x.1

/-- RELAY_FORWARD (R220): a held packet that none of its pair precedes leaves, and its buffer is freed. -/
def execRelayForward (held : Nat) (s : State) : Host.Outcome State Fault Refusal :=
  .next (match s.fab.relays[held]? with
    | none => s
    | some x =>
      let same (y : Packet × Nat) : Bool := y.1.srcRack == x.1.srcRack && y.1.src == x.1.src && y.1.dst == x.1.dst
      if (s.fab.relays.take held).any same then s
      else
        let s1 := { s with fab := { s.fab with relays := s.fab.relays.eraseIdx held } }
        let s2 := deviceRelease (bump (sendOn s1 x.1.dst x.1) 0x270205 1) x.2
        s2.fab.holdRelays.foldl retryHeld s2)

/-! ### FLOW_ACK, timeouts and resets (R340 to R342) -/

/-- Fences whose packets are all acknowledged complete (R350). -/
def settleFences (s : State) : State :=
  s.queues.foldl (fun t x => match goingHead t x.1 0x05 with
    | some (_, o, _) => settleFence t x.1 o
    | none => t) s

/-- The notice of an owner's new epoch covered by a FLOW_ACK (R495). -/
def noteAcked (key : Nat) (s : State) (x : Sent) : State :=
  if x.pk.ty = 0x0E then
    modOwner s (epOwner x.pk) (fun w => { w with reset := w.reset.map (fun r => { r with notices := r.notices.filter (· != key) }) })
  else s

/-- Growth of a cross-rack flow's window, or its halving on a congestion mark (R363). -/
def windowOf (eth : Bool) (f : Flow) (acked : Nat) (mark : Bool) : Flow :=
  if ¬ eth then f
  else
    let g := f.grown + acked
    let w := min 4096 (f.window + g / 64)
    { f with grown := g % 64, window := if mark then max 16 (w / 2) else w }

/-- FLOW_ACK of a flow: packets up to its flow_seq are acknowledged, and waiting ones follow. -/
def takeAck (s : State) (key ack : Nat) (mark : Bool) : State :=
  let f := flowOf s key
  let old (x : Sent) : Bool := decide ((ack + 2 ^ 32 - x.pk.seq) % 2 ^ 32 < 2 ^ 31)
  let done := f.unacked.filter old
  let f1 := { f with unacked := f.unacked.filter (fun x => !old x), retries := if done.isEmpty then f.retries else 0 }
  let s1 := done.foldl (noteAcked key) (setFlow s key (windowOf (isEth key) f1 done.length mark))
  pumpFlow 4096 (settleFences s1) key

/-- FLOW_ACK (R340). -/
def execFlowAck (port : Nat) (k : Packet) (s : State) : Host.Outcome State Fault Refusal :=
  .next (
    if k.ty ≠ 0x0D ∨ ¬ portHears s port ∨ k.eth ≠ decide (19 ≤ port) then rxRow s port k false []
    else if ¬ pkHeaderOk (portTranslate s port k) ∨ ¬ pkCrcOk (portTranslate s port k) then badPacket s k
    else if thas s.fab.flows (keyOfPk k) then takeAck s (keyOfPk k) (leNat (k.payload.take 4)) (k.op == 1)
    else s)

/-- FLOW_ACK_TIMER (R340). -/
def execFlowAckTimer (flow : Nat) (s : State) : Host.Outcome State Fault Refusal :=
  .next (if (flowOf s flow).ackDue = 0 then s else sendAck s flow)

/-- A flow's unacknowledged packets sent again, on ports other than those of their first attempt where others are up. -/
def resend (s : State) (key : Nat) : State :=
  (flowOf s key).unacked.foldl (fun t x => bump (transmit t key x.pk (some x.port)) 0x2B0703 1) s

/-- E2E_TIMEOUT (R340, R341). -/
def execE2eTimeout (flow : Nat) (s : State) : Host.Outcome State Fault Refusal :=
  let f := flowOf s flow
  .next (
    if f.unacked.isEmpty ∨ f.failed then s
    else if ent s 0x2B0202 ≤ f.retries + 1 then settleCards (failFlow s flow)
    else resend (setFlow s flow { f with retries := f.retries + 1 }) flow)

/-- A FLOW_RESET with a new base: a request, or an answer. -/
def sendReset (s : State) (key base op : Nat) : State :=
  sendLoose s key { ty := 0x1A, src := ownDev s, dst := keyDev key, op := op, payload := natLe 4 base }

/-- FLOW_RESET_RETRY (R341). -/
def execFlowResetRetry (flow : Nat) (s : State) : Host.Outcome State Fault Refusal :=
  .next (if (flowOf s flow).failed then sendReset s flow (flowOf s flow).txNext 0 else s)

/-- Packets numbered from a base. -/
def renumber : Nat → List Sent → List Sent
  | _, [] => []
  | n, x :: r => { x with pk := { x.pk with seq := n } } :: renumber ((n + 1) % 2 ^ 32) r

/-- Both directions of a flow restarted: what arrived ahead is dropped, and what was not acknowledged is sent again from the
new base once the flow is trusted again. -/
def restartFlow (s : State) (key rxBase : Nat) : State :=
  let f := flowOf s key
  let s1 := f.ahead.foldl (fun t x => deviceRelease t x.2) s
  let l := renumber f.txNext (f.unacked ++ f.waiting)
  setFlow s1 key { f with rxNext := rxBase, ahead := [], withheld := [], ackDue := 0, unacked := [], waiting := l, retries := 0,
                          failed := false, txNext := (f.txNext + l.length) % 2 ^ 32 }

/-- FLOW_RESET taken (R341, R355, R361): the flow restarts, trust ends and is sought again, lines homed at the sender go, and
slots of atomics whose outcome is unknown are free. -/
def takeReset (s : State) (key : Nat) (k : Packet) : State :=
  let dev := keyDev key
  let base := (flowOf s key).txNext
  let s1 := restartFlow s key (leNat (k.payload.take 4))
  let s2 := if k.op = 0 then sendReset s1 key base 1 else s1
  if isEth key then pumpFlow 4096 s2 key
  else
    let s3 := dropLines s2 (fun x => raDev x.addr == dev)
    let s4 := { s3 with fab := { s3.fab with trusted := s3.fab.trusted.filter (· != dev), attests := tput s3.fab.attests dev {} } }
    let s5 := freeSlots s4 dev (fun _ a => a.queue == 0xFFFFF)
    if k.op = 0 then s5 else sendSpdm s5 dev 0

/-- FLOW_RESET (R341). -/
def execFlowReset (port : Nat) (k : Packet) (s : State) : Host.Outcome State Fault Refusal :=
  .next (
    if k.ty ≠ 0x1A ∨ ¬ portHears s port ∨ k.eth ≠ decide (19 ≤ port) then rxRow s port k false []
    else if ¬ pkHeaderOk (portTranslate s port k) ∨ ¬ pkCrcOk (portTranslate s port k) then badPacket s k
    else if k.op = 0 ∨ (flowOf s (keyOfPk k)).failed then takeReset s (keyOfPk k) k
    else s)

/-- CREDIT_WITHHOLD_EXPIRY (R342): the packet at the head takes a buffer, or is refused. -/
def execCreditWithholdExpiry (flow : Nat) (s : State) : Host.Outcome State Fault Refusal :=
  .next (match (flowOf s flow).withheld with
    | [] => s
    | k :: r =>
      match deviceBuf s (ent s 0x290401) false with
      | (t, some b) => modFlow t flow (fun f => { f with withheld := r, ahead := f.ahead ++ [(k, b.1)] })
      | (t, none) => bump (modFlow t flow (fun f => { f with withheld := r })) 0x2B0706 1)

/-! ### Time (R364, R365) -/

/-- TIME_SYNC_SEND: the rack time source sends its time on every Skein port. -/
def execTimeSyncSend (s : State) : Host.Outcome State Fault Refusal :=
  .next (if s.fab.isSource then
    ((List.range 16).filter (portUp s)).foldl (fun t p =>
      portSend t p 0xFFF (pkSeal { ty := 0x18, src := ownDev t, dst := 0xFFF, payload := natLe 8 t.clock.ns })) s
  else s)

/-- Device time locked to a source's time: set once, then steered by its rate within ±200 ppm, by an amount the manual does
not give. -/
def followTime (s : State) (t : Nat) : State :=
  if s.clock.locked then
    { s with free := s.free + 1, fab := { s.fab with rateAdj := ((Config.freeValue s.free % 401 : Nat) : Int) - 200 } }
  else { s with clock := { s.clock with ns := t % 2 ^ 64, locked := true } }

/-- TIME_SYNC (R365). -/
def execTimeSync (port : Nat) (k : Packet) (s : State) : Host.Outcome State Fault Refusal :=
  .next (
    if k.ty ≠ 0x18 ∨ ¬ portHears s port ∨ 16 ≤ port then rxRow s port k false []
    else if ¬ pkHeaderOk (portTranslate s port k) ∨ ¬ pkCrcOk (portTranslate s port k) then badPacket s k
    else if s.fab.isSource ∧ ownDev s ≤ k.src then s
    else followTime { s with fab := { s.fab with isSource := false, sourceDev := k.src } } (leNat (k.payload.take 8)))

/-- PTP_MESSAGE (R364): the exchange that a message ends gives the offset from the master. -/
def execPtpMessage (port : Nat) (m : Ptp) (s : State) : Host.Outcome State Fault Refusal :=
  .next (
    if ¬ (port = 19 ∨ port = 20) ∨ ¬ portHears s port ∨ ent s 0x2B0606 = 0 ∨ m.domain ≠ ent s 0x2B0607 then s
    else
      let s1 := setEnt s 0x2B0608 (ofSigned 32 m.offsetNs)
      if ¬ m.locked then s1
      else
        let first := !s1.fab.ptpLocked
        let s2 := { s1 with fab := { s1.fab with ptpLocked := true, isSource := s1.fab.isSource || first } }
        if s2.fab.isSource then followTime s2 (((s2.clock.ns : Int) - m.offsetNs) % ((2 ^ 64 : Nat) : Int)).toNat else s2)

/-- PTP_LOCK_LOST (R364). -/
def execPtpLockLost (s : State) : Host.Outcome State Fault Refusal :=
  .next (if s.fab.ptpLocked then
    raiseDev { s with fab := { s.fab with ptpLocked := false, isSource := false } } 0xA010 srcPort
      [(0x1F, 5), (ent s 0x2B0608, 32)]
  else s)

end Sys2Proof.Machine
end

