-- ==== Sys2Proof/Machine/Collective.lean ====
section
/-!
DEFINITION. Machine/Collective.lean: collectives (R377 to R382, R181, R182, R187): what they compute, what this device sends,
and how they end. What the other participants send arrives with the command.
-/
namespace Sys2Proof.Machine

/-! ### What a collective computes -/

/-- One level of the tree of R378. -/
def treeLevel {α : Type} (f : α → α → α) : List α → List α
  | a :: b :: r => f a b :: treeLevel f r
  | l => l

/-- The levels of the tree, as many as the list is long. -/
def treeFold {α : Type} (f : α → α → α) : Nat → List α → Option α
  | _, [] => none
  | _, [a] => some a
  | 0, a :: _ => some a
  | n + 1, l => treeFold f n (treeLevel f l)

/-- Lists combined place by place. -/
def zipEach {α : Type} (f : α → α → α) (a b : List α) : List α := (List.zip a b).map (fun p => f p.1 p.2)

/-- Inputs reduced by sum: padded with inputs of +0 to a power of two (R141, R378). -/
def reduceSum (n : Nat) (ins : List (List Fp)) : List Fp :=
  let k := clog2 ins.length
  (treeFold (zipEach (fun x y => rne32 (fpAdd x y))) k
    (ins ++ List.replicate (2 ^ k - ins.length) (List.replicate n (fpZero false)))).getD []

/-- Words of w bytes. -/
def wordsOf (w : Nat) (b : List Nat) : List Nat := (splitEvery w (b.length / w) b).map leNat

/-- A word operation: AND, OR, or the unsigned 64-bit sum, which saturates (R378). -/
def wordOp (op x y : Nat) : Nat := if op = 3 then x &&& y else if op = 4 then x ||| y else satAdd 64 x y

/-- Bytes of n elements of a format: an MX format's scales follow the elements at the next 256-byte boundary. -/
def tensorBytes (f n : Nat) : Nat :=
  let e := packedBytes (fbCode f) n
  if isMx (fbCode f) then roundUp e 256 + ceilDiv n 32 else e

/-- Values of n elements of a format. -/
def tensorVals (f n : Nat) (b : List Nat) : List Fp :=
  let c := fbCode f
  let w := elemBits c
  let x := leNat (b.take (packedBytes c n))
  let sc := b.drop (roundUp (packedBytes c n) 256)
  (List.range n).map (fun i =>
    let v := elemDecode c (bits x (i * w) w)
    if isMx c then scaled ((sc[i / 32]?).getD 0) v else v)

/-- Values written as n elements of a format, as R224 converts. -/
def tensorOut (f : Nat) (v : List Fp) : List Nat × DrainStats :=
  let c := fbCode f
  let r := convRow c false (v.map (fun y => (y, none)))
  let e := packElems c r.words
  (if isMx c then padTo (roundUp e.length 256) e ++ r.scales else e, r.stats)

/-- Elements lo to below hi of a tensor of n elements, as a tensor of their own. -/
def tensorPart (f n : Nat) (b : List Nat) (lo hi : Nat) : List Nat :=
  let c := fbCode f
  let w := elemBits c
  let x := leNat (b.take (packedBytes c n))
  let sc := b.drop (roundUp (packedBytes c n) 256)
  let e := packElems c ((List.range (hi - lo)).map (fun i => bits x ((lo + i) * w) w))
  if isMx c then padTo (roundUp e.length 256) e ++ (sc.drop (lo / 32)).take (ceilDiv (hi - lo) 32) else e

/-- Blocks of a tensor joined in order. -/
def tensorJoin (f : Nat) (bs : List (Nat × List Nat)) : List Nat :=
  let c := fbCode f
  let w := elemBits c
  let elems := bs.flatMap (fun p =>
    let x := leNat (p.2.take (packedBytes c p.1))
    (List.range p.1).map (fun i => bits x (i * w) w))
  let e := packElems c elems
  if isMx c then padTo (roundUp e.length 256) e ++ bs.flatMap (fun p => p.2.drop (roundUp (packedBytes c p.1) 256)) else e

/-- A collective as it runs: of a control block (Table 12-5), or one that the PLE issues. The staging area is none where
no memory of this device is named for it; so is the arrival counter. -/
structure Coll where
  kind : Nat
  op : Nat := 1
  inFmt : Nat
  outFmt : Nat
  count : Nat
  step : Nat
  id : Nat
  last : Bool := false
  guard : Option Nat := none
  members : List Nat
  inPtr : Nat
  outPtr : Nat
  staging : Option (Nat × Nat) := none
  counter : Option Nat := none
  root : Nat := 0
  touchedOut : Nat := 0
  deriving DecidableEq, Repr

/-- Elements per block, and the elements of block j (R379). -/
def clBlock (c : Coll) : Nat := ceilDiv c.count c.members.length
def clRange (c : Coll) (j : Nat) : Nat × Nat := (min (j * clBlock c) c.count, min ((j + 1) * clBlock c) c.count)
def clLen (c : Coll) (j : Nat) : Nat := (clRange c j).2 - (clRange c j).1

/-- Whether a collective reduces in the formats of its control block, or in words. -/
def clReduces (c : Coll) : Bool := c.kind == 1 || c.kind == 2 || c.kind == 5
def clWords (c : Coll) : Bool := decide (3 ≤ c.op) || c.kind == 5

/-- Bytes of a word operation's element. -/
def clWordSize (c : Coll) : Nat := if c.op = 5 ∧ c.kind ≠ 5 then 8 else 4

/-- Bytes of n elements at the input and at the output. -/
def clInBytes (c : Coll) (n : Nat) : Nat :=
  if c.kind = 5 then 4 else if clReduces c && clWords c then clWordSize c * n else tensorBytes c.inFmt n
def clOutBytes (c : Coll) (n : Nat) : Nat :=
  if clReduces c && !clWords c then tensorBytes c.outFmt n else clInBytes c n

/-- Elements that the participant in position j holds at its input, and gets at its output. -/
def clInCount (c : Coll) (j : Nat) : Nat := if c.kind = 3 then clLen c j else if c.kind = 4 ∧ j ≠ c.root then 0 else c.count
def clOutCount (c : Coll) (j : Nat) : Nat := if c.kind = 2 then clLen c j else c.count

/-- Output elements lo to below hi of a reduction of inputs, +0 for an untouched one (R378), with the report of their
conversion. -/
def clReduce (c : Coll) (lo hi : Nat) (ins : List (Option (List Nat))) : List Nat × DrainStats :=
  if clWords c then
    let w := clWordSize c
    let op := if c.kind = 5 then 3 else c.op
    let n := if c.kind = 5 then 1 else c.count
    let r := (treeFold (zipEach (wordOp op)) ins.length (ins.map (fun i => match i with
      | none => List.replicate n 0
      | some b => wordsOf w b))).getD []
    (((r.take hi).drop lo).flatMap (natLe w), {})
  else
    let vals := ins.map (fun i => match i with
      | none => List.replicate (hi - lo) (fpZero false)
      | some b => ((tensorVals c.inFmt c.count b).take hi).drop lo)
    tensorOut c.outFmt (if c.op = 1 then reduceSum (hi - lo) vals
      else (treeFold (zipEach (fun x y => rne32 (fpMax x y))) vals.length vals).getD [])

/-- What the participant in position j gets, of the inputs in position order. -/
def clResult (c : Coll) (j : Nat) (ins : List (Option (List Nat))) : List Nat × DrainStats :=
  if c.kind = 3 then (tensorJoin c.inFmt ((List.range c.members.length).map (fun i => (clLen c i, ((ins[i]?).join).getD []))), {})
  else if c.kind = 4 then (((ins[c.root]?).join).getD [], {})
  else if c.kind = 2 then clReduce c (clRange c j).1 (clRange c j).2 ins
  else clReduce c 0 (if c.kind = 5 then 1 else c.count) ins

/-! ### What this device sends -/

/-- Collective prefix (Table 12-6). -/
def clPrefix (c : Coll) (abort touched finite : Bool) : List Nat :=
  natLe 16 (fld c.step 64 64 + fld c.id 32 32 + fld (b2n abort) 18 1 + fld (b2n touched) 17 1 + fld (b2n finite) 16 1 + 2)

/-- Who runs a collective: a queue's operation, or the PLE for an owner. -/
structure CollRun where
  q : Nat
  o : Op
  part : Nat
  ple : Bool

/-- Offset at which a participant receives: the staging area, or the output. -/
def clAddr (c : Coll) : Nat := match c.staging with
  | some x => ptrOff x.1
  | none => ptrOff c.outPtr

/-- A payload sent to a participant in packets that each begin with the prefix (R377). -/
def clSend (s : State) (r : CollRun) (c : Coll) (j : Nat) (head data : List Nat) : State :=
  let m := (c.members[j]?).getD 0
  let k : Packet := { ty := 0x07, src := ownDev s, dst := mbDev m, owner := r.o.owner, epoch := ownerEpoch s r.o.owner,
                      counter := c.counter.getD 0xFFFF, cmode := if c.counter.isSome then 1 else 0,
                      group := 0xF000 + s.card.groups % 4096 }
  let pieces := if data.isEmpty then [[]] else splitEvery 8192 (ceilDiv data.length 8192) data
  (indexed 0 pieces).foldl (fun t x =>
    sendPk t (flowKey t (mbRack m) (mbDev m)) r.q r.o.seq
      { k with addr := fld (mbDev m) 39 6 + clAddr c + 8192 * x.1, payload := head ++ x.2 }) s

/-- Positions of the other participants. -/
def clOthers (c : Coll) (me : Nat) : List Nat := (List.range c.members.length).filter (fun j => decide (j ≠ me))

/-- An abort prefix sent to every other participant (R380). -/
def clAbort (s : State) (r : CollRun) (c : Coll) (me : Nat) : State :=
  (clOthers c me).foldl (fun t j => clSend t r c j (clPrefix c true true true) []) s

/-- The data that this device sends to the participant in position j: its part of the block that j reduces, and what j needs
of the result. -/
def clData (c : Coll) (me j : Nat) (own : Option (List Nat)) (result : List Nat) : List Nat :=
  let input := own.getD []
  let part (k : Nat) : List Nat :=
    if own.isNone then []
    else if clWords c then (input.take (clWordSize c * (clRange c k).2)).drop (clWordSize c * (clRange c k).1)
    else tensorPart c.inFmt c.count input (clRange c k).1 (clRange c k).2
  if c.kind = 5 ∨ c.kind = 3 then input
  else if c.kind = 4 then (if me = c.root then input else [])
  else if c.kind = 2 then part j
  else part j ++ (if clWords c then (result.take (clWordSize c * (clRange c me).2)).drop (clWordSize c * (clRange c me).1)
                  else tensorPart c.outFmt c.count result (clRange c me).1 (clRange c me).2)

/-- Bytes that arrive from the participant in position j, prefixes included. -/
def clArriving (c : Coll) (me j : Nat) (touched : Bool) : Nat :=
  let blk (k : Nat) (f : Coll → Nat → Nat) : Nat := f c (clLen c k)
  let n :=
    if c.kind = 5 then 4
    else if c.kind = 3 then blk j clInBytes
    else if c.kind = 4 then (if j = c.root then clInBytes c c.count else 0)
    else (if touched then blk me clInBytes else 0) + (if c.kind = 1 then blk j clOutBytes else 0)
  n + 16 * max 1 (ceilDiv n 8192)

/-! ### How a collective ends -/

/-- What a collective comes to. -/
inductive CollEnd where
  | waits
  | stopped (s : State) (code : Nat) (items : List (Nat × Nat))
  | done (s : State) (touched : Bool) (st : DrainStats)

/-- A guarded input (R187): whether it is touched, and the state after a poisoned status byte. -/
def clTouched (s : State) (r : CollRun) (c : Coll) (me : Nat) : Bool × State :=
  match c.guard with
  | none => (true, s)
  | some g =>
    if poisonAt s g 1 then
      (true, clearLocalFinite (raise s { code := 0x5006, src := srcStep, owner := r.o.owner, queue := r.q, seq := r.o.seq,
                                         items := [(c.id, 32), (me, 16)] }) r.part)
    else (rdNat s r.o.owner g 1 != 2, s)

/-- The first contribution, in position order, that stops a collective: its code and detail (R380). -/
def clBad (c : Coll) (me : Nat) (peers : List Contrib) : Option (Nat × List (Nat × Nat)) :=
  (clOthers c me).findSome? (fun j =>
    match peers.find? (fun x => x.member == j) with
    | none => none
    | some x =>
      if x.abort then some (0xD008, [(mbDev ((c.members[j]?).getD 0), 12)])
      else if x.step ≠ c.step ∨ x.id ≠ c.id then
        some (0xD007, [(c.step, 64), (c.id, 32), (x.step, 64), (x.id, 32), (mbDev ((c.members[j]?).getD 0), 12)])
      else if x.poisoned then some (0xD009, [(clAddr c, 39)])
      else none)

/-- Rank of this device in the job that makes the collective group of a partition, with the group's size (R470). -/
def groupRank (s : State) (p : Nat) : Nat × Nat :=
  match (partOf s p).job with
  | some j => if (partOf s p).joinState = 3 then (0, 1) else (j.rank, j.members.length)
  | none => (0, 1)

/-- The flags of the closing round of R181, which follow the contributions: none where one is missing; a poisoned one counts
as 0 (R182), with the device it came from. -/
def clClosing (s : State) (p n : Nat) (peers : List Contrib) : Option (Bool × List Nat) :=
  let g := groupRank s p
  let ranks := (List.range g.2).filter (fun k => decide (k ≠ g.1))
  let got := ranks.map (fun k => peers.find? (fun x => x.member == n + k))
  if got.any (·.isNone) then none
  else some (got.all (fun x => match x with
                      | some y => y.finite && !y.poisoned
                      | none => false),
             ranks.filter (fun k => peers.any (fun x => x.member == n + k && x.poisoned)))

/-- The decision of the current step formed, or joined with one formed before (R181). -/
def setDecision (s : State) (p step : Nat) (finite : Bool) : State :=
  if step ≠ stepNumber s p then s
  else modPart s p (fun x => { x with decision := if finite ∧ x.decision ≠ 2 then 1 else 2 })

/-- Device of a rank of a partition's group. -/
def groupDev (s : State) (p k : Nat) : Nat :=
  match (partOf s p).job with
  | some j => mbDev ((j.members[k]?).getD 0)
  | none => ownDev s

/-- The closing round of a last_finite reduce-scatter: the AND of what every device of the group finds (R181). -/
def clDecide (s : State) (r : CollRun) (c : Coll) (own : Bool) (x : Bool × List Nat) : State :=
  let s1 := x.2.foldl (fun t k => raise t
    { code := 0x5002, src := srcStep, owner := r.o.owner, queue := r.q, seq := r.o.seq,
      items := [(c.id, 32), (groupDev t r.part k, 12)] }) s
  setDecision s1 r.part c.step (own && x.1)

/-- The staging area after use: its contents are in a layout the manual does not give. -/
def clSpoil (s : State) (o : Nat) (c : Coll) : State :=
  match c.staging with
  | none => s
  | some (a, n) =>
    wr { s with free := s.free + 1 } o a ((List.range n).map (fun i => (Config.freeBits 4097 s.free 0 (a + i)).toNat))

/-- A collective counted as completed, normally or faulted (0x2C01:05). -/
def clCount (s : State) : State := bump s 0x2C0105 1

/-- A collective stopped: aborts to every other participant, and nothing written further (R380). -/
def clStop (s : State) (r : CollRun) (c : Coll) (me code : Nat) (items : List (Nat × Nat)) : CollEnd :=
  .stopped (clCount (clAbort s r c me)) code items

/-- The last part of a collective that every contribution has reached. -/
def clFinish (s : State) (r : CollRun) (c : Coll) (me : Nat) (peers : List Contrib) (touched : Bool) (own : Option (List Nat)) : CollEnd :=
  let at_ (j : Nat) : Option Contrib := peers.find? (fun x => x.member == j)
  let ins := (List.range c.members.length).map (fun j =>
    if j = me then own else match at_ j with
      | some x => if x.touched then some x.data else none
      | none => none)
  let res := clResult c me ins
  let tch := touched || (clOthers c me).any (fun j => match at_ j with
    | some x => x.touched
    | none => false)
  let flag := (partOf s r.part).localFinite
  let fin := flag && (clOthers c me).all (fun j => match at_ j with
    | some x => x.finite
    | none => false) && !res.2.wroteNonfinite
  let close := if c.last then clClosing s r.part c.members.length peers else some (true, [])
  match close with
  | none => .waits
  | some x =>
    let s1 := (clOthers c me).foldl (fun t j => clSend t r c j (clPrefix c false touched flag) (clData c me j own res.1)) s
    let s2 := { s1 with card := { s1.card with groups := s1.card.groups + 1 } }
    let s3 := match c.counter with
      | none => s2
      | some k => engineAdd s2 k ((clOthers c me).foldl (fun n j =>
          n + clArriving c me j (match at_ j with
            | some y => y.touched
            | none => false)) 0)
    let s4 := wr (clSpoil s3 r.o.owner c) r.o.owner c.outPtr res.1
    let s5 := if c.touchedOut = 0 ∨ c.guard.isNone then s4 else wr s4 r.o.owner c.touchedOut [if tch then 1 else 2]
    let s6 := if c.last then clDecide s5 r c fin x else s5
    let s7 := if r.ple ∧ clReduces c ∧ res.2.wroteNonfinite then clearLocalFinite s6 r.part else s6
    .done (clCount s7) tch res.2

/-- A collective with what the other participants sent (R377 to R382). -/
def clRun (s : State) (r : CollRun) (c : Coll) (peers : List Contrib) : CollEnd :=
  let me := (ownIndex s c.members).getD 0
  let t := clTouched s r c me
  let n := clInBytes c (clInCount c me)
  let missing := (clOthers c me).any (fun j => !peers.any (fun x => x.member == j))
  if t.1 ∧ poisonAt s c.inPtr n then
    clStop (countPoison t.2 c.inPtr) r c me 0xD009 [(ptrOff c.inPtr, 39)]
  else match clBad c me peers with
    | some x => clStop t.2 r c me x.1 x.2
    | none => if missing then .waits else
      clFinish t.2 r c me peers t.1 (if t.1 then some (rd s r.o.owner c.inPtr n) else none)

/-! ### The COLLECTIVE operation -/

/-- Pointers and sizes of a control block (Table 12-5). -/
def clOf (b touchedOut : Nat) (members : List Nat) : Coll :=
  { kind := bits b 96 4, op := bits b 100 4, inFmt := bits b 120 8, outFmt := bits b 112 8, count := bits b 128 32,
    step := bits b 192 64, id := bits b 160 32, last := bit b 95, guard := if bit b 94 then some (bits b 432 40) else none,
    members := members, inPtr := bits b 352 40, outPtr := bits b 392 40,
    staging := if bits b 272 40 = 0 then none else some (bits b 272 40, bits b 32 32),
    counter := some (bits b 256 16), root := bits b 64 16, touchedOut := touchedOut }

/-- Participants of a control block. -/
def clParts (b : Nat) : Nat := bits b 104 8 + 256 * bits b 88 6 + 1

/-- The field of a control block that R377 refuses. -/
def clFieldBad (b : Nat) : Option Nat :=
  let k := bits b 96 4
  let reduces := k == 1 || k == 2 || k == 5
  if bits b 0 8 ≠ 2 then some 0
  else match reservedBad b [(8, 24), (80, 8), (472, 40)] with
    | some f => some f
    | none =>
      if k = 0 ∨ 5 < k then some 96
      else if bits b 100 4 = 0 ∨ 5 < bits b 100 4 then some 100
      else if bit b 95 ∧ k ≠ 2 then some 95
      else if ¬ rowFmtOk (bits b 120 8) ∨ bits b 125 3 ≠ 0 then some 120
      else if ¬ rowFmtOk (bits b 112 8) ∨ bits b 117 3 ≠ 0 then some 112
      else if bits b 128 32 = 0 then some 128
      else if 16384 < clParts b then some 88
      else if (bits b 432 40 == 0) = bit b 94 then some 432
      else if bit b 94 ∧ ¬ reduces then some 94
      else if (bits b 64 16 ≠ 0 ∧ k ≠ 4) ∨ clParts b ≤ bits b 64 16 then some 64
      else if (bits b 272 40 == 0) = reduces then some 272
      else none

/-- Whether a participant list keeps Table 07-1 and R377: no reserved bit, no device twice, this device in it. -/
def clListOk (s : State) (ms : List Nat) : Bool :=
  ms.all (fun m => decide (m / 2 ^ 24 = 0 ∧ mbRack m ≤ 255 ∧ mbDev m ≤ 63)) && (twice ms 0).isNone && (ownIndex s ms).isSome

/-- The pointer of a control block that leaves its owner's windows. -/
def clPtrBad (s : State) (o : Nat) (c : Coll) (me : Nat) : Option Nat :=
  let out := clOutBytes c (clOutCount c me)
  let inn := clInBytes c (clInCount c me)
  if inn ≠ 0 ∧ ¬ ptrOk s o c.inPtr inn .read then some 352
  else if out ≠ 0 ∧ ¬ ptrOk s o c.outPtr out .write then some 392
  else if (match c.guard with
    | some g => !ptrOk s o g 1 .read
    | none => false) then some 432
  else match c.staging with
    | some x => if isTile x.1 ∨ ¬ ptrOk s o x.1 x.2 .read ∨ ¬ ptrOk s o x.1 x.2 .write then some 272 else none
    | none => none

/-- Staging that a reducing kind needs (R379). -/
def clNeeds (c : Coll) : Nat := 4 * clBlock c * clog2 c.members.length + 4096

/-- The device that the address guard does not let a collective reach. -/
def clGuardBad (s : State) (o : Nat) (c : Coll) (me : Nat) : Option Nat :=
  (clOthers c me).find? (fun j =>
    let m := (c.members[j]?).getD 0
    (guardWin s o (mbRack m) (mbDev m) (clAddr c) 16 .copyTo).isNone)

/-- What the checks of a COLLECTIVE find: a refusal, or the collective. -/
def clCheck (s : State) (o : Op) (p : Nat) : Except (Nat × List (Nat × Nat)) Coll :=
  let at_ := bits o.body 472 40
  let tp := bits o.body 432 40
  if (partOf s p).joinState = 3 then .error (0xC00A, [(p, 5), (ones 12, 12), (ones 16, 16)])
  else if at_ % 64 ≠ 0 ∨ isTile at_ ∨ ¬ ptrOk s o.owner at_ 64 .read then .error (0xB003, [(472, 16)])
  else match readStruct s o.owner at_ 64 with
    | none => .error (0xD009, [(ptrOff at_, 39)])
    | some b => match clFieldBad b with
      | some f => .error (0xD005, [(f, 16)])
      | none =>
        let n := clParts b
        let lp := bits b 312 40
        if ¬ ptrOk s o.owner lp (4 * n) .read then .error (0xD005, [(312, 16)])
        else match readTableOf s o.owner lp 4 n with
          | none => .error (0xD009, [(ptrOff lp, 39)])
          | some ms =>
            let c := clOf b tp ms
            if ¬ clListOk s ms then .error (0xD005, [(312, 16)])
            else match clPtrBad s o.owner c ((ownIndex s ms).getD 0) with
              | some f => .error (0xD005, [(f, 16)])
              | none =>
                if tp ≠ 0 ∧ ¬ ptrOk s o.owner tp 1 .write then .error (0xB003, [(432, 16)])
                else if clReduces c ∧ bits b 32 32 < clNeeds c then .error (0xD006, [(clNeeds c, 32), (bits b 32 32, 32)])
                else match clGuardBad s o.owner c ((ownIndex s ms).getD 0) with
                  | some j =>
                    let m := (ms[j]?).getD 0
                    .error (0xA006, guardItems o.owner (mbDev m) (fld (mbDev m) 39 6 + clAddr c) .copyTo)
                  | none => .ok c

/-- Source unit of a refusal of a COLLECTIVE. -/
def clSrc (code : Nat) : Nat := if code = 0xB003 then srcQueue else if code = 0xA006 then srcGuard else if code = 0xC00A then srcThallus else srcPle

/-- Detail of a refusal of a COLLECTIVE. -/
def clItems (q : Nat) (o : Op) (x : Nat × List (Nat × Nat)) : List (Nat × Nat) := if x.1 = 0xB003 then [(q, 20), (o.seq, 64)] ++ x.2 else x.2

/-- A COLLECTIVE of a kind (R377): another kind is another row's. -/
def clOp (kind : Nat) (peers : List Contrib) (q : Nat) (s0 s : State) (x : Queue) (o : Op) : State :=
  match clCheck s o x.partition with
  | .error e => refuseOp s q o e.1 (clSrc e.1) (clItems q o e)
  | .ok c =>
    if c.kind ≠ kind then s0
    else match clRun s ⟨q, o, x.partition, false⟩ c peers with
      | .waits => modOp s q o.seq (fun y => { y with progress := .waiting, runs := o.runs })
      | .stopped t code items => stopOp t q o code srcPle items
      | .done t _ st => doneOp (noteRows t q o.seq st) q o

/-- A row of the collectives. -/
def clExec (kind : Nat) (peers : List Contrib) (q : Nat) (s : State) : State :=
  match startHead s q 0x09 0 .ready with
  | .no => s
  | .ends t => t
  | .go x o _ t => clOp kind peers q s t x o

/-- ALL_REDUCE (R379). -/
def execAllReduce (q : Nat) (peers : List Contrib) (s : State) : Host.Outcome State Fault Refusal := .next (clExec 1 peers q s)
/-- REDUCE_SCATTER (R379, R381). -/
def execReduceScatter (q : Nat) (peers : List Contrib) (s : State) : Host.Outcome State Fault Refusal := .next (clExec 2 peers q s)
/-- ALL_GATHER (R379). -/
def execAllGather (q : Nat) (peers : List Contrib) (s : State) : Host.Outcome State Fault Refusal := .next (clExec 3 peers q s)
/-- BROADCAST (R377). -/
def execBroadcast (q : Nat) (peers : List Contrib) (s : State) : Host.Outcome State Fault Refusal := .next (clExec 4 peers q s)
/-- CLOSING (R381). -/
def execClosing (q : Nat) (peers : List Contrib) (s : State) : Host.Outcome State Fault Refusal := .next (clExec 5 peers q s)

end Sys2Proof.Machine
end

