-- ==== Sys2Proof/Machine/Complete.lean ====
section
/-!
DEFINITION. Machine/Complete.lean: the completion of an operation (R424), with what the Placement Engine records of it for
recomputation (R399), and the PLE's own queue of operations that it runs again.
-/
namespace Sys2Proof.Machine

/-- The queue in which the PLE of a partition runs operations again: a number that no queue of the host has, and that a fault
record shows as no queue. -/
def pleQueue (p : Nat) : Nat := 2 ^ 20 * (p + 1) + 0xFFFFF

/-- Output extents of a grouped operation or a product, from its descriptor (R92). -/
def arrayOuts (s : State) (o : Op) (h : Head) : List (Nat × Nat) :=
  if h.opcode = 0x02 then (outExts o.body (rdNat s o.owner h.auxPtr 64)).map (fun x => (x.1, x.2.1))
  else
    let g := rdNat s o.owner (bits o.body 472 40) 64
    let table := (readTable s o.owner g).filterMap id
    let profs := readProfiles s o.owner g table
    (table.flatMap (fun e => outExts e (tgetD profs (enProfile e) 0))).map (fun x => (x.1, x.2.1))

/-- Output extents in local memory of an operation. -/
def opOuts (s : State) (o : Op) (h : Head) : List (Nat × Nat) :=
  if h.opcode = 0x01 ∨ h.opcode = 0x02 then arrayOuts s o h
  else if h.opcode = 0x03 then ((vcOperands o.body).filter (fun x => x.2.2.2 == .write)).map (fun x => (x.1, x.2.1))
  else if h.opcode = 0x04 then
    (match dmEnd s (dmDst o.body) (dmDstRack o.body) (dmDstTile o.body) with
     | .here d => [(d, dmDstBytes o.body d)]
     | _ => [])
  else if h.opcode = 0x08 then
    let b := rdNat s o.owner (bits o.body 472 40) 128
    ((cardPointers b).filter (fun x => x.2.2.2.contains .write)).map (fun x => (x.1, x.2.1))
  else if h.opcode = 0x09 then
    let b := rdNat s o.owner (bits o.body 472 40) 64
    let c := clOf b 0 (((readTableOf s o.owner (bits b 312 40) 4 (clParts b))).getD [])
    [(c.outPtr, clOutBytes c (clOutCount c ((ownIndex s c.members).getD 0)))]
  else []

/-- Class B of a layer in the arena: pointer and bytes. -/
def classExtent (j : Job) (l : Layer) (k : Nat) : Nat × Nat := (jhAct j.hdr + (l.arena[k]?).getD 0 * 1024, lyBytes l.rec_ k * 1024)

/-- A completed operation recorded by every layer between its forward markers whose class B it writes (R399): the 65th
leaves the layer's recording impossible. -/
def recordOp (s : State) (x : Queue) (o : Op) (h : Head) : State :=
  match (partOf s x.partition).job with
  | none => s
  | some j => ((stageLayers j).filter (fun i => (layerAt j i).recording)).foldl (fun t i =>
      let e := classExtent j (layerAt j i) 1
      if (o.status = 0x01 ∨ o.status = 0x02) ∧ (opOuts s o h).any (fun y => rangesMeet y.1 y.2 e.1 e.2) then
        modLayer t x.partition i (fun l =>
          if 64 ≤ l.recorded.length then { l with recordBad := true }
          else { l with recorded := l.recorded ++ [{ hdr := o.hdr, body := o.body, owner := o.owner, version := qVersion x }] })
      else t) s

/-- OPERATION_COMPLETE (R424): the commit of a two-phase run, the completion signal, the local finite flag, the record. An
operation that the PLE runs again ends without them. -/
def execOperationComplete (q : Nat) (s : State) : Host.Outcome State Fault Refusal :=
  let s := settleCards s
  .next (match queueOf s q with
    | none => s
    | some x => match qHead x with
      | none => s
      | some o =>
        if o.progress ≠ .finished ∨ ¬ opAcked s q o.seq ∨ ¬ deviceServes s ∨ ownerState s (qOwner x) = .resetting ∨ 2 ^ 20 ≤ q then s
        else
          let h := headOf x o
          let s1 := recordOp (if o.status = 0x01 ∧ ¬ switchDone s q o h then commitSwitch s q o h else s) x o h
          let s2 := applySignal s1 q x o
          let s3 := if clearsFinite h.check o then clearLocalFinite s2 x.partition else s2
          settlePreempt (settleOps (freeUnits (postCompletion s3 q o.seq) q)) (qOwner x))

end Sys2Proof.Machine
end

