-- ==== Sys2Proof/Machine/PlaceInit.lean ====
section
/-!
DEFINITION. Machine/PlaceInit.lean: PLACE_INIT (R370 to R375, R396, R397, R467 to R471): its checks, the join records and the
placing of the job.
-/
namespace Sys2Proof.Machine

/-- Structures of a job description: 1 header, 2 member list, 3 layer record, 4 region entry. -/
def placeItems (code structure_ layer field : Nat) : Nat × List (Nat × Nat) :=
  if code = 0xD004 then (code, [(Config.causeCode code structure_, 16), (field, 16)])
  else (code, [(Config.causeCode code structure_, 16), (layer, 16), (field, 16)])

/-- What a job description reads as. -/
structure JobDesc where
  hdr : Nat
  members : List Nat
  recs : List Nat
  regions : List (List Nat)
  deriving DecidableEq, Repr

/-- A pointer to n bytes that the PLE reads, at a multiple of m. -/
def placePtr (s : State) (o a n m : Nat) : Bool := ptrOk s o a n .read && a % m == 0 && !poisonAt s a n

/-- An offset of local HBM at a multiple of 4,096 with n bytes that the owner reads and writes (R371). -/
def placeOff (s : State) (o a n : Nat) : Bool :=
  !isTile a && a % 4096 == 0 && (n == 0 || (winOk s o a n .read && winOk s o a n .write))

/-- The first layer record whose region table cannot be read. -/
def regionPtrBad (s : State) (o : Nat) (recs : List Nat) : Bool := recs.any (fun r => !placePtr s o (lyRegionPtr r) (32 * lyRegions r) 1)

/-- The structures read, or the pointer that fails (check 1 of R370). -/
def readJob (s : State) (o at_ : Nat) : Except (Nat × List (Nat × Nat)) JobDesc :=
  match readStruct s o at_ 64 with
  | none => .error (placeItems 0xD004 1 0xFFFF 0)
  | some h =>
    let n := jhLayers h
    if ¬ placePtr s o (jhListPtr h) (4 * jhMembers h) 1 then .error (placeItems 0xD004 1 0xFFFF 176)
    else if ¬ placePtr s o (jhLayerPtr h) (64 * n) 64 then .error (placeItems 0xD004 1 0xFFFF 216)
    else
      let recs := ((readTableOf s o (jhLayerPtr h) 64 n).getD [])
      if regionPtrBad s o recs then .error (placeItems 0xD004 3 0xFFFF 320)
      else if ¬ placeOff s o (jhAct h) (jhBudget h * 2 ^ 20) then .error (placeItems 0xD004 1 0xFFFF 256)
      else if ¬ placeOff s o (jhPool h) (jhPoolMib h * 2 ^ 20) then .error (placeItems 0xD004 1 0xFFFF 360)
      else if ¬ placeOff s o (jhTransit h) (jhTransitMib h * 2 ^ 20) then .error (placeItems 0xD004 1 0xFFFF 432)
      else .ok { hdr := h, members := (readTableOf s o (jhListPtr h) 4 (jhMembers h)).getD [], recs := recs,
                 regions := recs.map (fun r => (readTableOf s o (lyRegionPtr r) 32 (lyRegions r)).getD []) }

/-- Rank of this device in a job. -/
def jobRank (s : State) (d : JobDesc) : Nat := (ownIndex s d.members).getD 0

/-- Bytes that a region's slots or shard take at base_ptr, and its gathered extent. -/
def regionBytes (r reg : Nat) : Nat :=
  if rgRole reg = 1 ∨ rgRole reg = 5 then (lySlots r - 1) * rgStride reg + rgSize reg else rgSize reg
def gatheredBytes (h r reg : Nat) : Nat :=
  let shards := if lyGather r = 2 then jhRack h else jhRack h / 4
  if rgRole reg = 2 then shards * rgSize reg
  else shards * ((jhMembers h / jhRack h) / jhStages h) * rgSize reg

/-- Whether a region's gathered extent is in use. -/
def usesGathered (r reg : Nat) : Bool := decide (lyGather r ≠ 0) && (rgRole reg == 2 || rgRole reg == 3)

/-- A pointer of the own stage's regions that fails. -/
def regionBad (s : State) (o h r reg : Nat) : Option Nat :=
  let ok (a n : Nat) : Bool := n == 0 || (ptrOk s o a n .read && ptrOk s o a n .write)
  if ¬ ok (rgBase reg) (regionBytes r reg) then some 136
  else if usesGathered r reg ∧ ¬ ok (rgGathered reg) (gatheredBytes h r reg) then some 176
  else none

/-- The pointers of the layers of the own stage (check 1 of R370). -/
def stagePtrBad (s : State) (o : Nat) (d : JobDesc) : Option (Nat × List (Nat × Nat)) :=
  let st := (coordOf d.hdr (jobRank s d)).stage
  (List.zip d.recs d.regions).findSome? (fun x =>
    if lyStage x.1 ≠ st then none
    else if lyRouted x.1 ∧ ¬ (lyMapPtr x.1 % 64 = 0 ∧
        ptrOk s o (lyMapPtr x.1) (roundUp (16 * lyExperts x.1) 64 + 4 * groupCount d.hdr) .write) then some (placeItems 0xD004 3 0xFFFF 360)
    else x.2.findSome? (fun reg => (regionBad s o d.hdr x.1 reg).map (fun f => placeItems 0xD004 4 0xFFFF f)))

/-- Fields of the header (check 2 of R370). -/
def headerBad (h : Nat) : Option Nat :=
  let m := jhRack h
  if bits h 0 8 ≠ 2 then some 0
  else match reservedBad h [(8, 122), (472, 40)] with
    | some f => some f
    | none =>
      if jhMembers h < 4 then some 162
      else if m < 4 ∨ 64 < m ∨ m % 4 ≠ 0 then some 155
      else if jhStages h = 0 ∨ 256 < jhStages h then some 146
      else if jhEpRacks h = 0 ∨ 16 < jhEpRacks h then some 141
      else none

/-- Fields of a layer record. -/
def layerBad (h r : Nat) : Option Nat :=
  let dense := lyKind r == 1
  if bits r 0 8 ≠ 2 then some 0
  else match reservedBad r [(8, 206), (280, 40)] with
    | some f => some f
    | none =>
      if ¬ (lyKind r = 1 ∨ lyKind r = 2) then some 220
      else if lyGather r = 3 then some 218
      else if 8 < lyRegions r then some 248
      else if jhStages h ≤ lyStage r then some 240
      else if dense ∧ lyAdaptive r then some 214
      else if dense ∧ bits r 252 4 ≠ 0 then some 252
      else if dense ∧ bits r 256 12 ≠ 0 then some 256
      else if dense ∧ lySlots r ≠ 0 then some 268
      else if dense ∧ lyMapPtr r ≠ 0 then some 360
      else if dense ∧ lyBytes r 2 ≠ 0 then some 480
      else none

/-- Fields of a region entry of a layer. -/
def regionFieldBad (r reg : Nat) : Option Nat :=
  match reservedBad reg [(4, 52), (216, 40)] with
  | some f => some f
  | none =>
    let slots := rgRole reg == 1 || rgRole reg == 5
    if rgRole reg = 0 ∨ 5 < rgRole reg then some 0
    else if slots ∧ rgStride reg < rgSize reg then some 96
    else if ¬ slots ∧ rgStride reg ≠ 0 then some 96
    else if rgGathered reg ≠ 0 ∧ ¬ (rgRole reg = 2 ∨ (rgRole reg = 3 ∧ lyGather r ≠ 0)) then some 176
    else none

/-- Fields and versions (check 2 of R370). -/
def fieldsBad (s : State) (d : JobDesc) : Option (Nat × List (Nat × Nat)) :=
  match headerBad d.hdr with
  | some f => some (placeItems 0xD001 1 0xFFFF f)
  | none =>
    if ¬ clListOk s d.members then some (placeItems 0xD001 2 0xFFFF 0)
    else (indexed 0 (List.zip d.recs d.regions)).findSome? (fun x =>
      match layerBad d.hdr x.2.1 with
      | some f => some (placeItems 0xD001 3 x.1 f)
      | none => x.2.2.findSome? (fun reg => (regionFieldBad x.2.1 reg).map (fun f => placeItems 0xD001 4 x.1 f)))

/-- Records of the own stage with their indexes. -/
def stageRecs (s : State) (d : JobDesc) : List (Nat × Nat) :=
  let st := (coordOf d.hdr (jobRank s d)).stage
  (indexed 0 d.recs).filter (fun x => lyStage x.2 == st)

/-- The plan and the assignment of a device's stage (R396, R397). -/
def jobPlan (s : State) (d : JobDesc) : Option (ActPlan × List (Nat × Retain × Option (Nat × Nat))) :=
  (actPlan d.hdr (stageRecs s d)).bind (fun p => (assignPools d.hdr p).map (fun a => (p, a)))

/-- Shape (check 3 of R370): rule and layer, all ones where it names none. -/
def jobShapeBad (s : State) (d : JobDesc) : Option (Nat × List (Nat × Nat)) :=
  let bad (rule layer : Nat) : Nat × List (Nat × Nat) := (0xD002, [(Config.causeCode 0xD002 rule, 8), (layer, 16)])
  match shapeBad d.hdr d.members with
  | some r => some (bad r 0xFFFF)
  | none =>
    match (indexed 0 (List.zip d.recs d.regions)).findSome? (fun x => (layerShapeBad d.hdr x.2.1 x.2.2).map (fun r => bad r x.1)) with
    | some e => some e
    | none => if (jobPlan s d).isNone then some (bad 5 0xFFFF) else none

/-- The checks of R370 before the exchange. -/
def placeCheck (s : State) (o at_ : Nat) : Except (Nat × List (Nat × Nat)) JobDesc :=
  match readJob s o at_ with
  | .error e => .error e
  | .ok d => match stagePtrBad s o d with
    | some e => .error e
    | none => match fieldsBad s d with
      | some e => .error e
      | none => match jobShapeBad s d with
        | some e => .error e
        | none => .ok d

/-! ### Join records (R467, R468) -/

/-- Group-critical entries of a partition in the order of Table 14-12. -/
def criticalKeys (p : Nat) : List Nat :=
  [0x250101, 0x250102] ++ [1, 2, 3, 4, 5, 6, 0x0A, 0x0C, 0x0E].map (fun sub => pKey 0x3020 sub p) ++
    [1, 2, 3].map (fun sub => pKey 0x3038 sub p)

/-- Encoding of an entry's value in its type. -/
def entryBytes (k : Nat) (v : Val) : List Nat := match specOf k with
  | some e => bytesOfVal e.ty v
  | none => []

/-- Group digest of a partition (R467). -/
def groupDigest (s : State) (p : Nat) : Nat := crc32c ((criticalKeys p).flatMap (fun k => entryBytes k (entV s k)))

/-- Value pending for an entry at the coming step barrier of a partition. -/
def pendingVal (s : State) (p k : Nat) : Option Val := if (partOf s p).late.contains k then none else tget? s.shadow k

/-- Step digest of a partition (R467). -/
def stepDigest (s : State) (p : Nat) : Nat :=
  crc32c ((criticalKeys p).flatMap (fun k => match pendingVal s p k with
    | none => [0]
    | some v => 1 :: entryBytes k v))

/-- This device's join record (Table 14-13). -/
def joinRecord (s : State) (p digest : Nat) : Nat :=
  let source := if s.fab.isSource then ownDev s else s.fab.sourceDev
  fld digest 480 32 + fld (groupDigest s p) 448 32 + fld (ent s 0x2B0304) 416 32 + fld (ent s 0x010101) 408 8 +
  fld (fwVersion s / 65536) 392 16 + fld (ent s 0x2B0003) 384 8 + fld (ent s 0x260003) 376 8 +
  fld (ent s 0x250005) 368 8 + fld (ent s 0x270007) 360 8 + fld (ent s 0x230005) 352 8 + fld source 340 12 +
  fld (ent s 0x2B0607) 332 8 + fld (b2n s.clock.locked) 331 1 + 2

/-- Fields of a join record in the order of Table 14-13, as (lowest bit, width). -/
def joinFields : List (Nat × Nat) :=
  [(480, 32), (448, 32), (416, 32), (408, 8), (392, 16), (384, 8), (376, 8), (368, 8), (360, 8), (352, 8), (340, 12), (332, 8),
   (331, 1), (8, 323), (0, 8)]

/-- The first field in which two records differ. -/
def joinDiff (x y : Nat) : Option Nat := (joinFields.find? (fun f => bits x f.1 f.2 != bits y f.1 f.2)).map (·.1)

/-- The record that most members hold, that of the lowest rank on ties. -/
def joinReference (l : List Nat) : Nat :=
  (l.foldl (fun b r => let n := (l.filter (· == r)).length; if b.2 < n then (r, n) else b) ((0, 0) : Nat × Nat)).1

/-- What the records of all members, in rank order, come to (R375, R468): none, or the refusal. -/
def joinBad (p own : Nat) (l : List Nat) : Option (Nat × List (Nat × Nat)) :=
  match (indexed 0 l).find? (fun x => bits x.2 480 32 != bits own 480 32) with
  | some x => some (0xD003, [(bits own 480 32, 32), (x.1, 12)])
  | none => match (indexed 0 l).findSome? (fun x => (joinDiff own x.2).map (fun f => (x.1, f))) with
    | some x => some (0xC00A, [(p, 5), (x.1, 12), (x.2, 16)])
    | none => match (indexed 0 l).find? (fun x => !bit x.2 331) with
      | some x => some (0xC00A, [(p, 5), (x.1, 12), (331, 16)])
      | none => none

/-! ### Placing -/

/-- A layer as placed: of the own stage with its plan and, where routed, the map of R386. -/
def placedLayer (s : State) (d : JobDesc) (p : ActPlan) (asg : List (Nat × Retain × Option (Nat × Nat))) (i r : Nat) (regs : List Nat) : Layer :=
  let me := coordOf d.hdr (jobRank s d)
  let mine := asg.filter (fun x => x.1 == me.i && x.2.1.layer == i)
  let rackBase := me.rho * jhRack d.hdr
  let of_ (k : Nat) : Nat × Nat × Nat × Nat :=
    match p.classes.find? (fun x => x.1.layer == i && x.1.cls == k) with
    | none => (if k = 2 ∧ ¬ lyRouted r then 3 else 0, 0, 0xFFF, 0)
    | some x =>
      if x.2.1 = 1 then
        (match (mine.find? (fun y => y.2.1.cls == k)).bind (·.2.2) with
         | some (dest, off) => (1, x.2.2, jmDev ((d.members[rackBase + dest]?).getD 0), off)
         | none => (2, x.2.2, 0xFFF, 0))
      else (x.2.1, x.2.2, 0xFFF, 0)
  let cs := [of_ 0, of_ 1, of_ 2]
  { rec_ := r, regions := regs,
    map := if lyRouted r then ((placeExperts (List.replicate (lyExperts r) 0) (groupCount d.hdr) (lySlots r)).map (·.1)).getD [] else [],
    choices := cs.map (·.1), arena := cs.map (·.2.1), dests := cs.map (·.2.2.1), destOffs := cs.map (·.2.2.2) }

/-- The job of a description. -/
def jobOf (s : State) (o : Nat) (d : JobDesc) : Option Job :=
  (jobPlan s d).map (fun x =>
    { owner := o, hdr := d.hdr, members := d.members, rank := jobRank s d, digest := jobDigest d.hdr d.members d.recs d.regions,
      layers := (indexed 0 (List.zip d.recs d.regions)).map (fun y => placedLayer s d x.1 x.2 y.1 y.2.1 y.2.2) })

/-- The expert map and the member list of a layer written at map_ptr (R390). -/
def writeMap (s : State) (j : Job) (l : Layer) : State := wr s j.owner (lyMapPtr l.rec_) (mapBytes l.map (groupList j))

/-- A job placed: the maps of its stage and its first image. -/
def placeJob (s : State) (p : Nat) (j : Job) : State :=
  let s1 := modPart s p (fun x => { x with job := some j, jobState := 2, joinState := 1 })
  let s2 := ((stageLayers j).filter (fun i => lyRouted (layerAt j i).rec_)).foldl (fun t i => writeMap t j (layerAt j i)) s1
  writeImage s2 p

/-- A PLACE_INIT refused, with the partition's job state back at none. -/
def refusePlace (s : State) (q : Nat) (o : Op) (p : Nat) (e : Nat × List (Nat × Nat)) : State :=
  refuseOp (modPart s p (fun x => { x with jobState := 0 })) q o e.1 (if e.1 = 0xC00A then srcThallus else srcPle) e.2

/-- This device's record sent to every other member (R375). -/
def sendJoin (s : State) (o : Op) (d : JobDesc) (record : Nat) : State :=
  let g := takeGroup s
  ((List.range d.members.length).filter (fun r => decide (r ≠ jobRank s d))).foldl (fun t r =>
    let m := (d.members[r]?).getD 0
    pleSend t o.owner (jmRack m) (jmDev m) (jhTransit d.hdr) g.1 false (natLe 64 record)) g.2

/-- The all-gather of PLACE_INIT: with the records of all other members, the end. -/
def placeJoin (s : State) (q : Nat) (o : Op) (p : Nat) (d : JobDesc) (peers : List Join) : State :=
  let own := joinRecord s p (jobDigest d.hdr d.members d.recs d.regions)
  let me := jobRank s d
  let got := (List.range d.members.length).map (fun r => if r = me then some own else (peers.find? (fun x => x.rank == r)).map (·.record))
  if got.any (·.isNone) then
    modOp (modPart s p (fun x => { x with jobState := 1 })) q o.seq (fun y => { y with progress := .waiting, stage := 1, runs := o.runs })
  else
    let l := got.filterMap id
    let s1 := sendJoin s o d own
    match joinBad p own l with
    | some e =>
      refusePlace (if own ≠ joinReference l then modPart s1 p (fun x => { x with joinState := 3 }) else s1) q o p e
    | none => match jobOf s o.owner d with
      | none => refusePlace s1 q o p (0xD002, [(Config.causeCode 0xD002 5, 8), (0xFFFF, 16)])
      | some j => doneOp (placeJob s1 p j) q o

/-- PLACE_INIT (R370). -/
def placeInit (peers : List Join) (q : Nat) (s : State) (x : Queue) (o : Op) (_h : Head) : State :=
  let p := x.partition
  let at_ := bits o.body 432 40
  if isTile at_ ∨ ¬ ptrOk s o.owner at_ 64 .read then badPtr s q o 432
  else if (partOf s p).jobState = 2 ∨ ((partOf s p).jobState = 1 ∧ o.stage ≠ 1) then
    refuseOp s q o 0xD001 srcPle (placeItems 0xD001 1 0xFFFF 0xFFFF).2
  else match placeCheck s o.owner at_ with
    | .error e => refusePlace s q o p e
    | .ok d => placeJoin s q o p d peers

/-- PLACE_INIT (R370). -/
def execPlaceInit (q : Nat) (peers : List Join) (s : State) : Host.Outcome State Fault Refusal :=
  .next (runHead s q 0x0A 1 .ready (placeInit peers q))

end Sys2Proof.Machine
end

