-- ==== Sys2Proof/Machine/Placement.lean ====
section
/-!
DEFINITION. Machine/Placement.lean: layer markers (R383 to R385, R393, R398, R399), placement decisions (R387 to R389), the
second round of a re-shard (R392) and the step barrier arrival of a placed job (R382, R472).
-/
namespace Sys2Proof.Machine

/-! ### Collectives of the PLE -/

/-- The device entries of ranks. -/
def rankEntries (j : Job) (l : List Nat) : List Nat := l.map (fun r => (j.members[r]?).getD 0)

/-- A collective that the PLE issues for a job, under the owner that started it: the address guard first (0xA006). -/
def pleColl (s : State) (p : Nat) (j : Job) (q : Nat) (o : Op) (c : Coll) (peers : List Contrib) : CollEnd :=
  match clGuardBad s j.owner c ((ownIndex s c.members).getD 0) with
  | some k =>
    let m := (c.members[k]?).getD 0
    .stopped s 0xA006 (guardItems j.owner (mbDev m) (fld (mbDev m) 39 6 + clAddr c) .copyTo)
  | none => clRun s ⟨q, { o with owner := j.owner }, p, true⟩ c peers

/-- The gather of a role 0x2 region (R384): shards as bytes, in the order of the gather shard cut. -/
def gatherColl (s : State) (p : Nat) (j : Job) (i k reg : Nat) : Coll :=
  let g := gatherGroup j.hdr j.rank (lyGather (layerAt j i).rec_)
  { kind := 3, inFmt := 0xA, outFmt := 0xA, count := g.length * rgSize reg, step := stepNumber s p, id := 16 * i + k,
    members := rankEntries j g, inPtr := rgBase reg, outPtr := rgGathered reg }

/-- Role 0x2 regions of a layer with their places. -/
def gatherRegions (l : Layer) : List (Nat × Nat) :=
  if lyGather l.rec_ = 0 then [] else (indexed 0 l.regions).filter (fun r => rgRole r.2 == 2)

/-- What gathering a layer comes to: it waits, it is stopped, or it is gathered, with the contributions left over. -/
inductive GatherEnd where
  | waits
  | stopped (s : State) (code : Nat) (items : List (Nat × Nat))
  | done (s : State) (rest : List (List Contrib))

/-- Gathers of a layer's regions, one after the other. -/
def gatherAll (p : Nat) (q : Nat) (o : Op) (j : Job) (i : Nat) : List (Nat × Nat) → State → List (List Contrib) → GatherEnd
  | [], s, peers => .done (bump (modLayer s p i (fun l => { l with gathered := true })) 0x2C0106 1) peers
  | r :: rest, s, peers =>
    match pleColl s p j q o (gatherColl s p j i r.1 r.2) (peers.headD []) with
    | .waits => .waits
    | .stopped t c d => .stopped t c d
    | .done t _ _ => gatherAll p q o j i rest t peers.tail

/-- Gathered extents of a layer. -/
def gatheredExts (j : Job) (i : Nat) : List (Nat × Nat) :=
  let l := layerAt j i
  (l.regions.filter (fun r => usesGathered l.rec_ r)).map (fun r => (rgGathered r, gatheredBytes j.hdr l.rec_ r))

/-- Whether a gather of a layer would write into the gathered extent of a layer still between its markers (R383). -/
def gatherBlocked (j : Job) (i : Nat) (back : Bool) : Bool :=
  (stageLayers j).any (fun k => decide (k ≠ i) && (if back then (layerAt j k).inBackward else (layerAt j k).inForward) &&
    (gatheredExts j k).any (fun a => (gatheredExts j i).any (fun b => rangesMeet a.1 a.2 b.1 b.2)))

/-- The gather of a layer where it is not gathered. -/
def gatherLayer (s : State) (p q : Nat) (o : Op) (i : Nat) (back : Bool) (peers : List (List Contrib)) : GatherEnd :=
  match (partOf s p).job with
  | none => .waits
  | some j =>
    let l := layerAt j i
    if (gatherRegions l).isEmpty ∨ l.gathered then .done s peers
    else if gatherBlocked j i back then .waits
    else gatherAll p q o j i (gatherRegions l) s peers

/-- Gathers started ahead for the next layers of the stage, as far as the other devices' shards have arrived (Table 12-7). -/
def gatherAhead (p q : Nat) (o : Op) (back : Bool) : List Nat → State → List (List Contrib) → State
  | [], s, _ => s
  | i :: r, s, peers =>
    match gatherLayer s p q o i back peers with
    | .waits => s
    | .stopped t c d => raise t { code := c, src := srcPle, owner := o.owner, queue := q, seq := o.seq, items := d }
    | .done t rest => gatherAhead p q o back r t rest

/-- The next layers of the stage, in the order of a direction. -/
def nextLayers (j : Job) (i n : Nat) (back : Bool) : List Nat :=
  if back then (((stageLayers j).filter (fun k => decide (k < i))).reverse).take n
  else ((stageLayers j).filter (fun k => decide (i < k))).take n

/-! ### Retained classes -/

/-- Classes of a layer that are moved: off-loaded or recomputed. -/
def movedClasses (l : Layer) : List Nat := [0, 1, 2].filter (fun k => (l.choices[k]?).getD 3 == 1 || (l.choices[k]?).getD 3 == 2)

/-- Classes of a layer that are off-loaded. -/
def offClasses (l : Layer) : List Nat := [0, 1, 2].filter (fun k => (l.choices[k]?).getD 3 == 1)

/-- Whether the transient buffer of a layer's parity is in use by another layer (R396). -/
def bufferBusy (s : State) (j : Job) (i : Nat) : Bool :=
  !(movedClasses (layerAt j i)).isEmpty && (stageLayers j).any (fun k =>
    let l := layerAt j k
    decide (k ≠ i ∧ k % 2 = i % 2) && !(movedClasses l).isEmpty &&
      (l.inForward || l.inBackward || l.rerunning || (!l.offloaded.isEmpty && !groupAcked s l.group)))

/-- A class that is lost (R398): fault 0xD00B and the local finite flag cleared. -/
def loseClass (s : State) (p : Nat) (j : Job) (i k : Nat) : State :=
  clearLocalFinite (pleFault s j 0xD00B [(i, 16), (k, 8), (((layerAt j i).dests[k]?).getD 0xFFF, 12)]) p

/-- A class off-loaded: its full planned size copied into its destination's pool (R397, R398). -/
def offloadClass (p i g : Nat) (s : State) (k : Nat) : State :=
  match (partOf s p).job with
  | none => s
  | some j =>
    let l := layerAt j i
    let e := classExtent j l k
    let dev := (l.dests[k]?).getD 0xFFF
    let off := jhPool j.hdr + (l.destOffs[k]?).getD 0 * 1024
    match guardWin s j.owner (ownRack s) dev off e.2 .copyTo with
    | none => loseClass (raiseOwner s 0xA006 srcGuard j.owner (guardItems j.owner dev (fld dev 39 6 + off) .copyTo)) p j i k
    | some _ =>
      bump (pleSend s j.owner (ownRack s) dev off g (poisonAt s e.1 e.2) (rd s j.owner e.1 e.2)) 0x2C0107 e.2

/-- A body that asks the device that holds an off-loaded class to copy it back (R349). -/
def returnBody (s : State) (dev off dst n g : Nat) : Nat :=
  fld (fld dev 39 6 + off) 460 52 + fld (ownRack s) 448 12 + fld (fld (ownDev s) 39 6 + dst) 395 52 + fld (ownRack s) 383 12 +
  fld 1 350 32 + fld n 318 32 + fld n 286 32 + fld n 254 32 + fld (fld 0xA 20 4) 222 32 + fld g 206 16

/-- An off-loaded class asked back. -/
def returnClass (p i g : Nat) (s : State) (k : Nat) : State :=
  match (partOf s p).job with
  | none => s
  | some j =>
    let l := layerAt j i
    let e := classExtent j l k
    let dev := (l.dests[k]?).getD 0xFFF
    let off := jhPool j.hdr + (l.destOffs[k]?).getD 0 * 1024
    sendPk s (flowKey s (ownRack s) dev) 0xFFFFF 18446744073709551615
      { ty := 0x07, src := ownDev s, dst := dev, owner := j.owner, epoch := ownerEpoch s j.owner, op := 0x04, group := g,
        payload := natLe 64 (returnBody s dev off e.1 e.2 g) }

/-! ### LAYER_ENTER and LAYER_EXIT -/

/-- Layer index of a marker. -/
def mkLayer (b : Nat) : Nat := bits b 493 10

/-- What a marker names: the job and the layer of this device's stage, or the refusal. -/
def markerOf (s : State) (p : Nat) (o : Op) : Except (Nat × List (Nat × Nat)) (Job × Nat) :=
  if (partOf s p).joinState = 3 then .error (0xC00A, [(p, 5), (ones 12, 12), (ones 16, 16)])
  else match (partOf s p).job with
    | none => .error (0xB002, [(504, 16)])
    | some j => if (stageLayers j).contains (mkLayer o.body) then .ok (j, mkLayer o.body) else .error (0xB002, [(493, 16)])

/-- A marker that has to wait (R383). -/
def markerWaits (s : State) (q : Nat) (o : Op) : State := modOp s q o.seq (fun y => { y with progress := .waiting, runs := o.runs })

/-- A marker's refusal. -/
def refuseMarker (s : State) (q : Nat) (o : Op) (e : Nat × List (Nat × Nat)) : State :=
  if e.1 = 0xC00A then refuseOp s q o e.1 srcThallus e.2 else refuseOp s q o e.1 srcQueue ([(q, 20), (o.seq, 64)] ++ e.2)

/-- LAYER_ENTER, forward: the gather complete and the transient buffer free; recording begins. -/
def enterForward (peers : List (List Contrib)) (q : Nat) (s : State) (x : Queue) (o : Op) (_h : Head) : State :=
  let p := x.partition
  match markerOf s p o with
  | .error e => refuseMarker s q o e
  | .ok (j, i) =>
    if bufferBusy s j i then markerWaits s q o
    else match gatherLayer s p q o i false peers with
      | .waits => markerWaits s q o
      | .stopped t c d => stopOp t q o c srcPle d
      | .done t rest =>
        let t1 := modLayer t p i (fun l => { l with inForward := true, recording := (l.choices[1]?).getD 3 == 2, recorded := [],
                                                    recordBad := false, recStep := stepNumber t p })
        gatherAhead p q o false (nextLayers j i (pEnt t1 0x3038 8 p) false) (doneOp t1 q o) rest

/-- Place of the first recorded operation that is neither a grouped array operation nor a vector operation (R399). -/
def recordedBad (l : Layer) : Option Nat :=
  if l.recordBad then some 64
  else ((indexed 0 l.recorded).find? (fun x => !([1, 2, 3].contains (headFields x.2.version x.2.hdr).opcode))).map (·.1)

/-- A layer that cannot be recomputed (0xD00A): the local finite flag cleared. -/
def noRecompute (s : State) (p : Nat) (j : Job) (i k : Nat) : State :=
  clearLocalFinite (modLayer (pleFault s j 0xD00A [(i, 16), (k, 16)]) p i (fun l => { l with recordBad := true })) p

/-- LAYER_EXIT, forward: the check of R399; then the gathered extent released and the off-loads started. -/
def exitForward (q : Nat) (s : State) (x : Queue) (o : Op) (_h : Head) : State :=
  let p := x.partition
  match markerOf s p o with
  | .error e => refuseMarker s q o e
  | .ok (j, i) =>
    let l := layerAt j i
    let s1 := match (if l.recording then recordedBad l else none) with
      | some k => noRecompute s p j i k
      | none => s
    let g := takeGroup s1
    let s2 := modLayer g.2 p i (fun y => { y with inForward := false, recording := false, gathered := y.gathered && lyKeep y.rec_,
                                                  offloaded := offClasses y, returning := false, group := g.1 })
    doneOp ((offClasses l).foldl (offloadClass p i g.1) s2) q o

/-- Off-loaded classes of a layer on their way back (R398): none once they have returned. -/
def returnsDone (s : State) (p i : Nat) : Option State :=
  match (partOf s p).job with
  | none => none
  | some j =>
    let l := layerAt j i
    if l.offloaded.isEmpty then some s else some s |>.bind (fun t =>
      if l.returning ∧ groupAcked t l.group then
        some (modLayer (l.offloaded.foldl (fun u k =>
          let e := classExtent j l k
          let u1 := bump u 0x2C0107 e.2
          if groupErr u1 l.group ∨ poisonAt u1 e.1 e.2 then loseClass u1 p j i k else u1) t) p i
            (fun y => { y with offloaded := [], returning := false }))
      else none)

/-- Off-loaded classes of a layer asked back, once their copies are out (R395). -/
def askReturns (s : State) (p i : Nat) : State :=
  match (partOf s p).job with
  | none => s
  | some j =>
    let l := layerAt j i
    if l.offloaded.isEmpty ∨ l.returning ∨ ¬ groupAcked s l.group then s
    else
      let s1 := if groupErr s l.group then l.offloaded.foldl (fun t k => loseClass t p j i k) s else s
      let g := takeGroup s1
      let s2 := modLayer g.2 p i (fun y => { y with returning := true, group := g.1 })
      l.offloaded.foldl (returnClass p i g.1) s2

/-- Recorded operations put into the PLE's own queue, to run again (R189, R399). -/
def startRerun (s : State) (p i : Nat) (j : Job) (l : Layer) : State :=
  let qx : Queue := { ctx := fld 2 272 2 + fld j.owner 288 12, partition := p }
  let ops := (indexed 0 l.recorded).map (fun x => ({ seq := x.1, hdr := x.2.hdr, body := x.2.body, owner := x.2.owner,
                                                     epoch := ownerEpoch s x.2.owner } : Op))
  modLayer { s with queues := tput s.queues (pleQueue p) { qx with ops := ops } } p i (fun y => { y with rerunning := true })

/-- Operations run again that have ended leave the PLE's queue; the first fault among them. -/
def reapRerun (s : State) (p : Nat) : State :=
  modQueue s (pleQueue p) (fun x => { x with ops := x.ops.dropWhile (fun o => o.progress == .finished && decide (o.status < 0x10)) })

/-- The recomputation of class B as it stands: done, failed, or still running. -/
def rerunState (s : State) (p i : Nat) : Option State :=
  match (partOf s p).job with
  | none => none
  | some j =>
    let l := layerAt j i
    if (l.choices[1]?).getD 3 ≠ 2 ∨ l.recordBad then some s
    else if ¬ l.rerunning then
      (if l.recorded.isEmpty then some s
       else if l.recStep ≠ stepNumber s p then some (noRecompute s p j i 0) else none)
    else
      let s1 := reapRerun (freeUnits s (pleQueue p)) p
      match queueOf s1 (pleQueue p) with
      | none => some (noRecompute (modLayer s1 p i (fun y => { y with rerunning := false })) p j i 0)
      | some x => match x.ops with
        | [] => some (bump (modLayer { s1 with queues := tdel s1.queues (pleQueue p) } p i
            (fun y => { y with rerunning := false, recorded := [] })) 0x2C0108 1)
        | o :: _ =>
          if o.progress = .finished then
            some (noRecompute (modLayer { s1 with queues := tdel s1.queues (pleQueue p) } p i (fun y => { y with rerunning := false })) p j i o.seq)
          else none

/-- A recomputation begun where one is due and none runs. -/
def beginRerun (s : State) (p i : Nat) : State :=
  match (partOf s p).job with
  | none => s
  | some j =>
    let l := layerAt j i
    if l.rerunning then reapRerun (freeUnits s (pleQueue p)) p
    else if (l.choices[1]?).getD 3 = 2 ∧ ¬ l.recordBad ∧ l.recorded ≠ [] ∧ l.recStep = stepNumber s p ∧ ¬ thas s.queues (pleQueue p) then
      startRerun s p i j l
    else s

/-- LAYER_ENTER, backward: off-loaded classes back, the gather complete again, class B recomputed. -/
def enterBackward (peers : List (List Contrib)) (q : Nat) (s : State) (x : Queue) (o : Op) (_h : Head) : State :=
  let p := x.partition
  match markerOf s p o with
  | .error e => refuseMarker s q o e
  | .ok (j, i) =>
    if bufferBusy s j i then markerWaits s q o
    else match returnsDone s p i with
      | none => markerWaits (askReturns s p i) q o
      | some s1 => match rerunState s1 p i with
        | none => markerWaits (beginRerun s1 p i) q o
        | some s2 => match gatherLayer s2 p q o i true peers with
          | .waits => markerWaits s2 q o
          | .stopped t c d => stopOp t q o c srcPle d
          | .done t rest =>
            let t1 := modLayer t p i (fun l => { l with inBackward := true })
            let ahead := nextLayers j i (pEnt t1 0x3038 8 p) true
            gatherAhead p q o true ahead (ahead.foldl (fun u k => askReturns u p k) (doneOp t1 q o)) rest

/-- LAYER_EXIT, backward: the gradient collectives of the layer's role 0x3 and 0x5 regions are due (R385, R393). -/
def exitBackward (q : Nat) (s : State) (x : Queue) (o : Op) (_h : Head) : State :=
  let p := x.partition
  match markerOf s p o with
  | .error e => refuseMarker s q o e
  | .ok (j, i) =>
    let l := layerAt j i
    let regs := (indexed 0 l.regions).filter (fun r => rgRole r.2 == 3 || rgRole r.2 == 5)
    doneOp (modJob (modLayer s p i (fun y => { y with inBackward := false, gathered := false })) p
      (fun y => { y with gradDue := y.gradDue ++ regs.map (fun r => (i, r.1)) })) q o

/-- A row of the markers of a direction. -/
def markerExec (sub : Nat) (back : Bool) (q : Nat) (s : State) (f : State → Queue → Op → Head → State) : State :=
  match startHead s q 0x0A sub .ready with
  | .no => s
  | .ends t => t
  | .go x o h t => if bit o.body 503 = back then f t x o h else s

/-- LAYER_ENTER_FORWARD (R383). -/
def execLayerEnterForward (q : Nat) (peers : List (List Contrib)) (s : State) : Host.Outcome State Fault Refusal :=
  .next (markerExec 2 false q s (enterForward peers q))
/-- LAYER_EXIT_FORWARD (R383). -/
def execLayerExitForward (q : Nat) (_peers : List (List Contrib)) (s : State) : Host.Outcome State Fault Refusal :=
  .next (markerExec 3 false q s (exitForward q))
/-- LAYER_ENTER_BACKWARD (R383). -/
def execLayerEnterBackward (q : Nat) (peers : List (List Contrib)) (s : State) : Host.Outcome State Fault Refusal :=
  .next (markerExec 2 true q s (enterBackward peers q))
/-- LAYER_EXIT_BACKWARD (R383). -/
def execLayerExitBackward (q : Nat) (_peers : List (List Contrib)) (s : State) : Host.Outcome State Fault Refusal :=
  .next (markerExec 3 true q s (exitBackward q))

/-! ### Placement decisions -/

/-- Histograms summed over the expert group (R387). -/
def sumLoads (own : List Nat) (peers : List (List Nat)) : List Nat := peers.foldl (zipEach (fun x y => satAdd 64 x y)) own

/-- The collective that sums a layer's histograms: an unsigned 64-bit ALL_REDUCE over the expert group. -/
def histColl (s : State) (p : Nat) (j : Job) (i e : Nat) : Coll :=
  { kind := 1, op := 5, inFmt := 0xA, outFmt := 0xA, count := e, step := stepNumber s p, id := 16 * i + 8, members := groupList j,
    inPtr := 0, outPtr := 0 }

/-- A part of a reduction sent to the other members. -/
def sendParts (s : State) (p : Nat) (j : Job) (c : Coll) (input result : List Nat) : State :=
  let o : Op := { seq := 18446744073709551615, hdr := 0, body := 0, owner := j.owner, epoch := ownerEpoch s j.owner }
  let me := (ownIndex s c.members).getD 0
  let s1 := (clOthers c me).foldl (fun t k =>
    clSend t ⟨0xFFFFF, o, p, true⟩ c k (clPrefix c false true true) (clData c me k (some input) result)) s
  clCount { s1 with card := { s1.card with groups := s1.card.groups + 1 } }

/-- PLACEMENT_DECISION (R387 to R389): with the snapshots of the group's other members in their order. -/
def decidePlacement (p layer : Nat) (peers : List (List Nat)) (s : State) : State :=
  match (partOf s p).job with
  | none => s
  | some j =>
    let l := layerAt j layer
    match (if (adaptiveLayers j).contains layer then l.snap else none) with
    | none => s
    | some own =>
      let d := (jobGroup j).length
      if peers.length + 1 ≠ d ∨ peers.any (fun x => x.length != own.length) then s
      else
        let loads := sumLoads own peers
        let s1 := sendParts s p j (histColl s p j layer own.length) (own.flatMap (natLe 8)) (loads.flatMap (natLe 8))
        let s2 := bump (modLayer s1 p layer (fun y => { y with snap := none })) 0x2C0101 1
        match placeExperts loads d (lySlots l.rec_) with
        | none => bump s2 0x2C0103 1
        | some r =>
          if gainEnough r.2 (mapLoad loads d l.map) (pEnt s2 0x3038 3 p) then modLayer s2 p layer (fun y => { y with pending := some r })
          else bump s2 0x2C0103 1

/-- PLACEMENT_DECISION (R387). -/
def execPlacementDecision (p : Nat) (layer : Nat) (peers : List (List Nat)) (s : State) : Host.Outcome State Fault Refusal :=
  .next (decidePlacement p layer peers s)

/-! ### The second round of a re-shard -/

/-- Bytes copied within local memory, with the poison marks of the words read poisoned (R392). -/
def copyMarked (s : State) (o dst src n : Nat) : State :=
  (List.range (ceilDiv n 64)).foldl (fun t i => if poisonAt s (src + 64 * i) (min 64 (n - 64 * i)) then poisonS t (dst + 64 * i) else t)
    (wr s o dst (rd s o src n))

/-- Incoming slots of this member moved from the transit area into place. -/
def takeSlots (p i : Nat) (mv : List ((Nat × Nat) × (Nat × Nat))) (s : State) : State :=
  match (partOf s p).job with
  | none => s
  | some j =>
    let l := layerAt j i
    (mv.filter (fun x => x.1.1 == groupPlace j)).foldl (fun t x =>
      let e := transitAt j l (incomingRank mv x.1.1 x.1.2)
      modJob ((slotRegions l).foldl (fun u r =>
        copyMarked u j.owner (rgBase r.1 + rgStride r.1 * x.1.2) (e + r.2) (rgSize r.1)) t) p (fun y => { y with moved := y.moved + 1 })) s

/-- The barrier's watches, held until the re-shard ended, evaluated. -/
def releaseBarrier (s : State) (p : Nat) : State :=
  evalWatches s (objKey 0 (pEnt s 0x3028 9 p))

/-- RESHARD_ROUND2 (R392): the votes of the expert group's other members, in their order. -/
def secondRound (p : Nat) (votes : List Nat) (s : State) : State :=
  match (partOf s p).job with
  | none => s
  | some j => match j.adopting with
    | [] => s
    | (i, new, max_) :: rest =>
      let l := layerAt j i
      let me := groupPlace j
      if votes.length + 1 ≠ (jobGroup j).length ∨ ¬ groupAcked s j.group then s
      else
        let own := j.vote && !groupErr s j.group
        let all := votes.take me ++ [b2n own] ++ votes.drop me
        let mv := mapMoves l.map new
        let arrived := (mv.filter (fun x => x.1.1 == me && x.2.1 != me)).length * slotState l.regions
        let c : Coll := { kind := 5, op := 3, inFmt := 0xA, outFmt := 0xA, count := 4, step := stepNumber s p, id := 16 * i + 9,
                          members := groupList j, inPtr := 0, outPtr := 0 }
        let s1 := bump (sendParts s p j c (natLe 4 (b2n own)) []) 0x2C0104 arrived
        let s2 :=
          if all.all (· == 1) then
            let t := takeMap (takeSlots p i mv s1) p i new max_
            writeMap t j { l with map := new }
          else pleFault s1 j 0xD00D ((i, 16) :: ((indexed 0 all).filter (fun x => x.2 != 1)).map (fun x => (x.1, 12)))
        let s3 := modJob s2 p (fun y => { y with adopting := rest })
        if rest.isEmpty then releaseBarrier (endAdoption s3 p) p else roundOne s3 p

/-- RESHARD_ROUND2 (R392). -/
def execReshardRound2 (p : Nat) (votes : List Nat) (s : State) : Host.Outcome State Fault Refusal := .next (secondRound p votes s)

/-! ### The step barrier arrival of a placed job -/

/-- The head that waits to arrive at a partition's step barrier (R382). -/
def waitingArrival (s : State) (p : Nat) : Option (Nat × Queue × Op) :=
  s.queues.findSome? (fun x => (qHead x.2).bind (fun o =>
    if o.progress = .waiting ∧ (headOf x.2 o).opcode = 6 ∧ subopOf o.body = 3 ∧ x.2.partition = p ∧ mayGoOn s x.2 ∧
       arrivesAt s x.2 o.body = some p then some (x.1, x.2, o) else none))

/-- A gradient collective of a layer's region (R385), or of one of its expert slots (R393). -/
def gradColls (s : State) (p : Nat) (j : Job) (i k : Nat) : List Coll :=
  let l := layerAt j i
  let reg := (l.regions[k]?).getD 0
  let f := Config.gradientFormat % 16
  let elems (bytes : Nat) : Nat := bytes * 8 / elemBits f
  let base : Coll := { kind := 1, inFmt := f, outFmt := f, count := elems (rgSize reg), step := stepNumber s p, id := 16 * i + k,
                       members := [], inPtr := rgBase reg, outPtr := rgBase reg }
  let ranks := gradGroup j.hdr j.rank (lyGather l.rec_)
  if rgRole reg = 3 then
    (if lyGather l.rec_ = 0 then [{ base with members := rankEntries j ranks }]
     else [{ base with kind := 2, count := elems (ranks.length * rgSize reg), members := rankEntries j ranks, inPtr := rgGathered reg }])
  else
    let q := jhMembers j.hdr / jhRack j.hdr / jhStages j.hdr
    let me := groupPlace j
    (List.range (lySlots l.rec_)).filterMap (fun sl =>
      ((indexed 0 l.map).find? (fun e => e.2.contains (me, sl))).map (fun e =>
        let holders := (List.range (q / jhEpRacks j.hdr)).flatMap (fun g => e.2.map (fun h => (g, h.1)))
        let rankAt (g d : Nat) : Nat :=
          (((allRanks j.hdr).filter (fun r => decide ((coordOf j.hdr r).stage = (jobCoord j).stage ∧
            (coordOf j.hdr r).replica / jhEpRacks j.hdr = g)))[d]?).getD 0
        { base with members := rankEntries j (holders.map (fun x => rankAt x.1 x.2)), id := 65536 + 4096 * i + e.1,
                    inPtr := rgBase reg + rgStride reg * sl, outPtr := rgBase reg + rgStride reg * sl }))

/-- Gradient collectives run in order with what the others sent; those left wait. A stopped one is a fault of the PLE. -/
def runGrads (p q : Nat) (o : Op) : List Coll → State → List (List Contrib) → Option State
  | [], s, _ => some s
  | c :: r, s, peers =>
    match (partOf s p).job with
    | none => none
    | some j => match pleColl s p j q o c (peers.headD []) with
      | .waits => none
      | .stopped t code d => runGrads p q o r (pleFault t j code d) peers.tail
      | .done t _ _ => runGrads p q o r t peers.tail

/-- Whether the PLE still has work of the step under way: decisions and off-load copies (R382). -/
def pleWorks (s : State) (j : Job) : Bool :=
  !j.adopting.isEmpty || (adaptiveLayers j).any (fun i => (layerAt j i).snap.isSome) ||
  (stageLayers j).any (fun i => let l := layerAt j i; !l.offloaded.isEmpty && !groupAcked s l.group)

/-- The AND of one word of every member: none where one is missing. A poisoned word counts as 0 (R182). -/
def closeWord (own : Nat) (ranks : List Nat) (base : Nat) (peers : List Contrib) : Option Nat :=
  ranks.foldl (fun acc k => match acc, peers.find? (fun x => x.member == base + k) with
    | some a, some x => some (if x.poisoned ∨ x.abort then 0 else a &&& leNat (x.data.take 4))
    | _, _ => none) (some own)

/-- A collective of one word over the job member list (R381). -/
def wordColl (s : State) (p : Nat) (j : Job) (id : Nat) : Coll :=
  { kind := 5, op := 3, inFmt := 0xA, outFmt := 0xA, count := 4, step := stepNumber s p, id := id, members := j.members, inPtr := 0, outPtr := 0 }

/-- This device's arrival sent to every other member (R317). -/
def sendArrivals (s : State) (p : Nat) (j : Job) (o : Op) : State :=
  let others := (List.range j.members.length).filter (fun r => decide (r ≠ j.rank))
  others.foldl (fun t r =>
    let m := (j.members[r]?).getD 0
    let b := setBits (setBits o.body 472 12 (jmDev m)) 408 64 (stepArg t p 1)
    sendPk t (flowKey t (jmRack m) (jmDev m)) 0xFFFFF 18446744073709551615
      { ty := 0x08, src := ownDev t, dst := jmDev m, owner := o.owner, epoch := o.epoch, op := 3, payload := natLe 64 b }) s

/-- The agreement round of R472: none where a word is missing; otherwise the state with what it found. -/
def agreeRound (s : State) (p : Nat) (j : Job) (d : Nat) (peers : List Contrib) : Option State :=
  let ranks := (List.range j.members.length).filter (fun r => decide (r ≠ j.rank))
  let notD := 0xFFFFFFFF - d
  match closeWord d ranks 0 peers, closeWord notD ranks j.members.length peers with
  | some a, some b =>
    let ok := a == 0xFFFFFFFF - b
    let bad := peers.filter (·.poisoned)
    let s1 := bad.foldl (fun t x => raiseOwner t 0x5002 srcStep j.owner [(0, 32), (groupDev t p (x.member % j.members.length), 12)]) s
    let s2 := sendParts (sendParts s1 p j (wordColl s p j 0xFFFF0000) (natLe 4 d) []) p j (wordColl s p j 0xFFFF0001) (natLe 4 notD) []
    let s3 := modPart s2 p (fun x => { x with agreed := some ok })
    some (if ok then s3 else bump (raiseDevPart s3) (pKey 0x3040 3 p) 1)
  | _, _ => none
where
  /-- Fault 0xC00B of the partition. -/
  raiseDevPart (t : State) : State := raiseDev t 0xC00B srcThallus [(p, 5), (stepNumber t p, 64)]

/-- The arrival of this device at its step barrier, and the end of the operation that waited for it. -/
def arriveAll (s : State) (p q : Nat) (x : Queue) (o : Op) (j : Job) : State :=
  let s1 := modPart (sendArrivals s p j o) p (fun y => { y with barrierWaits := false })
  syObject 3 q s1 x { o with body := setBits o.body 408 64 (stepArg s1 p (bits o.body 408 16)) } (headOf x o)

/-- STEP_ARRIVAL_SEND (R382, R472): the step digest frozen, the gradient collectives run, the agreement round, the
arrival. What the other members sent: words of the two rounds, and inputs of the gradient collectives in their order. -/
def sendArrival (p : Nat) (peers : List Contrib) (grads : List (List Contrib)) (s : State) : State :=
  match waitingArrival s p, (partOf s p).job with
  | some (q, x, o), some j =>
    if groupSize s p ≤ 1 then s
    else
      let d := ((partOf s p).frozen).getD (stepDigest s p)
      let s1 := modPart s p (fun y => { y with frozen := some d })
      match runGrads p q o (j.gradDue.flatMap (fun g => gradColls s1 p j g.1 g.2)) s1 grads with
      | none => s1
      | some s2 =>
        let s3 := modJob s2 p (fun y => { y with gradDue := [] })
        if pleWorks s3 j then s3
        else match agreeRound s3 p j d peers with
          | none => s3
          | some s4 => arriveAll s4 p q x o j
  | _, _ => s

/-- STEP_ARRIVAL_SEND (R382). -/
def execStepArrivalSend (p : Nat) (peers : List Contrib) (grads : List (List Contrib)) (s : State) : Host.Outcome State Fault Refusal :=
  .next (sendArrival p peers grads s)

end Sys2Proof.Machine
end

