-- ==== Sys2Proof/Machine/Recovery.lean ====
section
/-!
DEFINITION. Machine/Recovery.lean: owners and their commands (R410 to R412), the owner-instance reset (R491 to R500), resets of
engines, partitions, lanes and ports (R487 to R490).
-/
namespace Sys2Proof.Machine

/-! ### Stopping work -/

/-- The operation of a queue's head that holds an engine. -/
def heldHead (s : State) (q : Nat) : Option (Queue × Op) :=
  (queueOf s q).bind (fun x => (qHead x).bind (fun o => if onEngine s q o && o.progress == .started then some (x, o) else none))

/-- The stop of a queue's head at its next stage boundary (Table 15-9): a DISPATCH or SCATTER aborts the chunks whose fill
messages it has not sent (R218, R494), and a PLACE_INIT places nothing. -/
def stopHead (s : State) (q : Nat) : State :=
  match (queueOf s q).bind (fun x => (qHead x).map (fun o => (x, o))) with
  | none => s
  | some (x, o) =>
    let s1 := match tget? s.card.ops q with
      | some c => if c.seq = o.seq then abortCard s q o c else s
      | none => s
    let h := headOf x o
    let s2 := if h.opcode = 0x0A ∧ subopOf o.body = 1 ∧ o.progress ≠ .accepted ∧ (partOf s1 x.partition).jobState = 1 then
        modPart s1 x.partition (fun y => { y with jobState := 0 }) else s1
    dropWaits (dropHead s2 q) q

/-- Queues of an owner, and of a partition. -/
def ownerQueues (s : State) (o : Nat) : List Nat := (s.queues.filter (fun x => qOwner x.2 == o)).map (·.1)
def partQueues (s : State) (p : Nat) : List Nat := (s.queues.filter (fun x => x.2.partition == p)).map (·.1)

/-! ### Owner-instance reset (R493) -/

/-- Key of the EPOCH_NOTICE flows: every trusted device. -/
def noticeTo (s : State) (o e : Nat) (d : Nat) : State :=
  sendPk s d 0xFFFFF 0 { ty := 0x0E, src := ownDev s, dst := d, owner := o, epoch := e, payload := epPayload o e }

/-- EPOCH_CLOSE to a target that holds a ledger slot of the owner (R354). -/
def closeTo (o new old : Nat) (s : State) (d : Nat) : State :=
  sendPk s d 0xFFFFF 0 { ty := 0x0F, src := ownDev s, dst := d, owner := o, epoch := new, payload := epPayload o old }

/-- What the revocations of Table 15-6 take at once: retained copies, far-line cache lines and directory entries, requests
that wait for an answer. -/
def revokeNow (s : State) (o : Nat) : State :=
  let s1 := homeForget (dropLines s (fun l => l.owner == o)) (ownDev s) (fun d => d.owner == o)
  { s1 with units := { s1.units with retained := s1.units.retained.filter (fun r => r.owner != o) },
            fab := { s1.fab with requests := s1.fab.requests.filter (fun r => r.owner != o) } }

/-- Steps E1 to E3 of Table 15-7. -/
def ownerResetBegin (s : State) (o cause : Nat) : State :=
  let old := ownerEpoch s o
  let new := (old + 1) % 2 ^ 16
  let qs := ownerQueues s o
  let unsent := s.fab.atomWait.filter (fun w => qs.contains w.2.1)
  let targets := ((s.fab.slots.filter (fun x => x.2.owner == o && x.2.epoch == old)).map (fun x => x.1 / 256)).eraseDups
  let stopped := (qs.filter (fun q => (heldHead s q).isSome)).length
  let ab0 := ent s 0x2A0206
  let s1 := addReset (modOwner s o (fun x => { x with state := .resetting, epoch := new, report := [] }))
    { level := 4, target := o, cause := cause }
  let fab := { s1.fab with atomWait := s1.fab.atomWait.filter (fun w => !qs.contains w.2.1) }
  let s2 := s1.fab.trusted.foldl (fun t d => noticeTo t o new d) { s1 with fab := fab }
  let s3 := abandonOwner (targets.foldl (closeTo o new old) s2) o
  let s4 := qs.foldl stopHead (revokeNow s3 o)
  let r : OwnerReset := { startedAt := s.clock.ns, oldEpoch := old, opsStopped := stopped, abandoned := ent s3 0x2A0206 - ab0,
                          unsentAtomics := unsent.length, closes := targets, notices := s.fab.trusted }
  modOwner s4 o (fun x => { x with reset := some r })

/-- An owner-instance reset asked for: it merges with one in progress, and a partition or device reset takes it in (R489). -/
def ownerReset (s : State) (o cause : Nat) : State :=
  if resetAbsorbed s { level := 4, target := o, cause := cause } ∨ ownerState s o = .free ∨ ownerState s o = .resetting then s
  else ownerResetBegin s o cause

/-- Packets of an owner's ended epoch, and notices, that their flows have not seen acknowledged. -/
def censusOpen (s : State) (o : Nat) (r : OwnerReset) : Nat :=
  r.closes.length + (r.notices.filter (s.fab.trusted.contains ·)).length +
  s.fab.flows.foldl (fun n f => if f.2.failed then n else
    n + ((f.2.unacked ++ f.2.waiting).filter (fun x => x.pk.owner == o && x.pk.epoch == r.oldEpoch)).length) 0

/-- DRAIN_CENSUS_COMPLETE (R495): bindings and copy groups are revoked, and the BPM's walk begins. -/
def execDrainCensusComplete (owner : Nat) (s : State) : Host.Outcome State Fault Refusal :=
  .next (match (ownerRec s owner).reset with
    | none => s
    | some r =>
      if r.walking ∨ censusOpen s owner r ≠ 0 then s
      else
        let maps := s.card.leases.filter (fun l => l.owner == owner && l.epoch != ownerEpoch s owner)
        let s1 := maps.foldl (fun t l => unbindMap t owner l.mapOff) s
        let s2 := { s1 with fab := { s1.fab with groups := tfilter s1.fab.groups (fun _ g => g.owner != owner) } }
        let r1 := { r with walking := true, slotMaps := maps.length, census := min (s.clock.ns - r.startedAt) (2 ^ 32 - 1) }
        modOwner s2 owner (fun x => { x with reset := some r1 }))

/-- The owner reset report (Table 15-8). -/
def resetReport (s : State) (o : Nat) (r : OwnerReset) : List Nat :=
  natLe 64 (fld r.startedAt 448 64 + fld r.census 416 32 + fld r.opsStopped 384 32 + fld r.buffersFreed 352 32 +
    fld r.buffersRevoked 320 32 + fld r.abandoned 288 32 + fld r.slotMaps 272 16 + fld r.answers.length 256 16 +
    fld r.unsentAtomics 240 16 + fld r.oldEpoch 224 16 + fld (ownerEpoch s o) 208 16 + fld o 196 12 + 2) ++
  r.answers.flatMap (fun a => natLe 48 (fld a.2 128 256 + fld a.1 0 12))

/-- The reading of a queue goes on after a reset (E7): a stopped one is active again. -/
def queueGoesOn (s : State) (q : Nat) : State :=
  issueRead (modQueue s q (fun x => { x with stopped := false })) q

/-- Steps E6 and E7. -/
def ownerResetEnd (s : State) (o : Nat) (r : OwnerReset) : State :=
  let s1 := loseQueues s 1 (fun x => qOwner x == o)
  let s2 := modOwner s1 o (fun x => { x with report := resetReport s o r, reset := none, state := .active })
  let s3 := match s2.resets.find? (fun x => x.level == 4 && x.target == o) with
    | some x => completeReset s2 x
    | none => s2
  (ownerQueues s3 o).foldl queueGoesOn s3

/-- REVOCATION_WALK_DONE (R292): then the loss records, the report and the return to active. -/
def execRevocationWalkDone (owner : Nat) (s : State) : Host.Outcome State Fault Refusal :=
  .next (match (ownerRec s owner).reset with
    | none => s
    | some r =>
      if ¬ r.walking then s
      else
        let w := revokeOwner s owner
        ownerResetEnd w.1 owner { r with buffersFreed := w.2.1, buffersRevoked := w.2.2 })

/-! ### Owner commands (R410, R411) -/

/-- The admin context that 0x2103:03 holds: the selected queue's (R412). -/
def adminContext (s : State) : Option Nat := tget? s.host.adminCtxs (ent s 0x210301)

/-- An admin context that activates an owner (R410, R408). -/
def adminOk (s : State) (o : Nat) : Bool :=
  match adminContext s with
  | none => false
  | some c => (contextBad s o c).isNone && bits c 300 20 == ownerAdmin s o && bits (ownerRec s o).entry 96 12 == o &&
      (ownerFn s o == 0 || decide (ownerFn s o ≤ s.host.budget.getD 1024))

/-- Whether the state of an owner and what it holds allow a command (R410). -/
def ownerCmdOk (s : State) (o c : Nat) : Bool :=
  match c, ownerState s o with
  | 1, .free => keyActive s o && adminOk s o
  | 2, .active => true
  | 3, .preempted => true
  | 4, st => st != .free
  | 5, .active =>
    s.queues.all (fun x => qOwner x.2 != o || (x.1 == ownerAdmin s o && (qHead x.2).isNone)) && !anyLocalWin s o
  | _, _ => false

/-- Held messages of a queue posted in their order while the ring has space. -/
def postAllHeld (q : Nat) : Nat → State → State
  | 0, s => s
  | n + 1, s => postAllHeld q n (postHeld s q)

/-- An owner activated: its admin queue is created (R412). -/
def activateOwner (s : State) (o : Nat) : State :=
  match adminContext s with
  | none => s
  | some c => modOwner (makeQueue s o c) o (fun x => { x with state := .active })

/-- An owner pre-empted (R411, R316). -/
def preemptOwner (s : State) (o : Nat) : State :=
  settlePreempt (freezeObjs (modOwner s o (fun x => { x with state := .preempting })) o true) o

/-- A pre-empted owner resumed: its frozen bits clear, its held messages are posted (R316). -/
def resumeOwner (s : State) (o : Nat) : State :=
  let s1 := freezeObjs (modOwner s o (fun x => { x with state := .active })) o false
  (ownerQueues s1 o).foldl (fun t q => postAllHeld q ((queueOf t q).map (·.held.length) |>.getD 0) t) s1

/-- An owner freed: its admin queue is destroyed, and its admin context must be written again (R410). -/
def freeOwner (s : State) (o : Nat) : State :=
  let qs := ownerQueues s o
  let s1 := { s with queues := tfilter s.queues (fun q _ => !qs.contains q), syu := { s.syu with tasks := tfilter s.syu.tasks (fun q _ => !qs.contains q) } }
  modOwner { s1 with host := { s1.host with adminCtxs := tfilter s1.host.adminCtxs (fun _ c => bits c 288 12 != o) } } o (fun x => { x with state := .free })

/-- An owner command of R410. -/
def ownerCmd (s : State) (o c : Nat) : State :=
  if c = 1 then activateOwner s o
  else if c = 2 then preemptOwner s o
  else if c = 3 then resumeOwner s o
  else if c = 4 then ownerReset s o causeCommand
  else freeOwner s o

/-! ### Engine resets (level 3) -/

/-- Engines of Table 15-5 by source unit and instance: a band, the walker, a DMA engine, a vector core, the CDE, the PLY, the
BPM head caches. -/
def engineNamed (unit inst : Nat) : Bool :=
  (unit == 1 && decide (inst < 8)) || (unit == 2 && inst == 0) || (unit == 3 && decide (inst < 8)) ||
  (unit == 4 && decide (inst < 32)) || ((unit == 8 || unit == 9 || unit == 0x0D) && inst == 0)

/-- Registers of a band's cells zero (R34). -/
def clearBand (s : State) (b : Nat) : State :=
  let keep (rows : Nat) (t : Tbl Nat) : Tbl Nat := tfilter t (fun k _ => !(decide (b * rows ≤ k / 1024 ∧ k / 1024 < (b + 1) * rows)))
  let r := s.units.regs
  { s with units := { s.units with regs := { r with
    weight := keep 128 r.weight, weightShadow := keep 128 r.weightShadow, metadata := keep 128 r.metadata,
    metadataShadow := keep 128 r.metadataShadow, scale := keep 32 r.scale, scaleShadow := keep 32 r.scaleShadow } } }

/-- Whether a copy's destination overlaps its source in local memory. -/
def copyInPlace (s : State) (b : Nat) : Bool :=
  match dmEnd s (dmSrc b) (dmSrcRack b) (dmSrcTile b), dmEnd s (dmDst b) (dmDstRack b) (dmDstTile b) with
  | .here a, .here d => rangesMeet a (if dmMode b = 5 then 32 else dmSrcBytes b a) d (dmDstBytes b d)
  | _, _ => false

/-- A copy that an engine holds, run again (R429); one that names a counter is of class X. -/
def againCopy (s : State) (q : Nat) (o : Op) (h : Head) : State :=
  if dmCmode o.body ≠ 0 then notRerun s q o 2 srcDma else againOp s q o h (copyInPlace s o.body) srcDma

/-- The copy that a DMA engine holds. -/
def copyOf (s : State) (engine : Nat) : Option (Nat × Op × Head) :=
  s.queues.findSome? (fun x => (qHead x.2).bind (fun o =>
    let h := headOf x.2 o
    if h.opcode = 4 ∧ o.stage = engine + 1 ∧ (o.progress = .started ∨ (o.progress = .finished ∧ o.status = 0x01)) then some (x.1, o, h) else none))

/-- Carding operations that the CDE, or the PLY, holds. -/
def cardsOf (s : State) (ply : Bool) : List (Nat × Card) :=
  s.card.ops.filter (fun c => (ccKind c.2.ccb == 3 || ccKind c.2.ccb == 4 || ccKind c.2.ccb == 5) == ply)

/-- A Carding operation stopped by its unit and run again; one that ends stopped aborts its exchange. -/
def againCard (s : State) (q : Nat) (c : Card) (unit : Nat) : State :=
  match (queueOf s q).bind (fun x => (qHead x).map (fun o => (o, headOf x o))) with
  | none => s
  | some (o, h) =>
    let s1 := againOp (dropWaits (dropCard s q) q) q o h (inPlace (cardExtents c.ccb).1 (cardExtents c.ccb).2) unit
    if (senderOp s1 q o.seq).any (fun y => y.progress == .waiting) then s1 else abortCard s1 q o c

/-- An array operation stopped by its unit and run again. -/
def againWalk (s : State) (q : Nat) (o : Op) (h : Head) (w : Walk) (unit : Nat) : State :=
  againOp (quitWalk s q o h w) q o h (walkInPlace w) unit

/-- The operation that runs on the array. -/
def arrayRunner (s : State) : Option (Nat × Op × Head × Walk) := s.units.running.bind (fun q => (arrayHead s q).map (fun x => (q, x)))

/-- Planned operations that have not streamed go back to step 1. -/
def unplan (s : State) : State :=
  s.units.walks.foldl (fun t x => if 1 ≤ x.2.stage then modOp (dropWalk t x.1) x.1 x.2.seq (fun y => { y with progress := .waiting }) else t) s

/-- The work that an engine holds stops and is run again (R429), and its registers are as after a reset. -/
def stopEngine (s : State) (unit inst : Nat) : State :=
  if unit = 1 then
    clearBand (match bandUser s inst with
      | some (q, o, h, w) => againWalk s q o h w srcArray
      | none => s) inst
  else if unit = 2 then
    unplan (match arrayRunner s with
      | some (q, o, h, w) => againWalk s q o h w srcWalker
      | none => s)
  else if unit = 3 then
    match copyOf s inst with
    | some (q, o, h) => againCopy s q o h
    | none => s
  else if unit = 4 then
    let s1 := { s with units := { s.units with sfuUses := tdel s.units.sfuUses inst } }
    match vcHolder s with
    | some (q, o, h) => if bit (coresOut s) inst then s1 else againOp (freeUnits s1 q) q o h (vcInPlace o.body) srcVector
    | none => s1
  else if unit = 8 then (cardsOf s false).foldl (fun t c => againCard t c.1 c.2 srcCde) s
  else if unit = 9 then (cardsOf s true).foldl (fun t c => againCard t c.1 c.2 srcPly) s
  else
    (s.pools.pools.filter (fun p => p.2.state == 1 || p.2.state == 3)).foldl (fun t p => startRebuild t p.1) s

/-- An engine reset (level 3). -/
def engineReset (s : State) (unit inst cause : Nat) : State :=
  let r : Reset := { level := 3, target := unit * 256 + inst, cause := cause }
  if ¬ engineNamed unit inst ∨ resetAbsorbed s r then s else stopEngine (addReset s r) unit inst

/-- Queue whose operation an engine holds. -/
def engineHolder (s : State) (unit inst : Nat) : Option Nat :=
  if unit = 1 then (bandUser s inst).map (·.1)
  else if unit = 2 then s.units.running
  else if unit = 3 then (copyOf s inst).map (·.1)
  else if unit = 4 then (if bit (coresOut s) inst then none else (vcHolder s).map (·.1))
  else if unit = 8 then ((cardsOf s false).filter (fun c => (engineWaits s c.1).isEmpty)).head?.map (·.1)
  else if unit = 9 then ((cardsOf s true).filter (fun c => (engineWaits s c.1).isEmpty)).head?.map (·.1)
  else none

/-- ENGINE_WATCHDOG (R490): an engine that has held one operation too long. -/
def execEngineWatchdog (unit inst : Nat) (s : State) : Host.Outcome State Fault Refusal :=
  .next (match engineHolder s unit inst with
    | none => s
    | some q => engineReset (raiseDev s 0xC014 unit [(unit, 7), (inst, 8), (q, 20)]) unit inst causeUnit)

/-! ### Partition resets (level 5) -/

/-- Queues freed, with their tasks and the watches they registered. -/
def freeQueues (s : State) (qs : List Nat) : State :=
  let s1 := { s with queues := tfilter s.queues (fun q _ => !qs.contains q),
                     syu := { s.syu with tasks := tfilter s.syu.tasks (fun q _ => !qs.contains q) } }
  (s1.syu.watches.filter (fun x => match x.2.by_ with
    | .queue q _ _ => qs.contains q
    | .engine q => qs.contains q
    | .remote _ _ _ _ _ => false)).foldl (fun t x => dropWatch t x.1) s1

/-- Pools of a partition enabled afresh (R284); a failed pool stays failed. -/
def freshPools (s : State) (p : Nat) : State :=
  (poolsOfPart s p).foldl (fun t i => if (poolOf t i).state = 4 then t else enablePool t i) s

/-- A partition's Tile Store range zeroed (R245). -/
def zeroPartTile (s : State) (p : Nat) : State :=
  let r := partRange s p true
  zeroTileS s r.1 (r.2 - r.1)

/-- What a partition reset stops, frees and clears (Table 15-5). -/
def partitionStop (s : State) (p : Nat) : State :=
  let qs := partQueues s p
  let s1 := loseQueues (qs.foldl stopHead s) 2 (fun x => x.partition == p)
  let s2 := freeQueues { s1 with owners := tmap s1.owners (fun _ o =>
    if bits o.entry 91 5 = p ∧ o.state = .resetting then { o with state := .active, reset := none } else o) } qs
  let s3 := zeroPartTile (unsetRange (freshPools s2 p) p) p
  let s4 := settleReset { s3 with parts := tdel s3.parts p } .resetPart (some p)
  zeroPartTile s4 p

/-- A partition reset (level 5). -/
def partitionReset (s : State) (p cause : Nat) : State :=
  let r : Reset := { level := 5, target := p, cause := cause }
  if 32 ≤ p ∨ resetAbsorbed s r then s else partitionStop (addReset s r) p

/-- CENSUS_TIMEOUT (R496). -/
def execCensusTimeout (owner : Nat) (s : State) : Host.Outcome State Fault Refusal :=
  .next (match (ownerRec s owner).reset with
    | none => s
    | some r =>
      if r.walking then s
      else partitionReset (raiseDev s 0xC015 srcThallus [(owner, 12), (censusOpen s owner r, 16)]) (ownerPart s owner) causeCensus)

/-! ### Lanes and ports (levels 1 and 2) -/

/-- A lane reset by request: it leaves the stripe and trains again (R333). -/
def laneReset (s : State) (p l : Nat) : State :=
  let x := portOf s p
  let r : Reset := { level := 1, target := p * 32 + l, cause := causeRequest }
  if ¬ portUp s p ∨ ¬ bit x.lanes l ∨ resetAbsorbed s r then s
  else if popCount x.lanes 32 ≤ portMinLanes s p then portDown s p
  else modPort (addReset s r) p (fun y => { y with lanes := y.lanes - 2 ^ l, state := 4 })

/-- A port reset by request. -/
def portReset (s : State) (p cause : Nat) : State :=
  let r : Reset := { level := 2, target := p, cause := cause }
  if resetAbsorbed s r ∨ ¬ (portOf s p).enable then s
  else failUnreached (modPort (addReset s r) p (fun x => { trainAgain x 1 with trainFails := 0 }))

/-- port_enable written true (R329): a port reset where the port trains. -/
def portEnabled (s : State) (p : Nat) : State :=
  let t := enablePort s p
  if (portOf t p).state = 1 ∧ (portOf s p).state ≠ 1 then noteReset t { level := 2, target := p, cause := causeEnable } else t

end Sys2Proof.Machine
end

