-- ==== Sys2Proof/Machine/Bringup.lean ====
section
/-!
DEFINITION. Machine/Bringup.lean: fronds (R462 to R464), the main rails going off (R511), cold and warm start-up (R473 to R475),
firmware and configuration as a start selects them (R439, R456).
-/
namespace Sys2Proof.Machine

/-! ### Fronds -/

def setFrond (s : State) (f : Nat) (x : Frond) : State :=
  { s with fronds := { st := tput s.fronds.st f x, queue := s.fronds.queue.filter (· != f) } }

/-- Sets of the far-line cache in a slice: one eighth of the sets, in order. -/
def inSlice (k : Nat) (l : Line) : Bool := lineSet l.addr / 2048 == k

/-- A band leaves service: the operation that streams on it stops with fault 0x100A and is run again (R75, R429). -/
def loseBand (s : State) (b : Nat) : State :=
  clearBand (match bandUser s b with
    | some (q, o, h, w) => lostWalk s q o h w 0x100A srcArray [(b, 3)]
    | none => s) b

/-- A vector core leaves service: the operation that holds it stops with fault 0x4009 and is run again (R429). -/
def loseCore (s : State) (c : Nat) : State :=
  match vcHolder s with
  | some (q, o, h) => if bit (coresOut s) c then s else rerunOp (freeUnits s q) q o h (vcInPlace o.body) 0x4009 srcVector [(c, 5)]
  | none => s

/-- The units of a frond leave service: what they run stops as their chapters state for the loss of the unit (R464, R461). -/
def loseFrond (s : State) (f : Nat) : State :=
  let s0 := if f < 8 then loseBand s f else if f < 40 then loseCore s (f - 8) else s
  let s1 := setFrond s0 f .failed
  if f = 40 then stopEngine s1 8 0
  else if f = 42 then stopEngine s1 2 0
  else if f = 41 then stopEngine s1 9 0
  else if 43 ≤ f ∧ f ≤ 50 then stopEngine s1 3 (f - 43)
  else if 51 ≤ f ∧ f ≤ 58 then dropLines s1 (inSlice (f - 51))
  else if 59 ≤ f ∧ f ≤ 66 then failStack s1 (f - 59) 3
  else match frondPort f with
    | some p =>
      let s2 := if portUp s1 p then portDown s1 p else s1
      failUnreached (modPort s2 p (fun x => { trainAgain x 6 with faulted := true }))
    | none => s1

/-- A wake that fails (R464). -/
def frondFails (s : State) (f : Nat) : State := raiseDev (loseFrond s f) 0xC009 srcThallus [(f, 7)]

/-- Whether a frond is in steps W1 and W2: one of the first four requests (R463). -/
def frondWaking (s : State) (f : Nat) : Bool := (s.fronds.queue.take 4).contains f

/-- FROND_WAKE_DONE (R463). -/
def execFrondWakeDone (frond : Nat) (s : State) : Host.Outcome State Fault Refusal :=
  .next (if frondWaking s frond then bump (setFrond s frond .on) 0x200505 1 else s)

/-- FROND_WAKE_FAIL (R464). -/
def execFrondWakeFail (frond : Nat) (s : State) : Host.Outcome State Fault Refusal :=
  .next (if frondWaking s frond then frondFails s frond else s)

/-- Demand fronds (Table 14-8). -/
def demandFrond (f : Nat) : Bool := decide (f < 42) || decide (43 ≤ f ∧ f ≤ 58)

/-- Whether the units of a demand frond are idle. -/
def frondIdle (s : State) (f : Nat) : Bool :=
  if f < 8 then (bandUser s f).isNone && s.units.bist != some f
  else if f < 40 then s.units.vecQueue.isNone
  else if f = 40 then (cardsOf s false).isEmpty
  else if f = 41 then (cardsOf s true).isEmpty
  else if f ≤ 50 then (copyOf s (f - 43)).isNone
  else true

/-- FROND_IDLE_POWERDOWN (R462): what the frond held is lost; modified far-line cache lines go home first. -/
def execFrondIdlePowerdown (frond : Nat) (s : State) : Host.Outcome State Fault Refusal :=
  .next (
    if ¬ demandFrond frond ∨ frondState s frond ≠ .on ∨ ¬ frondIdle s frond then s
    else
      let s1 := if frond < 8 then clearBand s frond
        else if 51 ≤ frond then evictLines s (inSlice (frond - 51)) else s
      setFrond s1 frond .off)

/-- Held fronds that P4 wakes: those of the enabled ports among them. -/
def heldFronds (s : State) : List Nat :=
  [42, 59, 60, 61, 62, 63, 64, 65, 66] ++ ((List.range 21).filter (fun p => (portOf s p).enable)).flatMap portFronds ++ [91, 92, 93, 94, 95]

/-! ### The main rails go off (R511) -/

/-- A port as power leaves it: enabled or not, with what is in its cage. -/
def darkPort (x : Port) : Port := { state := if x.enable then 6 else 0, enable := x.enable, plugged := x.plugged, replays := x.replays, drops := x.drops }

/-- Spare rows that hard repairs have used: soft ones are lost at power-off (R267). -/
def hardRows (m : Mc) : Tbl Nat := m.softRepairs.foldl (fun t r => tupd t (rqGroup r) 0 (· - 1)) m.rowsUsed

/-- The parts of the device that the main rails supply lose what they hold; HBM contents are lost, and so are the pages of
the fault log. -/
def mainLoss (s : State) : State :=
  { s with
    mem := { scratched := s.mem.scratched }, host := { up := false, perst := s.host.perst, journalA := s.host.journalA, journalB := s.host.journalB },
    owners := tmap s.owners (fun _ o => { o with state := .free, reset := none }),
    queues := [], fronds := {}, resets := [], pools := {},
    mc := { windows := s.mc.windows, keyDraws := s.mc.keyDraws, rowsUsed := hardRows s.mc },
    syu := {}, fab := { ports := tmap s.fab.ports (fun _ x => darkPort x), rwins := s.fab.rwins, racks := s.fab.racks },
    units := { bandFaults := s.units.bandFaults, coreFaults := s.units.coreFaults, stagings := s.units.stagings, laneUses := s.units.laneUses },
    card := {}, parts := [],
    log := { s.log with pages := [], records := tfilter s.log.records (fun k _ => decide (s.log.next ≤ k + s.log.onDie)) } }

/-- The main rails off, with the rail state that follows: 0 off, 3 off after a fault. -/
def railsOff (s : State) (st : Nat) : State :=
  let s1 := mainLoss s
  { s1 with power := { s1.power with railState := st, railsUp := 0 },
            startup := { s1.startup with main := none, back := none, hostReady := false, rackReady := false, p3Waits := false } }

/-! ### Where a cold start begins (R473) -/

/-- Entries that outlive a cold reset while the input stays valid: restarts since power-on, cold resets since input power-on,
and the field key, which has no default (R436). -/
def powerCounts (s : State) : Tbl Val := tfilter s.dict (fun k _ => k == 0x200001 || k == 0x2D0607 || k == 0x200105)

/-- The Thallus as a device reset leaves it: no session, no transfer, no nonce. -/
def thReset (s : State) : Thallus :=
  { s.th with session := none, nonceHost := none, nonceField := none, transfers := [], assembled := [] }

/-- A cold start from a phase: the rails off, every entry at its default until P2, log and time from zero. -/
def coldBegin (s : State) (phase cause : Nat) : State :=
  let s1 := railsOff s 0
  { s1 with
    dict := powerCounts s, shadow := [], placeVals := [], owners := [],
    host := { up := false, perst := s.host.perst }, th := thReset s1, clock := {}, log := {},
    startup := { main := some phase, back := none, hostReady := false, rackReady := false },
    resets := [{ level := 7, target := 0xFFF, cause := cause }],
    mc := { keyDraws := s.mc.keyDraws, rowsUsed := hardRows s.mc },
    fab := { ports := (List.range 21).map (fun p => (p, { state := 6, plugged := (portOf s p).plugged })) },
    units := { stagings := s.units.stagings, laneUses := s.units.laneUses },
    power := { s1.power with railFaults := 0, inputFaulted := false, removal := 0, criticalShut := false, failedSensors := [], critical := 0 } }

/-- A device cold reset (level 7): it begins at P1 while the Thallus domain stands. One in progress takes the request in. -/
def coldReset (s : State) (cause : Nat) : State :=
  if ¬ s.power.domain ∨ s.startup.main.any (fun m => decide (m < 4)) ∧ ¬ s.startup.stopped then s else coldBegin s 1 cause

/-! ### A device warm reset (R475) -/

/-- Vectors' budget under the settings (R408): the highest VF that holds vectors, where not all do. -/
def vfBudget (s : State) (n : Nat) : Option Nat :=
  if n * ent s 0x210005 > 2016 then some (2016 / ent s 0x210005) else none

/-- The fabric as a warm reset leaves it: ports down, every flow to be reset, trust, ledger and lines gone. -/
def warmFabric (f : Fabric) : Fabric :=
  { ports := tmap f.ports (fun _ x => { darkPort x with peer := x.peer }), flows := tmap f.flows (fun _ _ => { failed := true }),
    rwins := f.rwins, racks := f.racks, useClock := f.useClock, rrPtr := f.rrPtr, ptpLocked := f.ptpLocked, isSource := f.isSource,
    sourceDev := f.sourceDev, rateAdj := f.rateAdj }

/-- Where a warm start begins: phase P2 takes the pending values from the retention SRAM, and P4 follows. -/
def warmBegin (s : State) (cause : Nat) : State :=
  let s1 := addReset s { level := 6, target := 0xFFF, cause := cause }
  let s2 := { s1 with
    th := thReset s1, units := { bandFaults := s.units.bandFaults, coreFaults := s.units.coreFaults, stagings := s.units.stagings, laneUses := s.units.laneUses },
    card := {}, fab := warmFabric s.fab, fronds := {}, parts := [],
    owners := tmap s.owners (fun _ o => if o.state = .resetting then { o with state := .active, reset := none } else o),
    mc := { s.mc with repairing := none, tracker := [], badRows := [] },
    startup := { s.startup with main := some 4, back := none, stopped := false, hostReady := false, rackReady := false, warm := true, p3Waits := false } }
  let s3 := settleReset (settleReset s2 .resetWarm none) .resetPart none
  { s3 with
    host := { s3.host with budget := if s3.host.vfEnable then vfBudget s3 s3.host.numVfs else none },
    th := { s3.th with selectedNode := ent s3 0x200101 } }

/-- A device warm reset (level 6); a device reset in progress takes it in. -/
def warmReset (s : State) (cause : Nat) : State :=
  if s.power.railState ≠ 2 ∨ resetAbsorbed s { level := 6, target := 0xFFF, cause := cause } ∨ s.startup.main.isSome then s else warmBegin s cause

/-! ### Start-up phases -/

/-- The image that a start runs: of those that verify, the one of the higher version, the selected one on a tie (R439). -/
def pickImage (s : State) (ok : List Bool) : Option Nat :=
  let a := s.th.fw0.valid && (ok[0]?).getD false
  let b := s.th.fw1.valid && (ok[1]?).getD false
  if a && b then
    some (if s.th.fw0.version = s.th.fw1.version then s.th.selected else if s.th.fw0.version < s.th.fw1.version then 1 else 0)
  else if a then some 0 else if b then some 1 else none

/-- Firmware verified and started (R439). -/
def runImage (s : State) (ok : List Bool) : State :=
  let bad := [(0, s.th.fw0), (1, s.th.fw1)].filter (fun x => x.2.valid && !((ok[x.1]?).getD false))
  let s1 := bad.foldl (fun t x => raiseDev t 0xC005 srcThallus [(x.1, 16)]) s
  match pickImage s ok with
  | some i => { s1 with th := { s1.th with running := i, selected := i, serving := true } }
  | none => { s1 with th := { s1.th with serving := false } }

/-- Whether a stored record may be taken: of an entry that is stored, of its type and in its range (R456). -/
def recordGood (k : Nat) (v : Val) : Bool :=
  match specOf k with
  | some e => e.stored && tyOk e.ty v && rangeOk e.ty e.range v
  | none => false

/-- Records of the winning copy put in force, and the first that is skipped reported with their number. -/
def loadRecords (s : State) (r : Tbl Val) : State :=
  let bad := r.filter (fun x => !recordGood x.1 x.2)
  let s1 := (r.filter (fun x => recordGood x.1 x.2)).foldl (fun t x => setEntV t x.1 x.2) s
  match bad with
  | [] => s1
  | x :: _ => raiseDev s1 0xC010 srcThallus [(x.1, 16), (bad.length, 32)]

/-- The winner among two copies (R456): 0 copy A, 1 copy B. -/
def pickCopy (s : State) (ok : List Bool) : Option Nat :=
  let a := s.th.copyA.valid && (ok[0]?).getD false
  let b := s.th.copyB.valid && (ok[1]?).getD false
  if a && b then some (if s.th.copyA.seq < s.th.copyB.seq then 1 else 0) else if a then some 0 else if b then some 1 else none

/-- Configuration selected, repaired and loaded (R456, R445). -/
def loadConfig (s : State) (ok : List Bool) : State :=
  let bad (i : Nat) : Bool := !((if i = 0 then s.th.copyA.valid else s.th.copyB.valid) && (ok[i]?).getD false)
  match pickCopy s ok with
  | none =>
    let c := Config.causeCode 0xC002 1
    let s1 := { s with th := { s.th with copyA := { valid := false }, copyB := { valid := false }, floors := [] } }
    raiseDev s1 0xC002 srcThallus [(c, 8), (c, 8)]
  | some i =>
    let w := if i = 0 then s.th.copyA else s.th.copyB
    let s1 := if bad (1 - i) then raiseDev s 0xC001 srcThallus [(1 - i, 16), (Config.causeCode 0xC001 1, 8)] else s
    let s2 := { s1 with th := { s1.th with copyA := w, copyB := w, floors := tmap w.counters (fun _ n => n + 1024) } }
    let s3 := loadRecords s2 w.records
    { s3 with
      host := { s3.host with journalA := ent s3 0x210101, journalB := ent s3 0x210102 },
      fab := { s3.fab with racks := w.racks }, th := { s3.th with selectedNode := ent s3 0x200101 } }

/-- Whether P3 may run: the input in its range and the module seated (R506). -/
def railsMayStart (s : State) : Bool := decide (46000 ≤ s.power.inputMv ∧ s.power.inputMv ≤ 56000) && s.power.seated

/-- P3 begins, or waits at its start. -/
def beginRails (s : State) : State :=
  let go := railsMayStart s
  { s with startup := { s.startup with main := some 3, p3Waits := !go }, power := { s.power with railState := if go then 1 else 0, railsUp := 0 } }

/-- P3 released where it waits at its start. -/
def releaseRails (s : State) : State :=
  if s.startup.main = some 3 ∧ s.startup.p3Waits ∧ railsMayStart s then beginRails s else s

/-- Records kept while the rails were off go to the log (R526). -/
def writeKept (s : State) : State :=
  s.power.kept.foldl takeRecord { s with power := { s.power with kept := [] } }

/-- The soft repairs of the configuration copies applied again while spare rows last (R267). -/
def applySoft (s : State) (l : List Nat) : State :=
  l.foldl (fun t r => if spareLeft t r then
    setMc t (fun m => { m with rowsUsed := tupd m.rowsUsed (rqGroup r) 0 (· + 1), softRepairs := m.softRepairs ++ [r] }) else t) s

/-- Lane repairs of the configuration copies applied as the interface is trained (R268). -/
def applyLanes (s : State) : State :=
  setMc s (fun m => { m with lanesUsed := s.th.copyA.laneRepairs.foldl (fun t r => tupd t (rqPc r) 0 (· + 1)) [],
                             laneRepairs := s.th.copyA.laneRepairs })

/-- Held fronds woken (R462, R463); a frond whose wake fails is out of service. -/
def wakeHeld (s : State) (failed : List Nat) : State :=
  let l := heldFronds s
  let s1 := (l.filter (fun f => !failed.contains f)).foldl (fun t f => bump (setFrond t f .on) 0x200505 1) s
  (l.filter (failed.contains ·)).foldl frondFails s1

/-- Enabled ports start to train as P8 begins. -/
def startPorts (s : State) : State :=
  (List.range 21).foldl (fun t p => if (portOf t p).enable ∧ portPowered t p then modPort t p (fun x => trainAgain x 1) else t) s

/-- Pools at P7: rebuilt after a warm reset, enabled afresh from their stored descriptors after a cold one (R284). -/
def startPools (s : State) : State :=
  if s.startup.warm then
    (s.pools.pools.filter (fun p => p.2.state == 1 || p.2.state == 2 || p.2.state == 3)).foldl (fun t p => startRebuild t p.1) s
  else s.th.copyA.pools.foldl (fun t x => if pdCount x.2 = 0 then t else enablePool (setPool t x.1 { desc := x.2 }) x.1) s

/-- Cores whose SFU tables do not match leave service (R152). -/
def coresMismatch (s : State) (l : List Nat) : State :=
  (l.filter (· < 32)).foldl (fun t c =>
    let t1 := { t with units := { t.units with coreFaults := t.units.coreFaults ||| 2 ^ c } }
    let x := takeFree t1
    raiseDev x.2 0x4006 srcSfu [(c, 5), (x.1, 5)]) s

/-- P7 ends: SYU objects unset, accepted work reported from the surviving journal after a warm reset, host-ready. -/
def hostReady (s : State) : State :=
  let s1 := { startPools s with syu := {} }
  let s2 := if s1.startup.warm then
      let t := loseQueues s1 3 (fun _ => true)
      { t with queues := tmap t.queues (fun _ x => { x with stopped := false, ops := x.ops.filter (fun o => o.progress == .completed) }) }
    else s1
  let s3 := { s2 with startup := { s2.startup with main := none, hostReady := true } }
  (s3.queues.map (·.1)).foldl queueGoesOn s3

/-- The duration of a phase kept (0x2007:02). -/
def noteTime (s : State) (phase us : Nat) : State :=
  { s with startup := { s.startup with times := s.startup.times.set phase (us % 2 ^ 32) } }

def setMain (s : State) (m : Option Nat) : State := { s with startup := { s.startup with main := m } }
def setBack (s : State) (b : Option Nat) : State := { s with startup := { s.startup with back := b } }
def stopStart (s : State) : State := { s with startup := { s.startup with main := none, back := none, stopped := true } }

/-- What a phase of P0 to P7 does as it ends. -/
def mainPhaseEnd (s : State) (phase : Nat) (x : PhaseEnd) : State :=
  match phase with
  | 0 => setMain { s with clock := {} } (some 1)
  | 1 => let s1 := runImage s x.fwOk
         if s1.th.serving then setMain s1 (some 2) else stopStart s1
  | 2 => beginRails (loadConfig s x.copyOk)
  | 3 =>
    if s.startup.p3Waits ∨ s.power.railsUp < 7 then s
    else setMain (writeKept { s with power := { s.power with railState := 2 } }) (some 4)
  | 4 =>
    let s1 := wakeHeld s x.failed
    if frondState s1 95 = .failed then stopStart s1 else setBack (setMain (startPorts s1) (some 5)) (some 8)
  | 5 =>
    let s1 := (x.failed.filter (· < 512)).foldl (fun t pc => failPc t pc 1) s
    setMain (applyLanes (if s.startup.warm then s1 else applySoft s1 s1.th.copyA.softRepairs)) (some 6)
  | 6 =>
    let s1 := if s.startup.warm then zeroTileS s 0 tileBytes
      else setMc s (fun m => { m with keys := [(0, { active := true, gen := 1, fresh := m.keyDraws })], keyDraws := m.keyDraws + 1 })
    setMain (coresMismatch s1 x.failed) (some 7)
  | _ => hostReady s

/-- STARTUP_PHASE_END (R473 to R475): P8 to P10 run beside P5 to P7, and the device is rack-ready once its time is locked. -/
def execStartupPhaseEnd (phase : Nat) (x : PhaseEnd) (s : State) : Host.Outcome State Fault Refusal :=
  .next (
    if s.startup.stopped ∨ ¬ s.power.domain then s
    else if phase ≤ 7 ∧ s.startup.main = some phase then
      let t := mainPhaseEnd s phase x
      if t = s then s else noteTime t phase x.us
    else if s.startup.back = some phase ∧ 8 ≤ phase ∧ phase ≤ 9 then noteTime (setBack s (some (phase + 1))) phase x.us
    else if s.startup.back = some 10 ∧ phase = 10 ∧ s.clock.locked then
      noteTime { s with startup := { s.startup with back := none, rackReady := true } } 10 x.us
    else s)

/-- Bounds of Table 14-14 in microseconds. -/
def phaseBound (p : Nat) : Nat := (([5000, 60000, 15000, 25000, 2000, 150000, 30000, 20000, 1010000, 400000, 2500000] : List Nat)[p]?).getD 0

/-- STARTUP_PHASE_TIMEOUT (R473): P0 to P4 stop start-up; a warm start whose P5 to P7 pass their bounds starts cold
(Table 15-5). -/
def execStartupPhaseTimeout (phase : Nat) (s : State) : Host.Outcome State Fault Refusal :=
  .next (
    if s.startup.stopped ∨ ¬ s.power.domain ∨ ¬ (s.startup.main = some phase ∨ s.startup.back = some phase) ∨
        (phase = 3 ∧ s.startup.p3Waits) then s
    else
      let s1 := raiseDev s 0xC00C srcThallus [(phase, 8), (phaseBound phase, 32)]
      if phase ≤ 4 then stopStart s1
      else if phase ≤ 7 ∧ s.startup.warm then coldBegin s1 1 causePhase
      else s1)

/-! ### Resets of the device and their ends -/

/-- PERST_ASSERT (Table 15-5). -/
def execPerstAssert (s : State) : Host.Outcome State Fault Refusal :=
  .next (warmReset { s with host := { s.host with perst := true, up := false } } causePerst)

/-- PERST_DEASSERT (R474): link training starts once P3 has also ended. -/
def execPerstDeassert (s : State) : Host.Outcome State Fault Refusal := .next { s with host := { s.host with perst := false } }

/-- PCIE_HOT_RESET (Table 15-5). -/
def execPcieHotReset (s : State) : Host.Outcome State Fault Refusal := .next (if s.host.up then warmReset s causeHot else s)

/-- FLR_PF (Table 15-5). -/
def execFlrPf (s : State) : Host.Outcome State Fault Refusal := .next (if s.host.up then warmReset s causeFlr else s)

/-- FLR_VF (Table 15-5): an owner-instance reset for each owner of the VF. -/
def execFlrVf (vf : Nat) (s : State) : Host.Outcome State Fault Refusal :=
  .next (
    if vf = 0 ∨ s.host.numVfs < vf ∨ ¬ deviceServes s then s
    else ((s.owners.map (·.1)).filter (fun o => ownerFn s o == vf)).foldl (fun t o => ownerReset t o causeFlr) s)

/-- Whether a reset has run its course: its lane or port is back or out of use, or host-ready is reached. -/
def resetRun (s : State) (r : Reset) : Bool :=
  if r.level = 1 then
    let x := portOf s (r.target / 32)
    bit x.lanes (r.target % 32) || bit x.retired (r.target % 32) || !portUp s (r.target / 32)
  else if r.level = 2 then
    let x := portOf s r.target
    x.state != 1 && x.state != 2
  else if r.level = 4 then false
  else if 6 ≤ r.level then s.startup.hostReady
  else true

/-- RESET_COMPLETE (R487): the oldest reset that has run its course. -/
def execResetComplete (s : State) : Host.Outcome State Fault Refusal :=
  .next (match s.resets.find? (resetRun s) with
    | some r => completeReset s r
    | none => s)

/-- RESET_BOUND_EXPIRED (R488): an engine or partition reset passes its bound; a device warm reset follows. -/
def execResetBoundExpired (s : State) : Host.Outcome State Fault Refusal :=
  .next (match s.resets.find? (fun r => r.level == 3 || r.level == 5) with
    | some r => warmReset (raiseDev s 0xC016 srcThallus [(r.level, 8), (r.target, 12)]) causeOverrun
    | none => s)

/-! ### The PCIe link and its functions (R404, R408, R474) -/

/-- What a link speed and width come to: lower than before. -/
def linkWorse (h : HostLink) (gen width : Nat) : Bool := decide (gen < h.gen ∨ width < h.width)

/-- PCIE_LINK_CHANGE (R404): up after training, down, or trained again; the writes held go out in order. -/
def execPcieLinkChange (up : Bool) (gen width : Nat) (s : State) : Host.Outcome State Fault Refusal :=
  .next (
    let h := s.host
    let items := [(gen, 16), (width, 16)]
    if up then
      if h.perst ∨ s.power.railState ≠ 2 ∨ gen < 4 ∨ 6 < gen ∨ width = 0 ∨ 16 < width then s
      else
        let s1 := { s with host := { h with up := true, gen := gen, width := width, held := [] }, out := s.out ++ h.held }
        if h.up ∧ linkWorse h gen width then raiseDev s1 0xB00C srcPcie items else s1
    else if h.up then raiseDev { s with host := { h with up := false } } 0xB00C srcPcie items
    else s)

/-- VF_ENABLE (R408): NumVFs set with VF Enable; zero clears it. -/
def execVfEnable (count : Nat) (s : State) : Host.Outcome State Fault Refusal :=
  .next (
    if 1024 < count ∨ ¬ s.host.up then s
    else
      let b := vfBudget s count
      let s1 := { s with host := { s.host with numVfs := count, vfEnable := decide (0 < count), budget := b } }
      if b.isSome then raiseDev s1 0xB00F srcPcie [(count, 16), (ent s 0x210005, 8)] else s1)

/-- CONFIGURATION_REQUEST (R474): Request Retry Status until host-ready. -/
def execConfigurationRequest (s : State) : Host.Outcome State Fault Refusal :=
  .next (if s.host.up then emit s (.configAnswer (!s.startup.hostReady)) else s)

end Sys2Proof.Machine
end

