-- ==== Sys2Proof/Machine/Power.lean ====
section
/-!
DEFINITION. Machine/Power.lean: the module: input power and rails (R506 to R511), thermal levels and the governed clocks (R465,
R512 to R515), insertion and removal (R517 to R522), clock loss (R461), lightpipes (R523).
-/
namespace Sys2Proof.Machine

def setPower (s : State) (f : Module → Module) : State := { s with power := f s.power }

/-- Whether main rails are on, all or some of them. -/
def railsOn (s : State) : Bool := s.power.railState == 1 || s.power.railState == 2

/-- The main rails go off where they are on, or where phase P3 would bring them up. -/
def railsDown (s : State) (st : Nat) : State := if railsOn s || s.startup.main == some 3 then railsOff s st else s

/-- A fault of the module (R526). -/
def raiseModule (s : State) (code : Nat) (items : List (Nat × Nat)) : State := raiseDev s code srcModule items

/-! ### Input power and rails (R506 to R511) -/

/-- INPUT_VALID (R506, R473): above 40.0 V the Thallus domain starts, and with it a cold start at P0. -/
def execInputValid (mv : Nat) (s : State) : Host.Outcome State Fault Refusal :=
  .next (
    if s.power.domain ∨ mv ≤ 40000 then s
    else coldBegin (setPower s (fun m => { m with domain := true, inputMv := mv })) 0 causeInput)

/-- What outlives the loss of the input: flash, fuses, the random source, and what is plugged in. -/
def inputGone (s : State) : State :=
  let s1 := railsOff s 0
  { s1 with
    dict := [], shadow := [], placeVals := [], owners := [], log := {}, clock := {}, resets := [],
    th := { fw0 := s.th.fw0, fw1 := s.th.fw1, selected := s.th.selected, serving := false, ckRuns := false, copyA := s.th.copyA,
            copyB := s.th.copyB, randoms := s.th.randoms },
    mc := { keyDraws := s.mc.keyDraws, rowsUsed := hardRows s.mc },
    startup := { back := none, hostReady := false },
    fab := { ports := (List.range 21).map (fun p => (p, { state := 6, plugged := (portOf s p).plugged })) },
    units := { stagings := s.units.stagings, laneUses := s.units.laneUses },
    power := { domain := false, seated := s.power.seated, railState := 0, railsUp := 0, inputMv := 0 } }

/-- INPUT_LOSS (R506): below 38.0 V the Thallus domain ends, and the retention SRAM is lost (R436). -/
def execInputLoss (s : State) : Host.Outcome State Fault Refusal := .next (if s.power.domain then inputGone s else s)

/-- MAIN_RAILS_MAY_START (R506): the input enters 46.0 V to 56.0 V. -/
def execMainRailsMayStart (mv : Nat) (s : State) : Host.Outcome State Fault Refusal :=
  .next (
    if ¬ s.power.domain ∨ mv < 46000 ∨ 56000 < mv then s
    else releaseRails (setPower s (fun m => { m with inputMv := mv })))

/-- RAIL_SEQUENCE_STEP (R509): rails in ascending step order. -/
def execRailSequenceStep (rail : Nat) (s : State) : Host.Outcome State Fault Refusal :=
  .next (
    if s.startup.main ≠ some 3 ∨ s.startup.p3Waits ∨ s.startup.stopped ∨ 7 < rail ∨ rail ≠ s.power.railsUp + 1 then s
    else setPower s (fun m => { m with railState := 1, railsUp := rail }))

/-- RAIL_FAULT (R510). -/
def execRailFault (rail mv : Nat) (s : State) : Host.Outcome State Fault Refusal :=
  .next (
    if ¬ railsOn s ∨ rail = 0 ∨ s.power.railsUp < rail then s
    else
      let s1 := railsOff s 3
      raiseModule { s1 with
        power := { s1.power with railFaults := s1.power.railFaults ||| 2 ^ (rail - 1) },
        startup := { s1.startup with stopped := true } } 0xE004 [(rail, 8), (mv, 16)])

/-- The main rails off for the input (R506, R508), and the fault that says so. -/
def inputFault (s : State) (code v : Nat) : State :=
  let s1 := if railsOn s then setPower (railsOff s 3) (fun m => { m with inputFaulted := true }) else s
  raiseModule s1 code [(v, 32)]

/-- INPUT_UNDERVOLTAGE (R506). -/
def execInputUndervoltage (mv : Nat) (s : State) : Host.Outcome State Fault Refusal :=
  .next (
    if ¬ s.power.domain ∨ ¬ railsOn s ∨ 44000 ≤ mv then s
    else inputFault (setPower s (fun m => { m with inputMv := mv })) 0xE001 mv)

/-- INPUT_OVERVOLTAGE (R506). -/
def execInputOvervoltage (mv : Nat) (s : State) : Host.Outcome State Fault Refusal :=
  .next (
    if ¬ s.power.domain ∨ mv ≤ 57000 then s
    else inputFault (setPower s (fun m => { m with inputMv := mv })) 0xE002 mv)

/-- INPUT_OVERCURRENT (R506). -/
def execInputOvercurrent (ma : Nat) (s : State) : Host.Outcome State Fault Refusal :=
  .next (
    if ¬ s.power.domain ∨ ma ≤ 80000 then s
    else inputFault (setPower s (fun m => { m with inputMa := ma })) 0xE003 ma)

/-- INPUT_RECOVERY_RESTART (R508). -/
def execInputRecoveryRestart (s : State) : Host.Outcome State Fault Refusal :=
  .next (
    if s.power.inputFaulted ∧ 46000 ≤ s.power.inputMv ∧ s.power.inputMv ≤ 56000 then coldReset s causeRecovery else s)

/-! ### Insertion and removal (R517 to R522) -/

/-- SEATED_OPEN (R518): no fault of a surprise removal is recorded (R526). -/
def execSeatedOpen (s : State) : Host.Outcome State Fault Refusal :=
  .next (
    if ¬ s.power.seated then s
    else
      let s1 := setPower s (fun m => { m with seated := false })
      if railsOn s then railsOff s1 0 else s1)

/-- SEATED_CLOSE (R517). -/
def execSeatedClose (s : State) : Host.Outcome State Fault Refusal :=
  .next (releaseRails (setPower s (fun m => { m with seated := true })))

/-- Removal requested, with its source: 0 the button, 1 a command. -/
def requestRemoval (s : State) (source : Nat) : State :=
  raiseModule (setPower s (fun m => { m with removal := 1 })) 0xE00E [(Config.causeCode 0xE00E source, 16)]

/-- BUTTON_PRESS (R519, R520): a press is measured as it is released. -/
def execButtonPress (ms : Nat) (s : State) : Host.Outcome State Fault Refusal :=
  .next (
    if ¬ s.power.domain ∨ ms < 1000 ∨ 5000 ≤ ms then s
    else if s.power.removal = 0 then requestRemoval (bump s 0x200A05 1) 0
    else if s.power.removal = 1 then setPower (bump s 0x200A05 1) (fun m => { m with removal := 0 })
    else s)

/-- BUTTON_HOLD (R519, R520): 8 s held act at once. -/
def execButtonHold (s : State) : Host.Outcome State Fault Refusal :=
  .next (
    if ¬ s.power.domain then s
    else
      let s1 := setPower (railsDown (bump s 0x200A05 1) 0) (fun m => { m with removal := 3 })
      raiseModule s1 0xE00F [(s.power.removal, 8)])

/-- Whether the removal state takes a command (Table 16-7): 1 request, 2 commit, 3 withdraw. -/
def removalOk (s : State) (c : Nat) : Bool :=
  if c = 1 then s.power.removal == 0
  else if c = 2 then s.power.removal == 1 && s.owners.all (fun o => o.2.state == .free)
  else s.power.removal == 1

/-- A removal command. -/
def removalCmd (s : State) (c : Nat) : State :=
  if c = 1 then requestRemoval s 1
  else if c = 2 then
    setPower (railsDown ((List.range 21).foldl disablePort s) 0) (fun m => { m with removal := 2 })
  else setPower s (fun m => { m with removal := 0 })

/-- PORT_SIGNAL_DETECT (R521): an enabled port that is down trains, but for one that stays down after its third failure
(R329) or for the power its module declares (R522). -/
def execPortSignalDetect (port : Nat) (s : State) : Host.Outcome State Fault Refusal :=
  .next (
    let x := portOf s port
    if 21 ≤ port ∨ ¬ x.enable ∨ ¬ x.plugged ∨ ¬ portPowered s port ∨ x.state ≠ 6 ∨ 3 ≤ x.trainFails then s
    else modPort s port (fun y => trainAgain y 1))

/-- PLUGGABLE_INSERT (R522): cage 0 is ETH0. -/
def execPluggableInsert (cage mw : Nat) (s : State) : Host.Outcome State Fault Refusal :=
  .next (
    if 2 ≤ cage ∨ ¬ s.power.domain then s
    else if mw ≤ 25000 then modPort s (19 + cage) (fun y => { y with plugged := true })
    else
      let s1 := failUnreached (modPort s (19 + cage) (fun y => { trainAgain y (if y.enable then 6 else 0) with plugged := false }))
      let x := takeFree s1
      raiseModule x.2 0xE00D [(cage, 16), (x.1, 8)])

/-! ### Samples (R465, R466, R507, R512 to R515) -/

/-- A reading that a sensor returned, within −40 °C to 150 °C (R515). -/
def readingOk : Option Int → Option Int
  | some t => if -4000 ≤ t ∧ t ≤ 15000 then some t else none
  | none => none

/-- Number of a sensor in fault 0xE00C: die sensors by their place in 0x2006:05. -/
def sensorNo (k : Nat) : Nat := if k < 16 then k else Config.causeCode 0xE00C k

/-- A sensor that fails is reported once. -/
def sensorFails (s : State) (k : Nat) : State :=
  if s.power.failedSensors.contains k then s
  else raiseModule (setPower s (fun m => { m with failedSensors := insertKey m.failedSensors k })) 0xE00C [(sensorNo k, 16)]

/-- The highest of a list of readings and its place. -/
def hottest : List Int → Int × Nat
  | [] => (-4000, 0)
  | [t] => (t, 0)
  | t :: r => let h := hottest r; if t < h.1 then (h.1, h.2 + 1) else (t, 0)

/-- A level against its reading (R512): entered at the threshold, left 5 °C below it. -/
def levelAt (held : Bool) (reading threshold : Int) : Bool :=
  decide (threshold ≤ reading) || (held && decide (threshold - 500 < reading))

/-- Readings as 16-bit words. -/
def word16 (t : Int) : Nat := (t % 65536).toNat

/-- Readings taken, with failed die and coolant sensors at their throttle or warning levels, and a stack without a report
at its last reading (R515, R259). -/
def takeReadings (s : State) (x : Sample) : State :=
  let die := (List.range 16).map (fun k => readingOk ((x.die[k]?).getD none))
  let s1 := (List.range 16).foldl (fun t k => if ((die[k]?).getD none).isNone then sensorFails t k else t) s
  let s2 := if (readingOk x.inlet).isNone then sensorFails s1 16 else s1
  let s3 := if (readingOk x.outlet).isNone then sensorFails s2 17 else s2
  let inlet := (readingOk x.inlet).getD (100 * (ent s 0x200903 : Int))
  let outlet := (readingOk x.outlet).getD (inlet + 100 * (ent s 0x200904 : Int))
  let hbm := (List.range 8).map (fun k => ((x.hbm[k]?).getD none).getD ((s.power.hbmTemps[k]?).getD 0))
  setPower s3 (fun m => { m with inputMv := x.mv, inputMa := x.ma, powerW := x.avgW, dieTemps := die.map (·.getD 10000),
                                 hbmTemps := hbm, inlet := inlet, outlet := outlet, cageMw := [x.cages.headD 0, (x.cages.drop 1).headD 0] })

/-- A stack whose temperature report stays absent for ten samples fails (R259). -/
def absentStack (s : State) (x : Sample) (k : Nat) : State :=
  if ((x.hbm[k]?).getD none).isSome then setMc s (fun m => { m with tempAbsent := tdel m.tempAbsent k })
  else
    let n := tgetD s.mc.tempAbsent k 0 + 1
    let s1 := setMc s (fun m => { m with tempAbsent := tput m.tempAbsent k n })
    if n = 10 then failStack s1 k 2 else s1

/-- The levels of 0x2009:05 that can be entered and left, as (reading, threshold, fault code, its detail). -/
def levelRows (s : State) : List (Int × Int × Nat × List (Nat × Nat)) :=
  let m := s.power
  let d := hottest m.dieTemps
  let h := hottest m.hbmTemps
  let di := [(d.2, 16), (word16 d.1, 16)]
  let hi := [(h.2, 3), (word16 h.1, 16)]
  [(d.1, 9000, 0xE005, di), (d.1, 10000, 0xE006, di), (h.1, 8500, 0xE007, hi), (h.1, 9500, 0xE008, hi),
   (m.inlet, 100 * (ent s 0x200903 : Int), 0xE00A, [(word16 m.inlet, 16)]),
   (m.outlet - m.inlet, 100 * (ent s 0x200904 : Int), 0xE00B, [(word16 m.inlet, 16), (word16 m.outlet, 16)])]

/-- Levels judged; each crossing into one raises its fault once (R512). -/
def judgeLevels (s : State) : State :=
  (indexed 0 (levelRows s)).foldl (fun t r =>
    let held := bit s.power.levels r.1
    let now := levelAt held r.2.1 r.2.2.1
    if now ∧ ¬ held then raiseModule (setPower t (fun m => { m with levels := m.levels ||| 2 ^ r.1 })) r.2.2.2.1 r.2.2.2.2
    else if held ∧ ¬ now then setPower t (fun m => { m with levels := m.levels - 2 ^ r.1 })
    else t) s

/-- Readings at their critical levels (Table 16-5): die, HBM, inlet, outlet, as (reading, whether critical). -/
def criticals (s : State) : List (Int × Bool) :=
  let m := s.power
  [((hottest m.dieTemps).1, decide (11000 ≤ (hottest m.dieTemps).1)), ((hottest m.hbmTemps).1, decide (10500 ≤ (hottest m.hbmTemps).1)),
   (m.inlet, decide (5000 ≤ m.inlet)), (m.outlet, decide (6500 ≤ m.outlet))]

/-- A critical level at two consecutive samples (R514). -/
def judgeCritical (s : State) : State :=
  let l := indexed 0 (criticals s)
  let now := l.foldl (fun n r => if r.2.2 then n + 2 ^ r.1 else n) 0
  let s1 := setPower s (fun m => { m with critical := now })
  if ¬ railsOn s then s1
  else match l.find? (fun r => r.2.2 && bit s.power.critical r.1) with
    | some r =>
      raiseModule (setPower (railsOff s1 3) (fun m => { m with criticalShut := true })) 0xE009
        [(Config.causeCode 0xE009 r.1, 8), (word16 r.2.1, 16)]
    | none => s1

/-- A governed clock after a sample (R465, R507, R513). -/
def govern (g cap : Nat) (lower raise_ : Bool) : Nat :=
  min cap (if lower then max 600 (g - 100) else if raise_ then g + 25 else g)

/-- The governors of a sample. -/
def governClocks (s : State) (x : Sample) : State :=
  let lim := ent s 0x200601
  let lower := decide (lim < x.avgW) || decide (62500 < x.avgMa) || bit s.power.levels 1
  let raise_ := decide (x.avgW * 100 < 95 * lim)
  let s1 := setPower s (fun m => { m with ckMx := govern m.ckMx (entAt s 0x220301 0) lower raise_,
                                          ckVx := govern m.ckVx (entAt s 0x250105 1) lower raise_ })
  let s2 := if lim < x.avgW then bump s1 0x20060A 1 else s1
  if bit s.power.levels 1 ∨ bit s.power.levels 3 then bump s2 0x200906 1 else s2

/-- SENSOR_SAMPLE (R466): one sample of each millisecond, by a Thallus whose firmware runs. -/
def execSensorSample (x : Sample) (s : State) : Host.Outcome State Fault Refusal :=
  .next (
    if ¬ s.power.domain ∨ ¬ s.th.serving ∨ s.startup.main = some 0 ∨ s.startup.main = some 1 then s
    else
      let s1 := takeReadings { s with th := { s.th with ckRuns := true } } x
      let s2 := if s.power.railState = 2 then (List.range 8).foldl (fun t k => absentStack t x k) s1 else s1
      judgeCritical (governClocks (judgeLevels s2) x))

/-- Whether a reading of Table 16-5 stands at or above its warning level; an outlet alone has none (R514). -/
def anyWarning (s : State) : Bool := (levelRows s).any (fun r => decide (r.2.1 ≤ r.1))

/-! ### Clock loss (R461) -/

/-- Fabric lanes of a SerDes PLL (Table 14-7): fourteen of the 168, ports in order of their numbers, as (port, lane). -/
def pllLanes (k : Nat) : List (Nat × Nat) :=
  ((((List.range 21).flatMap (fun p => (List.range (portLanes p)).map (fun l => (p, l)))).drop (14 * k)).take 14)

/-- Fronds whose units run in a clock domain, the domains numbered in the order of Table 14-7. -/
def domainFronds (d : Nat) : List Nat :=
  if d = 1 then List.range 96
  else if 3 ≤ d ∧ d ≤ 10 then [d - 3]
  else if d = 11 then [93, 94]
  else if d = 12 then [42]
  else if 13 ≤ d ∧ d ≤ 44 then [d - 5]
  else if d = 45 ∨ d = 46 then [d - 5]
  else if d = 47 then [59, 92]
  else if 48 ≤ d ∧ d ≤ 54 then [d + 12]
  else if 55 ≤ d ∧ d ≤ 70 then [59 + (d - 55) / 2]
  else if d = 71 then [51, 52, 53, 54, 55, 56, 57, 58, 95]
  else if 72 ≤ d ∧ d ≤ 95 then [d - 5]
  else if d = 109 then [95]
  else if d = 110 then [43, 44, 45, 46, 47, 48, 49, 50]
  else if d = 111 then [91]
  else []

/-- The PCIe link goes down with its clock. -/
def pcieDown (s : State) : State :=
  if s.host.up then raiseDev { s with host := { s.host with up := false } } 0xB00C srcPcie [(s.host.gen, 16), (s.host.width, 16)] else s

/-- PLL_LOCK_LOSS (R461): ck_ref (domain 1) stops every domain; ck_ao (domain 0) runs from its own oscillator. -/
def execPllLockLoss (domain : Nat) (s : State) : Host.Outcome State Fault Refusal :=
  .next (
    if domain = 0 ∨ 112 ≤ domain ∨ ¬ s.power.domain ∨ (3 ≤ domain ∧ s.power.railState ≠ 2) then s
    else
      let s1 := raiseDev s 0xC00E srcThallus [(domain, 16)]
      let s2 := if s.power.railState = 2 then (domainFronds domain).foldl loseFrond s1 else s1
      let s3 := if 96 ≤ domain ∧ domain ≤ 107 then (pllLanes (domain - 96)).foldl (fun t x => laneLost t x.1 x.2) s2 else s2
      let s4 := if domain = 108 ∨ domain = 1 then pcieDown s3 else s3
      if domain = 2 then { s4 with th := { s4.th with ckRuns := false } } else s4)

/-! ### Lightpipes (R523, Table 16-8) -/

/-- Patterns of the lightpipes. -/
inductive Light where
  | off | amberFast | amberDouble | amberSteady | amberSlow | greenFast | greenSlow | greenSteady | blueSteady | blueSlow
  deriving DecidableEq, Repr

/-- What a port's lightpipe shows. -/
def portLight (s : State) (p : Nat) : Light :=
  let x := portOf s p
  if ¬ s.power.domain then .off
  else if bit (ent s 0x200A04) p then .amberFast
  else if x.state = 5 then .amberDouble
  else if x.state = 6 ∧ x.faulted then .amberSteady
  else if x.state = 1 ∨ x.state = 2 then .greenFast
  else if x.state = 4 ∨ (x.state = 3 ∧ (x.rate = 106250 ∨ portD1 s p)) then .greenSlow
  else if x.state = 3 then .greenSteady
  else .off

/-- What the status lightpipe shows. -/
def statusLight (s : State) : Light :=
  if ¬ s.power.domain then .off
  else if 2 ≤ s.power.removal then .blueSteady
  else if s.power.criticalShut ∨ s.power.railFaults ≠ 0 ∨ s.startup.stopped then .amberSteady
  else if s.power.removal = 1 then .amberFast
  else if ent s 0x200A03 = 1 then .blueSlow
  else if s.startup.rackReady then .greenSteady
  else if s.startup.hostReady then .greenSlow
  else .amberSlow

end Sys2Proof.Machine
end

