-- ==== Sys2Proof/Machine/Sha.lean ====
section
/-!
DEFINITION. Machine/Sha.lean: the hash functions the manual names: SHA-256 under HMAC for the field MAC (R444), and SHA-384
for the configuration digest (R457). PRESUMED (log entry 15): both are those of FIPS 180-4 and FIPS 198-1, which the manual cites by
name only.
-/
namespace Sys2Proof.Machine

def shaK2560 : List Nat := [0x428A2F98, 0x71374491, 0xB5C0FBCF, 0xE9B5DBA5, 0x3956C25B, 0x59F111F1, 0x923F82A4, 0xAB1C5ED5]
def shaK2561 : List Nat := [0xD807AA98, 0x12835B01, 0x243185BE, 0x550C7DC3, 0x72BE5D74, 0x80DEB1FE, 0x9BDC06A7, 0xC19BF174]
def shaK2562 : List Nat := [0xE49B69C1, 0xEFBE4786, 0x0FC19DC6, 0x240CA1CC, 0x2DE92C6F, 0x4A7484AA, 0x5CB0A9DC, 0x76F988DA]
def shaK2563 : List Nat := [0x983E5152, 0xA831C66D, 0xB00327C8, 0xBF597FC7, 0xC6E00BF3, 0xD5A79147, 0x06CA6351, 0x14292967]
def shaK2564 : List Nat := [0x27B70A85, 0x2E1B2138, 0x4D2C6DFC, 0x53380D13, 0x650A7354, 0x766A0ABB, 0x81C2C92E, 0x92722C85]
def shaK2565 : List Nat := [0xA2BFE8A1, 0xA81A664B, 0xC24B8B70, 0xC76C51A3, 0xD192E819, 0xD6990624, 0xF40E3585, 0x106AA070]
def shaK2566 : List Nat := [0x19A4C116, 0x1E376C08, 0x2748774C, 0x34B0BCB5, 0x391C0CB3, 0x4ED8AA4A, 0x5B9CCA4F, 0x682E6FF3]
def shaK2567 : List Nat := [0x748F82EE, 0x78A5636F, 0x84C87814, 0x8CC70208, 0x90BEFFFA, 0xA4506CEB, 0xBEF9A3F7, 0xC67178F2]
/-- Round constants of SHA-256. -/
def shaK256 : List Nat := shaK2560 ++ shaK2561 ++ shaK2562 ++ shaK2563 ++ shaK2564 ++ shaK2565 ++ shaK2566 ++ shaK2567

def shaK5120 : List Nat := [0x428A2F98D728AE22, 0x7137449123EF65CD, 0xB5C0FBCFEC4D3B2F, 0xE9B5DBA58189DBBC, 0x3956C25BF348B538, 0x59F111F1B605D019, 0x923F82A4AF194F9B, 0xAB1C5ED5DA6D8118]
def shaK5121 : List Nat := [0xD807AA98A3030242, 0x12835B0145706FBE, 0x243185BE4EE4B28C, 0x550C7DC3D5FFB4E2, 0x72BE5D74F27B896F, 0x80DEB1FE3B1696B1, 0x9BDC06A725C71235, 0xC19BF174CF692694]
def shaK5122 : List Nat := [0xE49B69C19EF14AD2, 0xEFBE4786384F25E3, 0x0FC19DC68B8CD5B5, 0x240CA1CC77AC9C65, 0x2DE92C6F592B0275, 0x4A7484AA6EA6E483, 0x5CB0A9DCBD41FBD4, 0x76F988DA831153B5]
def shaK5123 : List Nat := [0x983E5152EE66DFAB, 0xA831C66D2DB43210, 0xB00327C898FB213F, 0xBF597FC7BEEF0EE4, 0xC6E00BF33DA88FC2, 0xD5A79147930AA725, 0x06CA6351E003826F, 0x142929670A0E6E70]
def shaK5124 : List Nat := [0x27B70A8546D22FFC, 0x2E1B21385C26C926, 0x4D2C6DFC5AC42AED, 0x53380D139D95B3DF, 0x650A73548BAF63DE, 0x766A0ABB3C77B2A8, 0x81C2C92E47EDAEE6, 0x92722C851482353B]
def shaK5125 : List Nat := [0xA2BFE8A14CF10364, 0xA81A664BBC423001, 0xC24B8B70D0F89791, 0xC76C51A30654BE30, 0xD192E819D6EF5218, 0xD69906245565A910, 0xF40E35855771202A, 0x106AA07032BBD1B8]
def shaK5126 : List Nat := [0x19A4C116B8D2D0C8, 0x1E376C085141AB53, 0x2748774CDF8EEB99, 0x34B0BCB5E19B48A8, 0x391C0CB3C5C95A63, 0x4ED8AA4AE3418ACB, 0x5B9CCA4F7763E373, 0x682E6FF3D6B2B8A3]
def shaK5127 : List Nat := [0x748F82EE5DEFB2FC, 0x78A5636F43172F60, 0x84C87814A1F0AB72, 0x8CC702081A6439EC, 0x90BEFFFA23631E28, 0xA4506CEBDE82BDE9, 0xBEF9A3F7B2C67915, 0xC67178F2E372532B]
def shaK5128 : List Nat := [0xCA273ECEEA26619C, 0xD186B8C721C0C207, 0xEADA7DD6CDE0EB1E, 0xF57D4F7FEE6ED178, 0x06F067AA72176FBA, 0x0A637DC5A2C898A6, 0x113F9804BEF90DAE, 0x1B710B35131C471B]
def shaK5129 : List Nat := [0x28DB77F523047D84, 0x32CAAB7B40C72493, 0x3C9EBE0A15C9BEBC, 0x431D67C49C100D4C, 0x4CC5D4BECB3E42B6, 0x597F299CFC657E2A, 0x5FCB6FAB3AD6FAEC, 0x6C44198C4A475817]
/-- Round constants of SHA-384. -/
def shaK512 : List Nat := shaK5120 ++ shaK5121 ++ shaK5122 ++ shaK5123 ++ shaK5124 ++ shaK5125 ++ shaK5126 ++ shaK5127 ++ shaK5128 ++ shaK5129

/-- Initial state of SHA-256. -/
def shaH256 : List Nat := [0x6A09E667, 0xBB67AE85, 0x3C6EF372, 0xA54FF53A, 0x510E527F, 0x9B05688C, 0x1F83D9AB, 0x5BE0CD19]

/-- Initial state of SHA-384. -/
def shaH384 : List Nat := [0xCBBB9D5DC1059ED8, 0x629A292A367CD507, 0x9159015A3070DD17, 0x152FECD8F70E5939, 0x67332667FFC00B31, 0x8EB44A8768581511, 0xDB0C2E0D64F98FA7, 0x47B5481DBEFA4FA4]

/-- The parameters in which SHA-256 and SHA-384 differ: word width, rounds, block bytes and rotation amounts. -/
structure ShaKind where
  w : Nat
  k : List Nat
  block : Nat
  big0 : Nat × Nat × Nat
  big1 : Nat × Nat × Nat
  small0 : Nat × Nat × Nat
  small1 : Nat × Nat × Nat

def sha256Kind : ShaKind := ⟨32, shaK256, 64, (2, 13, 22), (6, 11, 25), (7, 18, 3), (17, 19, 10)⟩
def sha384Kind : ShaKind := ⟨64, shaK512, 128, (28, 34, 39), (14, 18, 41), (1, 8, 7), (19, 61, 6)⟩

/-- Rotation of a w-bit word to the right. -/
def rotR (w x n : Nat) : Nat := (x >>> n) ||| ((x <<< (w - n)) % 2 ^ w)

/-- The rotation sums of a round. -/
def shaBig (w : Nat) (r : Nat × Nat × Nat) (x : Nat) : Nat := rotR w x r.1 ^^^ rotR w x r.2.1 ^^^ rotR w x r.2.2

/-- The rotation and shift sums of the schedule. -/
def shaSmall (w : Nat) (r : Nat × Nat × Nat) (x : Nat) : Nat := rotR w x r.1 ^^^ rotR w x r.2.1 ^^^ (x >>> r.2.2)

/-- Message schedule, newest word first. -/
def shaSched (p : ShaKind) : Nat → List Nat → List Nat
  | 0, ws => ws
  | n + 1, ws =>
    let x := (shaSmall p.w p.small1 (ws.getD 1 0) + ws.getD 6 0 + shaSmall p.w p.small0 (ws.getD 14 0) + ws.getD 15 0) % 2 ^ p.w
    shaSched p n (x :: ws)

/-- One round on the state a to h. -/
def shaRound (p : ShaKind) (s : List Nat) (kw : Nat × Nat) : List Nat :=
  match s with
  | [a, b, c, d, e, f, g, h] =>
    let ch := (e &&& f) ^^^ ((2 ^ p.w - 1 - e) &&& g)
    let t1 := h + shaBig p.w p.big1 e + ch + kw.1 + kw.2
    let maj := (a &&& b) ^^^ (a &&& c) ^^^ (b &&& c)
    let t2 := shaBig p.w p.big0 a + maj
    [(t1 + t2) % 2 ^ p.w, a, b, c, (d + t1) % 2 ^ p.w, e, f, g]
  | s => s

/-- Big-endian value of bytes. -/
def beNat (b : List Nat) : Nat := b.foldl (fun a x => a * 256 + x % 256) 0

/-- Words of a block. -/
def beWords (bytes : Nat) : Nat → List Nat → List Nat
  | 0, _ => []
  | n + 1, b => beNat (b.take bytes) :: beWords bytes n (b.drop bytes)

/-- Compression of the blocks of a padded message. -/
def shaBlocks (p : ShaKind) : Nat → List Nat → List Nat → List Nat
  | 0, _, s => s
  | n + 1, b, s =>
    let ws := (shaSched p (p.k.length - 16) (beWords (p.w / 8) 16 (b.take p.block)).reverse).reverse
    let r := (List.zip p.k ws).foldl (shaRound p) s
    shaBlocks p n (b.drop p.block) ((List.zip s r).map (fun t => (t.1 + t.2) % 2 ^ p.w))

/-- Padded message: a 1 bit, zeros, and the bit length in the block's last eighth. -/
def shaPad (block : Nat) (m : List Nat) : List Nat :=
  let tail := block / 8
  let n := roundUp (m.length + 1 + tail) block
  m ++ [0x80] ++ List.replicate (n - m.length - 1 - tail) 0 ++ (natLe tail (8 * m.length)).reverse

/-- Hash value as bytes. -/
def shaHash (p : ShaKind) (init : List Nat) (out : Nat) (m : List Nat) : List Nat :=
  let b := shaPad p.block m
  (((shaBlocks p (b.length / p.block) b init).map (fun x => (natLe (p.w / 8) x).reverse)).flatten).take out

/-- SHA-256. -/
def sha256 (m : List Nat) : List Nat := shaHash sha256Kind shaH256 32 m

/-- SHA-384. -/
def sha384 (m : List Nat) : List Nat := shaHash sha384Kind shaH384 48 m

/-- HMAC-SHA-256 under a key of at most 64 bytes (FIPS 198-1). -/
def hmac256 (key m : List Nat) : List Nat :=
  let k := padTo 64 key
  sha256 (xorBytes 0x5C k ++ sha256 (xorBytes 0x36 k ++ m))

end Sys2Proof.Machine
end

