-- ==== Sys2Proof/Machine/Live.lean ====
section
/-!
DEFINITION. Machine/Live.lean: what dictionary entries read as: those that show state held elsewhere, those of a selected
object, and those that hold a value of their own (R446, R458).
-/
namespace Sys2Proof.Machine

/-! ### Selected objects -/

def selOwner (s : State) : Nat := ent s 0x210201
def selQueue (s : State) : Nat := ent s 0x210301
def selWindow (s : State) : Nat := ent s 0x280401
def selKey (s : State) : Nat := ent s 0x280501
def selPool (s : State) : Nat := ent s 0x290101
def selPort (s : State) : Nat := ent s 0x2B0101
def selRwin (s : State) : Nat := ent s 0x2B0401
def selRack (s : State) : Nat := ent s 0x2C0201
def selFaultOwner (s : State) : Nat := ent s 0x2D0201
def selObject (s : State) : Nat := ent s 0x2A0301

/-! ### Configuration copies (R454, R457) -/

/-- Place of a type in Table 00-7. -/
def tyPlace : ETy → Nat
  | .u8 => 0
  | .u16 => 1
  | .u32 => 2
  | .u64 => 3
  | .i32 => 4
  | .f32 => 5
  | .bool => 6
  | .str => 7
  | .blob => 8

/-- A record of a copy's body. -/
def recordBytes (k : Nat) (v : Val) : List Nat :=
  let ty := match specOf k with
    | some e => e.ty
    | none => .blob
  let b := bytesOfVal ty v
  natLe 2 (k / 256) ++ [k % 256, Config.typeCode (tyPlace ty)] ++ natLe 2 b.length ++ [0, 0] ++ padTo (roundUp b.length 8) b

/-- Whether a copy holds nothing beside records of entries. -/
def plainCopy (c : Copy) : Bool :=
  c.counters.isEmpty && c.pools.isEmpty && c.racks.isEmpty && c.softRepairs.isEmpty && c.laneRepairs.isEmpty

/-- Body of a copy. -/
def bodyOf (c : Copy) : List Nat :=
  if plainCopy c then c.records.flatMap (fun r => recordBytes r.1 r.2) else Config.copyBody c.seq

/-- Bytes that a copy's body takes at the least: eight per head, and its values padded. -/
def bodyRoom (c : Copy) : Nat :=
  c.records.foldl (fun n r => n + (recordBytes r.1 r.2).length) 0 + 2056 * c.racks.length + 40 * c.pools.length +
  8 * (c.counters.length + c.softRepairs.length + c.laneRepairs.length)

/-! ### Read-only and selected values -/

/-- Start-up phase as 0x2007:01 shows it. -/
def shownPhase (s : State) : Nat :=
  if s.startup.stopped then 0xF0
  else match s.startup.main with
    | some m => m
    | none => if s.startup.rackReady then 0xFF else if s.startup.hostReady then 0x80 else Config.phaseWithoutRails

/-- State of a frond as 0x2005:02 shows it. -/
def shownFrond (s : State) (f : Nat) : Nat :=
  match frondState s f with
  | .off => 0
  | .waking => 1
  | .on => 2
  | .failed => 3

/-- Maintenance hold (0x2007:04): held once nothing runs (R476). -/
def holdState (s : State) : Nat := if ent s 0x200703 = 0 then 0 else if anyRuns s then 1 else 2

/-- An owner's entry as it reads (Table 13-2). -/
def ownerEntryOf (s : State) (o : Nat) : Nat :=
  let w := ownerRec s o
  if w = {} then 0 else w.entry + fld w.epoch 24 16 + fld (ownerStateNum w.state) 21 3

/-- Fault masks with the units of failed fronds (R464). -/
def bandFaultMask (s : State) : Nat :=
  (List.range 8).foldl (fun m b => if bit s.units.bandFaults b || frondState s b == .failed then m + 2 ^ b else m) 0
def coreFaultMask (s : State) : Nat :=
  (List.range 32).foldl (fun m c => if bit s.units.coreFaults c || frondState s (8 + c) == .failed then m + 2 ^ c else m) 0

/-- CRC-32C of a table set, each entry a little-endian 64-bit word (R152). -/
def tableCrc (l : List Int) : Nat := crc32c (l.flatMap (fun x => natLe 8 (ofSigned 64 x)))

/-- A map of numbered parts. -/
def mapOf (l : List Nat) : Nat := l.foldl (fun m k => m ||| 2 ^ k) 0

/-- Numbers as little-endian words. -/
def packWords (n : Nat) (l : List Nat) : List Nat := l.flatMap (natLe n)

/-- Readings as i16 words. -/
def temps (l : List Int) : List Nat := packWords 2 (l.map word16)

/-- Path of the service session (0x2002:02). -/
def sessionPath (s : State) : Nat :=
  match s.th.session with
  | none => 0
  | some .host => 2
  | some (.field _ _) => 1

/-- The fault log's record at 0x2D01:04 (R482). -/
def logRecord (s : State) : Option Nat :=
  let n := ent s 0x2D0104
  if logOldest s ≤ n ∧ n < s.log.next then tget? s.log.records n else none

/-- Values of the module and the Thallus. -/
def liveModule (s : State) (k : Nat) : Option Val :=
  if k = 0x010005 then some (.bytes Config.serialNumber)
  else if k = 0x010104 then some (.num (fwVersion s))
  else if k = 0x200002 then some (.num s.th.running)
  else if k = 0x200003 then some (.bytes (packWords 4 [s.th.fw0.version, s.th.fw1.version]))
  else if k = 0x200104 then some (.bytes (packWords 4 ((List.range 127).map (fun i => tgetD s.th.floors (i + 1) 0))))
  else if k = 0x200201 then some ((tget? s.dict k).getD (.bytes Config.serviceAnchor))
  else if k = 0x200202 then some (.num (sessionPath s))
  else if k = 0x200301 then some (.num (newestCopy s).seq)
  else if k = 0x200302 then some (.num (b2n s.th.copyA.valid + 2 * b2n s.th.copyB.valid))
  else if k = 0x200303 then some (.num (bodyOf (newestCopy s)).length)
  else if k = 0x200304 then some (.bytes (sha384 (bodyOf (newestCopy s))))
  else if k = 0x200502 then some (.num (shownFrond s (ent s 0x200501)))
  else if k = 0x200602 then some (.num s.power.inputMv)
  else if k = 0x200603 then some (.num s.power.inputMa)
  else if k = 0x200604 then some (.num s.power.powerW)
  else if k = 0x200605 then some (.bytes (temps s.power.dieTemps))
  else if k = 0x200606 then some (.bytes (temps s.power.hbmTemps))
  else if k = 0x200607 then some (.bytes (temps [s.power.inlet, s.power.outlet]))
  else if k = 0x200608 then some (.num s.power.ckMx)
  else if k = 0x200609 then some (.num s.power.ckVx)
  else if k = 0x200701 then some (.num (shownPhase s))
  else if k = 0x200702 then some (.bytes (packWords 4 s.startup.times))
  else if k = 0x200704 then some (.num (holdState s))
  else if k = 0x200801 then some (.bytes Config.macE0)
  else if k = 0x200802 then some (.bytes Config.macE1)
  else if k = 0x200803 then some (.num (b2n s.power.seated))
  else if k = 0x200804 then some (.num s.power.railState)
  else if k = 0x200805 then some (.num s.power.railFaults)
  else if k = 0x200806 then some (.num (s.power.inputMv * 625 / 10000))
  else if k = 0x200807 then some (.bytes (packWords 2 s.power.cageMw))
  else if k = 0x200905 then
    some (.num (s.power.levels % 64 + 64 * b2n s.power.criticalShut + 128 * b2n (!s.power.failedSensors.isEmpty)))
  else if k = 0x200A01 then some (.num s.power.removal)
  else none

/-- Values of the host interface, the array, the Vector Engine and memory. -/
def liveCore (s : State) (k : Nat) : Option Val :=
  if k = 0x210002 then some (.num (if s.host.up then fld s.host.gen 0 4 + fld s.host.width 4 5 else 0))
  else if k = 0x210104 then some (.num (journalUse s))
  else if k = 0x210105 then some (.num s.host.journalState)
  else if k = 0x210202 then some (.bytes (natLe 16 (ownerEntryOf s (selOwner s))))
  else if k = 0x210302 then some (.bytes (natLe 64 (contextOf s (selQueue s))))
  else if k = 0x210303 then some (.bytes (natLe 64 (tgetD s.host.adminCtxs (selQueue s) 0)))
  else if k = 0x220101 then some (.num (bandFaultMask s))
  else if k = 0x220103 then some (.num (255 - bandsOut s))
  else if k = 0x250104 then some (.num (coreFaultMask s))
  else if k = 0x250301 then some (.num (tableCrc (sfuT ++ sfuQ ++ sfuG ++ sfuC ++ sfuS)))
  else if k = 0x250302 then some (.num (tableCrc (sfuA ++ sfuB ++ sfuCd ++ sfuD)))
  else if k = 0x280301 then some (.bytes (natLe 64 (mapOf s.mem.failedPc)))
  else if k = 0x280302 then some (.num (mapOf s.mem.failedStack))
  else if k = 0x280303 then some (.bytes (packWords 8 s.mc.candidates))
  else if k = 0x280304 then some (.bytes ((List.range 2048).map (fun g => (Config.spareRows g - tgetD s.mc.rowsUsed g 0) % 256)))
  else if k = 0x280305 then some (.bytes (packWords 4 ((List.range 512).map Config.ecsCount)))
  else if k = 0x280402 then some (.bytes (natLe 16 (tgetD s.mc.windows (selWindow s) 0)))
  else if k = 0x280503 then some (.num (b2n (keySlot s (selKey s)).active))
  else if k = 0x280504 then some (.num (keySlot s (selKey s)).gen)
  else if k = 0x280703 ∨ k = 0x280704 then some (.num (Config.trafficCount k s % 2 ^ 64))
  else none

/-- Values of the pools, the SYU, the fabric and fault handling. -/
def liveUnits (s : State) (k : Nat) : Option Val :=
  let pl := poolOf s (selPool s)
  let pt := portOf s (selPort s)
  if k = 0x290005 then some (.num (uptimeMs s))
  else if k = 0x290102 then some (.bytes (natLe 32 pl.desc))
  else if k = 0x290104 then some (.num pl.state)
  else if k = 0x290105 then some (.num pl.free)
  else if k = 0x290106 then some (.num pl.held)
  else if k = 0x290107 then some (.num pl.gen)
  else if k = 0x290108 then some (.num pl.low)
  else if k = 0x290203 then some (.num (ownerHeld s (ent s 0x290202)))
  else if k = 0x290204 then some (.bytes (packWords 4 (tgetD s.pools.hist (ent s 0x290202) (List.replicate 24 0))))
  else if k = 0x2A0302 then some (.bytes (natLe (objWordBytes (selObject s)) (objWord s (selObject s))))
  else if k = 0x2A0303 then some (.num (watchCount s (selObject s)))
  else if k = 0x2A0304 then some (.num (pendingSignals s (selObject s)))
  else if k = 0x2B0102 then some (.num pt.state)
  else if k = 0x2B0103 then some (.num pt.lanes)
  else if k = 0x2B0104 then some (.num pt.rate)
  else if k = 0x2B0105 then some (.bytes (natLe 64 pt.peer))
  else if k = 0x2B0106 then some (.num pt.replays)
  else if k = 0x2B0107 then some (.num pt.drops)
  else if k = 0x2B0108 then some (.num (b2n pt.enable))
  else if k = 0x2B0305 then some (.num (mapOf (s.fab.trusted.filter (· < 64))))
  else if k = 0x2B0402 then some (.bytes (natLe 32 (tgetD s.fab.rwins (selRwin s) 0)))
  else if k = 0x2C0202 then some (.bytes (padTo 2048 (tgetD s.fab.racks (selRack s) [])))
  else if k = 0x2D0102 then some (.num (logOldest s))
  else if k = 0x2D0103 then some (.num (if s.log.next = 0 then ones 64 else s.log.next - 1))
  else if k = 0x2D0105 then (logRecord s).map (fun r => .bytes (natLe 32 r))
  else if k = 0x2D0202 then some (.bytes (natLe 32 (ownerRec s (selFaultOwner s)).ring))
  else if k = 0x2D0402 then some (.num 0)
  else if k = 0x2D0502 then some (.bytes (ownerRec s (ent s 0x2D0501)).report)
  else none

/-- Values of a partition's entries. -/
def livePart (s : State) (k : Nat) : Option Val :=
  let p := (keyPart k).1
  let b := (keyPart k).2
  let pr := partOf s p
  if b = 0x30080A ∨ b = 0x30080B ∨ b = 0x30080C then some (.num (Config.trafficCount k s % 2 ^ 64))
  else if b = 0x302808 then some (.num (quotaUsed s p))
  else if b = 0x303809 then some (.num pr.jobState)
  else if b = 0x30380A then some (.num ((pr.job.map (·.generation)).getD 0))
  else if b = 0x304001 then some (.num pr.joinState)
  else if b = 0x304002 then some (.num (groupDigest s p))
  else none

/-- Value in force of an entry as a READ returns it; none where the entry's own rule refuses the read. -/
def valueOf (s : State) (k : Nat) : Option Val :=
  if k = 0x2D0105 then liveUnits s k
  else
    let l := if k < 0x210000 then liveModule s k else if k < 0x290000 then liveCore s k
      else if k < 0x300000 then liveUnits s k else livePart s k
    some (l.getD (entV s k))

/-- Value that a READ with shadow = 1 returns: the pending one where there is one (R458). -/
def shadowOf (s : State) (k : Nat) : Option Val :=
  match tget? s.shadow k with
  | some v => some v
  | none => valueOf s k

/-- Entries that only the host reaches (R451). -/
def hostOnly (k : Nat) : Bool :=
  [0x2102, 0x2103, 0x2804, 0x2805, 0x2B04, 0x2D02].contains (k / 256) || k == 0x200105

/-- The entry selected in 0x2004:01, where it exists and can be read. -/
def selEntry (s : State) : Option (Nat × EntrySpec) :=
  let k := ent s 0x200401
  match specOf k with
  | some e => if e.acc = .wo then none else some (k, e)
  | none => none

/-- 0x2004:02: the shadow value of the selected entry in its type's encoding; empty where there is none. -/
def shownShadow (s : State) : List Nat :=
  match selEntry s with
  | none => []
  | some (k, e) => match (if k = 0x200402 then none else shadowOf s k) with
    | some v => bytesOfVal e.ty v
    | none => []

/-- 0x2004:03. -/
def shownState (s : State) : Nat :=
  match selEntry s with
  | some (k, _) => entryState s k
  | none => 0

/-- What a READ of an entry returns, in its type's encoding (R446); none where the entry's own rule refuses it. -/
def readBytes (s : State) (k : Nat) (e : EntrySpec) (shadow : Bool) : Option (List Nat) :=
  if k = 0x200402 then some (shownShadow s)
  else if k = 0x200403 then some (natLe 1 (shownState s))
  else (if shadow then shadowOf s k else valueOf s k).map (bytesOfVal e.ty)

/-- Whether an index has entries. -/
def indexKnown (i : Nat) : Bool :=
  decide ((keyPart (i * 256)).1 < 32) && entryTable.any (fun e => e.key / 256 == (keyPart (i * 256)).2 / 256)

end Sys2Proof.Machine
end

