-- ==== Sys2Proof/Machine/EntryRules.lean ====
section
/-!
DEFINITION. Machine/EntryRules.lean: what a written value must keep to beside its type and range: the layouts of Table 14-3's
status 0x05, the rules judged against other state of status 0x09 (R11, R527), room in the copies (R455), and what a write does.
-/
namespace Sys2Proof.Machine

/-! ### Layouts (status 0x05) -/

/-- Whether bytes are one DER SEQUENCE of definite length, as an X.509 certificate is. -/
def derOk (b : List Nat) : Bool :=
  match b with
  | 0x30 :: l :: r =>
    if l < 128 then r.length == l
    else decide (129 ≤ l ∧ l ≤ 130) && r.length == (l - 128) + beNat (r.take (l - 128))
  | _ => false

/-- Fields of a reset request (Table 15-13). -/
def rrLevel (v : Nat) : Nat := bits v 28 4
def rrTarget (v : Nat) : Nat := bits v 0 20

/-- Layout of a reset request, with a target that the device has. -/
def resetRequestOk (v : Nat) : Bool :=
  let t := rrTarget v
  bits v 20 8 == 0 &&
  (if rrLevel v = 1 then decide (t / 32 < 21 ∧ t % 32 < portLanes (t / 32))
   else if rrLevel v = 2 then decide (t < 21)
   else if rrLevel v = 3 then decide (t < 2 ^ 15) && engineNamed (t / 256) (t % 256)
   else if rrLevel v = 5 then decide (t < 32)
   else false)

/-- Layout of an owner entry (Table 13-2); its epoch and state are read only. -/
def ownerLayoutOk (v : Nat) : Bool := bits v 0 21 == 0 && bits v 108 20 == 0 && decide (bits v 80 11 ≤ 1024)

/-- Layout of an admin context (Table 13-3). -/
def adminLayoutOk (v : Nat) : Bool := bits v 8 88 == 0 && bits v 256 4 == 0

/-- Layout of a fault ring entry (Table 15-3). -/
def ringLayoutOk (v : Nat) : Bool :=
  bits v 1 9 == 0 && bits v 28 100 == 0 &&
  (!bit v 0 ||
    (decide (6 ≤ bits v 10 5 ∧ bits v 10 5 ≤ 16 ∧ bits v 128 64 % 8 = 0) &&
     (!bit v 15 || (!isTile (bits v 192 64) && extentExists (bits v 192 64) 1))))

/-- A walker pointer of Table 03-2, or 0. -/
def ptrOrNone (v : Nat) : Bool := v == 0 || (decide (v < 2 ^ 40) && extentExists v 1)

/-- A walker pointer in local HBM, or 0. -/
def hbmOrNone (v : Nat) : Bool := ptrOrNone v && !isTile v

/-- Layout of an object selection (0x2A03:01). -/
def objectOk (v : Nat) : Bool := decide (keyKind v < 3 ∧ keyIndex v < (if keyKind v = 1 then 262144 else 65536))

/-- The layout of a value, for an entry that has one. -/
def layoutOk (k : Nat) (v : Val) : Bool :=
  let n := valNat v
  let b := (keyPart k).2
  if k = 0x200201 ∨ k = 0x2B0303 then derOk (valBytes v)
  else if k = 0x210202 then ownerLayoutOk n
  else if k = 0x210303 then adminLayoutOk n
  else if k = 0x280402 then lwLayoutOk n
  else if k = 0x280606 then repairLayoutOk n
  else if k = 0x290102 then poolLayoutOk n
  else if k = 0x2A0301 then objectOk n
  else if k = 0x2B0402 then rwLayoutOk n
  else if k = 0x2D0202 then ringLayoutOk n
  else if k = 0x2D0401 then resetRequestOk n
  else if b = 0x30200D ∨ b = 0x30280A ∨ b = 0x303804 then hbmOrNone n
  else if b = 0x303807 then ptrOrNone n
  else true

/-! ### Rules against other state (status 0x09) -/

/-- The pairs of R527 as (base key, size key, end of the space, units): keys of partition 0. -/
def rangePairs (s : State) : List (Nat × Nat × Nat) :=
  [(0x300001, 0x300002, 2 ^ 20), (0x300801, 0x300802, 512 - max (ent s 0x280007) (latest s 0x280007)), (0x300803, 0x300804, 288),
   (0x302801, 0x302802, 65536), (0x302803, 0x302804, 262144), (0x302805, 0x302806, 65536), (0x303001, 0x303002, 61440)]

/-- Key of a partition's entry. -/
def partKey (p k : Nat) : Nat := k + p * 0x80 * 256

/-- Whether a range meets another partition's range, in force or pending (R527). -/
def rangeMeets (s : State) (p bk nk b n : Nat) : Bool :=
  (List.range 32).any (fun q => q != p &&
    (rangesMeet b n (ent s (partKey q bk)) (ent s (partKey q nk)) ||
     rangesMeet b n (latest s (partKey q bk)) (latest s (partKey q nk))))

/-- A base or a size written, judged with the partition's latest value of the other (R527). -/
def rangeRuleOk (s : State) (k n : Nat) : Bool :=
  let p := (keyPart k).1
  match (rangePairs s).find? (fun x => x.1 == (keyPart k).2 || x.2.1 == (keyPart k).2) with
  | none => true
  | some (bk, nk, top) =>
    let b := if bk = (keyPart k).2 then n else latest s (partKey p bk)
    let c := if nk = (keyPart k).2 then n else latest s (partKey p nk)
    c == 0 || (decide (b + c ≤ top) && !rangeMeets s p bk nk b c)

/-- The fixed areas of R236 under written sizes: inside the device region, clear of its pools; and no partition's HBM range
in the device region (R246). -/
def deviceRegionOk (s : State) (region journal coherent : Nat) : Bool :=
  decide (fixedBytes journal coherent ≤ region * 2 ^ 30) &&
  s.pools.pools.all (fun x => !pdDev x.2.desc || pdCount x.2.desc == 0 || decide (pdEnd x.2.desc + fixedBytes journal coherent ≤ hbmBytes)) &&
  (List.range 32).all (fun p =>
    let fits (f : State → Nat → Nat) : Bool := f s (pKey 0x3008 2 p) == 0 || decide (f s (pKey 0x3008 1 p) + f s (pKey 0x3008 2 p) + region ≤ 512)
    fits ent && fits latest)

/-- Loss scale limits under a written value (R191). -/
def lossOk (s : State) (p k n : Nat) : Bool :=
  let v (j : Nat) : Int := toSigned 32 (if k = 0x302000 + j then n else latest s (pKey 0x3020 j p))
  decide (v 4 ≤ v 5 ∧ v 4 ≤ v 3 ∧ v 3 ≤ v 5)

/-- Sum of all partitions' read min and write min shares, with one partition's share at sub written (R253). -/
def shareSum (s : State) (sub p n : Nat) : Nat :=
  (List.range 32).foldl (fun t q => t + (if q = p ∧ sub = 5 then n else pEnt s 0x3008 5 q) +
    (if q = p ∧ sub = 7 then n else pEnt s 0x3008 7 q)) 0

/-- Whether a function is enabled (R408, R409). -/
def functionEnabled (s : State) (fn : Nat) : Bool := fn == 0 || (s.host.vfEnable && decide (fn ≤ s.host.numVfs))

/-- An owner entry against the owner and the others (R409). -/
def ownerStateOk (s : State) (o v : Nat) : Bool :=
  bits v 96 12 == o && ownerState s o == .free && functionEnabled s (bits v 80 11) &&
  s.owners.all (fun x => x.1 == o || x.2.state == .free || !(bits x.2.entry 80 11 == bits v 80 11 && bits x.2.entry 60 20 == bits v 60 20))

/-- Whether a step barrier lies in the partition's barrier range. -/
def stepBarrierOk (s : State) (p n : Nat) : Bool := n == 0xFFFFFFFF || (decide (n < 65536) && objIn s p 0 n)

/-- The rules of entries of partitions. -/
def partRuleOk (s : State) (k n : Nat) : Bool :=
  let p := (keyPart k).1
  let b := (keyPart k).2
  if b = 0x300005 then decide (n + latest s (pKey 0x3000 6 p) ≤ 301989888)
  else if b = 0x300006 then decide (n + latest s (pKey 0x3000 5 p) ≤ 301989888)
  else if b = 0x300805 ∨ b = 0x300807 then decide (shareSum s (b % 256) p n ≤ 870)
  else if b = 0x300806 then decide (pEnt s 0x3008 5 p ≤ n)
  else if b = 0x300808 then decide (pEnt s 0x3008 7 p ≤ n)
  else if b = 0x302003 ∨ b = 0x302004 ∨ b = 0x302005 then lossOk s p b n
  else if b = 0x30200D then n == 0 || (coveringOwner s p n 64).isSome
  else if b = 0x302807 then
    decide ((List.range 32).foldl (fun t q => t + (if q = p then n else pEnt s 0x3028 7 q)) 0 ≤ 983040)
  else if b = 0x302809 then stepBarrierOk s p n
  else if b = 0x30280A then n == 0 || (coveringOwner s p n 64).isSome
  else rangeRuleOk s k n

/-- Whether the stack a hard or lane repair names is in maintenance (R268), and no repair runs. -/
def repairStateOk (s : State) (r : Nat) : Bool :=
  s.mc.repairing.isNone && (rqKind r == 1 || ent s 0x280601 == rqStack r)

/-- The rules of the other entries. -/
def deviceRuleOk (s : State) (k n : Nat) : Bool :=
  if k = 0x200005 then (if s.th.running = 0 then s.th.fw1.erased else s.th.fw0.erased)
  else if k = 0x200006 then n == 1 || (if s.th.running = 0 then s.th.fw1.erased else s.th.fw0.erased)
  else if k = 0x200A02 then removalOk s n
  else if k = 0x210101 then n != latest s 0x210102
  else if k = 0x210102 then n != latest s 0x210101
  else if k = 0x210103 then deviceRegionOk s (latest s 0x280007) n (latest s 0x2B0503)
  else if k = 0x280007 then deviceRegionOk s n (latest s 0x210103) (latest s 0x2B0503)
  else if k = 0x2B0503 then deviceRegionOk s (latest s 0x280007) (latest s 0x210103) n
  else if k = 0x210202 then ownerStateOk s (selOwner s) n
  else if k = 0x210203 then ownerCmdOk s (selOwner s) n
  else if k = 0x220502 then n == 0 || bit (s.units.bandFaults ||| ent s 0x220102 ||| bandFaultMask s) (ent s 0x220501)
  else if k = 0x280402 then lwStateOk s (selWindow s / 8) n
  else if k = 0x280502 then !anyLocalWin s (selKey s)
  else if k = 0x280601 then n == 0xFF || maintOk s
  else if k = 0x280604 then n == 0 || ent s 0x280601 != 0xFF
  else if k = 0x280606 then repairStateOk s n
  else if k = 0x290102 then poolStateOk s (selPool s) n
  else if k = 0x290103 then poolCmdOk s (selPool s) n
  else if k = 0x2B0402 then rwStateOk s n
  else if k = 0x2D0402 then n != 2 || !(s.power.criticalShut && anyWarning s)
  else true

/-- The rules of an entry's chapter that judge a value against other state. -/
def stateRuleOk (s : State) (k : Nat) (v : Val) : Bool :=
  if k < 0x300000 then deviceRuleOk s k (valNat v) else partRuleOk s k (valNat v)

/-! ### Stored entries (R453, R455) -/

/-- The name of a stored value in a batch: of the selected pool or rack where the entry has one for each. -/
def storeKey (s : State) (k : Nat) : Nat :=
  if k = 0x290102 then k + 2 ^ 24 * (selPool s + 1) else if k = 0x2C0202 then k + 2 ^ 24 * (selRack s + 1) else k

/-- Whether a written entry is stored in the configuration copies. -/
def isStored (k : Nat) (e : EntrySpec) : Bool := e.stored || k == 0x290102

/-- A copy with a batch's values put in. -/
def putStored (c : Copy) : List (Nat × Val) → Copy
  | [] => c
  | x :: r =>
    let k := x.1 % 2 ^ 24
    let n := x.1 / 2 ^ 24 - 1
    putStored (if k = 0x290102 then { c with pools := tputNZ c.pools n (valNat x.2) }
      else if k = 0x2C0202 then { c with racks := tput c.racks n (valBytes x.2) }
      else { c with records := tput c.records x.1 x.2 }) r

/-- Whether the body still fits its slot of 1 MiB with a value put in (R455). -/
def roomFor (s : State) (k : Nat) (v : Val) : Bool :=
  decide (64 + bodyRoom (putStored (newestCopy s) (s.th.batch ++ [(storeKey s k, v)])) ≤ 2 ^ 20)

/-! ### What a write does -/

/-- The counters that a counters_clear entry clears: their index and subindexes. -/
def clearsOf (k : Nat) : List (Nat × Nat × Nat) :=
  if k = 0x200109 then [(0x2001, 6, 8), (0x2005, 5, 5), (0x2006, 0x0A, 0x0A)]
  else if k = 0x200A06 then [(0x2009, 6, 6), (0x200A, 5, 5)]
  else if k = 0x210408 then [(0x2104, 1, 7)]
  else if k = 0x220409 then [(0x2204, 1, 8)]
  else if k = 0x23020D then [(0x2302, 1, 0x0C)]
  else if k = 0x240209 then [(0x2402, 1, 8)]
  else if k = 0x25020B then [(0x2502, 1, 0x0A)]
  else if k = 0x260106 then [(0x2601, 1, 5)]
  else if k = 0x27020B then [(0x2702, 1, 0x0A)]
  else if k = 0x280209 then [(0x2802, 1, 8)]
  else if k = 0x29030A then [(0x2903, 1, 9)]
  else if k = 0x2A020A then [(0x2A02, 1, 9)]
  else if k = 0x2B070A then [(0x2B07, 1, 9)]
  else if k = 0x2C0109 then [(0x2C01, 1, 8)]
  else if k = 0x2D0609 then [(0x2D01, 6, 6), (0x2D06, 1, 6), (0x2D06, 8, 8)]
  else []

/-- Counters cleared together. -/
def clearCounters (s : State) (k : Nat) : State :=
  let s1 := (clearsOf k).foldl (fun t r =>
    { t with dict := tfilter t.dict (fun j _ => !(decide (j / 256 = r.1 ∧ r.2.1 ≤ j % 256 ∧ j % 256 ≤ r.2.2))) }) s
  if k = 0x2B070A then { s1 with fab := { s1.fab with ports := tmap s1.fab.ports (fun _ x => { x with replays := 0, drops := 0 }) } } else s1

/-- The image slot not in use (R439). -/
def modSpare (s : State) (f : FwSlot → FwSlot) : State :=
  { s with th := if s.th.running = 0 then { s.th with fw1 := f s.th.fw1 } else { s.th with fw0 := f s.th.fw0 } }

/-- An owner's fault ring written: its count starts again, and where it is valid the count goes to index_addr (R484). -/
def writeRing (s : State) (o v : Nat) : State :=
  let s1 := modOwner s o (fun x => { x with ring := v, ringCount := 0 })
  if bit v 0 then hostWr s1 o (bits v 128 64) (natLe 8 0) else s1

/-- A reset request of levels 1 to 3 and 5 (Table 15-13). -/
def resetRequest (s : State) (v : Nat) : State :=
  let t := rrTarget v
  if rrLevel v = 1 then laneReset s (t / 32) (t % 32)
  else if rrLevel v = 2 then portReset s t causeRequest
  else if rrLevel v = 3 then engineReset s (t / 256) (t % 256) causeRequest
  else partitionReset s t causeRequest

/-- A next-step change of a partition whose step digest is frozen waits for the following barrier (R472). -/
def noteLate (s : State) (k : Nat) : State :=
  (governed s k).foldl (fun t p =>
    if (partOf t p).frozen.isSome ∧ ¬ (partOf t p).late.contains k ∧ (criticalKeys p).contains k then
      modPart t p (fun x => { x with late := x.late ++ [k] }) else t) s

/-- A pending value written: a group-critical one that lands after a freeze is noted first. -/
def putPending (s : State) (k : Nat) (v : Val) : State :=
  match specOf k with
  | some e => if e.eff = .nextStep then putEntry (noteLate s k) k v else putEntry s k v
  | none => s

/-- What a write that passed every check does, but for its being stored and for what ends the device's service.
`host` says that it came through the mailbox. -/
def applyWrite (s : State) (host : Bool) (k : Nat) (v : Val) : State :=
  let n := valNat v
  if clearsOf k ≠ [] then clearCounters s k
  else if k = 0x200005 then modSpare s (fun x => { x with bytes := x.bytes ++ valBytes v })
  else if k = 0x200006 then (if n = 1 then setEnt (modSpare s (fun _ => { erased := true })) k 1 else setEnt s k n)
  else if k = 0x200101 then
    let s1 := putPending s k v
    if host ∧ n ≠ s.th.selectedNode then { s1 with th := { s1.th with selectedNode := n, conflict := false } } else s1
  else if k = 0x200A02 then (if n = 2 then s else removalCmd s n)
  else if k = 0x210202 then modOwner s (selOwner s) (fun x => { x with entry := setBits (setBits n 24 16 0) 21 3 0 })
  else if k = 0x210203 then ownerCmd s (selOwner s) n
  else if k = 0x210303 then { s with host := { s.host with adminCtxs := tput s.host.adminCtxs (selQueue s) n } }
  else if k = 0x220502 then
    (if n = 1 then setEnt { s with units := { s.units with bist := some (ent s 0x220501) } } k 1 else s)
  else if k = 0x280402 then writeLocalWin s (selWindow s) n
  else if k = 0x280502 then keyCmd s (selKey s) n
  else if k = 0x280601 then setMaint s n
  else if k = 0x280604 then (if n = 1 then setEnt s k 1 else s)
  else if k = 0x280606 then beginRepair (setEnt s k n) n false
  else if k = 0x290102 then setPool s (selPool s) { poolOf s (selPool s) with desc := n }
  else if k = 0x290103 then poolCmd s (selPool s) n
  else if k = 0x2B0108 then (if n = 1 then portEnabled s (selPort s) else disablePort s (selPort s))
  else if k = 0x2B0402 then writeRemoteWin s (selRwin s) n
  else if k = 0x2B0501 then setEnt (if n = 0 then evictLines s (fun _ => true) else s) k n
  else if k = 0x2C0202 then { s with fab := { s.fab with racks := tput s.fab.racks (selRack s) (valBytes v) } }
  else if k = 0x2D0202 then writeRing s (selFaultOwner s) n
  else if k = 0x2D0401 then resetRequest s n
  else if k = 0x2D0402 then s
  else putPending s k v

end Sys2Proof.Machine
end

