-- ==== Sys2Proof/Machine/Agmir.lean ====
section
/-!
DEFINITION. Machine/Agmir.lean: the Agmir protocol on the field port and through the host mailbox (R440 to R452): PDUs, the
filter, authentication, segmented transfers, the order of checks, answers, and service sessions.
-/
namespace Sys2Proof.Machine

/-! ### PDUs (R442) -/

/-- A request: its header (Table 14-2), write counter, value and MAC. -/
structure Pdu where
  hdr : Nat
  ctr : Nat := 0
  value : List Nat := []
  mac : List Nat := []
  deriving DecidableEq, Repr

def pdOp (p : Pdu) : Nat := bits p.hdr 56 8
def pdIndex (p : Pdu) : Nat := bits p.hdr 32 16
def pdSub (p : Pdu) : Nat := bits p.hdr 24 8
def pdKey (p : Pdu) : Nat := pdIndex p * 256 + pdSub p
def pdAuth (p : Pdu) : Bool := bit p.hdr 18
def pdSegmented (p : Pdu) : Bool := bit p.hdr 17
def pdShadow (p : Pdu) : Bool := bit p.hdr 16
def pdLength (p : Pdu) : Nat := bits p.hdr 0 16

/-- The bytes of a request: header, counter, value and MAC in order. -/
def parsePdu (b : List Nat) : Pdu :=
  let h := leNat (b.take 8)
  let auth := bit h 18
  let r := b.drop (if auth then 12 else 8)
  let n := bits h 0 16
  { hdr := h, ctr := if auth then leNat ((b.drop 8).take 4) else 0, value := r.take n, mac := if auth then (r.drop n).take 16 else [] }

/-- Bytes of a whole PDU. -/
def pduBytes (p : Pdu) : Nat := 8 + (if pdAuth p then 20 else 0) + pdLength p

/-- What a request is answered with: status, value, entry state; whether the answer waits for the copies (R455); and what
follows the answer: 1 a device warm reset, 2 a cold one, 3 a removal. -/
structure Reply where
  status : Nat
  value : List Nat := []
  st : Nat := 0
  later : Bool := false
  post : Nat := 0
  deriving DecidableEq, Repr

/-- Bytes of a response (Table 14-2). -/
def respBytes (p : Pdu) (r : Reply) (seg : Bool) : List Nat :=
  natLe 8 (fld (pdOp p + 0x80) 56 8 + fld r.status 48 8 + fld (pdIndex p) 32 16 + fld (pdSub p) 24 8 + fld r.st 19 2 +
    fld (b2n seg) 17 1 + fld r.value.length 0 16) ++ r.value

/-- Segment frames of a response, from a segment number on. -/
def sendSegments (node tag : Nat) : Nat → Nat → List Nat → State → State
  | 0, _, _, s => s
  | n + 1, k, b, s =>
    if b.isEmpty then s else sendSegments node tag n (k + 1) (b.drop 63) (sendFrame s 3 node tag (k :: b.take 63))

/-- A response on the field port, in segments where it does not fit one frame (R443). -/
def answerField (s : State) (node tag : Nat) (p : Pdu) (r : Reply) : State :=
  let b := respBytes p r (decide (56 < r.value.length))
  sendSegments node tag 70 1 (b.drop 64) (sendFrame s 1 node tag (b.take 64))

/-- A response through the mailbox (R449): vector 0 of the physical function signals it. -/
def answerHost (s : State) (b : List Nat) : State :=
  toHost { s with th := { s.th with mbResponse := b, mbStatus := 2 } } (.msix 0 0)

/-- What follows an answer. -/
def afterReply (s : State) (post : Nat) : State :=
  if post = 1 then warmReset s causeCommand
  else if post = 2 then coldReset s causeCommand
  else if post = 3 then removalCmd s 2
  else s

/-- An answer sent, or kept until the copies are stored. -/
def reply (s : State) (path : Path) (p : Pdu) (r : Reply) : State :=
  if r.later then
    { s with th := { s.th with batchReplies := s.th.batchReplies ++ [(path, respBytes p r false)],
                               mbStatus := if path = .host then 1 else s.th.mbStatus } }
  else afterReply (match path with
    | .host => answerHost s (respBytes p r false)
    | .field node tag => answerField s node tag p r) r.post

/-! ### Sessions (R452) -/

/-- Whether two requests come on one path: the field port, or the mailbox. -/
def samePath : Path → Path → Bool
  | .host, .host => true
  | .field _ _, .field _ _ => true
  | _, _ => false

/-- Whether a path holds the service session. -/
def inService (s : State) (path : Path) : Bool :=
  match s.th.session with
  | some x => samePath x path
  | none => false

def onField : Path → Bool
  | .host => false
  | .field _ _ => true

/-! ### READ and WRITE (R446) -/

/-- A READ. -/
def doRead (s : State) (path : Path) (p : Pdu) : Reply :=
  let k := pdKey p
  if ¬ indexKnown (pdIndex p) then { status := 0x01 }
  else match specOf k with
    | none => { status := 0x02 }
    | some e =>
      let st := entryState s k
      if onField path && (hostOnly k || (k == 0x200402 && hostOnly (ent s 0x200401))) then { status := 0x03, st := st }
      else if e.acc = .wo then { status := 0x0A, st := st }
      else match readBytes s k e (pdShadow p) with
        | some b => { status := 0, value := b, st := st }
        | none => { status := 0x09, st := st }

/-- The first check that a WRITE fails, or 0. -/
def writeStatus (s : State) (path : Path) (k : Nat) (e : EntrySpec) (b : List Nat) : Nat :=
  let v := valOfBytes e.ty b
  if onField path && hostOnly k then 0x03
  else if e.acc = .ro then 0x03
  else if e.acc = .rwSvc && !inService s path then 0x06
  else if ¬ lengthFits e.ty b.length then 0x04
  else if k = 0x2D0401 ∧ rrLevel (valNat v) = 3 ∧ ¬ inService s path then 0x06
  else if !(tyOk e.ty v && rangeOk e.ty e.range v && layoutOk k v) then 0x05
  else if ¬ stateRuleOk s k v then 0x09
  else if isStored k e && !roomFor s k v then 0x0D
  else 0

/-- What must wait until the answer is out: a device reset, a removal. -/
def postOf (k n : Nat) : Nat :=
  if k = 0x2D0402 then n else if k = 0x200A02 ∧ n = 2 then 3 else 0

/-- A WRITE: every check, then its effect; one of a stored entry joins the batch and is answered once the batch is stored
(R455). -/
def doWrite (s : State) (path : Path) (p : Pdu) : State × Reply :=
  let k := pdKey p
  if ¬ indexKnown (pdIndex p) then (s, { status := 0x01 })
  else match specOf k with
    | none => (s, { status := 0x02 })
    | some e =>
      let c := writeStatus s path k e p.value
      if c ≠ 0 then (s, { status := c, st := entryState s k })
      else
        let v := valOfBytes e.ty p.value
        let s1 := applyWrite s (!onField path) k v
        if isStored k e then
          ({ s1 with th := { s1.th with batch := s1.th.batch ++ [(storeKey s k, v)] } }, { status := 0, st := entryState s1 k, later := true })
        else (s1, { status := 0, st := entryState s1 k, post := postOf k (valNat v) })

/-! ### Service requests (R452) -/

/-- Number of a path in faults and in 0x2002:02. -/
def pathNo (p : Path) : Nat := if onField p then 1 else 2

/-- The nonce of a path. -/
def setNonce (s : State) (path : Path) (n : Option Nat) : State :=
  { s with th := if onField path then { s.th with nonceField := n } else { s.th with nonceHost := n } }
def nonceOf (s : State) (path : Path) : Option Nat := if onField path then s.th.nonceField else s.th.nonceHost

/-- SERVICE_OPEN. -/
def doOpen (s : State) (path : Path) : State × Reply :=
  if s.th.session.isSome then (s, { status := 0x08 })
  else
    let n := Config.random s.th.randoms % 2 ^ 256
    (setNonce { s with th := { s.th with randoms := s.th.randoms + 1 } } path (some n), { status := 0, value := natLe 32 n })

/-- The root of R452: 0x2002:01 as written, or the factory's. -/
def serviceRoot (s : State) : List Nat := valBytes ((tget? s.dict 0x200201).getD (.bytes Config.serviceAnchor))

/-- SERVICE_PROOF, with what validating its chain and signature finds. -/
def doProof (s : State) (path : Path) (x : Proof) : State × Reply :=
  if s.th.session.isSome then (s, { status := 0x08 })
  else if (nonceOf s path).isSome ∧ x.nonce = nonceOf s path ∧ x.root = serviceRoot s then
    (setNonce { s with th := { s.th with session := some path } } path none, { status := 0 })
  else (raiseDev (setNonce s path none) 0xC008 srcThallus [(pathNo path, 16)], { status := 0x07 })

/-- SERVICE_CLOSE. -/
def doClose (s : State) (path : Path) : State × Reply :=
  if s.th.session.isNone then (s, { status := 0 })
  else if inService s path then ({ s with th := { s.th with session := none } }, { status := 0 })
  else (s, { status := 0x08 })

/-! ### The host mailbox (R449) -/

/-- Whether the mailbox serves the host. -/
def mailboxServes (s : State) : Bool := s.host.up && s.startup.hostReady && s.power.domain && s.th.serving

/-- Opcodes of Table 14-2. -/
def opKnown (op : Nat) : Bool := decide (1 ≤ op ∧ op ≤ 5)

/-- A header that the mailbox refuses: segmented, an unknown opcode, or bits that must be zero. -/
def mbBad (p : Pdu) : Bool :=
  pdSegmented p || !opKnown (pdOp p) || bits p.hdr 21 3 != 0 || bits p.hdr 48 8 != 0 || bits p.hdr 19 2 != 0

/-- A doorbell of the mailbox for a request that a row of the table takes. -/
def mailboxRow (s : State) (doorbell : Nat) (pdu : List Nat) (want : Pdu → Bool) (act : State → Path → Pdu → State × Reply) : State :=
  let p := parsePdu (padTo 8192 pdu)
  if ¬ mailboxServes s ∨ ¬ want p then s
  else if doorbell ≠ 1 ∨ s.th.mbStatus = 1 then bump s 0x200108 1
  else
    let s1 := { s with th := { s.th with mbRequest := pdu, ckRuns := true } }
    let x := if mbBad p then (s1, { status := 0x05 }) else act s1 .host p
    reply x.1 .host p x.2

/-! ### The field port (R440 to R451) -/

def frClass (f : Frame) : Nat := bits f.id 26 3
def frDst (f : Frame) : Nat := bits f.id 19 7
def frSrc (f : Frame) : Nat := bits f.id 12 7
def frTag (f : Frame) : Nat := bits f.id 0 12

/-- Whether the Thallus takes frames: powered, its firmware up, on the bus, and not in a node ID conflict (R447, R448). -/
def fieldHears (s : State) : Bool :=
  s.power.domain && s.startup.main != some 0 && s.startup.main != some 1 && !s.th.busOff && !s.th.conflict

/-- With no image that verifies, the Thallus serves the entries of Table 00-1 and those of the firmware update (R439), and
the service requests that the latter need. -/
def servesPdu (s : State) (p : Pdu) : Bool :=
  s.th.serving || decide (3 ≤ pdOp p) || pdIndex p == 0x0100 || pdIndex p == 0x0101 || pdKey p == 0x200005 || pdKey p == 0x200006

/-- A PDU that the filter discards (R451), with the check of Table 14-5 that it fails: 1 class, 2 destination, 3 opcode,
4 length, 5 rate. -/
def filterDrop (s : State) (node check : Nat) : State :=
  let s1 := bump s 0x200107 1
  if s.th.filterRaised then s1
  else raiseDev { s1 with th := { s1.th with filterRaised := true } } 0xC007 srcThallus [(node, 8), (Config.causeCode 0xC007 check, 8)]

/-- Frames of a second from one node, this one included, are at most 1,000. -/
def rateOk (s : State) (node : Nat) : Bool := decide (tgetD s.th.frameCount node 0 < 1000)
def countFrame (s : State) (node : Nat) : State := { s with th := { s.th with frameCount := tupd s.th.frameCount node 0 (· + 1), ckRuns := true } }

/-- The check of Table 14-5 that a request frame fails. -/
def filterCheck (s : State) (f : Frame) (p : Pdu) : Option Nat :=
  if frClass f ≠ 2 then some 1
  else if frDst f ≠ nodeId s ∧ ¬ (frDst f = 0 ∧ pdOp p = 1) then some 2
  else if ¬ opKnown (pdOp p) then some 3
  else if f.data.length < 8 ∨ 4096 < pdLength p ∨ (if pdSegmented p then ¬ (f.data.length = 64 ∧ 64 < pduBytes p) else f.data.length ≠ pduBytes p) then some 4
  else if ¬ rateOk s (frSrc f) then some 5
  else none

/-- Bytes that a MAC covers (R444): source node ID, counter, header, value. -/
def macInput (node : Nat) (p : Pdu) : List Nat := [node] ++ natLe 4 p.ctr ++ natLe 8 p.hdr ++ p.value

/-- Whether a request's MAC matches under the field key; none matches before a key is written. -/
def macOk (s : State) (node : Nat) (p : Pdu) : Bool :=
  match tget? s.dict 0x200105 with
  | some (.bytes key) => (hmac256 key (macInput node p)).take 16 == p.mac
  | _ => false

/-- The highest counter accepted from a node, or its floor (R445). -/
def counterFloor (s : State) (node : Nat) : Nat := max (tgetD s.th.topCounter node 0) (tgetD s.th.floors node 0)

/-- Requests that must be authenticated on the field port: WRITE, SERVICE_OPEN and SERVICE_PROOF (R444). -/
def mustAuth (p : Pdu) : Bool := decide (2 ≤ pdOp p ∧ pdOp p ≤ 4)

/-- Why a field request fails authentication: 1 none carried, 2 the MAC, 3 the counter. -/
def authBad (s : State) (node : Nat) (p : Pdu) : Option Nat :=
  if ¬ pdAuth p then (if mustAuth p then some 1 else none)
  else if ¬ macOk s node p then some 2
  else if p.ctr ≤ counterFloor s node then some 3
  else none

/-- A failed authentication (R444): raised at most once per second and node. -/
def authFails (s : State) (node cause : Nat) : State :=
  let s1 := bump s 0x200106 1
  if s.th.authRaised.contains node then s1
  else raiseDev { s1 with th := { s1.th with authRaised := s1.th.authRaised ++ [node] } } 0xC006 srcThallus
    [(node, 8), (Config.causeCode 0xC006 cause, 8)]

/-- An accepted counter; each 1,024th accepted one of a node goes to the copies (R445). -/
def acceptCounter (s : State) (node : Nat) (p : Pdu) : State :=
  if ¬ pdAuth p then s
  else
    let n := tgetD s.th.acceptedWrites node 0 + 1
    let s1 := { s with th := { s.th with topCounter := tput s.th.topCounter node p.ctr, acceptedWrites := tput s.th.acceptedWrites node n } }
    if n % 1024 = 0 then storeCopies s1 (fun c => { c with counters := tput c.counters node p.ctr }) else s1

/-- Whether a node has a segmented transfer in progress (R443). -/
def inTransfer (s : State) (node : Nat) : Bool := thas s.th.transfers node || thas s.th.assembled node

/-- A whole request of the field port: authentication, a transfer in progress, and then the row's own checks (R446). -/
def fieldRequest (s : State) (node tag : Nat) (p : Pdu) (act : State → Path → Pdu → State × Reply) : State :=
  match authBad s node p with
  | some c => answerField (authFails s node c) node tag p { status := 0x07 }
  | none =>
    let s1 := acceptCounter s node p
    if inTransfer s node then answerField s1 node tag p { status := 0x08 }
    else
      let x := act s1 (.field node tag) p
      reply x.1 (.field node tag) p x.2

/-- A segmented transfer begins, or is refused while its node has one (R443). -/
def beginTransfer (s : State) (f : Frame) (p : Pdu) : State :=
  let node := frSrc f
  if inTransfer s node then answerField s node (frTag f) p { status := 0x08 }
  else
    let t : Transfer := { tag := frTag f, hdr := p.hdr, ctr := none, nextSeg := 1, need := pduBytes p - 64, data := f.data }
    { s with th := { s.th with transfers := tput s.th.transfers node t } }

/-- A frame of the field port with a request that a row of the table takes. -/
def fieldRow (s : State) (f : Frame) (want : Pdu → Bool) (act : State → Path → Pdu → State × Reply) : State :=
  let p := parsePdu f.data
  if ¬ fieldHears s then s
  else if ¬ f.fd ∨ ¬ f.ext then bump s 0x200108 1
  else if ¬ (frClass f = 1 ∨ frClass f = 2) ∨ ¬ want p then s
  else match filterCheck s f p with
    | some c => filterDrop s (frSrc f) c
    | none =>
      let s1 := countFrame s (frSrc f)
      if ¬ servesPdu s p then s1
      else if pdSegmented p then beginTransfer s1 f p
      else fieldRequest s1 (frSrc f) (frTag f) p act

/-- An assembled transfer with a request that a row of the table takes. -/
def assembledRow (s : State) (node : Nat) (want : Pdu → Bool) (act : State → Path → Pdu → State × Reply) : State :=
  match tget? s.th.assembled node with
  | none => s
  | some (tag, b) =>
    let p := parsePdu b
    if ¬ fieldHears s ∨ ¬ want p then s
    else fieldRequest { s with th := { s.th with assembled := tdel s.th.assembled node } } node tag p act

/-- A request on any path, taken by a row of the table where it is one of that row's. -/
def agmirRow (s : State) (r : Req) (want : Pdu → Bool) (act : State → Path → Pdu → State × Reply) : State :=
  match r with
  | .mailbox doorbell pdu => mailboxRow s doorbell pdu want act
  | .field f => fieldRow s f want act
  | .assembled node => assembledRow s node want act

/-! ### The requests' rows -/

/-- AGMIR_READ; a request of no opcode of Table 14-2 is taken here too. -/
def execAgmirRead (r : Req) (s : State) : Host.Outcome State Fault Refusal :=
  .next (agmirRow s r (fun p => pdOp p == 1 || !opKnown (pdOp p)) (fun t path p => (t, doRead t path p)))

/-- SERVICE_OPEN (R452). -/
def execServiceOpen (r : Req) (s : State) : Host.Outcome State Fault Refusal :=
  .next (agmirRow s r (fun p => pdOp p == 3) (fun t path _ => doOpen t path))

/-- SERVICE_PROOF (R452). -/
def execServiceProof (r : Req) (proof : Proof) (s : State) : Host.Outcome State Fault Refusal :=
  .next (agmirRow s r (fun p => pdOp p == 4) (fun t path _ => doProof t path proof))

/-- SERVICE_CLOSE (R452). -/
def execServiceClose (r : Req) (s : State) : Host.Outcome State Fault Refusal :=
  .next (agmirRow s r (fun p => pdOp p == 5) (fun t path _ => doClose t path))

/-- SERVICE_SESSION_TIMEOUT (R452). -/
def execServiceSessionTimeout (s : State) : Host.Outcome State Fault Refusal := .next { s with th := { s.th with session := none } }

/-- MB_STATUS_READ (R449): a read that returns 2 returns the register to 0. -/
def execMbStatusRead (s : State) : Host.Outcome State Fault Refusal :=
  .next (if mailboxServes s ∧ s.th.mbStatus = 2 then { s with th := { s.th with mbStatus := 0 } } else s)

/-! ### Segments (R443) -/

/-- A transfer ended with a status. -/
def endTransfer (s : State) (node status : Nat) : State :=
  match tget? s.th.transfers node with
  | none => s
  | some t => answerField { s with th := { s.th with transfers := tdel s.th.transfers node } } node t.tag { hdr := t.hdr } { status := status }

/-- A segment of a transfer, in sequence. -/
def takeSegment (s : State) (f : Frame) (t : Transfer) : State :=
  let node := frSrc f
  let d := t.data ++ f.data.drop 1
  let need := t.need - (f.data.length - 1)
  if need = 0 then
    { s with th := { s.th with transfers := tdel s.th.transfers node, assembled := tput s.th.assembled node (t.tag, d) } }
  else { s with th := { s.th with transfers := tput s.th.transfers node { t with nextSeg := t.nextSeg + 1, need := need, data := d } } }

/-- AGMIR_SEGMENT (R443). -/
def execAgmirSegment (f : Frame) (s : State) : Host.Outcome State Fault Refusal :=
  .next (
    if ¬ fieldHears s then s
    else if ¬ f.fd ∨ ¬ f.ext then bump s 0x200108 1
    else if frClass f ≠ 3 then s
    else if frDst f ≠ nodeId s then filterDrop s (frSrc f) 2
    else match tget? s.th.transfers (frSrc f) with
      | none => filterDrop s (frSrc f) 4
      | some t =>
        if frTag f ≠ t.tag ∨ f.data.headD 0 ≠ t.nextSeg then endTransfer (countFrame s (frSrc f)) (frSrc f) 0x0B
        else if f.data.length ≠ 1 + min 63 t.need then filterDrop s (frSrc f) 4
        else if ¬ rateOk s (frSrc f) then filterDrop s (frSrc f) 5
        else takeSegment (countFrame s (frSrc f)) f t)

/-- AGMIR_TRANSFER_TIMEOUT (R443). -/
def execAgmirTransferTimeout (node : Nat) (s : State) : Host.Outcome State Fault Refusal := .next (endTransfer s node 0x0C)

/-! ### Writes with rows of their own -/

/-- Rows of the table that a WRITE belongs to by its entry and value; 0 for AGMIR_WRITE's. -/
def rowId (k n : Nat) : Nat :=
  if clearsOf k ≠ [] then 1
  else if k = 0x200005 then 2
  else if k = 0x200006 ∧ n = 1 then 3
  else if k = 0x200006 ∧ n = 2 then 4
  else if k = 0x200A02 ∧ 1 ≤ n ∧ n ≤ 3 then 4 + n
  else if k = 0x2D0402 ∧ n ≤ 2 then 8 + n
  else if k = 0x2D0401 ∧ 1 ≤ rrLevel n ∧ rrLevel n ≤ 3 then 10 + rrLevel n
  else if k = 0x2D0401 ∧ rrLevel n = 5 then 14
  else if k = 0x200703 ∧ n ≤ 1 then 15 + n
  else if k = 0x210203 ∧ 1 ≤ n ∧ n ≤ 5 then 16 + n
  else if k = 0x2D0202 then 22
  else if k = 0x280402 then 23
  else if k = 0x2B0402 then 24
  else if k = 0x280502 ∧ 1 ≤ n ∧ n ≤ 2 then 24 + n
  else if k = 0x280606 ∧ 1 ≤ rqKind n ∧ rqKind n ≤ 3 then 26 + rqKind n
  else if k = 0x280601 ∧ n ≤ 7 then 30
  else if k = 0x280601 ∧ n = 0xFF then 31
  else if k = 0x280604 ∧ n = 1 then 32
  else if k = 0x290103 ∧ 1 ≤ n ∧ n ≤ 3 then 32 + n
  else if k = 0x220502 ∧ n = 1 then 36
  else if k = 0x2B0108 ∧ n ≤ 1 then 37 + n
  else 0

/-- Whether a request is a WRITE of a row. -/
def wantWrite (id : Nat) (p : Pdu) : Bool := pdOp p == 2 && rowId (pdKey p) (leNat p.value) == id

/-- A WRITE that belongs to a row. -/
def dictRow (id : Nat) (r : Req) (s : State) : State := agmirRow s r (wantWrite id) doWrite

/-- AGMIR_WRITE: a WRITE to an entry, or of a value, that has no row of its own. -/
def execAgmirWrite (r : Req) (s : State) : Host.Outcome State Fault Refusal := .next (dictRow 0 r s)
/-- COUNTERS_CLEAR. -/
def execCountersClear (r : Req) (s : State) : Host.Outcome State Fault Refusal := .next (dictRow 1 r s)
/-- FW_UPDATE_DATA (R439). -/
def execFwUpdateData (r : Req) (s : State) : Host.Outcome State Fault Refusal := .next (dictRow 2 r s)
/-- FW_UPDATE_BEGIN (R439). -/
def execFwUpdateBegin (r : Req) (s : State) : Host.Outcome State Fault Refusal := .next (dictRow 3 r s)

/-- The new image verified, with its version where its signature holds: it is selected, or fault 0xC005 leaves the running
one selected (R439). -/
def verifyImage (s : State) (image : Option Nat) : State :=
  let slot := 1 - s.th.running
  match image with
  | some v =>
    let s1 := modSpare s (fun x => { x with version := v, valid := true, erased := false })
    { s1 with th := { s1.th with selected := slot } }
  | none => raiseDev (modSpare s (fun x => { x with valid := false, erased := false })) 0xC005 srcThallus [(slot, 16)]

/-- FW_UPDATE_VERIFY (R439). -/
def execFwUpdateVerify (r : Req) (image : Option Nat) (s : State) : Host.Outcome State Fault Refusal :=
  .next (agmirRow s r (wantWrite 4) (fun t path p =>
    let x := doWrite t path p
    if x.2.status = 0 then (verifyImage x.1 image, x.2) else x))

/-- REMOVAL_REQUEST (R519). -/
def execRemovalRequest (r : Req) (s : State) : Host.Outcome State Fault Refusal := .next (dictRow 5 r s)
/-- REMOVAL_COMMIT (R519). -/
def execRemovalCommit (r : Req) (s : State) : Host.Outcome State Fault Refusal := .next (dictRow 6 r s)
/-- REMOVAL_WITHDRAW (R519). -/
def execRemovalWithdraw (r : Req) (s : State) : Host.Outcome State Fault Refusal := .next (dictRow 7 r s)
/-- DEVICE_RESET_NO_ACTION (R487). -/
def execDeviceResetNoAction (r : Req) (s : State) : Host.Outcome State Fault Refusal := .next (dictRow 8 r s)
/-- DEVICE_RESET_WARM (R475). -/
def execDeviceResetWarm (r : Req) (s : State) : Host.Outcome State Fault Refusal := .next (dictRow 9 r s)
/-- DEVICE_RESET_COLD (R473, R514). -/
def execDeviceResetCold (r : Req) (s : State) : Host.Outcome State Fault Refusal := .next (dictRow 10 r s)
/-- RESET_REQUEST_LANE (R487). -/
def execResetRequestLane (r : Req) (s : State) : Host.Outcome State Fault Refusal := .next (dictRow 11 r s)
/-- RESET_REQUEST_PORT (R487). -/
def execResetRequestPort (r : Req) (s : State) : Host.Outcome State Fault Refusal := .next (dictRow 12 r s)
/-- RESET_REQUEST_ENGINE (R487). -/
def execResetRequestEngine (r : Req) (s : State) : Host.Outcome State Fault Refusal := .next (dictRow 13 r s)
/-- RESET_REQUEST_PARTITION (R487). -/
def execResetRequestPartition (r : Req) (s : State) : Host.Outcome State Fault Refusal := .next (dictRow 14 r s)
/-- MAINTENANCE_HOLD_RELEASE (R476). -/
def execMaintenanceHoldRelease (r : Req) (s : State) : Host.Outcome State Fault Refusal := .next (dictRow 15 r s)
/-- MAINTENANCE_HOLD_SET (R476). -/
def execMaintenanceHoldSet (r : Req) (s : State) : Host.Outcome State Fault Refusal := .next (dictRow 16 r s)
/-- OWNER_ACTIVATE (R410). -/
def execOwnerActivate (r : Req) (s : State) : Host.Outcome State Fault Refusal := .next (dictRow 17 r s)
/-- OWNER_PREEMPT (R410, R411). -/
def execOwnerPreempt (r : Req) (s : State) : Host.Outcome State Fault Refusal := .next (dictRow 18 r s)
/-- OWNER_RESUME (R410). -/
def execOwnerResume (r : Req) (s : State) : Host.Outcome State Fault Refusal := .next (dictRow 19 r s)
/-- OWNER_RESET (R493). -/
def execOwnerReset (r : Req) (s : State) : Host.Outcome State Fault Refusal := .next (dictRow 20 r s)
/-- OWNER_FREE (R410). -/
def execOwnerFree (r : Req) (s : State) : Host.Outcome State Fault Refusal := .next (dictRow 21 r s)
/-- FAULT_RING_WRITE (R484). -/
def execFaultRingWrite (r : Req) (s : State) : Host.Outcome State Fault Refusal := .next (dictRow 22 r s)
/-- LOCAL_WINDOW_WRITE (R247). -/
def execLocalWindowWrite (r : Req) (s : State) : Host.Outcome State Fault Refusal := .next (dictRow 23 r s)
/-- REMOTE_WINDOW_WRITE (R345). -/
def execRemoteWindowWrite (r : Req) (s : State) : Host.Outcome State Fault Refusal := .next (dictRow 24 r s)
/-- KEY_GENERATE (R262). -/
def execKeyGenerate (r : Req) (s : State) : Host.Outcome State Fault Refusal := .next (dictRow 25 r s)
/-- KEY_ZEROISE (R262). -/
def execKeyZeroise (r : Req) (s : State) : Host.Outcome State Fault Refusal := .next (dictRow 26 r s)
/-- REPAIR_SOFT_ROW (R267). -/
def execRepairSoftRow (r : Req) (s : State) : Host.Outcome State Fault Refusal := .next (dictRow 27 r s)
/-- REPAIR_HARD_ROW (R268). -/
def execRepairHardRow (r : Req) (s : State) : Host.Outcome State Fault Refusal := .next (dictRow 28 r s)
/-- REPAIR_LANE (R268). -/
def execRepairLane (r : Req) (s : State) : Host.Outcome State Fault Refusal := .next (dictRow 29 r s)
/-- MAINT_STACK_ENTER (R268). -/
def execMaintStackEnter (r : Req) (s : State) : Host.Outcome State Fault Refusal := .next (dictRow 30 r s)
/-- MAINT_STACK_END (R269). -/
def execMaintStackEnd (r : Req) (s : State) : Host.Outcome State Fault Refusal := .next (dictRow 31 r s)
/-- IEEE1500_EXECUTE (R269). -/
def execIeee1500Execute (r : Req) (s : State) : Host.Outcome State Fault Refusal := .next (dictRow 32 r s)
/-- POOL_ENABLE (R279). -/
def execPoolEnable (r : Req) (s : State) : Host.Outcome State Fault Refusal := .next (dictRow 33 r s)
/-- POOL_DISABLE (R280). -/
def execPoolDisable (r : Req) (s : State) : Host.Outcome State Fault Refusal := .next (dictRow 34 r s)
/-- POOL_REBUILD (R282). -/
def execPoolRebuild (r : Req) (s : State) : Host.Outcome State Fault Refusal := .next (dictRow 35 r s)
/-- BIST_START (R76). -/
def execBistStart (r : Req) (s : State) : Host.Outcome State Fault Refusal := .next (dictRow 36 r s)
/-- PORT_DISABLE (R329). -/
def execPortDisable (r : Req) (s : State) : Host.Outcome State Fault Refusal := .next (dictRow 37 r s)
/-- PORT_ENABLE (R329). -/
def execPortEnable (r : Req) (s : State) : Host.Outcome State Fault Refusal := .next (dictRow 38 r s)

end Sys2Proof.Machine
end

