-- ==== Sys2Proof/Machine/Thallus.lean ====
section
/-!
DEFINITION. Machine/Thallus.lean: the Thallus on its own: its clock and watchdog (R437, R438), heartbeats and bus-off (R447,
R448), the configuration copies written (R455), telemetry (R466).
-/
namespace Sys2Proof.Machine

/-- Whether the Thallus's firmware, or the boot ROM in its place, runs. -/
def firmwareRuns (s : State) : Bool := s.power.domain && s.startup.main != some 0 && s.startup.main != some 1

/-- HEARTBEAT_SEND (R447). -/
def execHeartbeatSend (s : State) : Host.Outcome State Fault Refusal :=
  .next (if firmwareRuns s then sendFrame s 7 0 Config.ownTag (padTo 12 Config.serialNumber ++ [shownPhase s]) else s)

/-- HEARTBEAT_RECEIVE (R447). -/
def execHeartbeatReceive (f : Frame) (s : State) : Host.Outcome State Fault Refusal :=
  .next (
    if ¬ firmwareRuns s ∨ s.th.busOff then s
    else if ¬ f.fd ∨ ¬ f.ext then bump s 0x200108 1
    else if frClass f ≠ 7 ∨ frSrc f ≠ nodeId s ∨ f.data.take 12 = padTo 12 Config.serialNumber then s
    else raiseDev { s with th := { s.th with conflict := true } } 0xC011 srcThallus [(frSrc f, 8), (leNat (f.data.take 12), 96)])

/-- CAN_BUS_OFF (R448): the controller's error counters go into the record. -/
def execCanBusOff (s : State) : Host.Outcome State Fault Refusal :=
  .next (
    if ¬ s.power.domain ∨ s.th.busOff then s
    else
      let a := Config.freeValue s.free
      let b := Config.freeValue (s.free + 1)
      raiseDev { s with free := s.free + 2, th := { s.th with busOff := true } } 0xC00F srcThallus [(a, 16), (b, 16)])

/-- CAN_BUS_OFF_RECOVERY (R448). -/
def execCanBusOffRecovery (s : State) : Host.Outcome State Fault Refusal := .next { s with th := { s.th with busOff := false } }

/-- Whether the Thallus has nothing to do. -/
def thallusIdle (s : State) : Bool :=
  s.th.batch.isEmpty && s.th.batchReplies.isEmpty && s.th.transfers.isEmpty && s.th.assembled.isEmpty && s.th.mbStatus != 1

/-- CK_TH_IDLE_STOP (R437). -/
def execCkThIdleStop (s : State) : Host.Outcome State Fault Refusal :=
  .next (if thallusIdle s then { s with th := { s.th with ckRuns := false } } else s)

/-- THALLUS_WATCHDOG (R438): the retention SRAM and what the units do go on. -/
def execThallusWatchdog (s : State) : Host.Outcome State Fault Refusal :=
  .next (
    if ¬ firmwareRuns s then s
    else
      let s1 := runImage (bump s 0x200001 1) [true, true]
      let s2 := { s1 with
        free := s1.free + 1
        th := { s1.th with ckRuns := true, transfers := [], assembled := [], batchReplies := [], session := none,
                           mbStatus := if s1.th.mbStatus = 1 then 0 else s1.th.mbStatus } }
      raiseDev s2 0xC004 srcThallus [(Config.freeValue s1.free, 16)])

/-! ### The configuration copies (R455) -/

/-- A copy slot written and verified, tried twice: the copy it then holds, whether it failed, and the verifications left. -/
def writeSlot (c : Copy) : List Bool → Copy × Bool × List Bool
  | [] => (c, false, [])
  | true :: r => (c, false, r)
  | false :: r => ({ c with valid := r.headD true }, !(r.headD true), r.drop 1)

/-- A copy slot set, with fault 0xC003 where it failed. -/
def putSlot (s : State) (slot : Nat) (x : Copy × Bool × List Bool) : State :=
  let s1 := { s with th := if slot = 0 then { s.th with copyA := x.1 } else { s.th with copyB := x.1 } }
  if x.2.1 then raiseDev s1 0xC003 srcThallus [(slot, 16)] else s1

/-- The batch written to both slots, the one of the lower sequence first. -/
def storeBatch (s : State) (verify : List Bool) : State :=
  let n := newestCopy s
  let c := putStored { n with valid := true } s.th.batch
  let first := if slotAFirst s then 0 else 1
  let x := writeSlot { c with seq := n.seq + 1 } verify
  let y := writeSlot { c with seq := n.seq + 2 } x.2.2
  putSlot (putSlot s first x) (1 - first) y

/-- The writes of a batch acknowledged, each on its path. -/
def sendReplies : List (Path × List Nat) → State → State
  | [], s => s
  | x :: r, s =>
    sendReplies r (match x.1 with
      | .host => answerHost s x.2
      | .field node tag => sendFrame s 1 node tag x.2)

/-- CONFIG_BATCH_STORE (R455), with what each reading back finds in turn. -/
def execConfigBatchStore (verify : List Bool) (s : State) : Host.Outcome State Fault Refusal :=
  .next (
    if ¬ firmwareRuns s ∨ s.th.batch = [] then s
    else
      let s1 := storeBatch s verify
      sendReplies s.th.batchReplies { s1 with th := { s1.th with batch := [], batchReplies := [], ckRuns := true } })

/-! ### Telemetry (R466) -/

/-- The telemetry frame (Table 14-10). -/
def telemetryFrame (s : State) : Nat :=
  let m := s.power
  fld s.clock.ns 448 64 + fld (m.inputMv / 10) 432 16 + fld m.powerW 416 16 + fld (word16 (hottest m.dieTemps).1) 400 16 +
  fld (word16 (hottest m.hbmTemps).1) 384 16 + fld (word16 m.inlet) 368 16 + fld (word16 m.outlet) 352 16 +
  fld m.ckMx 336 16 + fld (min s.log.raised 0xFFFF) 320 16 + fld (shownPhase s) 312 8

/-- TELEMETRY_FRAME_SEND (R466). -/
def execTelemetryFrameSend (s : State) : Host.Outcome State Fault Refusal :=
  .next (
    if ¬ firmwareRuns s ∨ ¬ s.th.serving ∨ ent s 0x2D0801 = 0 then s
    else sendFrame { s with th := { s.th with ckRuns := true } } 6 0 Config.ownTag (natLe 64 (telemetryFrame s)))

end Sys2Proof.Machine
end

