-- ==== Sys2Proof/Machine/Dispatch.lean ====
section
/-!
DEFINITION. Machine/Dispatch.lean: what each command does to everything but the queue of waiting commands, one arm per row of
the table.
-/
namespace Sys2Proof.Machine

/-- The effect of a command. -/
def exec (i : Instr) (s : State) : Host.Outcome State Fault Refusal :=
  match i with
  | .agmirRead r => Sys2Proof.Machine.execAgmirRead r s
  | .agmirWrite r => Sys2Proof.Machine.execAgmirWrite r s
  | .serviceOpen r => Sys2Proof.Machine.execServiceOpen r s
  | .serviceProof r proof => Sys2Proof.Machine.execServiceProof r proof s
  | .serviceClose r => Sys2Proof.Machine.execServiceClose r s
  | .agmirSegment f => Sys2Proof.Machine.execAgmirSegment f s
  | .agmirTransferTimeout node => Sys2Proof.Machine.execAgmirTransferTimeout node s
  | .mbStatusRead => Sys2Proof.Machine.execMbStatusRead s
  | .serviceSessionTimeout => Sys2Proof.Machine.execServiceSessionTimeout s
  | .heartbeatSend => Sys2Proof.Machine.execHeartbeatSend s
  | .heartbeatReceive f => Sys2Proof.Machine.execHeartbeatReceive f s
  | .canBusOff => Sys2Proof.Machine.execCanBusOff s
  | .ckThIdleStop => Sys2Proof.Machine.execCkThIdleStop s
  | .thallusWatchdog => Sys2Proof.Machine.execThallusWatchdog s
  | .fwUpdateBegin r => Sys2Proof.Machine.execFwUpdateBegin r s
  | .fwUpdateData r => Sys2Proof.Machine.execFwUpdateData r s
  | .fwUpdateVerify r image => Sys2Proof.Machine.execFwUpdateVerify r image s
  | .configBatchStore verify => Sys2Proof.Machine.execConfigBatchStore verify s
  | .sensorSample x => Sys2Proof.Machine.execSensorSample x s
  | .telemetryFrameSend => Sys2Proof.Machine.execTelemetryFrameSend s
  | .pllLockLoss domain => Sys2Proof.Machine.execPllLockLoss domain s
  | .frondWakeDone frond => Sys2Proof.Machine.execFrondWakeDone frond s
  | .frondWakeFail frond => Sys2Proof.Machine.execFrondWakeFail frond s
  | .frondIdlePowerdown frond => Sys2Proof.Machine.execFrondIdlePowerdown frond s
  | .inputValid mv => Sys2Proof.Machine.execInputValid mv s
  | .inputLoss => Sys2Proof.Machine.execInputLoss s
  | .startupPhaseEnd phase x => Sys2Proof.Machine.execStartupPhaseEnd phase x s
  | .startupPhaseTimeout phase => Sys2Proof.Machine.execStartupPhaseTimeout phase s
  | .railSequenceStep rail => Sys2Proof.Machine.execRailSequenceStep rail s
  | .railFault rail mv => Sys2Proof.Machine.execRailFault rail mv s
  | .inputUndervoltage mv => Sys2Proof.Machine.execInputUndervoltage mv s
  | .inputOvervoltage mv => Sys2Proof.Machine.execInputOvervoltage mv s
  | .inputOvercurrent ma => Sys2Proof.Machine.execInputOvercurrent ma s
  | .inputRecoveryRestart => Sys2Proof.Machine.execInputRecoveryRestart s
  | .seatedOpen => Sys2Proof.Machine.execSeatedOpen s
  | .seatedClose => Sys2Proof.Machine.execSeatedClose s
  | .buttonPress ms => Sys2Proof.Machine.execButtonPress ms s
  | .buttonHold => Sys2Proof.Machine.execButtonHold s
  | .removalRequest r => Sys2Proof.Machine.execRemovalRequest r s
  | .removalCommit r => Sys2Proof.Machine.execRemovalCommit r s
  | .removalWithdraw r => Sys2Proof.Machine.execRemovalWithdraw r s
  | .portSignalDetect port => Sys2Proof.Machine.execPortSignalDetect port s
  | .pluggableInsert cage mw => Sys2Proof.Machine.execPluggableInsert cage mw s
  | .perstAssert => Sys2Proof.Machine.execPerstAssert s
  | .perstDeassert => Sys2Proof.Machine.execPerstDeassert s
  | .pcieHotReset => Sys2Proof.Machine.execPcieHotReset s
  | .flrPf => Sys2Proof.Machine.execFlrPf s
  | .flrVf vf => Sys2Proof.Machine.execFlrVf vf s
  | .pcieLinkChange up gen width => Sys2Proof.Machine.execPcieLinkChange up gen width s
  | .vfEnable count => Sys2Proof.Machine.execVfEnable count s
  | .deviceResetNoAction r => Sys2Proof.Machine.execDeviceResetNoAction r s
  | .deviceResetWarm r => Sys2Proof.Machine.execDeviceResetWarm r s
  | .deviceResetCold r => Sys2Proof.Machine.execDeviceResetCold r s
  | .resetRequestLane r => Sys2Proof.Machine.execResetRequestLane r s
  | .resetRequestPort r => Sys2Proof.Machine.execResetRequestPort r s
  | .resetRequestEngine r => Sys2Proof.Machine.execResetRequestEngine r s
  | .resetRequestPartition r => Sys2Proof.Machine.execResetRequestPartition r s
  | .resetComplete => Sys2Proof.Machine.execResetComplete s
  | .resetBoundExpired => Sys2Proof.Machine.execResetBoundExpired s
  | .engineWatchdog unit inst => Sys2Proof.Machine.execEngineWatchdog unit inst s
  | .maintenanceHoldSet r => Sys2Proof.Machine.execMaintenanceHoldSet r s
  | .maintenanceHoldRelease r => Sys2Proof.Machine.execMaintenanceHoldRelease r s
  | .submitDoorbell fn size value => Sys2Proof.Machine.execSubmitDoorbell fn size value s
  | .consumedDoorbell fn size value => Sys2Proof.Machine.execConsumedDoorbell fn size value s
  | .descriptorReadReturn q slot => Sys2Proof.Machine.execDescriptorReadReturn q slot s
  | .descriptorAccept q => Sys2Proof.Machine.execDescriptorAccept q s
  | .watermarkWrite q => Sys2Proof.Machine.execWatermarkWrite q s
  | .operationComplete q => Sys2Proof.Machine.execOperationComplete q s
  | .messagePost q => Sys2Proof.Machine.execMessagePost q s
  | .msixHoldoffExpiry q => Sys2Proof.Machine.execMsixHoldoffExpiry q s
  | .journalRetire q => Sys2Proof.Machine.execJournalRetire q s
  | .journalRemirrorDone => Sys2Proof.Machine.execJournalRemirrorDone s
  | .ownerActivate r => Sys2Proof.Machine.execOwnerActivate r s
  | .ownerPreempt r => Sys2Proof.Machine.execOwnerPreempt r s
  | .ownerResume r => Sys2Proof.Machine.execOwnerResume r s
  | .ownerReset r => Sys2Proof.Machine.execOwnerReset r s
  | .ownerFree r => Sys2Proof.Machine.execOwnerFree r s
  | .drainCensusComplete owner => Sys2Proof.Machine.execDrainCensusComplete owner s
  | .censusTimeout owner => Sys2Proof.Machine.execCensusTimeout owner s
  | .revocationWalkDone owner => Sys2Proof.Machine.execRevocationWalkDone owner s
  | .faultLogPageTaken => Sys2Proof.Machine.execFaultLogPageTaken s
  | .faultRingWrite r => Sys2Proof.Machine.execFaultRingWrite r s
  | .countersClear r => Sys2Proof.Machine.execCountersClear r s
  | .localWindowWrite r => Sys2Proof.Machine.execLocalWindowWrite r s
  | .remoteWindowWrite r => Sys2Proof.Machine.execRemoteWindowWrite r s
  | .keyGenerate r => Sys2Proof.Machine.execKeyGenerate r s
  | .keyZeroise r => Sys2Proof.Machine.execKeyZeroise r s
  | .repairSoftRow r => Sys2Proof.Machine.execRepairSoftRow r s
  | .repairHardRow r => Sys2Proof.Machine.execRepairHardRow r s
  | .repairLane r => Sys2Proof.Machine.execRepairLane r s
  | .repairDone result => Sys2Proof.Machine.execRepairDone result s
  | .maintStackEnter r => Sys2Proof.Machine.execMaintStackEnter r s
  | .maintStackEnd r => Sys2Proof.Machine.execMaintStackEnd r s
  | .ieee1500Execute r => Sys2Proof.Machine.execIeee1500Execute r s
  | .ieee1500ShiftDone data => Sys2Proof.Machine.execIeee1500ShiftDone data s
  | .patrolScrub found passEnd => Sys2Proof.Machine.execPatrolScrub found passEnd s
  | .pcRetrainFailure pc => Sys2Proof.Machine.execPcRetrainFailure pc s
  | .poolEnable r => Sys2Proof.Machine.execPoolEnable r s
  | .poolDisable r => Sys2Proof.Machine.execPoolDisable r s
  | .poolRebuild r => Sys2Proof.Machine.execPoolRebuild r s
  | .poolBuildDone pool => Sys2Proof.Machine.execPoolBuildDone pool s
  | .headCacheRefill pool => Sys2Proof.Machine.execHeadCacheRefill pool s
  | .poolAuditScan => Sys2Proof.Machine.execPoolAuditScan s
  | .deadlockSample => Sys2Proof.Machine.execDeadlockSample s
  | .stepArrivalSend p peers grads => Sys2Proof.Machine.execStepArrivalSend p peers grads s
  | .gatedOpStart q => Sys2Proof.Machine.execGatedOpStart q s
  | .placementDecision p layer peers => Sys2Proof.Machine.execPlacementDecision p layer peers s
  | .reshardRound2 p votes => Sys2Proof.Machine.execReshardRound2 p votes s
  | .grouped q => Sys2Proof.Machine.execGrouped q s
  | .matrix q => Sys2Proof.Machine.execMatrix q s
  | .walkerStartCondition q => Sys2Proof.Machine.execWalkerStartCondition q s
  | .chainStart q chain => Sys2Proof.Machine.execChainStart q chain s
  | .chainComplete q chain => Sys2Proof.Machine.execChainComplete q chain s
  | .earlyStart q => Sys2Proof.Machine.execEarlyStart q s
  | .arrayRegParity band => Sys2Proof.Machine.execArrayRegParity band s
  | .arrayFrontCheck band counts => Sys2Proof.Machine.execArrayFrontCheck band counts s
  | .bistStart r => Sys2Proof.Machine.execBistStart r s
  | .bistDone result => Sys2Proof.Machine.execBistDone result s
  | .vectorRegParity vcore => Sys2Proof.Machine.execVectorRegParity vcore s
  | .sfuTableParity vcore => Sys2Proof.Machine.execSfuTableParity vcore s
  | .tileStoreDoubleError offset => Sys2Proof.Machine.execTileStoreDoubleError offset s
  | .vectorAdd q => Sys2Proof.Machine.execVectorAdd q s
  | .vectorMul q => Sys2Proof.Machine.execVectorMul q s
  | .vectorFma q => Sys2Proof.Machine.execVectorFma q s
  | .vectorMin q => Sys2Proof.Machine.execVectorMin q s
  | .vectorMax q => Sys2Proof.Machine.execVectorMax q s
  | .vectorConvert q => Sys2Proof.Machine.execVectorConvert q s
  | .vectorExp q => Sys2Proof.Machine.execVectorExp q s
  | .vectorExp2 q => Sys2Proof.Machine.execVectorExp2 q s
  | .vectorLn q => Sys2Proof.Machine.execVectorLn q s
  | .vectorLog2 q => Sys2Proof.Machine.execVectorLog2 q s
  | .vectorRecip q => Sys2Proof.Machine.execVectorRecip q s
  | .vectorRsqrt q => Sys2Proof.Machine.execVectorRsqrt q s
  | .rowSum q => Sys2Proof.Machine.execRowSum q s
  | .rowMax q => Sys2Proof.Machine.execRowMax q s
  | .mean q => Sys2Proof.Machine.execMean q s
  | .variance q => Sys2Proof.Machine.execVariance q s
  | .rms q => Sys2Proof.Machine.execRms q s
  | .normApply q => Sys2Proof.Machine.execNormApply q s
  | .rmsApply q => Sys2Proof.Machine.execRmsApply q s
  | .gatedUnit q => Sys2Proof.Machine.execGatedUnit q s
  | .softmaxNormalise q => Sys2Proof.Machine.execSoftmaxNormalise q s
  | .softmaxTileD1 q => Sys2Proof.Machine.execSoftmaxTileD1 q s
  | .maskedMul q => Sys2Proof.Machine.execMaskedMul q s
  | .dmaPlainCopy q => Sys2Proof.Machine.execDmaPlainCopy q s
  | .dmaCompressStrict q => Sys2Proof.Machine.execDmaCompressStrict q s
  | .dmaCompressPrune q => Sys2Proof.Machine.execDmaCompressPrune q s
  | .dmaCompressRle q => Sys2Proof.Machine.execDmaCompressRle q s
  | .dmaExpand24 q => Sys2Proof.Machine.execDmaExpand24 q s
  | .dmaExpandRle q => Sys2Proof.Machine.execDmaExpandRle q s
  | .groupFence q => Sys2Proof.Machine.execGroupFence q s
  | .syncInit q => Sys2Proof.Machine.execSyncInit q s
  | .syncFree q => Sys2Proof.Machine.execSyncFree q s
  | .barrierArrive q => Sys2Proof.Machine.execBarrierArrive q s
  | .flagSet q => Sys2Proof.Machine.execFlagSet q s
  | .flagClear q => Sys2Proof.Machine.execFlagClear q s
  | .counterAdd q => Sys2Proof.Machine.execCounterAdd q s
  | .counterWrite q => Sys2Proof.Machine.execCounterWrite q s
  | .watch q => Sys2Proof.Machine.execWatch q s
  | .unwatch q => Sys2Proof.Machine.execUnwatch q s
  | .syncRead q => Sys2Proof.Machine.execSyncRead q s
  | .taskBegin q => Sys2Proof.Machine.execTaskBegin q s
  | .taskEnd q => Sys2Proof.Machine.execTaskEnd q s
  | .wait q => Sys2Proof.Machine.execWait q s
  | .poolAllocate q => Sys2Proof.Machine.execPoolAllocate q s
  | .poolAcquire q => Sys2Proof.Machine.execPoolAcquire q s
  | .poolRelease q => Sys2Proof.Machine.execPoolRelease q s
  | .dispatch q => Sys2Proof.Machine.execDispatch q s
  | .dispatchChunkStart q => Sys2Proof.Machine.execDispatchChunkStart q s
  | .cardReturn q => Sys2Proof.Machine.execCardReturn q s
  | .returnChunkStart q => Sys2Proof.Machine.execReturnChunkStart q s
  | .combine q => Sys2Proof.Machine.execCombine q s
  | .combineChunkStart q => Sys2Proof.Machine.execCombineChunkStart q s
  | .scatter q => Sys2Proof.Machine.execScatter q s
  | .scatterChunkStart q => Sys2Proof.Machine.execScatterChunkStart q s
  | .gradCombine q => Sys2Proof.Machine.execGradCombine q s
  | .release q => Sys2Proof.Machine.execRelease q s
  | .allReduce q peers => Sys2Proof.Machine.execAllReduce q peers s
  | .reduceScatter q peers => Sys2Proof.Machine.execReduceScatter q peers s
  | .allGather q peers => Sys2Proof.Machine.execAllGather q peers s
  | .broadcast q peers => Sys2Proof.Machine.execBroadcast q peers s
  | .closing q peers => Sys2Proof.Machine.execClosing q peers s
  | .placeInit q peers => Sys2Proof.Machine.execPlaceInit q peers s
  | .layerEnterForward q peers => Sys2Proof.Machine.execLayerEnterForward q peers s
  | .layerExitForward q peers => Sys2Proof.Machine.execLayerExitForward q peers s
  | .layerEnterBackward q peers => Sys2Proof.Machine.execLayerEnterBackward q peers s
  | .layerExitBackward q peers => Sys2Proof.Machine.execLayerExitBackward q peers s
  | .atomicAdd q => Sys2Proof.Machine.execAtomicAdd q s
  | .atomicFadd q => Sys2Proof.Machine.execAtomicFadd q s
  | .atomicSwap q => Sys2Proof.Machine.execAtomicSwap q s
  | .atomicCas q => Sys2Proof.Machine.execAtomicCas q s
  | .atomicAnd q => Sys2Proof.Machine.execAtomicAnd q s
  | .atomicOr q => Sys2Proof.Machine.execAtomicOr q s
  | .atomicXor q => Sys2Proof.Machine.execAtomicXor q s
  | .atomicSmin q => Sys2Proof.Machine.execAtomicSmin q s
  | .atomicSmax q => Sys2Proof.Machine.execAtomicSmax q s
  | .atomicUmin q => Sys2Proof.Machine.execAtomicUmin q s
  | .atomicUmax q => Sys2Proof.Machine.execAtomicUmax q s
  | .flcInvalidate q => Sys2Proof.Machine.execFlcInvalidate q s
  | .nop q => Sys2Proof.Machine.execNop q s
  | .queueCreate q => Sys2Proof.Machine.execQueueCreate q s
  | .queueDestroy q => Sys2Proof.Machine.execQueueDestroy q s
  | .queueQuery q => Sys2Proof.Machine.execQueueQuery q s
  | .portEnable r => Sys2Proof.Machine.execPortEnable r s
  | .portDisable r => Sys2Proof.Machine.execPortDisable r s
  | .portTrainingComplete port rate lanes => Sys2Proof.Machine.execPortTrainingComplete port rate lanes s
  | .portTrainingFailed port => Sys2Proof.Machine.execPortTrainingFailed port s
  | .identityRecordReceive port record => Sys2Proof.Machine.execIdentityRecordReceive port record s
  | .linkFlitReceive port flit => Sys2Proof.Machine.execLinkFlitReceive port flit s
  | .replayRequest port seq => Sys2Proof.Machine.execReplayRequest port seq s
  | .laneLossOfLock port lane => Sys2Proof.Machine.execLaneLossOfLock port lane s
  | .laneRetrained port lane => Sys2Proof.Machine.execLaneRetrained port lane s
  | .peerSilentTimeout port => Sys2Proof.Machine.execPeerSilentTimeout port s
  | .load port k ecc => Sys2Proof.Machine.execLoad port k ecc s
  | .loadData port k => Sys2Proof.Machine.execLoadData port k s
  | .store port k => Sys2Proof.Machine.execStore port k s
  | .atomicPacket port k => Sys2Proof.Machine.execAtomicPacket port k s
  | .atomicResult port k => Sys2Proof.Machine.execAtomicResult port k s
  | .atomicRelease port k => Sys2Proof.Machine.execAtomicRelease port k s
  | .copyData port k => Sys2Proof.Machine.execCopyData port k s
  | .syncPacket port k => Sys2Proof.Machine.execSyncPacket port k s
  | .watchMessage port k => Sys2Proof.Machine.execWatchMessage port k s
  | .cardRowForward port k => Sys2Proof.Machine.execCardRowForward port k s
  | .cardRowBackward port k => Sys2Proof.Machine.execCardRowBackward port k s
  | .cardRowReturn port k => Sys2Proof.Machine.execCardRowReturn port k s
  | .cardFillForward port k => Sys2Proof.Machine.execCardFillForward port k s
  | .cardFillBackward port k => Sys2Proof.Machine.execCardFillBackward port k s
  | .relayPacketReceive port k => Sys2Proof.Machine.execRelayPacketReceive port k s
  | .relayForward held => Sys2Proof.Machine.execRelayForward held s
  | .lateFault port k => Sys2Proof.Machine.execLateFault port k s
  | .flowAck port k => Sys2Proof.Machine.execFlowAck port k s
  | .flowAckTimer flow => Sys2Proof.Machine.execFlowAckTimer flow s
  | .e2eTimeout flow => Sys2Proof.Machine.execE2eTimeout flow s
  | .flowResetRetry flow => Sys2Proof.Machine.execFlowResetRetry flow s
  | .flowReset port k => Sys2Proof.Machine.execFlowReset port k s
  | .creditWithholdExpiry flow => Sys2Proof.Machine.execCreditWithholdExpiry flow s
  | .epochNotice port k => Sys2Proof.Machine.execEpochNotice port k s
  | .epochClose port k => Sys2Proof.Machine.execEpochClose port k s
  | .epochClosed port k => Sys2Proof.Machine.execEpochClosed port k s
  | .getS port k rivals => Sys2Proof.Machine.execGetS port k rivals s
  | .getM port k rivals => Sys2Proof.Machine.execGetM port k rivals s
  | .data port k => Sys2Proof.Machine.execData port k s
  | .inv port k => Sys2Proof.Machine.execInv port k s
  | .invAck port k => Sys2Proof.Machine.execInvAck port k s
  | .recall port k => Sys2Proof.Machine.execRecall port k s
  | .putM port k => Sys2Proof.Machine.execPutM port k s
  | .retryAfter port k => Sys2Proof.Machine.execRetryAfter port k s
  | .retryAfterExpiry request => Sys2Proof.Machine.execRetryAfterExpiry request s
  | .timeSyncSend => Sys2Proof.Machine.execTimeSyncSend s
  | .timeSync port k => Sys2Proof.Machine.execTimeSync port k s
  | .ptpMessage port m => Sys2Proof.Machine.execPtpMessage port m s
  | .ptpLockLost => Sys2Proof.Machine.execPtpLockLost s
  | .attest port k m => Sys2Proof.Machine.execAttest port k m s
  | .attestRetry device => Sys2Proof.Machine.execAttestRetry device s
  | .canBusOffRecovery => Sys2Proof.Machine.execCanBusOffRecovery s
  | .mainRailsMayStart mv => Sys2Proof.Machine.execMainRailsMayStart mv s
  | .configurationRequest => Sys2Proof.Machine.execConfigurationRequest s
  | .priorityFlowControl port priority quanta => Sys2Proof.Machine.execPriorityFlowControl port priority quanta s
  | .remoteSourceCopy port k => Sys2Proof.Machine.execRemoteSourceCopy port k s

end Sys2Proof.Machine
end

