-- ==== Sys2Proof/Machine/Idle.lean ====
section
/-!
DEFINITION. Machine/Idle.lean: what passes when no command waits: one microsecond of the device's clocks (DESIGN CHOICE,
log entry 2).
-/
namespace Sys2Proof.Machine

/-- Nanoseconds of a microsecond of device time, steered by the rate (R365). -/
def tickNs (s : State) : Nat :=
  let u : Int := (s.clock.us : Int)
  (1000 + ((u + 1) * s.fab.rateAdj / 1000 - u * s.fab.rateAdj / 1000)).toNat

/-- Bytes that a port sends in a microsecond, from its lanes in service and their rate. -/
def portMicro (x : Port) : Nat := popCount x.lanes 32 * x.rate / 8

/-- A microsecond of a port: bytes leave its queue, and a pause runs out (R363). -/
def portTick (s : State) (p : Nat) : State :=
  let x := portOf s p
  let s1 := if x.queued = 0 then s else modPort s p (fun y => { y with queued := y.queued - portMicro y })
  if x.pause = 0 then s1
  else if x.pause ≤ 1000 then endPause s1 p
  else modPort s1 p (fun y => { y with pause := y.pause - 1000 })

/-- What is counted per second starts again: faults raised once, notices, and frames of a node. -/
def secondTick (s : State) : State :=
  { s with
    fab := { s.fab with untrustedRaised := [] }
    th := { s.th with authRaised := [], filterRaised := false, frameCount := [], noticesThisSecond := 0 } }

/-- An idle step: device time and up-time advance by one microsecond while the Thallus domain has power (R365, R466). -/
def idleTick (s : State) : State :=
  if ¬ s.power.domain then s
  else
    let s1 := { s with clock := { s.clock with ns := (s.clock.ns + tickNs s) % 2 ^ 64, us := s.clock.us + 1 } }
    let s2 := (List.range 21).foldl portTick s1
    if s2.clock.us % 1000000 = 0 then secondTick s2 else s2

end Sys2Proof.Machine
end

