-- ==== Sys2Proof/Safety.lean ====
section
/-!
DEFINITION. Safety.lean: what counts as a safe run, and the terms in which claims about commands are stated.
-/
namespace Sys2Proof.Machine

/-- A step goes on: it answers a next state. -/
def StepsOn (s : State) : Prop := ∃ t, step s = .next t

/-- Data memory is in its one canonical form. -/
def MemOk (s : State) : Prop := Memory.wf s.mem = true

/-- A command completes in a state, and the next state is one of which p holds. -/
def Runs (c : Instr) (s : State) (p : State → Prop) : Prop := ∃ t, exec c s = .next t ∧ p t

/-- The operation of a queue with a sequence number, among those accepted and not retired. -/
def opAt (s : State) (q n : Nat) : Option Op := (queueOf s q).bind (fun x => x.ops.find? (fun o => o.seq == n))

/-- An operation's run has ended with a status of Table 13-11; its completion is still to be posted. -/
def Finished (s : State) (q n st : Nat) : Prop := ∃ y, opAt s q n = some y ∧ y.progress = .finished ∧ y.status = st

/-- Every queue but one is as it was. -/
def OtherQueues (q : Nat) (s t : State) : Prop := ∀ r, r ≠ q → queueOf t r = queueOf s r

/-! ### Requests to the dictionary -/

/-- A request reaches the checks of its own row: on a path, as a PDU, in the state that framing, the filter and
authentication leave (R440 to R451). -/
def Delivers (s : State) (r : Req) (path : Path) (p : Pdu) (u : State) : Prop :=
  match r with
  | .mailbox doorbell b =>
    path = .host ∧ p = parsePdu (padTo 8192 b) ∧ doorbell = 1 ∧ mailboxServes s = true ∧ s.th.mbStatus ≠ 1 ∧ mbBad p = false ∧
      u = { s with th := { s.th with mbRequest := b, ckRuns := true } }
  | .field f =>
    path = .field (frSrc f) (frTag f) ∧ p = parsePdu f.data ∧ fieldHears s = true ∧ f.fd = true ∧ f.ext = true ∧
      filterCheck s f p = none ∧ servesPdu s p = true ∧ pdSegmented p = false ∧
      authBad (countFrame s (frSrc f)) (frSrc f) p = none ∧ u = acceptCounter (countFrame s (frSrc f)) (frSrc f) p ∧
      inTransfer (countFrame s (frSrc f)) (frSrc f) = false
  | .assembled node => ∃ (tag : Nat) (b : List Nat) (v : State), tget? s.th.assembled node = some (tag, b) ∧
      path = .field node tag ∧ p = parsePdu b ∧ fieldHears s = true ∧
      v = { s with th := { s.th with assembled := tdel s.th.assembled node } } ∧ authBad v node p = none ∧
      u = acceptCounter v node p ∧ inTransfer v node = false

/-- A WRITE that reaches its row and passes every check of R446. -/
def Writes (s : State) (r : Req) (path : Path) (p : Pdu) (u : State) : Prop :=
  Delivers s r path p u ∧ pdOp p = 2 ∧ indexKnown (pdIndex p) = true ∧
    ∃ e, specOf (pdKey p) = some e ∧ writeStatus u path (pdKey p) e p.value = 0

/-- The image slot that does not run (R439). -/
def spareSlot (s : State) : FwSlot := if s.th.running = 0 then s.th.fw1 else s.th.fw0

/-- The Thallus with what taking in and answering requests may change: its clock, the mailbox, and the counts and counters kept of
the nodes of the field port. -/
def servedTh (a b : Thallus) : Thallus :=
  { a with
    ckRuns := b.ckRuns, mbRequest := b.mbRequest, mbResponse := b.mbResponse, mbStatus := b.mbStatus
    topCounter := b.topCounter, acceptedWrites := b.acceptedWrites, frameCount := b.frameCount, assembled := b.assembled
    copyA := b.copyA, copyB := b.copyB }

/-- A state is another one but for a request's having been taken in and answered, and what was sent outside or waits for the
host link. -/
def AnsweredOnly (v t : State) : Prop :=
  t = { v with th := servedTh v.th t.th, host := { v.host with held := t.host.held }, out := t.out }

/-! ### The walker and the array -/

/-- The walk of an operation as the walker plans it: its fill counts read, the longest accumulation length of the bands in service,
and its draws' key (R95). -/
def walkRead (s : State) (q : Nat) (o : Op) (h : Head) (w : Walk) : Walk :=
  { w with
    fills := w.table.map (fun e => (readFills s o.owner w.gcb e).map (·.getD 0))
    mask := jMax s
    opk := opKey (stepKey (pEnt s 0x3020 1 (queuePart s q)) (stepNumber s (queuePart s q))) h.drawOp }

/-- A walk of dense entries whose fill counts are sound has a plan of chains, one or more. -/
def PlanIs (s : State) (q : Nat) (o : Op) (h : Head) (w : Walk) (cs : List Chain) : Prop :=
  (indexed 0 w.table).all (fun x => (fillCheck (detailIdx w x.1) x.2 (readFills s o.owner w.gcb x.2)).isNone) = true ∧
  (∀ e ∈ w.table, enSparse e = false) ∧
  planOf s w.single (gcbStagingSize w.gcb) (walkEntries (walkRead s q o h w)) = .ok cs ∧ cs ≠ []

/-- The walker holds the plan of a queue's operation, which has started and streams nothing yet. -/
def PlannedAs (s t : State) (q : Nat) (o : Op) (h : Head) (w : Walk) (cs : List Chain) : Prop :=
  tget? t.units.walks q = some { walkRead s q o h w with
    chains := cs
    stage := 1 }

/-- Chains complete: what a walk holds once chain i has drained. -/
def chainDone (w : Walk) (i : Nat) : Walk := modChain w i (fun d => { d with state := 2 })

/-! ### Where resets begin -/

/-- A device warm reset has begun (R475): phase P4 runs; memory, pools, queues, the fault log, windows, keys and time stay; no
partition keeps a decision or a job, and no walk, Carding operation or session is left. -/
def WarmBegun (s t : State) (cause : Nat) : Prop :=
  t.startup.main = some 4 ∧ t.startup.hostReady = false ∧ t.startup.rackReady = false ∧ ⟨6, 0xFFF, cause⟩ ∈ t.resets ∧
  t.parts = [] ∧ t.units.walks = [] ∧ t.card = {} ∧ t.th.session = none ∧
  t.mem = s.mem ∧ t.pools = s.pools ∧ t.queues = s.queues ∧ t.log = s.log ∧ t.mc.windows = s.mc.windows ∧
  t.mc.keys = s.mc.keys ∧ t.syu = s.syu ∧ t.clock = s.clock ∧ t.power = s.power ∧ t.pending = s.pending

/-- The main rails are off (R511): memory lists nothing, no queue is left, and no phase runs. -/
def RailsAreOff (t : State) (st : Nat) : Prop :=
  t.power.railState = st ∧ t.power.railsUp = 0 ∧ t.mem.cells = [] ∧ t.mem.tags = [] ∧ t.mem.poison = [] ∧ t.queues = [] ∧
  t.parts = [] ∧ t.host.up = false ∧ t.startup.hostReady = false ∧ t.startup.rackReady = false

/-- A cold start has begun from a phase (R473): the rails are off, no owner, pending value or record is left, and the reset is
noted. -/
def ColdBegun (t : State) (phase cause : Nat) : Prop :=
  RailsAreOff t 0 ∧ t.startup.main = some phase ∧ t.startup.stopped = false ∧ t.owners = [] ∧ t.shadow = [] ∧ t.log = {} ∧
  t.clock = {} ∧ t.resets = [⟨7, 0xFFF, cause⟩] ∧ t.power.railFaults = 0 ∧ t.power.inputFaulted = false ∧ t.power.removal = 0 ∧
  t.power.criticalShut = false ∧ t.power.failedSensors = []

/-! ### The Carding Engine, the Ply Unit and the Placement Engine -/

/-- The head of a queue is a sound operation of a kind of the Carding Engine or Ply Unit, whose unit is awake and which starts: its
record, with the checks of R230 passed and no row too long for a Druner D1. -/
def CardStarts (s : State) (q kind : Nat) (x : Queue) (o : Op) (h : Head) (t : State) (c : Card) : Prop :=
  headKind s q = some kind ∧ frondState s (kindFrond kind) = .on ∧ startHead s q 0x08 0 .ready = .go x o h t ∧
  ptrOk t o.owner (bits o.body 472 40) 128 .read = true ∧ cardCheck t o x.partition (bits o.body 472 40) = .ok c ∧
  ccKind c.ccb = kind ∧ h.twoPhase = false ∧ cardD1Bad t c = none

/-- The state in which an operation of the Carding Engine or Ply Unit comes to its first chunk: its slot map bound and its index
table noted where its kind does so (R209, R211). -/
def cardBegun (t : State) (q : Nat) (o : Op) (c : Card) : State :=
  let u := startIndex (startBinding t o c) o c.ccb
  setCard { u with card := { u.card with groups := u.card.groups + 1 } } q c

/-- An operation of the Carding Engine or Ply Unit runs a chunk from a state, completely, and comes to another state and record;
the operation still runs in it. -/
def ChunkRuns (v : State) (q : Nat) (o : Op) (c : Card) (u : State) (d : Card) : Prop :=
  ∃ r x y h, r = cardChunk q o { s := v, c := { c with waiting := false } } ∧ r.stop = none ∧ d = { r.c with chunk := c.chunk + 1 } ∧
    u = setCard r.s q d ∧ goingHead r.s q 0x08 = some (x, y, h) ∧ y.seq = o.seq

/-! ### The fabric -/

/-- A packet arrives on a port, passes every check of R335, R343, R344 and R362, and is next in the order of its flow (R337),
which holds none back. -/
def PacketPasses (s : State) (port : Nat) (k : Packet) (key : Nat) : Prop :=
  portHears s port = true ∧ k.eth = decide (19 ≤ port) ∧ (k.eth = true → k.dstRack = ownRack s ∧ k.srcRack ≠ ownRack s) ∧
  pkHeaderOk k = true ∧ pkCrcOk k = true ∧ key = keyOfPk k ∧ (k.ty = 0x19 ∨ trustedKey s key = true) ∧
  k.seq = (flowOf s key).rxNext ∧ k.seq < 2 ^ 32 ∧ flowHeld s key = false

/-- A packet for this device that passes, is of an epoch that has not ended, and has no packet waiting behind it in its flow: the
state in which it is counted as applied. -/
def PacketNext (s : State) (port : Nat) (k : Packet) (key : Nat) (u : State) : Prop :=
  PacketPasses s port k key ∧ toRelay s k = false ∧ u = countApplied s key k ∧ heldNext u key = none ∧ stalePk u k = false

end Sys2Proof.Machine
end

