-- ==== Sys2Proof/Certificates/Slice0/Obligations.lean ====
section
/-!
DEFINITION. Certificates/Slice0/Obligations.lean: the statements for the provers.
-/
open Sys2Proof Sys2Proof.Machine

/-- Where the device serves, an 8-byte doorbell write with its reserved bits zero, for a queue whose owner is bound to
that function and neither free nor resetting: with bit 63 clear it leaves the queue reading towards the smallest
number from next_seq up with the low 32 bits written, and no longer stopped; with bit 63 set, where the number it
stands for is among the messages landed and not read, the messages up to it are read. Nothing else of the queue, no
other queue and nothing else of the part changes, but for the slot read that a submit doorbell may send out. It rests
on the model's own choice or reading in log entry 74. -/
def Obligations.DoorbellsMoveTheQueue : Prop :=
  ∀ (s : State) (fn v : Nat) (x : Queue), deviceServes s = true → bits v 52 11 = 0 →
    doorbellOwner s fn (bits v 32 20) = true → queueOf s (bits v 32 20) = some x →
    (bit v 63 = false →
      Runs (.submitDoorbell fn 8 v) s (fun t =>
        queueOf t (bits v 32 20) =
          some { x with target := extend32 x.nextSeq (bits v 0 32), reading := true, stopped := false } ∧
        OtherQueues (bits v 32 20) s t ∧ t = { s with queues := t.queues, host := t.host, out := t.out })) ∧
    (bit v 63 = true → extend32 x.consumed (bits v 0 32) + 1 ≤ x.posted →
      Runs (.consumedDoorbell fn 8 v) s (fun t =>
        queueOf t (bits v 32 20) = some { x with consumed := extend32 x.consumed (bits v 0 32) + 1 } ∧
        OtherQueues (bits v 32 20) s t ∧ t = { s with queues := t.queues }))

/-- Where the device serves: a doorbell write of another size than 8 bytes, or with a bit of 62 to 52 set, only counts one
in 0x2104:06, without wrapping; one for a queue that is not bound to the function counts one there and raises fault
0xB005 of the queue engine with the function and the queue. No queue changes. It rests on the model's own choice or
reading in log entry 74. -/
def Obligations.DoorbellsDiscarded : Prop :=
  ∀ (s : State) (fn size v : Nat), deviceServes s = true →
    (size ≠ 8 ∨ (bits v 52 11 ≠ 0 ∧ bit v 63 = false) →
      exec (.submitDoorbell fn size v) s = .next (bump s 0x210406 1) ∧
        ent (bump s 0x210406 1) 0x210406 = min (ent s 0x210406 + 1) (2 ^ 64 - 1)) ∧
    (size ≠ 8 ∨ (bits v 52 11 ≠ 0 ∧ bit v 63 = true) →
      exec (.consumedDoorbell fn size v) s = .next (bump s 0x210406 1)) ∧
    (bits v 52 11 = 0 → doorbellOwner s fn (bits v 32 20) = false → bit v 63 = false →
      Runs (.submitDoorbell fn 8 v) s (fun t =>
        t = raiseDev (bump s 0x210406 1) 0xB005 srcQueue [(fn, 11), (bits v 32 20, 20)] ∧ t.queues = s.queues))

/-- DESCRIPTOR_READ_RETURN of a queue that reads a ring of the host, where the journal has room and the slot holds the
number of the next slot: the 128 bytes become the last journalled operation of the queue, which reads on only below
its target. DESCRIPTOR_ACCEPT, where the journal accepts and the owner does not reset: the first journalled operation
is the last accepted one, next_seq and both counts of accepted operations go up by one, and a watermark is due.
WATERMARK_WRITE with the host link up: next_seq - 1 is written, 8 bytes little-endian, to the watermark address of the
queue under its owner's function and PASID. Nothing else changes. It rests on the model's own choice or reading in log
entries 73 and 79. -/
def Obligations.DescriptorsAreReadAndAccepted : Prop :=
  ∀ (s : State) (q : Nat) (x : Queue), queueOf s q = some x →
    (∀ b : List Nat, x.reading = true → nextSlot x ≤ x.target → deviceServes s = true → journalRoom s x.partition = true →
      bit x.ctx 277 = false → b.length = 128 → slotSeqOk x (leNat (b.take 64)) (nextSlot x) = true →
      Runs (.descriptorReadReturn q (.bytes b)) s (fun t =>
        queueOf t q = some { x with
          journalled := x.journalled ++ [{ seq := nextSlot x, hdr := leNat (b.take 64), body := leNat (b.drop 64),
                                           owner := qOwner x, epoch := ownerEpoch s (qOwner x) }],
          reading := decide (nextSlot x < x.target) } ∧
        OtherQueues q s t ∧ t = { s with queues := t.queues, host := t.host, out := t.out })) ∧
    (∀ (o : Op) (r : List Op), x.journalled = o :: r → journalAccepts s = true → deviceServes s = true →
      ownerState s (qOwner x) ≠ .resetting →
      Runs (.descriptorAccept q) s (fun t =>
        queueOf t q = some { x with journalled := r, ops := x.ops ++ [{ o with epoch := ownerEpoch s o.owner }],
                                    nextSeq := x.nextSeq + 1, watermarkDue := true } ∧
        ent t 0x210401 = min (ent s 0x210401 + 1) (2 ^ 64 - 1) ∧
        OtherQueues q s t ∧ t = { s with queues := t.queues, dict := t.dict })) ∧
    (x.watermarkDue = true → s.host.up = true →
      Runs (.watermarkWrite q) s (fun t =>
        t.out = s.out ++ [.hostWrite (ownerFn s (qOwner x)) (if qOwner x = 0 then 0 else ownerPasid s (qOwner x))
          (bits x.ctx 320 64) (natLe 8 (x.nextSeq - 1))] ∧
        queueOf t q = some { x with watermarkDue := false } ∧
        OtherQueues q s t ∧ t = { s with queues := t.queues, out := t.out }))

/-- MESSAGE_POST: where the ring of a queue has space and its first held message is not one of a watch while the owner is
pre-empted, that message lands (one more posted) and is no longer held; the others stay in order. MSIX_HOLDOFF_EXPIRY
of a queue whose owner's fault ring holds nothing off: with no vector due the holdoff ends; with one due, a vector of
the queue that exists and the host link up, that vector is signalled to its function and the holdoff starts anew
unless 0x2101:07 is zero. No other queue changes. It rests on the model's own choice or reading in log entry 77. -/
def Obligations.HeldMessagesAndVectors : Prop :=
  ∀ (s : State) (q : Nat) (x : Queue), queueOf s q = some x →
    (∀ (m : Held) (r : List Held), x.held = m :: r → ringSpace x = true → (m.isWatch && msgFrozen s x) = false →
      Runs (.messagePost q) s (fun t =>
        (∃ y, queueOf t q = some y ∧ y.held = r ∧ y.posted = x.posted + 1 ∧ y.ops = x.ops ∧ y.msgSeq = x.msgSeq) ∧
        OtherQueues q s t)) ∧
    ((ownerRec s (qOwner x)).ringHoldoff = false → x.signalDue = false →
      Runs (.msixHoldoffExpiry q) s (fun t =>
        queueOf t q = some { x with holdoff := false, signalDue := false } ∧ OtherQueues q s t ∧
        t = { s with queues := t.queues })) ∧
    ((ownerRec s (qOwner x)).ringHoldoff = false → x.signalDue = true → queueVector s x = true → s.host.up = true →
      Runs (.msixHoldoffExpiry q) s (fun t =>
        t.out = s.out ++ [.msix (ownerFn s (qOwner x)) (bits x.ctx 261 11)] ∧
        queueOf t q = some { x with holdoff := decide (ent s 0x210107 ≠ 0), signalDue := false } ∧ OtherQueues q s t ∧
        t = { s with queues := t.queues, out := t.out }))

/-- JOURNAL_RETIRE with the host link up, where some completed operation of the queue has no completion record waiting for
ring space: the queue keeps exactly the other operations, in order, and the flushing read is sent out.
JOURNAL_REMIRROR_DONE: the stack that the surviving copy was written to holds the second copy, the journal is whole
again and no copy is under way; nothing else changes. It rests on the model's own choice or reading in log entries 79
and 133. -/
def Obligations.JournalRetiresAndIsMirrored : Prop :=
  (∀ (s : State) (q : Nat) (x : Queue), queueOf s q = some x → s.host.up = true →
    x.ops.any (fun o => o.progress == .completed && !recordHeld x o) = true →
    Runs (.journalRetire q) s (fun t =>
      queueOf t q = some { x with ops := x.ops.filter (fun o => !(o.progress == .completed && !recordHeld x o)) } ∧
      .flushRead q ∈ t.out ∧ OtherQueues q s t ∧ t = { s with queues := t.queues, host := t.host, out := t.out })) ∧
  (∀ (s : State) (n : Nat), s.host.journalCopyTo = some n →
    exec .journalRemirrorDone s =
      .next { s with host := { s.host with journalB := n, journalState := 1, journalCopyTo := none } })

/-- The head of a queue, accepted and not started, that is not gated, not two-phase and names no touched byte, starts for
its row where the device serves, its owner is active, the maintenance hold is off, its partition does not reset, its
descriptor passes the checks of a version granted to the queue, the held fronds its opcode needs have not failed, and
no line of the coherent region has to come back first: it is then started, one run more is counted for it, and nothing
else of the part changes. It rests on the model's own choice or reading in log entries 5, 62 and 71. -/
def Obligations.HeadStartsWhen : Prop :=
  ∀ (s : State) (q sub : Nat) (x : Queue) (o : Op), queueOf s q = some x → qHead x = some o → o.progress = .accepted →
    o.rerun = false → deviceServes s = true → ownerState s (qOwner x) = .active → ent s 0x200703 = 0 →
    partResetting s x.partition = false → descCheck (qVersion x) o.hdr o.body = none →
    (headOf x o).gated = false → (headOf x o).twoPhase = false → (headOf x o).touched = false →
    (sub = 0 ∨ subopOf o.body = sub) → (∀ f ∈ heldNeeds (headOf x o).opcode, frondState s f ≠ .failed) →
    (memoryOp (headOf x o).opcode = true → homeHeld s o.owner = false) →
    startHead s q (headOf x o).opcode sub .ready =
      .go x { o with progress := .started } (headOf x o)
        (modOp s q o.seq (fun y => { y with progress := .started, rerun := false, runs := y.runs + 1 }))

/-- Each for a head that starts as its row. NOP finishes done and does nothing else. QUEUE_CREATE on the admin queue of
its owner, with a context free of what R413 and R414 refuse, makes the queue the context names, with the granted
version at most 2, and returns that version as detail. QUEUE_DESTROY on the admin queue, of a queue of the owner other
than the admin queue with nothing accepted and not completed, removes it with its open task. QUEUE_QUERY writes the
64-byte context of the queue it names, zeros where there is none, at a pointer it may write. Each finishes with status
0x01 and leaves everything else. It rests on the model's own choice or reading in log entries 5 and 75. -/
def Obligations.QueueAdministration : Prop :=
  ∀ (s : State) (q : Nat) (x : Queue) (o : Op) (h : Head) (t : State),
    (startHead s q 0x0D 0 .ready = .go x o h t →
      Runs (.nop q) s (fun u => Finished u q o.seq 0x01 ∧ OtherQueues q s u ∧
        u = { s with queues := u.queues, dict := u.dict })) ∧
    (startHead s q 0x0E 0 .ready = .go x o h t → onAdmin t q o = true → contextBad t o.owner o.body = none →
      bits o.body 300 20 ≠ q →
      Runs (.queueCreate q) s (fun u => Finished u q o.seq 0x01 ∧
        queueOf u (bits o.body 300 20) =
          some { ctx := setBits o.body 272 2 (min (bits o.body 272 2) 2), partition := ownerPart s o.owner } ∧
        (∀ r, r ≠ q → r ≠ bits o.body 300 20 → queueOf u r = queueOf s r) ∧
        u = { s with queues := u.queues, dict := u.dict })) ∧
    (startHead s q 0x0F 0 .ready = .go x o h t → onAdmin t q o = true → bits o.body 492 20 ≠ q →
      (∀ y, queueOf s (bits o.body 492 20) = some y → qOwner y = o.owner ∧ qHead y = none) →
      (queueOf s (bits o.body 492 20)).isSome = true → tsorted s.queues = true →
      Runs (.queueDestroy q) s (fun u => Finished u q o.seq 0x01 ∧ queueOf u (bits o.body 492 20) = none ∧
        (∀ r, r ≠ q → r ≠ bits o.body 492 20 → queueOf u r = queueOf s r) ∧
        u = { s with queues := u.queues, dict := u.dict, syu := { s.syu with tasks := tdel s.syu.tasks (bits o.body 492 20) } })) ∧
    (startHead s q 0x10 0 .ready = .go x o h t → ptrOk t o.owner (bits o.body 452 40) 64 .write = true →
      Runs (.queueQuery q) s (fun u => Finished u q o.seq 0x01 ∧
        u.mem = (wr t o.owner (bits o.body 452 40) (natLe 64 (contextOf t (bits o.body 492 20)))).mem ∧ OtherQueues q s u ∧
        u = { s with queues := u.queues, dict := u.dict, mem := u.mem, units := u.units }))

/-- A head that starts as one of these rows, on a well-formed object of the kind the row acts on, of this device and of
its queue's partition, that is ready and named by no watch, finishes with status 0x01. The flag then holds 1, or 0;
the counter holds the exact sum of its value and the signed 64-bit amount where that lies from 0 to 2^64 - 1, or the
value written. The object's other fields (but the time of its last change), every other object and every other queue
stay, and nothing else of the part changes but counters of the dictionary. On a poisoned or abandoned object, the same
operations finish with status 0x02, change no object and count one discarded signal in 0x2A02:09, without wrapping. It
rests on the model's own choice or reading in log entries 5 and 94. -/
def Obligations.FlagAndCounterOperations : Prop :=
  (∀ (s : State) (q : Nat) (x : Queue) (o : Op) (h : Head) (t : State) (v : Nat),
    syLocal t (syDevice o.body) = true → objIn t x.partition (syKind o.body) (syIndex o.body) = true →
    (∀ w ∈ t.syu.watches, wsKey w.2.spec ≠ syKey o.body) →
    (objOf t (syKey o.body)).state = 1 →
    let own : State → Prop := fun u => Finished u q o.seq 0x01 ∧
      (∃ m, objOf u (syKey o.body) = { objOf t (syKey o.body) with value := v, changedAt := m }) ∧
      (∀ j, j ≠ syKey o.body → objOf u j = objOf s j) ∧ OtherQueues q s u ∧
      u = { s with queues := u.queues, dict := u.dict, syu := u.syu }
    (startHead s q 0x06 4 .ready = .go x o h t → syBad 4 o.body = none → v = 1 → Runs (.flagSet q) s own) ∧
    (startHead s q 0x06 5 .ready = .go x o h t → syBad 5 o.body = none → v = 0 → Runs (.flagClear q) s own) ∧
    (startHead s q 0x06 6 .ready = .go x o h t → syBad 6 o.body = none →
      ((objOf t (syKey o.body)).value : Int) + toSigned 64 (syArg o.body) = v → v < 2 ^ 64 → Runs (.counterAdd q) s own) ∧
    (startHead s q 0x06 7 .ready = .go x o h t → syBad 7 o.body = none → v = syArg o.body → Runs (.counterWrite q) s own)) ∧
  (∀ (s : State) (q : Nat) (x : Queue) (o : Op) (h : Head) (t : State) (sub : Nat) (c : Instr),
    (sub, c) ∈ [(4, Instr.flagSet q), (5, .flagClear q), (6, .counterAdd q), (7, .counterWrite q)] →
    startHead s q 0x06 sub .ready = .go x o h t → syBad sub o.body = none → syLocal t (syDevice o.body) = true →
    objIn t x.partition (syKind o.body) (syIndex o.body) = true →
    ((objOf t (syKey o.body)).state = 2 ∨ (objOf t (syKey o.body)).state = 3) →
    ∃ u, exec c s = .next u ∧ Finished u q o.seq 0x02 ∧ u.syu = s.syu ∧
      ent u 0x2A0209 = min (ent t 0x2A0209 + 1) (2 ^ 64 - 1) ∧ u = { s with queues := u.queues, dict := u.dict })

/-- SYNC_INIT by a head that starts, on an object of its partition that is not frozen and is unset, abandoned, or bound to
the requester's owner ID and epoch, is not a step barrier, and is named by no watch: the object is ready, bound to the
owner and epoch of the operation, with remote_ok, participants (barrier) or value (flag: one bit; counter) as the
operation gives them and nothing arrived. SYNC_FREE of a bound or abandoned object that is not frozen, with no watch
and no pending signaller: it is unset with every field zero. Both finish with status 0x01; other objects, other queues
and the rest of the part stay, but counters. It rests on the model's own choice or reading in log entries 5 and 94. -/
def Obligations.ObjectsInitialisedAndFreed : Prop :=
  ∀ (s : State) (q : Nat) (x : Queue) (o : Op) (h : Head) (t : State),
    syLocal t (syDevice o.body) = true → objIn t x.partition (syKind o.body) (syIndex o.body) = true →
    (∀ w ∈ t.syu.watches, wsKey w.2.spec ≠ syKey o.body) →
    (objOf t (syKey o.body)).frozen = false →
    (startHead s q 0x06 1 .ready = .go x o h t → syBad 1 o.body = none → stepPart t (syKey o.body) = none →
      ((objOf t (syKey o.body)).state = 0 ∨ (objOf t (syKey o.body)).state = 3 ∨
        ((objOf t (syKey o.body)).owner = o.owner ∧ (objOf t (syKey o.body)).epoch = o.epoch)) →
      Runs (.syncInit q) s (fun u => Finished u q o.seq 0x01 ∧
        (∃ m, objOf u (syKey o.body) =
          { state := 1, owner := o.owner, epoch := o.epoch, remoteOk := syRemoteOk o.body, changedAt := m
            value := if syKind o.body = 0 then 0 else if syKind o.body = 1 then syArg o.body % 2 else syArg o.body
            participants := if syKind o.body = 0 then syArg o.body % 65536 else 0, reduce := decide (syKind o.body = 0) }) ∧
        (∀ j, j ≠ syKey o.body → objOf u j = objOf s j) ∧ OtherQueues q s u ∧
        u = { s with queues := u.queues, dict := u.dict, syu := u.syu })) ∧
    (startHead s q 0x06 2 .ready = .go x o h t → syBad 2 o.body = none → tsorted t.syu.objs = true →
      ((objOf t (syKey o.body)).state = 3 ∨ ((objOf t (syKey o.body)).state ≠ 0 ∧
        (objOf t (syKey o.body)).owner = o.owner ∧ (objOf t (syKey o.body)).epoch = o.epoch)) →
      watchCount t (syKey o.body) = 0 → pendingSignals t (syKey o.body) = 0 →
      Runs (.syncFree q) s (fun u => Finished u q o.seq 0x01 ∧ objOf u (syKey o.body) = {} ∧
        (∀ j, j ≠ syKey o.body → objOf u j = objOf s j) ∧ OtherQueues q s u ∧
        u = { s with queues := u.queues, dict := u.dict, syu := u.syu }))

/-- A head that starts as BARRIER_ARRIVE at a ready barrier of its partition that is not a step barrier and is named by no
watch, with the barrier's phase as its phase argument, finishes with status 0x01. Where the participants are not yet
all there, the count is added to arrived and the flag bit is ANDed into reduce. Where they are, the phase goes up by
one modulo 65,536, arrived returns to 0, last_reduce is the reduced flag and reduce is set again. Nothing else
changes, but counters. It rests on the model's own choice or reading in log entries 5 and 94. -/
def Obligations.BarrierArrivals : Prop :=
  ∀ (s : State) (q : Nat) (x : Queue) (o : Op) (h : Head) (t : State) (b : SyncObj),
    syLocal t (syDevice o.body) = true → objIn t x.partition (syKind o.body) (syIndex o.body) = true →
    (∀ w ∈ t.syu.watches, wsKey w.2.spec ≠ syKey o.body) →
    startHead s q 0x06 3 .ready = .go x o h t → syBad 3 o.body = none → stepPart t (syKey o.body) = none →
    objOf t (syKey o.body) = b → b.state = 1 → bits (syArg o.body) 16 16 = b.phase →
    (b.arrived + bits (syArg o.body) 0 16 < b.participants →
      Runs (.barrierArrive q) s (fun u => Finished u q o.seq 0x01 ∧
        (∃ m, objOf u (syKey o.body) =
          { b with
            arrived := b.arrived + bits (syArg o.body) 0 16
            reduce := b.reduce && bit (syArg o.body) 32
            changedAt := m }) ∧
        (∀ j, j ≠ syKey o.body → objOf u j = objOf s j) ∧ OtherQueues q s u ∧
        u = { s with queues := u.queues, dict := u.dict, syu := u.syu })) ∧
    (b.arrived + bits (syArg o.body) 0 16 = b.participants →
      Runs (.barrierArrive q) s (fun u => Finished u q o.seq 0x01 ∧
        (∃ m, objOf u (syKey o.body) =
          { b with
            arrived := 0
            phase := (b.phase + 1) % 65536
            reduce := true
            lastReduce := b.reduce && bit (syArg o.body) 32
            changedAt := m }) ∧
        (∀ j, j ≠ syKey o.body → objOf u j = objOf s j) ∧ OtherQueues q s u ∧
        u = { s with queues := u.queues, dict := u.dict, syu := u.syu }))

/-- WATCH by a head that starts, with a well-formed specification that reads clean, an object of this device and of the
partition, a queue of the same owner instance, room in the watch quota and a condition that does not hold: the watch
is held, with its specification, registrant and partition, under the ID returned as detail; no other watch changes.
UNWATCH of a watch of its owner on this device that has not fired removes it. Both finish with status 0x01. It rests
on the model's own choice or reading in log entries 5 and 90. -/
def Obligations.WatchesRegisteredAndRemoved : Prop :=
  ∀ (s : State) (q : Nat) (x : Queue) (o : Op) (h : Head) (t : State) (w : Nat),
    (startHead s q 0x06 8 .ready = .go x o h t → sySpec t o = some w → wsBad w = none → syLocal t (wsDevice w) = true →
      objIn t x.partition (wsKind w) (wsIndex w) = true → queueInstance t (wsQueue w) = some (o.owner, o.epoch) →
      quotaUsed t x.partition < pEnt t 0x3028 7 x.partition → wsReason w (objOf t (wsKey w)) = 0 →
      Runs (.watch q) s (fun u => Finished u q o.seq 0x01 ∧
        (∃ y, opAt u q o.seq = some y ∧
          tget? u.syu.watches y.detail =
            some { spec := w, by_ := .queue (wsQueue w) o.owner o.epoch, partition := x.partition } ∧
          (∀ j, j ≠ y.detail → tget? u.syu.watches j = tget? s.syu.watches j)) ∧
        u.syu.objs = s.syu.objs ∧ OtherQueues q s u ∧
        u = { s with queues := u.queues, dict := u.dict, syu := u.syu, free := u.free })) ∧
    (∀ (y : Watch) (wq we : Nat), startHead s q 0x06 9 .ready = .go x o h t → syLocal t (syDevice o.body) = true →
      tsorted t.syu.watches = true → tget? t.syu.watches (syArg o.body % 2 ^ 20) = some y → y.by_ = .queue wq o.owner we →
      Runs (.unwatch q) s (fun u => Finished u q o.seq 0x01 ∧ tget? u.syu.watches (syArg o.body % 2 ^ 20) = none ∧
        (∀ j, j ≠ syArg o.body % 2 ^ 20 → tget? u.syu.watches j = tget? s.syu.watches j) ∧ u.syu.objs = s.syu.objs ∧
        OtherQueues q s u ∧ u = { s with queues := u.queues, dict := u.dict, syu := u.syu }))

/-- Each for a head that starts. SYNC_READ writes the word of an object of the partition, little-endian in 16 bytes (8 for
a flag), at a pointer it may write. TASK_BEGIN with a list of at most 1,024 well-formed objects of the partition, no
task open in its queue and a task slot free: the task is open with the state of every listed object. TASK_END of a
task with every object as recorded: no task is open and no fault is raised. WAIT on an object of the partition whose
condition holds: it finishes, and no wait of its queue is left. Each finishes with status 0x01. It rests on the
model's own choice or reading in log entries 5 and 96. -/
def Obligations.ReadsTasksAndWaits : Prop :=
  ∀ (s : State) (q : Nat) (x : Queue) (o : Op) (h : Head) (t : State),
    (startHead s q 0x06 0x0A .ready = .go x o h t → ptrOk t o.owner (syPtr o.body) (objWordBytes (syKey o.body)) .write = true →
      syKind o.body ≠ 3 → syLocal t (syDevice o.body) = true → objIn t x.partition (syKind o.body) (syIndex o.body) = true →
      Runs (.syncRead q) s (fun u => Finished u q o.seq 0x01 ∧
        u.mem = (wr t o.owner (syPtr o.body) (natLe (if syKind o.body = 1 then 8 else 16) (objWord t (syKey o.body)))).mem ∧
        OtherQueues q s u ∧ u = { s with queues := u.queues, dict := u.dict, mem := u.mem, units := u.units })) ∧
    (startHead s q 0x06 0x0B .ready = .go x o h t → syCount o.body ≤ 1024 →
      ptrOk t o.owner (syPtr o.body) (4 * syCount o.body) .read = true → poisonAt t (syPtr o.body) (4 * syCount o.body) = false →
      taskBad t x.partition (taskList t o (syCount o.body)) = none → thas t.syu.tasks q = false → t.syu.tasks.length < 4096 →
      Runs (.taskBegin q) s (fun u => Finished u q o.seq 0x01 ∧
        tget? u.syu.tasks q = some ⟨o.owner, o.epoch, (taskList t o (syCount o.body)).map (fun k => (k, taskState t k))⟩ ∧
        u.syu.objs = s.syu.objs ∧ OtherQueues q s u ∧ u = { s with queues := u.queues, dict := u.dict, syu := u.syu })) ∧
    (∀ k : Task, startHead s q 0x06 0x0C .ready = .go x o h t → tsorted t.syu.tasks = true → tget? t.syu.tasks q = some k →
      (∀ e ∈ k.entries, taskState t e.1 = e.2) →
      Runs (.taskEnd q) s (fun u => Finished u q o.seq 0x01 ∧ tget? u.syu.tasks q = none ∧ u.syu.objs = s.syu.objs ∧
        OtherQueues q s u ∧ u = { s with queues := u.queues, dict := u.dict, syu := u.syu })) ∧
    (∀ w : Nat, goingHead s q 0x06 = none → startHead s q 0x06 0x0D .ready = .go x o h t → sySpec t o = some w → wsBad w = none →
      syLocal t (wsDevice w) = true → objIn t x.partition (wsKind w) (wsIndex w) = true →
      wsReason w (objOf t (wsKey w)) = 1 → watchesHeld t (wsKey w) = false → tsorted t.syu.ended = true →
      Runs (.wait q) s (fun u => Finished u q o.seq 0x01 ∧ tget? u.syu.ended q = none ∧
        engineWaits u q = [] ∧ u.syu.objs = s.syu.objs ∧ OtherQueues q s u ∧
        u = { s with queues := u.queues, dict := u.dict, syu := u.syu, free := u.free }))

/-- DEADLOCK_SAMPLE does nothing where the detector is off, and otherwise samples partitions 0 to 31 in order. The sample
of a partition with a running queue that does not wait, or with none, forgets the last one. The first sample of a
stalled one keeps its words and raises nothing; the next one with the same words declares it: exactly one fault more
has been raised, and a further sample with the same words changes nothing. It rests on the model's own choice or
reading in log entry 93. -/
def Obligations.DeadlockDetectorSamples : Prop :=
  ∀ s : State,
    (ent s 0x2A0101 = 0 → exec .deadlockSample s = .next s) ∧
    (ent s 0x2A0101 ≠ 0 → exec .deadlockSample s = .next ((List.range 32).foldl samplePart s)) ∧
    (∀ p, stalledHeads s p = none → tsorted s.syu.stalls = true →
      tget? (samplePart s p).syu.stalls p = none ∧ samplePart s p = { s with syu := (samplePart s p).syu }) ∧
    (∀ p l, stalledHeads s p = some l → (tgetD s.syu.stalls p {}).stalled = false →
      tget? (samplePart s p).syu.stalls p = some { stalled := true, words := stallWords s l } ∧
      samplePart s p = { s with syu := (samplePart s p).syu }) ∧
    (∀ p l, stalledHeads s p = some l → (tgetD s.syu.stalls p {}).stalled = true →
      (tgetD s.syu.stalls p {}).words = stallWords s l →
      ((tgetD s.syu.stalls p {}).declared = true → samplePart s p = s) ∧
      ((tgetD s.syu.stalls p {}).declared = false →
        (samplePart s p).log.raised = s.log.raised + 1 ∧
        (tgetD (samplePart s p).syu.stalls p {}).declared = true))

/-- A WRITE of 0x2102:03 that passes its checks, for the selected owner o. 1 makes the admin queue from the admin context
of the selected queue, version at most 2, and o active. 2 freezes every object bound to o in its epoch, and o is pre-
empted, or pre-empting while one of its operations is on an engine. 3, with no message of o held, makes o active and
thaws them. 4, where o is not already resetting or its partition being reset, no reset is in progress, o has no queue,
and no peer is trusted, no slot, line, watch or home line held: o is resetting under its epoch plus one modulo 2^16,
the report is cleared, the reset is noted, its retained tiles and requests are gone, and its bound or poisoned objects
of the epoch before are abandoned. 5 frees o, with its queues, their tasks and its admin contexts. Nothing else
changes but for the answer. It rests on the model's own choice or reading in log entries 46, 75, 92 and 130. -/
def Obligations.OwnerCommands : Prop :=
  ∀ (s : State) (r : Req) (path : Path) (p : Pdu) (u : State), Writes s r path p u →
  pdKey p = 0x210203 →
    (∀ c, leNat p.value = 1 → adminContext s = some c →
      Runs (.ownerActivate r) s (AnsweredOnly { s with
        owners := tput s.owners (selOwner s) { ownerRec s (selOwner s) with state := .active }
        queues := tput s.queues (ownerAdmin s (selOwner s))
          { ctx := setBits c 272 2 (min (bits c 272 2) 2), partition := ownerPart s (selOwner s) } })) ∧
    (leNat p.value = 2 →
      Runs (.ownerPreempt r) s (AnsweredOnly { s with
        owners := tput s.owners (selOwner s)
          { ownerRec s (selOwner s) with state := if ownerRuns s (selOwner s) then .preempting else .preempted }
        syu := { s.syu with objs := tmap s.syu.objs (fun _ x =>
          if x.owner = selOwner s ∧ x.epoch = ownerEpoch s (selOwner s) then { x with frozen := true } else x) } })) ∧
    (leNat p.value = 3 → (∀ x ∈ s.queues, qOwner x.2 = selOwner s → x.2.held = []) → tsorted s.queues = true →
      Runs (.ownerResume r) s (AnsweredOnly { s with
        owners := tput s.owners (selOwner s) { ownerRec s (selOwner s) with state := .active }
        syu := { s.syu with objs := tmap s.syu.objs (fun _ x =>
          if x.owner = selOwner s ∧ x.epoch = ownerEpoch s (selOwner s) then { x with frozen := false } else x) } })) ∧
    (leNat p.value = 4 → ownerState s (selOwner s) ≠ .resetting → s.resets = [] → (∀ x ∈ s.queues, qOwner x.2 ≠ selOwner s) →
      s.fab.trusted = [] → s.fab.slots = [] → s.fab.lines = [] → s.fab.dir = [] → s.syu.watches = [] → s.syu.tasks = [] →
      tsorted s.syu.objs = true →
      Runs (.ownerReset r) s (fun t =>
        (∀ k, ∃ m, objOf t k =
          if (objOf s k).owner = selOwner s ∧ (objOf s k).epoch ≠ (ownerEpoch s (selOwner s) + 1) % 2 ^ 16 ∧
              ((objOf s k).state = 1 ∨ (objOf s k).state = 2) ∧ thas s.syu.objs k = true
          then { objOf s k with
                  state := 3
                  frozen := false
                  changedAt := m }
          else objOf s k) ∧
        (∃ x, tget? t.owners (selOwner s) = some
          { ownerRec s (selOwner s) with
            state := .resetting
            epoch := (ownerEpoch s (selOwner s) + 1) % 2 ^ 16
            report := []
            reset := some x }) ∧
        (∀ j, j ≠ selOwner s → tget? t.owners j = tget? s.owners j) ∧
        AnsweredOnly { s with
          owners := t.owners
          dict := t.dict
          resets := [⟨4, selOwner s, causeCommand⟩]
          syu := { s.syu with objs := t.syu.objs }
          units := { s.units with retained := s.units.retained.filter (fun x => x.owner != selOwner s) }
          fab := { s.fab with requests := s.fab.requests.filter (fun x => x.owner != selOwner s) } } t)) ∧
    (leNat p.value = 5 →
      Runs (.ownerFree r) s (AnsweredOnly { s with
        owners := tput s.owners (selOwner s) { ownerRec s (selOwner s) with state := .free }
        queues := tfilter s.queues (fun q _ => !(ownerQueues s (selOwner s)).contains q)
        syu := { s.syu with tasks := tfilter s.syu.tasks (fun q _ => !(ownerQueues s (selOwner s)).contains q) }
        host := { s.host with adminCtxs := tfilter s.host.adminCtxs (fun _ c => bits c 288 12 != selOwner s) } }))

/-- Each a WRITE that passes its checks. 0x2804:02 puts the selected local window in force, where the entry before was not
a valid one of the Tile Stores; 0x2B04:02 the selected remote window; a window of zeros is no longer listed. 0x2805:02
= 1 makes the key of the selected owner active with the next generation and a draw that no key has had; 2 makes it
inactive. 0x2D02:02 puts the selected owner's fault ring in force with its count at 0, which goes, where the ring is
valid, to index_addr as 8 bytes under the owner's function and PASID. Nothing else changes but for the answer. It
rests on the model's own choice or reading in log entries 19, 43 and 46. -/
def Obligations.WindowsKeysAndRings : Prop :=
  ∀ (s : State) (r : Req) (path : Path) (p : Pdu) (u : State), Writes s r path p u →
    (pdKey p = 0x280402 → (lwValid (tgetD s.mc.windows (selWindow s) 0) && lwTile (tgetD s.mc.windows (selWindow s) 0)) = false →
      Runs (.localWindowWrite r) s (AnsweredOnly { s with
        mc := { s.mc with
          windows := tputNZ s.mc.windows (selWindow s) (leNat p.value) } })) ∧
    (pdKey p = 0x2B0402 →
      Runs (.remoteWindowWrite r) s (AnsweredOnly { s with
        fab := { s.fab with
          rwins := tputNZ s.fab.rwins (selRwin s) (leNat p.value) } })) ∧
    (pdKey p = 0x280502 → leNat p.value = 1 →
      Runs (.keyGenerate r) s (AnsweredOnly { s with
        mc := { s.mc with
          keys := tput s.mc.keys (selKey s) ⟨true, (keySlot s (selKey s)).gen + 1, s.mc.keyDraws⟩
          keyDraws := s.mc.keyDraws + 1 } })) ∧
    (pdKey p = 0x280502 → leNat p.value = 2 →
      Runs (.keyZeroise r) s (AnsweredOnly { s with
        mc := { s.mc with
          keys := tput s.mc.keys (selKey s) { keySlot s (selKey s) with active := false } } })) ∧
    (pdKey p = 0x2D0202 →
      Runs (.faultRingWrite r) s (fun t =>
        AnsweredOnly { s with
          owners := tput s.owners (selFaultOwner s) { ownerRec s (selFaultOwner s) with
            ring := leNat p.value
            ringCount := 0 } } t ∧
        (bit (leNat p.value) 0 = true → s.host.up = true →
          .hostWrite (ownerFn s (selFaultOwner s)) (if selFaultOwner s = 0 then 0 else ownerPasid s (selFaultOwner s))
            (bits (leNat p.value) 128 64) [0, 0, 0, 0, 0, 0, 0, 0] ∈ t.out)))

/-- Each a WRITE that passes its checks. A repair of a soft row, hard row or lane: with a spare left for it, it is the
repair in progress, 0x2806:05 reads 1 and 0x2806:06 the request; with none left, 0x2806:05 reads 3, one fault more is
raised and no repair begins. 0x2806:01 = 0 to 7 with no other stack in maintenance puts that stack in maintenance; FFH
ends it: no byte, tag or poison of the stack that was in maintenance is listed any more, and the rest of memory stays.
0x2806:04 = 1 stands as written until the access completes. Nothing else changes but for the answer. It rests on the
model's own choice or reading in log entries 40, 41, 46 and 141. -/
def Obligations.RepairsAndMaintenanceOfStacks : Prop :=
  ∀ (s : State) (r : Req) (path : Path) (p : Pdu) (u : State), Writes s r path p u →
    (pdKey p = 0x280606 → ∀ k c, (k, c) ∈ [(1, Instr.repairSoftRow r), (2, .repairHardRow r), (3, .repairLane r)] →
      rqKind (leNat p.value) = k →
      ∃ t, exec c s = .next t ∧
        (spareLeft s (leNat p.value) = true → AnsweredOnly { s with
          dict := tput (tput s.dict 0x280606 (.num (leNat p.value))) 0x280605 (.num 1)
          mc := { s.mc with repairing := some (leNat p.value) } } t) ∧
        (spareLeft s (leNat p.value) = false → ent t 0x280605 = 3 ∧ t.log.raised = s.log.raised + 1 ∧ t.mc = s.mc ∧
          t.queues = s.queues ∧ t.owners = s.owners)) ∧
    (pdKey p = 0x280601 → leNat p.value ≤ 7 → (ent s 0x280601 = 0xFF ∨ ent s 0x280601 = leNat p.value) →
      Runs (.maintStackEnter r) s (AnsweredOnly { s with dict := tput s.dict 0x280601 (.num (leNat p.value)) })) ∧
    (pdKey p = 0x280601 → leNat p.value = 0xFF → ent s 0x280601 ≠ 0xFF →
      Runs (.maintStackEnd r) s (AnsweredOnly { s with
        dict := tput s.dict 0x280601 (.num 0xFF)
        mem := { s.mem with
          tags := s.mem.tags.filter (fun g => stackOf (g.1 * 256) != ent s 0x280601)
          cells := s.mem.cells.filter (fun c => isTile c.1 || stackOf (ptrOff c.1) != ent s 0x280601)
          poison := s.mem.poison.filter (fun k => decide (2 ^ 40 ≤ k) || stackOf (k * 64) != ent s 0x280601) } })) ∧
    (pdKey p = 0x280604 → leNat p.value = 1 →
      Runs (.ieee1500Execute r) s (AnsweredOnly { s with dict := tput s.dict 0x280604 (.num 1) }))

/-- Each a WRITE that passes its checks. Pool 1: the selected pool is in state 2 with the next generation, every buffer
free and none held, its records zero but for the pool and one generation more. 2: state 0, no cache and no free list.
3: state 3, with no cached entry, and what is not held to be found free. 0x2205:02 = 1: the selected band is in its
self-test. Port 0 with no flow that waits: the selected port is disabled with its link state cleared, and its fronds
that have not failed are off and no longer waiting. Port 1 of a port in state 0, 2 or 6 with its fronds on and no
reset in progress: the port is enabled and trains, and its reset is noted. Nothing else changes but for the answer. It
rests on the model's own choice or reading in log entries 46, 86 and 97. -/
def Obligations.PoolPortAndSelfTestCommands : Prop :=
  ∀ (s : State) (r : Req) (path : Path) (p : Pdu) (u : State), Writes s r path p u →
    (pdKey p = 0x290103 → leNat p.value = 1 → ∀ x, x = poolOf s (selPool s) →
      Runs (.poolEnable r) s (fun t =>
        poolOf t (selPool s) = { x with
          state := 2
          gen := (x.gen + 1) % 2 ^ 16
          cache := []
          head := 0xFFFFFF
          free := pdCount x.desc
          held := 0
          low := pdCount x.desc } ∧
        (∀ j, j ≠ selPool s → poolOf t j = poolOf s j) ∧
        (∀ i, recAt t i = if pdFirst x.desc ≤ i ∧ i < pdFirst x.desc + pdCount x.desc
          then { gen := ((recAt s i).gen + 1) % 2 ^ 16, pool := selPool s } else recAt s i) ∧
        AnsweredOnly { s with pools := { s.pools with pools := t.pools.pools, recs := t.pools.recs } } t)) ∧
    (pdKey p = 0x290103 → leNat p.value = 2 →
      Runs (.poolDisable r) s (AnsweredOnly { s with
        pools := { s.pools with
          pools := tput s.pools.pools (selPool s) { poolOf s (selPool s) with
            state := 0
            cache := []
            head := 0xFFFFFF } } })) ∧
    (pdKey p = 0x290103 → leNat p.value = 3 → ∀ x, x = poolOf s (selPool s) →
      Runs (.poolRebuild r) s (AnsweredOnly { s with
        pools := { s.pools with
          pools := tput s.pools.pools (selPool s) { x with
            state := 3
            cache := []
            head := 0xFFFFFF
            free := pdCount x.desc - x.held } } })) ∧
    (pdKey p = 0x220502 → leNat p.value = 1 →
      Runs (.bistStart r) s (AnsweredOnly { s with
        dict := tput s.dict 0x220502 (.num 1)
        units := { s.units with bist := some (ent s 0x220501) } })) ∧
    (pdKey p = 0x2B0108 → leNat p.value = 0 → s.fab.flows = [] → tsorted s.fronds.st = true →
      Runs (.portDisable r) s (fun t =>
        portOf t (selPort s) = { trainAgain (portOf s (selPort s)) 0 with
          enable := false
          faulted := false } ∧
        (∀ j, j ≠ selPort s → portOf t j = portOf s j) ∧
        (∀ f, frondState t f = if f ∈ portFronds (selPort s) ∧ frondState s f ≠ .failed then .off else frondState s f) ∧
        t.fronds.queue = s.fronds.queue.filter (fun f => !(portFronds (selPort s)).contains f) ∧
        AnsweredOnly { s with fronds := t.fronds, fab := { s.fab with ports := t.fab.ports } } t)) ∧
    (pdKey p = 0x2B0108 → leNat p.value = 1 → s.resets = [] → (portOf s (selPort s)).state ∈ [0, 2, 6] →
      (∀ f ∈ portFronds (selPort s), frondState s f = .on) →
      Runs (.portEnable r) s (AnsweredOnly { s with
        resets := [⟨2, selPort s, causeEnable⟩]
        fab := { s.fab with
          ports := tput s.fab.ports (selPort s) { trainAgain (portOf s (selPort s)) 1 with
            enable := true
            trainFails := 0
            lost := []
            retired := 0 } } }))

/-- SERVICE_OPEN that reaches its row with no session open draws a nonce for its path. SERVICE_PROOF with none open, over
that nonce, under the root in force, opens the session of its path and spends the nonce; with any other proof no
session opens, the nonce is spent and fault 0xC008 names the path. SERVICE_CLOSE on the session's path ends it; on
another path nothing changes. SERVICE_SESSION_TIMEOUT ends it. While one is open, an open or a proof changes nothing.
Nothing else changes but for the answer. It rests on the model's own choice or reading in log entries 16, 19 and 50. -/
def Obligations.ServiceSessions : Prop :=
  (∀ (s : State) (r : Req) (path : Path) (p : Pdu) (u : State), Delivers s r path p u →
    (pdOp p = 3 → s.th.session = none →
      Runs (.serviceOpen r) s (AnsweredOnly { s with th := { s.th with
        randoms := s.th.randoms + 1
        nonceField := if onField path then some (Config.random s.th.randoms % 2 ^ 256) else s.th.nonceField
        nonceHost := if onField path then s.th.nonceHost else some (Config.random s.th.randoms % 2 ^ 256) } })) ∧
    (pdOp p = 3 → s.th.session.isSome = true → Runs (.serviceOpen r) s (AnsweredOnly s)) ∧
    (∀ x : Proof, pdOp p = 4 → s.th.session.isSome = true → Runs (.serviceProof r x) s (AnsweredOnly s)) ∧
    (∀ x : Proof, pdOp p = 4 → s.th.session = none → (nonceOf s path).isSome = true → x.nonce = nonceOf s path →
      x.root = serviceRoot s →
      Runs (.serviceProof r x) s (AnsweredOnly { s with th := { s.th with
        session := some path
        nonceField := if onField path then none else s.th.nonceField
        nonceHost := if onField path then s.th.nonceHost else none } })) ∧
    (∀ x : Proof, pdOp p = 4 → s.th.session = none → ((nonceOf s path).isNone = true ∨ x.nonce ≠ nonceOf s path ∨ x.root ≠ serviceRoot s) →
      Runs (.serviceProof r x) s (fun t => t.th.session = none ∧ nonceOf t path = none ∧ t.log.raised = s.log.raised + 1 ∧
        t.queues = s.queues ∧ t.mem = s.mem ∧ t.owners = s.owners)) ∧
    (pdOp p = 5 → inService s path = true →
      Runs (.serviceClose r) s (AnsweredOnly { s with th := { s.th with session := none } })) ∧
    (pdOp p = 5 → inService s path = false → Runs (.serviceClose r) s (AnsweredOnly s))) ∧
  (∀ s : State, exec .serviceSessionTimeout s = .next { s with th := { s.th with session := none } })

/-- Each a WRITE that passes its checks, acting on the image slot that does not run. 0x2000:06 = 1 erases it. 0x2000:05
appends its bytes. 0x2000:06 = 2 with an image whose signature holds: the slot is valid with that version and selected
for the next cold reset; with one whose signature does not hold: it is not valid, the selection stays, and a fault is
raised. The running slot never changes. Nothing else changes but for the answer. It rests on the model's own choice or
reading in log entries 16, 46 and 55. -/
def Obligations.FirmwareUpdate : Prop :=
  ∀ (s : State) (r : Req) (path : Path) (p : Pdu) (u : State), Writes s r path p u →
    (pdKey p = 0x200006 → leNat p.value = 1 →
      Runs (.fwUpdateBegin r) s (fun t => spareSlot t = { erased := true } ∧ t.th.running = s.th.running ∧
        (if s.th.running = 0 then t.th.fw0 = s.th.fw0 else t.th.fw1 = s.th.fw1) ∧
        AnsweredOnly { s with
          dict := tput s.dict 0x200006 (.num 1)
          th := { s.th with fw0 := t.th.fw0, fw1 := t.th.fw1 } } t)) ∧
    (pdKey p = 0x200005 →
      Runs (.fwUpdateData r) s (fun t => spareSlot t = { spareSlot s with bytes := (spareSlot s).bytes ++ p.value } ∧
        (if s.th.running = 0 then t.th.fw0 = s.th.fw0 else t.th.fw1 = s.th.fw1) ∧
        AnsweredOnly { s with th := { s.th with fw0 := t.th.fw0, fw1 := t.th.fw1 } } t)) ∧
    (∀ v, pdKey p = 0x200006 → leNat p.value = 2 →
      Runs (.fwUpdateVerify r (some v)) s (fun t =>
        spareSlot t = { spareSlot s with
          version := v
          valid := true
          erased := false } ∧
        (if s.th.running = 0 then t.th.fw0 = s.th.fw0 else t.th.fw1 = s.th.fw1) ∧ t.th.selected = 1 - s.th.running ∧
        AnsweredOnly { s with
          dict := tput s.dict 0x200006 (.num 2)
          th := { s.th with fw0 := t.th.fw0, fw1 := t.th.fw1, selected := t.th.selected } } t)) ∧
    (pdKey p = 0x200006 → leNat p.value = 2 →
      Runs (.fwUpdateVerify r none) s (fun t => (spareSlot t).valid = false ∧ t.th.selected = s.th.selected ∧
        t.log.raised = s.log.raised + 1 ∧ t.queues = s.queues ∧ t.mem = s.mem))

/-- Each a WRITE that passes its checks, with no reset in progress. Lane: one more of an up port than its least stops
working, the port is degraded. Port with no flow: the port trains anew. Engine (DMA, Vector, CDE, PLY) that no
operation uses: only the reset is noted. Partition with no queue, pool or object: its decisions, job and Tile Store
bytes are cleared, pending values of its reset class come into force, and every owner in reset in it is active.
0x2007:03 puts the hold in force or takes it away. 0x200A:02 = 1 marks the removal as requested and raises a fault; 3
withdraws it. A device reset of 0 does nothing. Nothing else changes but for the answer. It rests on the model's own
choice or reading in log entries 46, 109 and 129. -/
def Obligations.ResetRequestsAndHolds : Prop :=
  ∀ (s : State) (r : Req) (path : Path) (p : Pdu) (u : State), Writes s r path p u →
    (pdKey p = 0x2D0401 → rrLevel (leNat p.value) = 1 → s.resets = [] → ∀ pt ln, pt = rrTarget (leNat p.value) / 32 →
      ln = rrTarget (leNat p.value) % 32 → portUp s pt = true → bit (portOf s pt).lanes ln = true →
      portMinLanes s pt < popCount (portOf s pt).lanes 32 →
      Runs (.resetRequestLane r) s (AnsweredOnly { s with
        resets := [⟨1, pt * 32 + ln, causeRequest⟩]
        fab := { s.fab with
          ports := tput s.fab.ports pt { portOf s pt with
            lanes := (portOf s pt).lanes - 2 ^ ln
            state := 4 } } })) ∧
    (pdKey p = 0x2D0401 → rrLevel (leNat p.value) = 2 → s.resets = [] → s.fab.flows = [] → ∀ pt, pt = rrTarget (leNat p.value) →
      (portOf s pt).enable = true →
      Runs (.resetRequestPort r) s (AnsweredOnly { s with
        resets := [⟨2, pt, causeRequest⟩]
        fab := { s.fab with
          ports := tput s.fab.ports pt { trainAgain (portOf s pt) 1 with trainFails := 0 } } })) ∧
    (∀ unit i, pdKey p = 0x2D0401 → rrLevel (leNat p.value) = 3 → s.resets = [] → unit = rrTarget (leNat p.value) / 256 →
      i = rrTarget (leNat p.value) % 256 →
      ((unit = 3 ∧ copyOf s i = none) ∨ (unit = 4 ∧ vcHolder s = none) ∨ (unit = 8 ∧ cardsOf s false = []) ∨
        (unit = 9 ∧ cardsOf s true = [])) →
      Runs (.resetRequestEngine r) s (AnsweredOnly { s with resets := [⟨3, unit * 256 + i, causeRequest⟩] })) ∧
    (∀ pt, pdKey p = 0x2D0401 → rrLevel (leNat p.value) = 5 → s.resets = [] → pt = rrTarget (leNat p.value) →
      s.queues = [] → s.pools.pools = [] → s.syu = {} → s.shadow = [] → MemOk s → (partRange s pt true).2 ≤ 2 ^ 39 →
      Runs (.resetRequestPartition r) s (fun t =>
        (∀ o g x, x < 2 ^ 39 → rdByte t.mem o g (tilePtr x) =
          if (partRange s pt true).1 ≤ x ∧ x < (partRange s pt true).2 then 0 else rdByte s.mem o g (tilePtr x)) ∧
        (∀ o g a, isTile a = false → rdByte t.mem o g a = rdByte s.mem o g a) ∧
        AnsweredOnly { s with
          resets := [⟨5, pt, causeRequest⟩]
          parts := tdel s.parts pt
          mem := t.mem
          units := { s.units with retained := t.units.retained }
          owners := tmap s.owners (fun _ o => if bits o.entry 91 5 = pt ∧ o.state = .resetting
            then { o with
              state := .active
              reset := none } else o) } t)) ∧
    (pdKey p = 0x2D0402 → leNat p.value = 0 → Runs (.deviceResetNoAction r) s (AnsweredOnly s)) ∧
    (pdKey p = 0x200703 → leNat p.value = 1 →
      Runs (.maintenanceHoldSet r) s (AnsweredOnly { s with dict := tput s.dict 0x200703 (.num 1) })) ∧
    (pdKey p = 0x200703 → leNat p.value = 0 →
      Runs (.maintenanceHoldRelease r) s (AnsweredOnly { s with dict := tput s.dict 0x200703 (.num 0) })) ∧
    (pdKey p = 0x200A02 → leNat p.value = 1 →
      Runs (.removalRequest r) s (fun t => t.power = { s.power with removal := 1 } ∧ t.log.raised = s.log.raised + 1 ∧
        t.queues = s.queues ∧ t.mem = s.mem ∧ t.owners = s.owners)) ∧
    (pdKey p = 0x200A02 → leNat p.value = 3 →
      Runs (.removalWithdraw r) s (AnsweredOnly { s with power := { s.power with removal := 0 } }))

/-- Each a WRITE that passes its checks, in effect after its answer. 0x2D04:02 = 1 with the rails good and no start-up or
device reset running: start-up is in phase P4, not host-ready; memory, pools, queues, the fault log and local windows
stay; no partition holds a decision or a job and no walk, card operation or service session is left. 2 with the
Thallus's domain powered and no phase before P4 running: start-up is in P1, no owner, queue or pending value is left,
memory is listed nowhere, and the host link is down. A removal committed with the rails on: the removal reads 2 and
the rails are off; no queue is left, and memory is listed nowhere. It rests on the model's own choice or reading in
log entries 61, 65 and 66. -/
def Obligations.DeviceResetsAndRemoval : Prop :=
  ∀ (s : State) (r : Req) (path : Path) (p : Pdu) (u : State), Writes s r path p u →
    (pdKey p = 0x2D0402 → leNat p.value = 1 → s.power.railState = 2 → s.startup.main = none → (∀ x ∈ s.resets, x.level < 6) →
      Runs (.deviceResetWarm r) s (WarmBegun s · causeCommand)) ∧
    (pdKey p = 0x2D0402 → leNat p.value = 2 → s.power.domain = true →
      (s.startup.stopped = true ∨ ∀ m, s.startup.main = some m → 4 ≤ m) →
      Runs (.deviceResetCold r) s (ColdBegun · 1 causeCommand)) ∧
    (pdKey p = 0x200A02 → leNat p.value = 2 → railsOn s = true →
      Runs (.removalCommit r) s (fun t => t.power.removal = 2 ∧ RailsAreOff t 0 ∧ t.startup.main = none))

/-- A READ that reaches its row, of an entry that its path may read: nothing changes but for the answer; through the
mailbox the response register holds the header with status 0 and the entry's bytes, the mailbox status reads 2 and
vector 0 of the physical function is signalled; on the field port one frame to the requester with its tag carries them
where the value has at most 56 bytes. A WRITE of no row of its own that passes its checks: an entry in effect at once,
of no selected object and not stored, holds the value; a stored one has its value in the batch, after what the batch
held, and its answer waits for the copies. It rests on the model's own choice or reading in log entries 44, 46 and 51. -/
def Obligations.ReadsAndWritesAreAnswered : Prop :=
  (∀ (s : State) (r : Req) (path : Path) (p : Pdu) (u : State) (e : EntrySpec) (b : List Nat), Delivers s r path p u → pdOp p = 1 →
    indexKnown (pdIndex p) = true → specOf (pdKey p) = some e → e.acc ≠ .wo → readBytes u (pdKey p) e (pdShadow p) = some b →
    (onField path = true → hostOnly (pdKey p) = false ∧ pdKey p ≠ 0x200402) →
    Runs (.agmirRead r) s (fun t => AnsweredOnly s t ∧
      (path = .host → t.th.mbStatus = 2 ∧ t.out = s.out ++ [.msix 0 0] ∧
        t.th.mbResponse = natLe 8 (fld 0x81 56 8 + fld 0 48 8 + fld (pdIndex p) 32 16 + fld (pdSub p) 24 8 +
          fld (entryState s (pdKey p)) 19 2 + fld 0 17 1 + fld b.length 0 16) ++ b) ∧
      (∀ node tag, path = .field node tag → b.length ≤ 56 →
        t.out = s.out ++ [.can (fld 1 26 3 + fld node 19 7 + fld (nodeId s) 12 7 + fld tag 0 12)
          (natLe 8 (fld 0x81 56 8 + fld 0 48 8 + fld (pdIndex p) 32 16 + fld (pdSub p) 24 8 +
            fld (entryState s (pdKey p)) 19 2 + fld 0 17 1 + fld b.length 0 16) ++ b)]))) ∧
  (∀ (s : State) (r : Req) (path : Path) (p : Pdu) (u : State) (e : EntrySpec), Writes s r path p u →
    specOf (pdKey p) = some e → rowId (pdKey p) (leNat p.value) = 0 →
    pdKey p ∉ [0x200101, 0x200A02, 0x210202, 0x210203, 0x210303, 0x220502, 0x280402, 0x280502, 0x280601, 0x280604, 0x280606,
      0x290102, 0x290103, 0x2B0108, 0x2B0501, 0x2C0202, 0x2D0202, 0x2D0401, 0x2D0402, 0x200005, 0x200006] → e.eff = .immediate →
    (e.stored = false →
      Runs (.agmirWrite r) s (AnsweredOnly { s with dict := tput s.dict (pdKey p) (valOfBytes e.ty p.value) })) ∧
    (e.stored = true →
      Runs (.agmirWrite r) s (fun t => t.dict = tput s.dict (pdKey p) (valOfBytes e.ty p.value) ∧
        t.th.batch = s.th.batch ++ [(pdKey p, valOfBytes e.ty p.value)] ∧
        (∃ b, t.th.batchReplies = s.th.batchReplies ++ [(path, b)]) ∧ t.out = s.out ∧
        t = { s with dict := t.dict, th := t.th })))

/-- A WRITE that reaches AGMIR_WRITE and fails a check changes nothing but for its answer; through the mailbox its status
is 0x01 for an index that no table has, 0x02 for a subindex that it does not have, and otherwise the first of: 0x03
for an entry that the path may not write or that is read-only, 0x06 for a service entry without the path's session,
0x04 for a value of a length that the type does not have, 0x05 for one outside its range or layout, 0x09 for one that
the state forbids, 0x0D where the copies have no room for it. It rests on the model's own choice or reading in log
entry 45. -/
def Obligations.WriteChecksInOrder : Prop :=
  ∀ (s : State) (r : Req) (path : Path) (p : Pdu) (u : State) (c : Nat), Delivers s r path p u → pdOp p = 2 →
    rowId (pdKey p) (leNat p.value) = 0 → c ≠ 0 →
    (indexKnown (pdIndex p) = false → c = 0x01) →
    (indexKnown (pdIndex p) = true → specOf (pdKey p) = none → c = 0x02) →
    (∀ e, indexKnown (pdIndex p) = true → specOf (pdKey p) = some e →
      c = if (onField path = true ∧ hostOnly (pdKey p) = true) ∨ e.acc = .ro then 0x03
        else if e.acc = .rwSvc ∧ inService s path = false then 0x06
        else if lengthFits e.ty p.value.length = false then 0x04
        else if pdKey p = 0x2D0401 ∧ rrLevel (valNat (valOfBytes e.ty p.value)) = 3 ∧ inService s path = false then 0x06
        else if (tyOk e.ty (valOfBytes e.ty p.value) && rangeOk e.ty e.range (valOfBytes e.ty p.value) &&
            layoutOk (pdKey p) (valOfBytes e.ty p.value)) = false then 0x05
        else if stateRuleOk s (pdKey p) (valOfBytes e.ty p.value) = false then 0x09
        else if isStored (pdKey p) e = true ∧ roomFor u (pdKey p) (valOfBytes e.ty p.value) = false then 0x0D else 0) →
    Runs (.agmirWrite r) s (fun t => AnsweredOnly s t ∧
      (path = .host → t.th.mbStatus = 2 ∧ bits (leNat (t.th.mbResponse.take 8)) 48 8 = c))

/-- AGMIR_SEGMENT, to this node on CAN FD with a 29-bit identifier, of a node with a transfer, carrying its tag, the next
segment number and just the bytes due, within the node's rate: its bytes join the transfer's, which is assembled once
nothing more is due. AGMIR_TRANSFER_TIMEOUT drops the node's transfer. MB_STATUS_READ of a status of 2 while the
mailbox serves returns the register to 0, and otherwise changes nothing. COUNTERS_CLEAR, a WRITE that passes its
checks, leaves exactly the counters its entry clears unlisted in the dictionary, so that they read as zero. Nothing
else changes but for answers and counts of frames. It rests on the model's own choice or reading in log entries 46 and
47. -/
def Obligations.SegmentsAndMailboxStatus : Prop :=
  (∀ (s : State) (f : Frame) (x : Transfer), fieldHears s = true → f.fd = true → f.ext = true → bits f.id 26 3 = 3 →
    bits f.id 19 7 = nodeId s → tget? s.th.transfers (bits f.id 12 7) = some x → bits f.id 0 12 = x.tag →
    f.data.headD 0 = x.nextSeg → f.data.length = 1 + min 63 x.need → 0 < x.need → rateOk s (bits f.id 12 7) = true →
    (63 < x.need →
      Runs (.agmirSegment f) s (AnsweredOnly { s with
        th := { s.th with
          transfers := tput s.th.transfers (bits f.id 12 7) { x with
            nextSeg := x.nextSeg + 1
            need := x.need - 63
            data := x.data ++ f.data.drop 1 } } })) ∧
    (x.need ≤ 63 →
      Runs (.agmirSegment f) s (fun t => tget? t.th.assembled (bits f.id 12 7) = some (x.tag, x.data ++ f.data.drop 1) ∧
        AnsweredOnly { s with th := { s.th with transfers := tdel s.th.transfers (bits f.id 12 7) } } t))) ∧
  (∀ (s : State) (node : Nat),
    Runs (.agmirTransferTimeout node) s (AnsweredOnly { s with th := { s.th with transfers := tdel s.th.transfers node } })) ∧
  (∀ s : State,
    (mailboxServes s = true → s.th.mbStatus = 2 → exec .mbStatusRead s = .next { s with th := { s.th with mbStatus := 0 } }) ∧
    (mailboxServes s = false ∨ s.th.mbStatus ≠ 2 → exec .mbStatusRead s = .next s)) ∧
  (∀ (s : State) (r : Req) (path : Path) (p : Pdu) (u : State), Writes s r path p u → clearsOf (pdKey p) ≠ [] →
    Runs (.countersClear r) s (fun t =>
      (∀ j, tget? t.dict j = if (clearsOf (pdKey p)).any (fun x => decide (j / 256 = x.1 ∧ x.2.1 ≤ j % 256 ∧ j % 256 ≤ x.2.2))
        then none else tget? s.dict j) ∧
      (pdKey p ≠ 0x2B070A → t.fab = s.fab) ∧
      AnsweredOnly { s with dict := t.dict, fab := { s.fab with ports := t.fab.ports } } t))

/-- With the Thallus's firmware running: a heartbeat goes to every node with the serial number and the phase; a heartbeat
from this node's ID with another serial number is a conflict and raises 0xC011; bus-off raises 0xC00F with two open
counts, and ends at its recovery; the clock stops once nothing is left to do; a watchdog counts a restart, drops
transfers, unsent answers and the session, runs the image that verifies, and raises 0xC004; a batch whose copies
verify goes into both under the next two sequence numbers, and its mailbox answer is given; telemetry sends the 64
bytes of Table 14-10. It rests on the model's own choice or reading in log entries 51, 54, 56, 57, 59 and 60. -/
def Obligations.ThallusOnItsOwn : Prop :=
  ∀ s : State, firmwareRuns s = true →
    (s.th.busOff = false →
      exec .heartbeatSend s = .next { s with out := s.out ++ [.can (fld 7 26 3 + fld 0 19 7 + fld (nodeId s) 12 7 + fld Config.ownTag 0 12)
        (padTo 12 Config.serialNumber ++ [shownPhase s])] }) ∧
    (∀ f : Frame, s.th.busOff = false → f.fd = true → f.ext = true → bits f.id 26 3 = 7 → bits f.id 12 7 = nodeId s →
      f.data.take 12 ≠ padTo 12 Config.serialNumber →
      exec (.heartbeatReceive f) s = .next (raiseDev { s with th := { s.th with conflict := true } } 0xC011 srcThallus
        [(bits f.id 12 7, 8), (leNat (f.data.take 12), 96)])) ∧
    (s.th.busOff = false → ∃ a b, exec .canBusOff s =
      .next (raiseDev { s with
        free := s.free + 2
        th := { s.th with busOff := true } } 0xC00F srcThallus [(a, 16), (b, 16)])) ∧
    exec .canBusOffRecovery s = .next { s with th := { s.th with busOff := false } } ∧
    (thallusIdle s = true → exec .ckThIdleStop s = .next { s with th := { s.th with ckRuns := false } }) ∧
    (thallusIdle s = false → exec .ckThIdleStop s = .next s) ∧
    (∀ i, pickImage s [true, true] = some i → ∃ a, exec .thallusWatchdog s =
      .next (raiseDev { bump s 0x200001 1 with
        free := s.free + 1
        th := { s.th with
          running := i
          selected := i
          serving := true
          ckRuns := true
          transfers := []
          assembled := []
          batchReplies := []
          session := none
          mbStatus := if s.th.mbStatus = 1 then 0 else s.th.mbStatus } } 0xC004 srcThallus [(a, 16)])) ∧
    (∀ b : List Nat, s.th.batch ≠ [] → s.th.batchReplies = [(.host, b)] → s.host.up = true →
      Runs (.configBatchStore [true, true]) s (fun t =>
        t.th.batch = [] ∧ t.th.batchReplies = [] ∧ t.th.mbResponse = b ∧ t.th.mbStatus = 2 ∧ t.out = s.out ++ [.msix 0 0] ∧
        (∃ c, c = putStored { newestCopy s with valid := true } s.th.batch ∧
          (slotAFirst s = true → t.th.copyA = { c with seq := (newestCopy s).seq + 1 } ∧
            t.th.copyB = { c with seq := (newestCopy s).seq + 2 }) ∧
          (slotAFirst s = false → t.th.copyB = { c with seq := (newestCopy s).seq + 1 } ∧
            t.th.copyA = { c with seq := (newestCopy s).seq + 2 })) ∧
        t = { s with th := t.th, out := t.out })) ∧
    (s.th.serving = true → ent s 0x2D0801 ≠ 0 → s.th.busOff = false → s.th.conflict = false →
      exec .telemetryFrameSend s = .next { s with
        th := { s.th with ckRuns := true }
        out := s.out ++ [.can (fld 6 26 3 + fld 0 19 7 + fld (nodeId s) 12 7 + fld Config.ownTag 0 12)
          (natLe 64 (telemetryFrame s))] })

/-- An input above 40.0 V with the domain off starts the device cold at P0. Its loss takes the domain, the rails and what
they held. In 46.0 V to 56.0 V, seated, a waiting P3 starts. A rail takes its step only as the next of seven. With
rails on, a rail's fault, an input under 44.0 V, over 57.0 V or over 80 A takes the rails off and raises its fault
with the reading; a rail's fault also stops start-up. After an input fault the device starts cold at P1 once the input
is back in its range. It rests on the model's own choice or reading in log entry 135. -/
def Obligations.InputPowerAndRails : Prop :=
  ∀ s : State,
    (∀ mv, s.power.domain = false → 40000 < mv →
      Runs (.inputValid mv) s (fun t => ColdBegun t 0 causeInput ∧ t.power.domain = true ∧ t.power.inputMv = mv)) ∧
    (s.power.domain = true →
      Runs .inputLoss s (fun t => RailsAreOff t 0 ∧ t.power.domain = false ∧ t.power.inputMv = 0 ∧ t.dict = [] ∧ t.owners = [] ∧
        t.log = {} ∧ t.startup.main = none ∧ t.th.serving = false ∧ t.th.copyA = s.th.copyA ∧ t.th.copyB = s.th.copyB ∧
        t.th.fw0 = s.th.fw0 ∧ t.th.fw1 = s.th.fw1)) ∧
    (∀ mv, s.power.domain = true → 46000 ≤ mv → mv ≤ 56000 → s.power.seated = true → s.startup.main = some 3 →
      s.startup.p3Waits = true →
      exec (.mainRailsMayStart mv) s = .next { s with
        startup := { s.startup with p3Waits := false }
        power := { s.power with
          inputMv := mv
          railState := 1
          railsUp := 0 } }) ∧
    (∀ n, s.startup.main = some 3 → s.startup.p3Waits = false → s.startup.stopped = false → s.power.railsUp = n → n < 7 →
      exec (.railSequenceStep (n + 1)) s = .next { s with power := { s.power with
        railState := 1
        railsUp := n + 1 } }) ∧
    (∀ n mv, railsOn s = true → 0 < n → n ≤ s.power.railsUp →
      Runs (.railFault n mv) s (fun t => RailsAreOff t 3 ∧ t.power.railFaults = s.power.railFaults ||| 2 ^ (n - 1) ∧
        t.startup.stopped = true ∧ t.startup.main = none ∧
        ∃ v, t = raiseDev v 0xE004 srcModule [(n, 8), (mv, 16)])) ∧
    (∀ mv, s.power.domain = true → railsOn s = true → mv < 44000 →
      Runs (.inputUndervoltage mv) s (fun t => RailsAreOff t 3 ∧ t.power.inputFaulted = true ∧ t.power.inputMv = mv ∧
        ∃ v, t = raiseDev v 0xE001 srcModule [(mv, 32)])) ∧
    (∀ mv, s.power.domain = true → railsOn s = true → 57000 < mv →
      Runs (.inputOvervoltage mv) s (fun t => RailsAreOff t 3 ∧ t.power.inputFaulted = true ∧ t.power.inputMv = mv ∧
        ∃ v, t = raiseDev v 0xE002 srcModule [(mv, 32)])) ∧
    (∀ ma, s.power.domain = true → railsOn s = true → 80000 < ma →
      Runs (.inputOvercurrent ma) s (fun t => RailsAreOff t 3 ∧ t.power.inputFaulted = true ∧ t.power.inputMa = ma ∧
        ∃ v, t = raiseDev v 0xE003 srcModule [(ma, 32)])) ∧
    (s.power.inputFaulted = true → 46000 ≤ s.power.inputMv → s.power.inputMv ≤ 56000 → s.power.domain = true →
      (s.startup.stopped = true ∨ ∀ m, s.startup.main = some m → 4 ≤ m) →
      Runs .inputRecoveryRestart s (ColdBegun · 1 causeRecovery))

/-- Opening the seated contact takes the rails off; closing it lets a waiting P3 start. A press of 1 s to 5 s counts and
requests a removal, or withdraws one; 8 s held take the rails off at once. An enabled down port with its module in and
fewer than three failed trainings trains where a signal is detected. A module that draws at most 25 W is in its cage.
A sample of valid readings all below their warning levels, none held, with no input limit passed: the readings are
kept, and each governed clock is raised by 25 MHz where the input is below 95 percent of its limit, within its entry's
cap. It rests on the model's own choice or reading in log entries 136, 137 and 139. -/
def Obligations.ModuleButtonsCagesAndSensors : Prop :=
  ∀ s : State,
    (s.power.seated = true → railsOn s = true →
      Runs .seatedOpen s (fun t => RailsAreOff t 0 ∧ t.power.seated = false ∧ t.log.raised = s.log.raised)) ∧
    (46000 ≤ s.power.inputMv → s.power.inputMv ≤ 56000 → s.startup.main = some 3 → s.startup.p3Waits = true →
      exec .seatedClose s = .next { s with
        startup := { s.startup with p3Waits := false }
        power := { s.power with
          seated := true
          railState := 1
          railsUp := 0 } }) ∧
    (∀ ms, s.power.domain = true → 1000 ≤ ms → ms < 5000 →
      (s.power.removal = 0 → ∃ c, exec (.buttonPress ms) s =
        .next (raiseDev { bump s 0x200A05 1 with power := { s.power with removal := 1 } } 0xE00E srcModule [(c, 16)])) ∧
      (s.power.removal = 1 → exec (.buttonPress ms) s =
        .next { bump s 0x200A05 1 with power := { s.power with removal := 0 } })) ∧
    (s.power.domain = true → railsOn s = true →
      Runs .buttonHold s (fun t => RailsAreOff t 0 ∧ t.power.removal = 3 ∧
        ∃ v, t = raiseDev v 0xE00F srcModule [(s.power.removal, 8)])) ∧
    (∀ p, p < 21 → (portOf s p).enable = true → (portOf s p).plugged = true → portPowered s p = true → (portOf s p).state = 6 →
      (portOf s p).trainFails < 3 →
      exec (.portSignalDetect p) s = .next { s with fab := { s.fab with
        ports := tput s.fab.ports p (trainAgain (portOf s p) 1) } }) ∧
    (∀ cage mw, cage < 2 → s.power.domain = true → mw ≤ 25000 →
      exec (.pluggableInsert cage mw) s = .next { s with fab := { s.fab with
        ports := tput s.fab.ports (19 + cage) { portOf s (19 + cage) with plugged := true } } }) ∧
    (∀ (x : Sample) (die hbm : List Int) (inlet outlet : Int), s.power.domain = true → s.th.serving = true →
      s.startup.main = none → x.die = die.map some → die.length = 16 → (∀ v ∈ die, -4000 ≤ v ∧ v < 9000) → x.hbm = hbm.map some →
      hbm.length = 8 → (∀ v ∈ hbm, -4000 ≤ v ∧ v < 8500) → x.inlet = some inlet → x.outlet = some outlet → -4000 ≤ inlet →
      inlet < 5000 → inlet < 100 * (ent s 0x200903 : Int) → -4000 ≤ outlet → outlet < 6500 →
      outlet - inlet < 100 * (ent s 0x200904 : Int) → s.power.levels = 0 → x.avgW ≤ ent s 0x200601 → x.avgMa ≤ 62500 →
      Runs (.sensorSample x) s (fun t =>
        t.power = { s.power with
          inputMv := x.mv
          inputMa := x.ma
          powerW := x.avgW
          dieTemps := die
          hbmTemps := hbm
          inlet := inlet
          outlet := outlet
          cageMw := [x.cages.headD 0, (x.cages.drop 1).headD 0]
          critical := 0
          ckMx := min (entAt s 0x220301 0) (if x.avgW * 100 < 95 * ent s 0x200601 then s.power.ckMx + 25 else s.power.ckMx)
          ckVx := min (entAt s 0x250105 1) (if x.avgW * 100 < 95 * ent s 0x200601 then s.power.ckVx + 25 else s.power.ckVx) } ∧
        t = { s with
          th := { s.th with ckRuns := true }
          power := t.power
          mc := { s.mc with tempAbsent := t.mc.tempAbsent } }))

/-- PLL_LOCK_LOSS of a domain raises 0xC00E with its number. Of the Thallus's domain, with rails good, it stops the
Thallus's clock and nothing else. Of a vector core's, with no operation on the Vector Engine, its frond is failed and
no wake of it waits. Of the always-on domain, or of a number past the last, nothing changes. It rests on the model's
own choice or reading in log entries 63 and 64. -/
def Obligations.ClockLossStopsItsUnits : Prop :=
  ∀ s : State, s.power.domain = true → s.power.railState = 2 →
    exec (.pllLockLoss 2) s = .next { raiseDev s 0xC00E srcThallus [(2, 16)] with
      th := { (raiseDev s 0xC00E srcThallus [(2, 16)]).th with ckRuns := false } } ∧
    (∀ d, 13 ≤ d → d ≤ 44 → vcHolder s = none → ∀ v, v = raiseDev s 0xC00E srcThallus [(d, 16)] →
      Runs (.pllLockLoss d) s (fun t => frondState t (d - 5) = .failed ∧ (∀ f, f ≠ d - 5 → frondState t f = frondState s f) ∧
        d - 5 ∉ t.fronds.queue ∧ t = { v with fronds := t.fronds })) ∧
    (∀ d, d = 0 ∨ 112 ≤ d → exec (.pllLockLoss d) s = .next s)

/-- Of the first four waiting wakes, FROND_WAKE_DONE puts the frond on, takes it from the queue and counts it;
FROND_WAKE_FAIL of a vector core's with no operation on the Vector Engine leaves it failed and raises 0xC009. Another
frond's changes nothing. FROND_IDLE_POWERDOWN of a vector core's or a DMA engine's frond that is on and idle puts it
off. No other frond changes, and nothing else does. It rests on the model's own choice or reading in log entries 62
and 63. -/
def Obligations.FrondsWakeAndPowerDown : Prop :=
  ∀ (s : State) (f : Nat),
    (f ∈ s.fronds.queue.take 4 →
      Runs (.frondWakeDone f) s (fun t => frondState t f = .on ∧ (∀ g, g ≠ f → frondState t g = frondState s g) ∧
        t.fronds.queue = s.fronds.queue.filter (· != f) ∧ ent t 0x200505 = min (ent s 0x200505 + 1) (2 ^ 64 - 1) ∧
        t = { s with fronds := t.fronds, dict := t.dict })) ∧
    (f ∈ s.fronds.queue.take 4 → 8 ≤ f → f < 40 → vcHolder s = none →
      Runs (.frondWakeFail f) s (fun t => ∃ v, frondState v f = .failed ∧ (∀ g, g ≠ f → frondState v g = frondState s g) ∧
        v.fronds.queue = s.fronds.queue.filter (· != f) ∧ v = { s with fronds := v.fronds } ∧
        t = raiseDev v 0xC009 srcThallus [(f, 7)])) ∧
    (f ∉ s.fronds.queue.take 4 → exec (.frondWakeDone f) s = .next s ∧ exec (.frondWakeFail f) s = .next s) ∧
    (((8 ≤ f ∧ f < 40 ∧ s.units.vecQueue = none) ∨ (43 ≤ f ∧ f ≤ 50 ∧ copyOf s (f - 43) = none)) → frondState s f = .on →
      Runs (.frondIdlePowerdown f) s (fun t => frondState t f = .off ∧ (∀ g, g ≠ f → frondState t g = frondState s g) ∧
        t = { s with fronds := t.fronds }))

/-- With start-up not stopped and the domain powered: P0 ends into P1 with the clock from zero; P3 with its seven rails up
and nothing kept ends into P4 with the rails good; P8 ends into P9 and P9 into P10; P10 ends, once time is locked,
with the device rack-ready. Each notes its duration. The end of a phase that does not run changes nothing. A phase of
P0 to P2 that passes its bound raises 0xC00C with the phase and its bound and stops start-up; P8 to P10 only raise it.
It rests on the model's own choice or reading in log entries 8, 58 and 108. -/
def Obligations.StartUpPhases : Prop :=
  ∀ (s : State) (x : PhaseEnd), s.startup.stopped = false → s.power.domain = true →
    (s.startup.main = some 0 →
      exec (.startupPhaseEnd 0 x) s = .next { s with
        clock := {}
        startup := { s.startup with
          main := some 1
          times := s.startup.times.set 0 (x.us % 2 ^ 32) } }) ∧
    (s.startup.main = some 3 → s.startup.p3Waits = false → s.power.railsUp = 7 → s.power.kept = [] →
      exec (.startupPhaseEnd 3 x) s = .next { s with
        power := { s.power with railState := 2 }
        startup := { s.startup with
          main := some 4
          times := s.startup.times.set 3 (x.us % 2 ^ 32) } }) ∧
    (∀ k, k = 8 ∨ k = 9 → s.startup.back = some k →
      exec (.startupPhaseEnd k x) s = .next { s with startup := { s.startup with
        back := some (k + 1)
        times := s.startup.times.set k (x.us % 2 ^ 32) } }) ∧
    (s.startup.back = some 10 → s.clock.locked = true →
      exec (.startupPhaseEnd 10 x) s = .next { s with startup := { s.startup with
        back := none
        rackReady := true
        times := s.startup.times.set 10 (x.us % 2 ^ 32) } }) ∧
    (∀ k, s.startup.main ≠ some k → s.startup.back ≠ some k → exec (.startupPhaseEnd k x) s = .next s) ∧
    (∀ k, k ≤ 2 → s.startup.main = some k →
      Runs (.startupPhaseTimeout k) s (fun t => ∃ v,
        v = raiseDev s 0xC00C srcThallus [(k, 8), (if k = 0 then 5000 else if k = 1 then 60000 else 15000, 32)] ∧
        t = { v with startup := { v.startup with
          main := none
          back := none
          stopped := true } })) ∧
    (∀ k, 8 ≤ k → k ≤ 10 → s.startup.back = some k →
      exec (.startupPhaseTimeout k) s = .next (raiseDev s 0xC00C srcThallus [(k, 8), (phaseBound k, 32)]))

/-- With the rails good, no start-up phase running and no device reset in progress: PERST asserted begins a warm reset
with the link down; a hot reset or an FLR of the physical function through an up link begins one. PERST deasserted
only clears. An FLR of a VF without an owner changes nothing. RESET_COMPLETE ends the oldest reset that has run its
course; with none it changes nothing. An engine or partition reset past its bound raises 0xC016 and begins a warm
reset. It rests on the model's own choice or reading in log entries 66, 108 and 129. -/
def Obligations.DeviceResetSources : Prop :=
  ∀ s : State,
    (s.power.railState = 2 → s.startup.main = none → (∀ x ∈ s.resets, x.level < 6) →
      Runs .perstAssert s (fun t => WarmBegun s t causePerst ∧ t.host.perst = true ∧ t.host.up = false) ∧
      (s.host.up = true → Runs .pcieHotReset s (WarmBegun s · causeHot) ∧ Runs .flrPf s (WarmBegun s · causeFlr)) ∧
      (∀ r ∈ s.resets, r.level = 3 ∨ r.level = 5 → Runs .resetBoundExpired s (fun t => ∃ v y, y ∈ s.resets ∧
        v = raiseDev s 0xC016 srcThallus [(y.level, 8), (y.target, 12)] ∧ WarmBegun v t causeOverrun))) ∧
    exec .perstDeassert s = .next { s with host := { s.host with perst := false } } ∧
    (∀ vf, 0 < vf → vf ≤ s.host.numVfs → deviceServes s = true →
      ((∀ x ∈ s.owners, ownerFn s x.1 ≠ vf) → exec (.flrVf vf) s = .next s) ∧
      (∀ o x, s.owners = [(o, x)] → ownerFn s o = vf → x.state = .active →
        resetAbsorbed s ⟨4, o, causeFlr⟩ = false →
        Runs (.flrVf vf) s (fun t => t = ownerResetBegin s o causeFlr))) ∧
    (∀ r, s.resets.find? (resetRun s) = some r → Runs .resetComplete s (fun t => t = completeReset s r)) ∧
    (s.resets.find? (resetRun s) = none → exec .resetComplete s = .next s)

/-- A link that trains with the rails good, at generation 4 to 6 and a width to 16, is up at both, and what was held goes
out in order; a link that was not up, or is no worse, raises nothing. A link that goes down raises 0xB00C with its
generation and width. VF_ENABLE of at most 1,024 sets the number and the enable; where the vectors of all VFs fit in
2,016 no budget limits them, and otherwise 0xB00F says so. A configuration request is answered, with retry until host-
ready. It rests on the model's own choice or reading in log entry 134. -/
def Obligations.LinkFunctionsAndConfiguration : Prop :=
  ∀ s : State,
    (∀ g w, s.host.perst = false → s.power.railState = 2 → 4 ≤ g → g ≤ 6 → 0 < w → w ≤ 16 →
      (s.host.up = false ∨ (s.host.gen ≤ g ∧ s.host.width ≤ w)) →
      exec (.pcieLinkChange true g w) s = .next { s with
        host := { s.host with
          up := true
          gen := g
          width := w
          held := [] }
        out := s.out ++ s.host.held }) ∧
    (∀ g w, s.host.up = true →
      exec (.pcieLinkChange false g w) s =
        .next (raiseDev { s with host := { s.host with up := false } } 0xB00C srcPcie [(g, 16), (w, 16)])) ∧
    (∀ n, n ≤ 1024 → s.host.up = true →
      (n * ent s 0x210005 ≤ 2016 →
        exec (.vfEnable n) s = .next { s with host := { s.host with
          numVfs := n
          vfEnable := decide (0 < n)
          budget := none } }) ∧
      (2016 < n * ent s 0x210005 →
        exec (.vfEnable n) s = .next (raiseDev { s with host := { s.host with
          numVfs := n
          vfEnable := decide (0 < n)
          budget := some (2016 / ent s 0x210005) } } 0xB00F srcPcie [(n, 16), (ent s 0x210005, 8)]))) ∧
    (s.host.up = true →
      exec .configurationRequest s = .next { s with out := s.out ++ [.configAnswer (!s.startup.hostReady)] })

/-- A first or second retraining failure in a row of a pseudo-channel is counted; the third, of one in service with under
15 others of its stack failed, fails it with 0x7005. A repair that ends well, with none to follow: no repair runs, the
row or lane is counted as used, a hard row is no candidate any more, and 0x2806:05 reads 2; one that fails reads 4 and
raises 0x7007. A patrol pass that ends counts and clears the tracker; an uncorrectable error it finds poisons the
codeword, counts, and raises 0x7002 with the address; a disabled patrol does nothing. A finished shift returns its
data, and 0x2806:04 reads false. It rests on the model's own choice or reading in log entries 37, 40, 41 and 42. -/
def Obligations.MemoryErrorsAndRepairsEnd : Prop :=
  ∀ s : State,
    (∀ pc, pc < 512 → s.power.railState = 2 →
      (tgetD s.mc.retrainFails pc 0 < 2 →
        exec (.pcRetrainFailure pc) s = .next { s with mc := { s.mc with
          retrainFails := tput s.mc.retrainFails pc (tgetD s.mc.retrainFails pc 0 + 1) } }) ∧
      (tgetD s.mc.retrainFails pc 0 = 2 → pc ∉ s.mem.failedPc → (s.mem.failedPc.filter (fun x => x / 64 == pc / 64)).length < 15 →
        ∃ c, exec (.pcRetrainFailure pc) s = .next (raiseDev { s with
          mc := { s.mc with retrainFails := tdel s.mc.retrainFails pc }
          mem := { s.mem with failedPc := insertKey s.mem.failedPc pc } } 0x7005 srcMc
          [(pc / 64, 3), (pc, 9), (c, 8)]))) ∧
    (∀ n, s.mc.repairing = some n → n < 2 ^ 64 → ent s 0x280103 = 0 →
      (rqKind n = 2 → exec (.repairDone 2) s = .next { s with
        dict := tput s.dict 0x280605 (.num 2)
        mc := { s.mc with
          repairing := none
          rowsUsed := tput s.mc.rowsUsed (rqGroup n) (tgetD s.mc.rowsUsed (rqGroup n) 0 + 1)
          candidates := s.mc.candidates.filter (fun x => rqRow x != rqRow n)
          tracker := s.mc.tracker.filter (fun x => x.1 != rqRow n) } }) ∧
      (rqKind n = 3 → Runs (.repairDone 2) s (fun t => t.mc = { s.mc with
          repairing := none
          lanesUsed := tput s.mc.lanesUsed (rqPc n) (tgetD s.mc.lanesUsed (rqPc n) 0 + 1) } ∧
        (newestCopy t).laneRepairs = (newestCopy s).laneRepairs ++ [n] ∧ t.dict = tput s.dict 0x280605 (.num 2) ∧
        t = { s with
          dict := t.dict
          mc := t.mc
          th := { s.th with
            copyA := t.th.copyA
            copyB := t.th.copyB } })) ∧
      (∀ k, k ≠ 2 → exec (.repairDone k) s = .next (raiseDev { s with
        dict := tput s.dict 0x280605 (.num 4)
        mc := { s.mc with
          repairing := none
          candidates := s.mc.candidates.filter (fun x => rqRow x != rqRow n) } } 0x7007 srcMc [(n, 64)]))) ∧
    (s.mc.repairing = none → ∀ k, exec (.repairDone k) s = .next s) ∧
    (ent s 0x280101 ≠ 0 → s.power.railState = 2 →
      exec (.patrolScrub [] true) s = .next { bump s 0x280204 1 with mc := { s.mc with
        tracker := []
        badRows := [] } } ∧
      (∀ a, a < 2 ^ 39 → poisonAt s a 1 = false → s.mc.badRows = [] →
        ∃ v, v = raiseDev (bump { s with mem := markPoison s.mem a } 0x280202 1) 0x7002 srcMc
            [(a, 39), (stackOf a, 3), (pcOf a, 9), (rowOf a, 14)] ∧
          exec (.patrolScrub [⟨a, false⟩] false) s = .next { v with mc := { v.mc with badRows := [rowKeyOf a] } })) ∧
    (ent s 0x280101 = 0 → ∀ l b, exec (.patrolScrub l b) s = .next s) ∧
    (∀ b, ent s 0x280604 = 1 →
      exec (.ieee1500ShiftDone b) s =
        .next { s with dict := tput (tput s.dict 0x280603 (.bytes b)) 0x280604 (.num 0) })

/-- For an owner in reset: DRAIN_CENSUS_COMPLETE, with nothing of its ended epoch left and no lease of it, takes its copy
groups and starts the walk, with the time since the reset began; REVOCATION_WALK_DONE, once the walk runs, with no
pool and no queue of it, makes the owner active, with the report of Table 15-8, and takes the reset off the list. A
census out of time raises 0xC015 and resets the partition. An engine that holds an operation too long raises 0xC014
and is reset. An owner not in reset, or an engine that holds nothing: nothing changes. It rests on the model's own
choice or reading in log entries 108, 130 and 132. -/
def Obligations.OwnerResetsDrainAndEnd : Prop :=
  ∀ (s : State) (o : Nat),
    ((ownerRec s o).reset = none →
      exec (.drainCensusComplete o) s = .next s ∧ exec (.revocationWalkDone o) s = .next s ∧ exec (.censusTimeout o) s = .next s) ∧
    (∀ r, (ownerRec s o).reset = some r →
      (r.walking = false → censusOpen s o r = 0 → (∀ l ∈ s.card.leases, l.owner = o → l.epoch = ownerEpoch s o) →
        exec (.drainCensusComplete o) s = .next { s with
          fab := { s.fab with groups := tfilter s.fab.groups (fun _ g => g.owner != o) }
          owners := tput s.owners o { ownerRec s o with reset := some { r with
            walking := true
            slotMaps := 0
            census := min (s.clock.ns - r.startedAt) (2 ^ 32 - 1) } } }) ∧
      (r.walking = true → poolsOfPart s (ownerPart s o) = [] → (∀ x ∈ s.queues, qOwner x.2 ≠ o) →
        ∀ c, s.resets = [⟨4, o, c⟩] →
        Runs (.revocationWalkDone o) s (fun t => ownerState t o = .active ∧ (ownerRec t o).reset = none ∧
          (ownerRec t o).report = resetReport s o { r with
            buffersFreed := 0
            buffersRevoked := 0 } ∧
          ownerEpoch t o = ownerEpoch s o ∧ t.resets = [] ∧ t.queues = s.queues ∧ t.pools = s.pools)) ∧
      (r.walking = false → resetAbsorbed s ⟨5, ownerPart s o, causeCensus⟩ = false →
        exec (.censusTimeout o) s = .next (partitionStop
          (addReset (raiseDev s 0xC015 srcThallus [(o, 12), (censusOpen s o r, 16)]) ⟨5, ownerPart s o, causeCensus⟩)
          (ownerPart s o)))) ∧
    (∀ unit i, engineHolder s unit i = none → exec (.engineWatchdog unit i) s = .next s) ∧
    (∀ unit i q, engineHolder s unit i = some q → engineNamed unit i = true → s.resets = [] →
      exec (.engineWatchdog unit i) s = .next (stopEngine
        (addReset (raiseDev s 0xC014 unit [(unit, 7), (i, 8), (q, 20)]) ⟨3, unit * 256 + i, causeUnit⟩) unit i))

/-- With the rails on, room on the die, no loss to report and no page with room, a fault of the device is the record with
the next number, which goes up by one, and one more has been raised; its bits hold the time, the sequence, the code,
the queue, the owner, the source and whether it is an operation's first, as Table 15-2 lays them out, and the earlier
records stay. FAULT_LOG_PAGE_TAKEN with records on the die, fewer pages than the maximum and a page to be had writes
as many as the page holds, in order, into it. With none on the die it changes nothing. It rests on the model's own
choice or reading in log entries 12, 13 and 128. -/
def Obligations.FaultsAreRecordedInOrder : Prop :=
  (∀ (s : State) (code src : Nat) (items : List (Nat × Nat)), recorderOn s = true → s.log.onDie < 4096 → s.log.lostSince = 0 →
    pageRoom s.log.pages = none → code < 2 ^ 16 → src < 2 ^ 7 →
    let t := raiseDev s code src items
    t.log.raised = s.log.raised + 1 ∧ t.log.next = s.log.next + 1 ∧ t.log.onDie = s.log.onDie + 1 ∧
    (∀ k, k ≠ s.log.next → tget? t.log.records k = tget? s.log.records k) ∧
    (∃ r, tget? t.log.records s.log.next = some r ∧ bits r 48 16 = code ∧ bits r 4 7 = src ∧ bits r 16 12 = 0 ∧
      bits r 28 20 = 0xFFFFF ∧ bits r 128 64 = 2 ^ 64 - 1 ∧ bits r 192 64 = s.clock.ns % 2 ^ 64 ∧ bit r 2 = false ∧
      bits r 11 5 = 0x1F ∧ bits r 64 64 = (packItems items 0).1 % 2 ^ 64) ∧
    t = { s with
      log := t.log
      th := t.th
      out := t.out }) ∧
  (∀ s : State,
    (s.log.onDie = 0 → exec .faultLogPageTaken s = .next s) ∧
    (∀ t h a, s.log.onDie ≠ 0 → s.power.railState = 2 → s.log.pages.length < ent s 0x2D0101 → t.log.lostSince = 0 →
      deviceBuf s (ent s 0x290402) false = (t, some (h, a)) → ∀ n cap, cap = 2 ^ pdLog (poolOf t (hdPool h)).desc / 32 →
      n = min t.log.onDie cap →
      exec .faultLogPageTaken s = .next (wr { t with log := { t.log with
          pages := t.log.pages ++ [⟨h, a, t.log.next - t.log.onDie, n, cap⟩]
          onDie := t.log.onDie - n
          exhausted := false } } 0 a
        ((List.range n).flatMap (fun i => natLe 32 (tgetD t.log.records (t.log.next - t.log.onDie + i) 0))))))

/-- Each for a head that starts, of the epoch of its owner, on an enabled pool of its partition. POOL_ALLOCATE of one
buffer, with one in the head cache whose record is free and sound and enough free for an ordinary request: the buffer
leaves the cache, its record names owner and epoch with one reference, one fewer is free and one more held, the handle
and the offset are written at the pointer and one is the detail. With too few free and no fallback, it ends with
status 0x02. POOL_ACQUIRE of a valid handle adds a reference; POOL_RELEASE takes one of several; each finishes with
status 0x01 and leaves every other record and pool. It rests on the model's own choice or reading in log entries 5, 96
and 98. -/
def Obligations.BuffersAreTakenAndReleased : Prop :=
  ∀ (s : State) (q : Nat) (x : Queue) (o : Op) (h : Head) (t : State) (p : Nat) (y : Pool) (i : Nat) (c : List Nat) (r : BufRec),
    o.epoch = ownerEpoch s o.owner →
    (startHead s q 0x07 1 .ready = .go x o h t → p = plPool o.body → y = poolOf s p → plCount o.body = 1 →
      ptrOk t o.owner (plPtr o.body) 16 .write = true → pdDev y.desc = false → pdPart y.desc = x.partition → y.state = 1 →
      (y.cache = i :: c → i < pdCount y.desc → r = recAt s (pdFirst y.desc + i) → r.state = 0 →
        recPoisoned s (pdFirst y.desc + i) = false → 1 + ceilDiv (pdCount y.desc) 64 ≤ y.free →
        Runs (.poolAllocate q) s (fun u => Finished u q o.seq 0x01 ∧ (∃ z, opAt u q o.seq = some z ∧ z.detail = 1) ∧
          poolOf u p = { y with
            cache := c
            free := y.free - 1
            held := y.held + 1
            low := min y.low (y.free - 1) } ∧
          (∀ j, j ≠ p → poolOf u j = poolOf s j) ∧
          recAt u (pdFirst y.desc + i) = { r with
            alloc := uptimeMs s
            epoch := o.epoch
            refs := 1
            owner := o.owner
            state := 1
            reported := false
            pool := p } ∧
          (∀ j, j ≠ pdFirst y.desc + i → recAt u j = recAt s j) ∧
          u.mem = (wr (wr t o.owner (bufPtr y.desc i) (List.replicate 256 0)) o.owner (plPtr o.body)
            (natLe 8 (fld p 56 8 + fld r.gen 40 16 + fld i 16 24) ++ natLe 8 (bufPtr y.desc i))).mem ∧
          OtherQueues q s u)) ∧
      (pdChained y.desc = false → y.free < 1 + ceilDiv (pdCount y.desc) 64 →
        Runs (.poolAllocate q) s (fun u => Finished u q o.seq 0x02 ∧ u.pools = s.pools ∧ u.mem = s.mem ∧ OtherQueues q s u ∧
          u = { s with queues := u.queues, dict := u.dict }))) ∧
    (p = hdPool (plHandle o.body) → y = poolOf s p → i = pdFirst y.desc + hdIndex (plHandle o.body) → r = recAt s i →
      pdDev y.desc = false → pdPart y.desc = x.partition → recPoisoned s i = false → handleOk s (plHandle o.body) = true →
      (startHead s q 0x07 2 .ready = .go x o h t → r.state = 1 → r.refs < 65535 →
        Runs (.poolAcquire q) s (fun u => Finished u q o.seq 0x01 ∧ recAt u i = { r with refs := r.refs + 1 } ∧
          (∀ j, j ≠ i → recAt u j = recAt s j) ∧ u.pools.pools = s.pools.pools ∧ OtherQueues q s u ∧
          u = { s with queues := u.queues, dict := u.dict, pools := u.pools })) ∧
      (startHead s q 0x07 3 .ready = .go x o h t → 1 < r.refs →
        Runs (.poolRelease q) s (fun u => Finished u q o.seq 0x01 ∧ recAt u i = { r with refs := r.refs - 1 } ∧
          (∀ j, j ≠ i → recAt u j = recAt s j) ∧ u.pools.pools = s.pools.pools ∧ OtherQueues q s u ∧
          u = { s with queues := u.queues, dict := u.dict, pools := u.pools })) ∧
      (startHead s q 0x07 3 .ready = .go x o h t → r.refs = 1 → y.state = 3 →
        Runs (.poolRelease q) s (fun u => Finished u q o.seq 0x01 ∧
          recAt u i = { r with
            gen := (r.gen + 1) % 2 ^ 16
            state := 0
            refs := 0
            owner := 0 } ∧
          poolOf u p = { y with
            held := y.held - 1
            free := y.free + 1 } ∧
          (∀ j, j ≠ i → recAt u j = recAt s j) ∧ (∀ j, j ≠ p → poolOf u j = poolOf s j) ∧ OtherQueues q s u ∧
          u = { s with queues := u.queues, dict := u.dict, pools := u.pools })))

/-- POOL_BUILD_DONE of a pool that builds, with every record free: it is enabled, its list begins at buffer 0, and all its
buffers are free and linked each to the next. HEAD_CACHE_REFILL takes the one buffer of a list whose link and record
are sound into the cache, and the list in memory is then empty; with a cache full or a list empty nothing changes.
POOL_AUDIT_SCAN with no pool enabled counts a scan and clears the histograms; while scans are off nothing changes. It
rests on the model's own choice or reading in log entries 97 and 98. -/
def Obligations.PoolsBuildRefillAndAudit : Prop :=
  ∀ (s : State) (p : Nat) (y : Pool), y = poolOf s p →
    (∀ n, y.state = 2 → pdCount y.desc = n + 1 → (∀ i, i ≤ n → (recAt s (pdFirst y.desc + i)).state = 0) →
      Runs (.poolBuildDone p) s (fun t =>
        poolOf t p = { y with
          state := 1
          head := 0
          free := n + 1 } ∧
        (∀ j, j ≠ p → poolOf t j = poolOf s j) ∧ t.mem = (writeLinks p s (List.range (n + 1))).mem ∧ t.pools.recs = s.pools.recs)) ∧
    (y.state ≠ 2 → y.state ≠ 3 → exec (.poolBuildDone p) s = .next s) ∧
    (y.state = 1 → y.cache = [] → y.head ≠ 0xFFFFFF → linkBad s p y = none → recPoisoned s (pdFirst y.desc + y.head) = false →
      rdNat s 0 (bufPtr y.desc y.head) 3 = 0xFFFFFF →
      exec (.headCacheRefill p) s = .next { s with pools := { s.pools with
        pools := tput s.pools.pools p { y with
          cache := [y.head]
          head := 0xFFFFFF } } }) ∧
    ((y.state ≠ 1 ∨ y.head = 0xFFFFFF ∨ 16 ≤ y.cache.length) → exec (.headCacheRefill p) s = .next s) ∧
    (ent s 0x290201 ≠ 0 → (∀ x ∈ s.pools.pools, x.2.state ≠ 1) →
      exec .poolAuditScan s = .next { bump s 0x290205 1 with pools := { s.pools with hist := [] } }) ∧
    (ent s 0x290201 = 0 → exec .poolAuditScan s = .next s)

/-- OPERATION_COMPLETE of a finished head whose packets are all acknowledged, with the owner neither resetting nor pre-
empting, no signal, no two-phase run, no non-finite check, no job recording and nothing pending: the operation is
completed with its status, the queue's completed_seq is its number and the next message number goes up by one, modulo
2^32. With nothing held, space in a ring of the host and the link up, the 32 bytes of its record go to the slot of
that number under the owner's function and PASID. Nothing else of the part changes. It rests on the model's own choice
or reading in log entries 69, 77 and 79. -/
def Obligations.CompletionsArePosted : Prop :=
  ∀ (s : State) (q : Nat) (x : Queue) (o : Op), queueOf s q = some x → qHead x = some o → o.progress = .finished →
    x.ops.find? (fun y => y.seq == o.seq) = some o → opAcked s q o.seq = true → deviceServes s = true →
    ownerState s (qOwner x) ≠ .resetting → ownerState s (qOwner x) ≠ .preempting → q < 2 ^ 20 → s.card.ops = [] → s.shadow = [] →
    (partOf s x.partition).job = none → sigKey (headOf x o) = none → (headOf x o).twoPhase = false → (headOf x o).check = false →
    bit x.ctx 276 = false →
    Runs (.operationComplete q) s (fun t =>
      (∃ y, opAt t q o.seq = some y ∧ y.progress = .completed ∧ y.status = o.status) ∧
      (∃ z, queueOf t q = some z ∧ z.completedSeq = o.seq ∧ z.msgSeq = (x.msgSeq + 1) % 2 ^ 32 ∧ z.journalled = x.journalled ∧
        z.nextSeq = x.nextSeq ∧
        (x.held = [] → ringSpace x = true → z.posted = x.posted + 1 ∧ (s.host.up = true →
          .hostWrite (ownerFn s (qOwner x)) (if qOwner x = 0 then 0 else ownerPasid s (qOwner x))
            (bits x.ctx 384 64 + 32 * (bits (completionOf s o + fld x.msgSeq 32 32) 32 32 % msgSlots x))
            (natLe 32 (completionOf s o + fld x.msgSeq 32 32)) ∈ t.out)) ∧
        (x.held ≠ [] ∨ ringSpace x = false → z.held = x.held ++ [⟨completionOf s o + fld x.msgSeq 32 32, false⟩])) ∧
      ent t 0x210402 = min (ent s 0x210402 + 1) (2 ^ 64 - 1) ∧ OtherQueues q s t ∧
      t = { s with
        queues := t.queues
        dict := t.dict
        out := t.out
        host := { s.host with held := t.host.held }
        units := { s.units with vecQueue := if s.units.vecQueue = some q then none else s.units.vecQueue } })

/-- For a VECTOR head that the schedule takes and that starts, with a sound body of one FP32 row in and one FP32 row (or
value) out rounded to nearest, operands it may use and that read clean: the operation finishes with status 0x01 and
holds the engine, and memory is as before but for the output row, which holds the function of the row of src0 with
src1, src2 and the scalar: sums, products and fused sums with one rounding, the smaller and the larger, the special
functions, the pairwise or block sum, maximum, mean, variance and mean square of the row, the applied norms, the gated
unit, the normalised row, and the masked row. Other queues and the rest of the part stay, but counters, the schedule
and free values. It rests on the model's own choice or reading in log entries 5, 62, 72 and 85. -/
def Obligations.VectorFunctionsOfARow : Prop :=
  ∀ (s : State) (q f : Nat) (d : Drr) (x : Queue) (o : Op) (h : Head) (t : State) (c : Instr) (r : List Fp)
    (row y z : List Fp) (d1 : Bool) (scalar : Fp),
    (vcReadyQueues s).contains q = true → drrQueue s 4 s.units.vector (vcReadyQueues s) = some (q, d) →
    startHead { s with units := { s.units with vector := d } } q 0x03 f (needAll s (coreFronds s)) = .go x o h t →
    vcBadField o.body = none → coresOut t ≠ 2 ^ 32 - 1 → (∀ p ∈ vcOperands o.body, ptrOk t o.owner p.1 p.2.1 p.2.2.2 = true) →
    (h.twoPhase && vcInPlace o.body) = false →
    vcRows o.body = 1 → vcIn o.body = 0xE → vcOutFmt o.body = 0xE → vcRound o.body = 0 → vcPoison t o.body 0 = none →
    row = vcRow t o.owner o.body 0xE (vcSrc0 o.body) 0 → y = vcRow t o.owner o.body 0xE (vcSrc1 o.body) 0 →
    z = vcRow t o.owner o.body 0xE (vcSrc2 o.body) 0 → d1 = (entAt t 0x250101 x.partition == 1) →
    scalar = dec32 (vcScalar o.body) →
    (f, c, r) ∈ [(0x01, Instr.vectorAdd q, zipMap (fun a e => rne32 (fpAdd a e)) row y),
      (0x02, .vectorMul q, zipMap (fun a e => rne32 (fpMul a e)) row y),
      (0x03, .vectorFma q, zipMap (fun p e => rne32 (fpAdd p e)) (zipMap fpMul row y) z),
      (0x04, .vectorMin q, zipMap fpMin row y), (0x05, .vectorMax q, zipMap fpMax row y), (0x06, .vectorConvert q, row),
      (0x10, .vectorExp q, row.map (sfu d1 .exp)), (0x11, .vectorExp2 q, row.map (sfu d1 .exp2)),
      (0x12, .vectorLn q, row.map (sfu d1 .ln)), (0x13, .vectorLog2 q, row.map (sfu d1 .log2)),
      (0x14, .vectorRecip q, row.map (sfu d1 .recip)), (0x15, .vectorRsqrt q, row.map (sfu d1 .rsqrt)),
      (0x20, .rowSum q, [if d1 then sumD1 row else pairSum row]), (0x21, .rowMax q, [rowMax row]),
      (0x22, .mean q, [rowMean d1 row]), (0x23, .variance q, [rowVariance d1 row]), (0x24, .rms q, [rowRms d1 row]),
      (0x25, .normApply q, normApply d1 scalar row (vcFloats t o.owner (vcSrc1 o.body) (vcCols o.body))
        (vcFloats t o.owner (vcSrc2 o.body) (vcCols o.body))),
      (0x26, .rmsApply q, rmsApply d1 scalar row (vcFloats t o.owner (vcSrc1 o.body) (vcCols o.body))),
      (0x27, .gatedUnit q, zipMap (gatedElem d1) row y),
      (0x28, .softmaxNormalise q,
        row.map (fun v => rne32 (fpMul v (sfu d1 .recip (dec32 (rdNat t o.owner (vcSrc1 o.body) 4)))))),
      (0x30, .maskedMul q, maskedRow (opKey (stepKey (pEnt t 0x3020 1 x.partition) (stepNumber t x.partition)) h.drawOp)
        o.body 0 row)] →
    ∃ u, exec c s = .next u ∧ Finished u q o.seq 0x01 ∧ u.units.vecQueue = some q ∧ OtherQueues q s u ∧
      u.mem = (if 0x20 ≤ f ∧ f ≤ 0x24
        then wr t o.owner (vcOut o.body) (natLe 4 ((convRow 0xE false (r.map (fun v => (v, none)))).words.headD 0))
        else writePacked t o.owner (vcOut o.body) 32 0 (convRow 0xE false (r.map (fun v => (v, none)))).words).mem ∧
      u = { s with
        queues := u.queues
        dict := u.dict
        mem := u.mem
        units := u.units
        free := u.free }

/-- softmax_tile_d1 of one row, under the conditions of the other functions: the new maximum and sum go to the row state,
the scaled partial to src2 and the exponentials to the output. A register or table fault of a core in service while an
operation that may run again holds the engine: the core is faulted, the operation waits to be run again, and nothing
holds the engine; with the engine idle only a free value is taken. A double error of the Tile Store raises 0x7008 with
its offset and poisons its line. A gated head whose step's decision is skip ends with status 0x03 with no effect; with
no decision yet, it waits. It rests on the model's own choice or reading in log entries 71, 84 and 85. -/
def Obligations.SoftmaxTileAndVectorFaults : Prop :=
  (∀ (s : State) (q f : Nat) (d : Drr) (x : Queue) (o : Op) (h : Head) (t : State) (m l : Fp) (op p : List Fp), f = 0x29 →
    (vcReadyQueues s).contains q = true → drrQueue s 4 s.units.vector (vcReadyQueues s) = some (q, d) →
    startHead { s with units := { s.units with vector := d } } q 0x03 f (needAll s (coreFronds s)) = .go x o h t →
    vcBadField o.body = none → coresOut t ≠ 2 ^ 32 - 1 → (∀ p ∈ vcOperands o.body, ptrOk t o.owner p.1 p.2.1 p.2.2.2 = true) →
    (h.twoPhase && vcInPlace o.body) = false →
    vcRows o.body = 1 → vcIn o.body = 0xE → vcOutFmt o.body = 0xE → vcRound o.body = 0 → vcPoison t o.body 0 = none →
    (m, l, op, p) = softmaxD1Row (dec32 (rdNat t o.owner (vcSrc1 o.body) 4)) (dec32 (rdNat t o.owner (vcSrc1 o.body + 4) 4))
      (vcRow t o.owner o.body 0xE (vcSrc2 o.body) 0) (vcRow t o.owner o.body 0xE (vcSrc0 o.body) 0) →
    Runs (.softmaxTileD1 q) s (fun u => Finished u q o.seq 0x01 ∧ OtherQueues q s u ∧
      u.mem = (writePacked (writePacked (wr t o.owner (vcSrc1 o.body) (natLe 4 (enc32 m) ++ natLe 4 (enc32 l))) o.owner
        (vcSrc2 o.body) 32 0 (op.map enc32)) o.owner (vcOut o.body) 32 0
        (convRow 0xE false (p.map (fun v => (v, none)))).words).mem)) ∧
  (∀ (s : State) (core : Nat),
    (vcHolder s = none → exec (.vectorRegParity core) s = .next { s with free := s.free + 1 } ∧
      exec (.sfuTableParity core) s = .next { s with free := s.free + 1 }) ∧
    (∀ q o h, vcHolder s = some (q, o, h) → bit (coresOut s) core = false → (vcInPlace o.body && !h.twoPhase) = false → o.runs < 8 →
      (queueOf s q).any (fun x => (x.ops.find? (fun y => y.seq == o.seq)) == some o) = true →
      Runs (.vectorRegParity core) s (fun t => (∃ y, opAt t q o.seq = some y ∧ y.progress = .waiting ∧ y.rerun = true) ∧
        t.units.coreFaults = s.units.coreFaults ||| 2 ^ core ∧ t.units.vecQueue = none ∧ t.log.raised = s.log.raised + 1 ∧
        OtherQueues q s t) ∧
      Runs (.sfuTableParity core) s (fun t => (∃ y, opAt t q o.seq = some y ∧ y.progress = .waiting ∧ y.rerun = true) ∧
        t.units.coreFaults = s.units.coreFaults ||| 2 ^ core ∧ t.units.vecQueue = none ∧ t.log.raised = s.log.raised + 1 ∧
        OtherQueues q s t)) ∧
    (∀ a, a < 288 * 2 ^ 20 →
      Runs (.tileStoreDoubleError a) s (fun t => t.mem.poison.contains (2 ^ 40 + a / 1024) = true ∧
        ∃ v, v = raiseDev s 0x7008 srcTile [(a, 29)] ∧ t = { v with mem := markPoison v.mem (2 ^ 39 + a) }))) ∧
  (∀ (s : State) (q : Nat) (x : Queue) (o : Op), queueOf s q = some x → qHead x = some o →
    x.ops.find? (fun y => y.seq == o.seq) = some o → mayStart s x = true → o.progress = .accepted →
    descCheck (qVersion x) o.hdr o.body = none → (headOf x o).gated = true →
    (gateOf s x.partition o (headOf x o) = .skip →
      Runs (.gatedOpStart q) s (fun t => Finished t q o.seq 0x03 ∧ OtherQueues q s t ∧ t = { s with queues := t.queues })) ∧
    (gateOf s x.partition o (headOf x o) = .wait →
      Runs (.gatedOpStart q) s (fun t => (∃ y, opAt t q o.seq = some y ∧ y.progress = .waiting) ∧ OtherQueues q s t ∧
        t = { s with queues := t.queues })))

/-- Each for a head that starts, taken by the walker, its structures clear of what runs. GROUPED with a control block,
table and profiles that pass every check and no start wait: the walker holds its plan, the chains that the bands in
service admit for its entries and fills, memory and other queues unchanged, and the operation runs on. MATRIX
likewise, of the one entry that its body is, in its partition's staging area. A waiting operation whose start counter
reached its target is planned so; one whose counter was poisoned is refused and leaves the walker. It rests on the
model's own choice or reading in log entries 72, 81 and 83. -/
def Obligations.GroupedOperationsArePlanned : Prop :=
  ∀ (s : State) (q : Nat) (x : Queue) (o : Op) (h : Head) (t : State) (w : Walk) (cs : List Chain),
    (∀ g at_ table profs, walkerTakes s q = true → clearOfRunning s (controlExts s q) = true →
      startHead s q 0x01 0 .ready = .go x o h t → at_ = bits o.body 472 40 → ptrOk t o.owner at_ 64 .read = true →
      readStruct t o.owner at_ 64 = some g → gcbCheck t o.owner (some g) = none →
      entriesCheck t o.owner g (fun i => readStruct t o.owner (gcbProfile g + 64 * i) 64) 0 (readTable t o.owner g) = none →
      table = (readTable t o.owner g).map (·.getD 0) → profs = readProfiles t o.owner g table →
      overlapCheck (groupExts at_ g) g ((indexed 0 table).map (fun y => (y.1, y.2, tgetD profs (enProfile y.2) 0))) = none →
      gcbWait g = false → w = newWalk o at_ g false table profs → PlanIs t q o h w cs →
      Runs (.grouped q) s (fun u => PlannedAs t u q o h w cs ∧ (∃ y, opAt u q o.seq = some y ∧ y.progress = .started) ∧
        u.mem = s.mem ∧ OtherQueues q s u ∧ u = { s with queues := u.queues, dict := u.dict, units := u.units })) ∧
    (∀ g profs, walkerTakes s q = true → clearOfRunning s (controlExts s q) = true →
      startHead s q 0x02 0 .ready = .go x o h t →
      g = matrixGcb h.auxPtr (pEnt t 0x3000 5 x.partition) (pEnt t 0x3000 6 x.partition) →
      ptrOk t o.owner h.auxPtr 64 .read = true → stagingOk t o.owner (pEnt t 0x3000 5 x.partition) (pEnt t 0x3000 6 x.partition) = true →
      entryCheck t o.owner 0xFFFF g (some o.body) (fun i => readStruct t o.owner (h.auxPtr + 64 * i) 64) = none →
      enSegs o.body = 1 → profs = [(0, rdNat t o.owner h.auxPtr 64)] →
      overlapCheck [(h.auxPtr, 64, 128)] g [(0xFFFF, o.body, rdNat t o.owner h.auxPtr 64)] = none → gcbWait g = false →
      w = newWalk o 0 g true [o.body] profs → PlanIs t q o h w cs →
      Runs (.matrix q) s (fun u => PlannedAs t u q o h w cs ∧ (∃ y, opAt u q o.seq = some y ∧ y.progress = .started) ∧
        u.mem = s.mem ∧ OtherQueues q s u ∧ u = { s with queues := u.queues, dict := u.dict, units := u.units })) ∧
    (arrayHead s q = some (o, h, w) → w.stage = 0 → (plannedWalks s).length < 2 → gcbWait w.gcb = true →
      objIn s (queuePart s q) 2 (gcbCounter w.gcb) = true →
      (tget? s.syu.ended q = some 1 → PlanIs s q o h w cs →
        Runs (.walkerStartCondition q) s (fun u => PlannedAs s u q o h w cs ∧ engineWaits u q = [] ∧ u.mem = s.mem ∧
          u.queues = s.queues ∧ u.syu.objs = s.syu.objs)) ∧
      (tget? s.syu.ended q = some 2 → gcbStatus w.gcb = false → tsorted s.units.walks = true →
        (queueOf s q).any (fun y => (y.ops.find? (fun z => z.seq == o.seq)).isSome) = true →
        Runs (.walkerStartCondition q) s (fun u => Finished u q o.seq 0x10 ∧ tget? u.units.walks q = none ∧
          u.log.raised = s.log.raised + 1 ∧ OtherQueues q s u)))

/-- CHAIN_START of a planned dense chain of the running operation, its predecessors on its bands done, its bands in
service and awake, with no poisoned operand: memory takes the rows that the chain drains, and the chain streams.
CHAIN_COMPLETE with no row flagged: the chain is complete, and with the last one the operation finishes with status
0x01, its status vector written where it asks. EARLY_START with no overlap: the planned operation loads ahead. A
parity fault, or a swap front that reaches the foot of a column other than once: the band is faulted and the operation
waits to be run again. A self-test ends with its result. It rests on the model's own choice or reading in log entries
80 and 84. -/
def Obligations.ChainsStreamAndComplete : Prop :=
  (∀ (s : State) (q i : Nat) (o : Op) (h : Head) (w : Walk) (c : Chain), arrayHead s q = some (o, h, w) → w.stage = 3 →
    w.chains[i]? = some c →
    (s.units.running = some q → w.started = true → c.state = 0 → groupReady w i c = true → (∀ b ∈ chainBands c, bandIn s b = true) →
      (∀ b ∈ chainBands c, frondState s b = .on) → enSparse (walkProb o.owner w c.entry).e = false →
      (runChain s w o.owner c false).stop = none →
      Runs (.chainStart q i) s (fun t => t.mem = (runChain s w o.owner c false).s.mem ∧ t.queues = s.queues ∧ t.syu = s.syu ∧
        (∃ v, tget? t.units.walks q = some v ∧ v.stage = 3 ∧ v.table = w.table ∧
          v.chains = (modChain w i (fun d => { d with
            state := 1
            flagged := (runChain s w o.owner c false).flagged })).chains) ∧
        t.units.running = some q)) ∧
    (c.state = 1 → c.flagged = 0 → (chainDone w i).chains.all (fun d => d.state == 2) = false →
      exec (.chainComplete q i) s = .next { s with units := { s.units with walks := tput s.units.walks q (chainDone w i) } }) ∧
    (c.state = 1 → c.flagged = 0 → (chainDone w i).chains.all (fun d => d.state == 2) = true → tsorted s.units.walks = true →
      Runs (.chainComplete q i) s (fun t => Finished t q o.seq 0x01 ∧ tget? t.units.walks q = none ∧
        t.mem = (if gcbStatus w.gcb then wr s o.owner (gcbStatusPtr w.gcb) (walkStatus (chainDone w i)) else s).mem ∧
        OtherQueues q s t))) ∧
  (∀ (s : State) (q r : Nat) (o : Op) (h : Head) (w v : Walk), arrayHead s q = some (o, h, w) → s.units.running = some r → r ≠ q →
    tget? s.units.walks r = some v → w.stage = 1 → s.units.ahead = none → gcbEarly w.gcb = true → ent s 0x230101 = 1 →
    (earlyOverlap w v = false →
      Runs (.earlyStart q) s (fun t => t.units.ahead = some q ∧ t.units.running = some r ∧
        tget? t.units.walks q = some { w with
          stage := 2
          started := true } ∧
        tget? t.units.walks r = some v ∧ t.mem = spoilTile s.mem (gcbStagingBase w.gcb) (gcbStagingSize w.gcb) ∧
        ent t 0x230209 = min (ent s 0x230209 + 1) (2 ^ 64 - 1) ∧
        t = { s with mem := t.mem, dict := t.dict, units := t.units })) ∧
    (earlyOverlap w v = true → w.declined = false →
      Runs (.earlyStart q) s (fun t => tget? t.units.walks q = some { w with declined := true } ∧ t.units.ahead = none ∧
        ent t 0x23020A = min (ent s 0x23020A + 1) (2 ^ 64 - 1) ∧ t = { s with dict := t.dict, units := t.units }))) ∧
  (∀ (s : State) (b q : Nat) (o : Op) (h : Head) (w : Walk), bandUser s b = some (q, o, h, w) → walkInPlace w = false → o.runs < 8 →
    s.units.walks = [(q, w)] → (queueOf s q).any (fun x => (x.ops.find? (fun y => y.seq == o.seq)) == some o) = true →
    Runs (.arrayRegParity b) s (fun t => (∃ y, opAt t q o.seq = some y ∧ y.progress = .waiting ∧ y.rerun = true) ∧
      t.units.bandFaults = s.units.bandFaults ||| 2 ^ b ∧ t.units.walks = [] ∧ t.log.raised = s.log.raised + 1 ∧ OtherQueues q s t) ∧
    (∀ counts, counts.any (· != 1) = true →
      Runs (.arrayFrontCheck b counts) s (fun t => (∃ y, opAt t q o.seq = some y ∧ y.progress = .waiting ∧ y.rerun = true) ∧
        t.units.bandFaults = s.units.bandFaults ||| 2 ^ b ∧ t.units.walks = [] ∧ t.log.raised = s.log.raised + 1 ∧
        OtherQueues q s t))) ∧
  (∀ (s : State) (n : Nat),
    (s.units.bist.isSome = true → exec (.bistDone n) s = .next { s with
      units := { s.units with bist := none }
      dict := tput (tput s.dict 0x220502 (.num 0)) 0x220503 (.num (n % 2 ^ 32)) }) ∧
    (s.units.bist = none → exec (.bistDone n) s = .next s))

/-- For a DMA head that an awake engine takes and that starts, with a sound word and body, local ends inside its owner's
windows, a large enough destination, no counter, no two-phase run and a source that reads clean. Plain: the
destination holds the rows of the source. Strict compression, with at most two non-zero elements in each group of
four, and pruning: the 2:4 tensor of the source's lines. Run-length: header and records, with their bytes as detail.
Expansions of a sound 2:4 or run-length tensor: its dense rows. Each finishes with status 0x01 and leaves other queues
and the rest of the part. GROUP_FENCE of a group in range with nothing in flight: it ends, done, or with status 0x02
where the group had an error, which is cleared. It rests on the model's own choice or reading in log entries 5, 62 and
110. -/
def Obligations.CopiesOfEveryForm : Prop :=
  (∀ (s : State) (q e : Nat) (x : Queue) (o : Op) (h : Head) (t : State) (src dst : Nat), dmaEngine s = some (e, .ready) →
    startHead s q 0x04 0 .ready = .go x o h t → dmWordBad o.body (entAt t 0x240101 (e + 2) == 1) = false → dmBad o.body = none →
    dmEnd t (dmSrc o.body) (dmSrcRack o.body) (dmSrcTile o.body) = .here src →
    dmEnd t (dmDst o.body) (dmDstRack o.body) (dmDstTile o.body) = .here dst → dmSmall o.body = false →
    winOk t o.owner src (if dmMode o.body = 5 then 32 else dmSrcBytes o.body src) .read = true →
    winOk t o.owner dst (dmDstBytes o.body dst) .write = true → dmCmode o.body = 0 → h.twoPhase = false →
    firstPoison t src (if dmMode o.body = 5 then 32 else dmSrcBytes o.body src) = none →
    let ends : State → State → Prop := fun v u => Finished u q o.seq 0x01 ∧ u.mem = v.mem ∧ OtherQueues q s u ∧
      u = { s with
        queues := u.queues
        dict := u.dict
        mem := u.mem
        units := { s.units with retained := u.units.retained } }
    (dmMode o.body = 0 →
      Runs (.dmaPlainCopy q) s (ends (putRows t o.owner (dmW o.body) dst (dmLdDst o.body) (srcRows t o.owner o.body src)))) ∧
    (dmMode o.body = 1 → firstCrowded (dmFmt o.body) (linesOf o.body (srcRows t o.owner o.body src)) = none →
      Runs (.dmaCompressStrict q) s
        (ends (writeCompressed t o.owner o.body src dst (linesOf o.body (srcRows t o.owner o.body src))))) ∧
    (dmMode o.body = 2 →
      Runs (.dmaCompressPrune q) s
        (ends (writeCompressed t o.owner o.body src dst (linesOf o.body (srcRows t o.owner o.body src))))) ∧
    (∀ b, dmMode o.body = 3 → b = rleEncode (dmFmt o.body) (dmRows o.body) (dmCols o.body) (srcRows t o.owner o.body src).flatten →
      Runs (.dmaCompressRle q) s (fun u => ends (wr t o.owner dst b) u ∧
        ∃ y, opAt u q o.seq = some y ∧ y.detail = b.length % 2 ^ 32)) ∧
    (dmMode o.body = 4 → keptBad o.body src (keptLines t o.owner o.body src) = [] →
      Runs (.dmaExpand24 q) s (ends (writeExpanded t o.owner o.body src dst (keptLines t o.owner o.body src)))) ∧
    (∀ n els, dmMode o.body = 5 → n = 32 + bits (rdNat t o.owner src 32) 128 32 → rleHeaderBad o.body (rdNat t o.owner src 32) = none →
      ptrOk t o.owner src n .read = true → firstPoison t src n = none →
      rleDecode (dmW o.body) (dmRows o.body * dmCols o.body) n 32 (rd t o.owner (src + 32) (n - 32)) 0 [] = .ok els →
      Runs (.dmaExpandRle q) s (ends (putRows t o.owner (dmW o.body) dst (dmLdDst o.body)
        (splitEvery (dmCols o.body) (dmRows o.body) els))))) ∧
  (∀ (s : State) (q : Nat) (x : Queue) (o : Op) (h : Head) (t : State) (g : Group), goingHead s q 0x05 = none →
    startHead s q 0x05 0 .ready = .go x o h t → groupIn t x.partition (bits o.body 496 16) = true → s.fab.flows = [] →
    g = tgetD s.fab.groups (bits o.body 496 16) {} → (∀ y, opAt t q o.seq = some y → y.faults = 0) →
    Runs (.groupFence q) s (fun u => Finished u q o.seq (if g.err then 0x02 else 0x01) ∧ OtherQueues q s u ∧
      (g.err = true → ∃ y, opAt u q o.seq = some y ∧ y.code = g.first) ∧
      u = { s with
        queues := u.queues
        dict := u.dict
        fab := { s.fab with groups := tdel s.fab.groups (bits o.body 496 16) } }))

/-- DISPATCH, RETURN, COMBINE, SCATTER and GRAD_COMBINE that start with one chunk: where the chunk's counter has reached
its target, or none is named, and the chunk runs through, the operation completes with status 0x01 with what that
chunk did; where it has not, the operation waits, registered at its counter. The start of the last chunk's condition
does the same for an operation that runs, and a poisoned counter stops one that has no abort to send, with status 0x11
and a fault. COMBINE of one token writes its combined row and clears the receipts it consumed, and touches nothing
else in memory. RELEASE completes with status 0x01: header and receipts of a bound slot map become zero and its lease
is gone; an unbound one stays. It rests on the model's own choice or reading in log entries 111, 112, 113 and 114. -/
def Obligations.CardingOperationsRunByChunks : Prop :=
  (∀ (s : State) (q kind : Nat) (x : Queue) (o : Op) (h : Head) (t : State) (c : Card) (i : Instr),
    (kind, i) ∈ [(1, Instr.dispatch q), (2, .cardReturn q), (3, .combine q), (4, .scatter q), (5, .gradCombine q)] →
    CardStarts s q kind x o h t c → ccChunks c.ccb = 1 →
    (∀ v u d, chunkWait (cardBegun t q o c) q c = (v, some 1) → ChunkRuns v q o c u d →
      Runs i s (fun y => y = finishCard u q o d ∧ Finished y q o.seq 0x01)) ∧
    (∀ v, chunkWait (cardBegun t q o c) q c = (v, none) → exec i s = .next v ∧
      tget? v.card.ops q = some { c with waiting := true } ∧ v.mem = (cardBegun t q o c).mem)) ∧
  (∀ (s : State) (q : Nat) (x : Queue) (o : Op) (h : Head) (c : Card) (i : Instr),
    (ccKind c.ccb, i) ∈ [(1, Instr.dispatchChunkStart q), (2, .returnChunkStart q), (3, .combineChunkStart q),
      (5, .combineChunkStart q), (4, .scatterChunkStart q)] →
    goingHead s q 0x08 = some (x, o, h) → tget? s.card.ops q = some c → (chunkWaits c).2 ≠ 0 →
    (∀ u d, tget? s.syu.ended q = some 1 → c.chunk + 1 = ccChunks c.ccb → ChunkRuns (dropWaits s q) q o c u d →
      Runs i s (fun y => y = finishCard u q o d ∧ Finished y q o.seq 0x01)) ∧
    (tget? s.syu.ended q = some 2 → c.chunk < ccChunks c.ccb → ccKind c.ccb ∈ [2, 3, 5] →
      Runs i s (fun y => Finished y q o.seq 0x11 ∧ y.log.raised = s.log.raised + 1 ∧ OtherQueues q s y))) ∧
  (∀ (s : State) (q : Nat) (x : Queue) (o : Op) (h : Head) (t v : State) (c : Card) (l : List Fp), CardStarts s q 3 x o h t c →
    ccTokens c.ccb = 1 → ccChunks c.ccb = 1 → chunkWait (cardBegun t q o c) q c = (v, some 1) →
    combineToken v o.owner c.ccb 0 = .ok l →
    Runs (.combine q) s (fun u => Finished u q o.seq 0x01 ∧ OtherQueues q s u ∧
      u.mem = (clearReceipts (wr v o.owner (ccOut c.ccb) (rowOut (ccOutFmt c.ccb) l).1) o.owner (ccHome c.ccb) 0 (ccChoices c.ccb)).mem)) ∧
  (∀ (s : State) (q : Nat) (x : Queue) (o : Op) (h : Head) (t : State) (c : Card), CardStarts s q 6 x o h t c →
    Runs (.release q) s (fun u => Finished u q o.seq 0x01 ∧ OtherQueues q s u ∧
      (bits (rdNat t o.owner (ccSlotMap c.ccb) 64) 232 8 = 0 → u.mem = s.mem ∧ u.card = s.card) ∧
      (bits (rdNat t o.owner (ccSlotMap c.ccb) 64) 232 8 ≠ 0 →
        u.mem = (wr t o.owner (ccSlotMap c.ccb) (List.replicate 2112 0)).mem ∧
        u.card.leases = s.card.leases.filter (fun y => y.mapOff != ccSlotMap c.ccb))))

/-- For a token t of a control block with E experts: its logits are E numbers, the FP32 words, or the BF16 halfwords
widened exactly, at logits_ptr + t × E × element size; the bias, where one is present, is E FP32 words at bias_ptr.
The key of an expert is its logit, or the sum of logit and bias rounded once to FP32. Keys rank NaN below minus
infinity, that below every finite value, those by their value (both zeros alike) and below plus infinity. With k of at
most E choices: routing names k experts, and choice r is the expert that exactly r experts rank above, where of equal
keys the lower expert index ranks higher. In a dispatch the choices of a token with sound logits are these, and each
adds one to the number of times its expert was chosen. -/
def Obligations.RoutingTakesTheHighestRanks : Prop :=
  (∀ (s : State) (o b t e n : Nat), n = (if ccBf16 b then 2 else 4) → e < ccExperts b →
    (tokenLogits s o b t).length = ccExperts b ∧
    (tokenLogits s o b t)[e]? =
      some (dec32 (leNat (rd s o (ccLogits b + t * (ccExperts b * n) + e * n) n) * (if ccBf16 b then 65536 else 1)))) ∧
  (∀ (s : State) (o b e : Nat), e < ccExperts b →
    if ccHasBias b then ∃ l, cardBias s o b = some l ∧ l.length = ccExperts b ∧ l[e]? = some (dec32 (leNat (rd s o (ccBias b + 4 * e) 4)))
    else cardBias s o b = none) ∧
  (∀ (x : Fp) (a b : Bool) (m n : Nat) (e f : Int), ranksAbove .nan x = false ∧
    (x ≠ .nan → ranksAbove x .nan = true ∧ ranksAbove (.inf true) x = false ∧ ranksAbove x (.inf false) = false ∧
      (x ≠ .inf true → ranksAbove x (.inf true) = true) ∧ (x ≠ .inf false → ranksAbove (.inf false) x = true)) ∧
    ranksAbove (.num a m e) (.num b n f) = decide ((if b then -(n : Int) else n) * 2 ^ (f - min e f).toNat <
      (if a then -(m : Int) else m) * 2 ^ (e - min e f).toNat)) ∧
  (∀ (d1 : Bool) (mode scale k : Nat) (z : List Fp) (bias : Option (List Fp)) (key : Nat → Fp),
    (∀ b, bias = some b → b.length = z.length) → k ≤ z.length →
    (∀ e, e < z.length → key e = (match bias with
      | none => (z[e]?).getD .nan
      | some b => rne32 (fpAdd ((z[e]?).getD .nan) ((b[e]?).getD .nan)))) →
    let r := (routeToken d1 mode scale k z bias).1
    r.length = k ∧ ∀ i, i < k → ∃ c w, r[i]? = some (c, w) ∧ c < z.length ∧
      ((List.range z.length).filter (fun f => ranksAbove (key f) (key c) ||
        (!ranksAbove (key c) (key f) && decide (f < c)))).length = i) ∧
  (∀ (q o t f : Nat) (bias : Option (List Fp)) (a : CardRun), a.stop = none →
    poisonAt a.s (logitAt a.c.ccb t).1 (logitAt a.c.ccb t).2 = false →
    tgetD (routeOne q o bias a t).c.chosen f 0 = tgetD a.c.chosen f 0 +
      ((routeToken (cardD1 a.s q) (ccGate a.c.ccb) (ccScale a.c.ccb) (ccChoices a.c.ccb) (tokenLogits a.s o a.c.ccb t)
        bias).1.filter (fun x => x.1 == f)).length)

/-- For a COLLECTIVE head that starts with a sound control block of the row's kind: where what it runs to is complete, the
operation ends with status 0x01 and notes what its output rounds to; where a contribution is missing, it waits and
nothing else changes; where it is stopped (another step or id, an abort, poison), it ends with status 0x11. A
contribution that differs in step or id stops it with 0xD007, an aborting one with 0xD008, a poisoned one with 0xD009.
What a reduction by AND, OR or saturating sum yields is the words combined one participant after the other: the tree's
shape does not show. It rests on the model's own choice or reading in log entries 118, 119 and 120. -/
def Obligations.CollectivesEnd : Prop :=
  (∀ (s : State) (q kind : Nat) (peers : List Contrib) (x : Queue) (o : Op) (h : Head) (t : State) (c : Coll) (i : Instr),
    (kind, i) ∈ [(1, Instr.allReduce q peers), (2, .reduceScatter q peers), (3, .allGather q peers), (4, .broadcast q peers),
      (5, .closing q peers)] →
    startHead s q 0x09 0 .ready = .go x o h t → clCheck t o x.partition = .ok c → c.kind = kind →
    (∀ u b st, clRun t ⟨q, o, x.partition, false⟩ c peers = .done u b st → (opAt u q o.seq).isSome = true →
      Runs i s (fun v => Finished v q o.seq 0x01 ∧ v.mem = u.mem ∧ v.fab = u.fab ∧ v.out = u.out ∧ v.syu = u.syu ∧ OtherQueues q u v)) ∧
    (clRun t ⟨q, o, x.partition, false⟩ c peers = .waits →
      Runs i s (fun v => (∃ y, opAt v q o.seq = some y ∧ y.progress = .waiting) ∧ OtherQueues q s v ∧
        v = { s with queues := v.queues, dict := v.dict })) ∧
    (∀ u code items, clRun t ⟨q, o, x.partition, false⟩ c peers = .stopped u code items → (opAt u q o.seq).isSome = true →
      Runs i s (fun v => Finished v q o.seq 0x11 ∧ v.log.raised = u.log.raised + 1 ∧ OtherQueues q u v))) ∧
  (∀ (c : Coll) (me j : Nat) (x : Contrib) (r : List Contrib), j ∈ clOthers c me → x.member = j →
    (∀ k ∈ clOthers c me, k < j → ∃ y ∈ r, y.member = k ∧ y.abort = false ∧ y.step = c.step ∧ y.id = c.id ∧ y.poisoned = false ∧
      ∀ w ∈ r, w.member = k → w = y) →
    (x.abort = true → ∃ d, clBad c me (x :: r) = some (0xD008, d)) ∧
    (x.abort = false → (x.step ≠ c.step ∨ x.id ≠ c.id) → ∃ d, clBad c me (x :: r) = some (0xD007, d)) ∧
    (x.abort = false → x.step = c.step → x.id = c.id → x.poisoned = true → ∃ d, clBad c me (x :: r) = some (0xD009, d))) ∧
  (∀ (op n : Nat) (a : List Nat) (l : List (List Nat)), 3 ≤ op → l.length < n →
    treeFold (zipEach (wordOp op)) n (a :: l) = some (l.foldl (zipEach (wordOp op)) a))

/-- A PLACE_INIT head with a sound job description that starts: with a record missing it waits, the partition joining;
with all records equal to its own and every clock locked the job is placed, the partition holds it in state 2 and
joined; otherwise it is refused. Records are accepted exactly where each is this device's own with its clock locked.
The word rounds of a step barrier agree exactly where every member's digest is this device's; the digest that they
exchange is frozen by STEP_ARRIVAL_SEND, which arrives once they pass with no work left, and otherwise waits. The
first placement, with all loads zero, puts expert e at member e / c with local index e mod c. It rests on the model's
own choice or reading in log entries 122 and 123. -/
def Obligations.PlacementIsAgreedAndMade : Prop :=
  (∀ (s : State) (q : Nat) (peers : List Join) (x : Queue) (o : Op) (h : Head) (t : State) (d : JobDesc) (own : Nat),
    startHead s q 0x0A 1 .ready = .go x o h t → isTile (bits o.body 432 40) = false →
    ptrOk t o.owner (bits o.body 432 40) 64 .read = true → (partOf t x.partition).jobState = 0 →
    placeCheck t o.owner (bits o.body 432 40) = .ok d → own = joinRecord t x.partition (jobDigest d.hdr d.members d.recs d.regions) →
    (∀ r, r < d.members.length → r ≠ jobRank t d → peers.any (fun y => y.rank == r) = false →
      Runs (.placeInit q peers) s (fun u => (∃ y, opAt u q o.seq = some y ∧ y.progress = .waiting ∧ y.stage = 1) ∧
        (partOf u x.partition).jobState = 1 ∧ OtherQueues q s u ∧ u.mem = s.mem)) ∧
    (∀ l, (List.range d.members.length).map (fun r => if r = jobRank t d then some own else
        (peers.find? (fun y => y.rank == r)).map (·.record)) = l.map some →
      (∀ j, joinBad x.partition own l = none → jobOf t o.owner d = some j →
        Runs (.placeInit q peers) s (fun u => u = doneOp (placeJob (sendJoin t o d own) x.partition j) q o ∧
          (partOf u x.partition).job = some j ∧ (partOf u x.partition).jobState = 2 ∧ (partOf u x.partition).joinState = 1)) ∧
      (∀ e, joinBad x.partition own l = some e → Runs (.placeInit q peers) s (fun u => (partOf u x.partition).jobState = 0 ∧
        (own ≠ joinReference l → (partOf u x.partition).joinState = 3))))) ∧
  (∀ (p own : Nat) (l : List Nat), own < 2 ^ 512 → (∀ r ∈ l, r < 2 ^ 512) →
    (joinBad p own l = none ↔ ∀ r ∈ l, r = own ∧ bit r 331 = true)) ∧
  (∀ (s : State) (p q : Nat) (x : Queue) (o : Op) (j : Job) (peers : List Contrib) (grads : List (List Contrib)) (u : State),
    waitingArrival s p = some (q, x, o) → (partOf s p).job = some j → 1 < groupSize s p → j.gradDue = [] →
    u = modJob (modPart s p (fun y => { y with frozen := some (((partOf s p).frozen).getD (stepDigest s p)) })) p
      (fun y => { y with gradDue := [] }) →
    pleWorks u j = false →
    (∀ v, agreeRound u p j (((partOf s p).frozen).getD (stepDigest s p)) peers = some v →
      exec (.stepArrivalSend p peers grads) s = .next (arriveAll v p q x o j)) ∧
    (agreeRound u p j (((partOf s p).frozen).getD (stepDigest s p)) peers = none → exec (.stepArrivalSend p peers grads) s = .next u)) ∧
  (∀ (s : State) (p : Nat) (j : Job) (d : Nat) (peers : List Contrib) (ds : Nat → Nat), d < 2 ^ 32 →
    (∀ r, ds r < 2 ^ 32) → (∀ y ∈ peers, y.poisoned = false ∧ y.abort = false) →
    (∀ r, r < j.members.length → r ≠ j.rank →
      (peers.find? (fun y => y.member == r)).map (fun y => leNat (y.data.take 4)) = some (ds r) ∧
      (peers.find? (fun y => y.member == j.members.length + r)).map (fun y => leNat (y.data.take 4)) = some (0xFFFFFFFF - ds r)) →
    ∃ v, agreeRound s p j d peers = some v ∧
      ((partOf v p).agreed = some true ↔ ∀ r, r < j.members.length → r ≠ j.rank → ds r = d)) ∧
  (∀ e d c, e ≤ d * c → placeExperts (List.replicate e 0) d c = some ((List.range e).map (fun i => [(i / c, i % c)]), 0))

/-- For a marker head that starts and names a layer of the job's stage. Forward enter: while the transient buffer of its
parity is taken it waits with nothing else changed; else, with its gather done and none ahead, it completes and the
layer is entered, recording exactly where class B is recomputed. Forward exit with nothing to off-load and nothing
unfit recorded: it completes, the layer is left and its gathered data released unless it is kept; something unfit
raises 0xD00A and clears the partition's finite flag, and it completes. Backward enter, with nothing off-loaded, class
B kept and the gather done: the layer is entered backward; it waits while off-loaded classes are asked back. Backward
exit: it completes, and the gradients of its role 0x3 and 0x5 regions are due. It rests on the model's own choice or
reading in log entries 126 and 127. -/
def Obligations.LayersAreEnteredAndLeft : Prop :=
  ∀ (s : State) (q i : Nat) (peers : List (List Contrib)) (x : Queue) (o : Op) (h : Head) (t : State) (j : Job),
    markerOf t x.partition o = .ok (j, i) → (partOf t x.partition).job = some j →
    (startHead s q 0x0A 2 .ready = .go x o h t → bit o.body 503 = false →
      (bufferBusy t j i = true →
        Runs (.layerEnterForward q peers) s (fun u => (∃ y, opAt u q o.seq = some y ∧ y.progress = .waiting) ∧ OtherQueues q s u ∧
          u = { s with queues := u.queues, dict := u.dict })) ∧
      (∀ v r, bufferBusy t j i = false → gatherLayer t x.partition q o i false peers = .done v r →
        nextLayers j i (pEnt v 0x3038 8 x.partition) false = [] →
        Runs (.layerEnterForward q peers) s (fun u => u = doneOp (modLayer v x.partition i (fun l => { l with
          inForward := true
          recording := (l.choices[1]?).getD 3 == 2
          recorded := []
          recordBad := false
          recStep := stepNumber v x.partition })) q o))) ∧
    (startHead s q 0x0A 3 .ready = .go x o h t → bit o.body 503 = false → offClasses (layerAt j i) = [] →
      ((layerAt j i).recording = true → recordedBad (layerAt j i) = none) →
      Runs (.layerExitForward q peers) s (fun u => Finished u q o.seq 0x01 ∧ OtherQueues q s u ∧ u.mem = s.mem ∧ u.log = s.log ∧
        (partOf u x.partition).job = some { j with layers := j.layers.modify i (fun l => { l with
          inForward := false
          recording := false
          gathered := l.gathered && lyKeep l.rec_
          offloaded := []
          returning := false
          group := 0xF000 + t.card.groups % 4096 }) })) ∧
    (∀ k, startHead s q 0x0A 3 .ready = .go x o h t → bit o.body 503 = false → offClasses (layerAt j i) = [] →
      (layerAt j i).recording = true → recordedBad (layerAt j i) = some k →
      Runs (.layerExitForward q peers) s (fun u => Finished u q o.seq 0x01 ∧ OtherQueues q s u ∧
        u.log.raised = s.log.raised + 1 ∧ (partOf u x.partition).localFinite = false)) ∧
    (startHead s q 0x0A 2 .ready = .go x o h t → bit o.body 503 = true → bufferBusy t j i = false →
      ((layerAt j i).offloaded ≠ [] → (layerAt j i).returning = false →
        Runs (.layerEnterBackward q peers) s (fun u => u = markerWaits (askReturns t x.partition i) q o)) ∧
      (∀ v r, (layerAt j i).offloaded = [] → (layerAt j i).choices[1]? ≠ some 2 →
        gatherLayer t x.partition q o i true peers = .done v r → nextLayers j i (pEnt v 0x3038 8 x.partition) true = [] →
        Runs (.layerEnterBackward q peers) s (fun u =>
          u = doneOp (modLayer v x.partition i (fun l => { l with inBackward := true })) q o))) ∧
    (startHead s q 0x0A 3 .ready = .go x o h t → bit o.body 503 = true →
      Runs (.layerExitBackward q peers) s (fun u => Finished u q o.seq 0x01 ∧ OtherQueues q s u ∧ u.mem = s.mem ∧ u.log = s.log ∧
        (partOf u x.partition).job = some { j with
          layers := j.layers.modify i (fun l => { l with
            inBackward := false
            gathered := false })
          gradDue := j.gradDue ++ ((indexed 0 (layerAt j i).regions).filter (fun r => rgRole r.2 == 3 || rgRole r.2 == 5)).map
            (fun r => (i, r.1)) }))

/-- What the procedure of R388 places: for each expert one to four replicas at distinct members, every member and slot in
range, and no slot used twice. PLACEMENT_DECISION with a snapshot and one of equal length from every other member of
the group: the snapshot is used up, the map in force stays, and the placement pends exactly where it completed with
enough gain. RESHARD_ROUND2 with every vote there and the own copies acknowledged: the layer is done; where all votes
are 1 its new map is in force; with any 0 the layers stay; after the last layer, the generation counts one up if any
map changed. Either command otherwise changes nothing. It rests on the model's own choice or reading in log entries
124 and 125. -/
def Obligations.DecisionsAndReshards : Prop :=
  (∀ (loads : List Nat) (d c : Nat) (r : List (List (Nat × Nat)) × Nat), placeExperts loads d c = some r →
    r.1.length = loads.length ∧ r.1.flatten.Nodup ∧ (∀ y ∈ r.1.flatten, y.1 < d ∧ y.2 < c) ∧
    ∀ m ∈ r.1, 1 ≤ m.length ∧ m.length ≤ 4 ∧ (m.map (·.1)).Nodup) ∧
  (∀ (s : State) (p layer : Nat) (peers : List (List Nat)) (j : Job) (own : List Nat), (partOf s p).job = some j →
    (adaptiveLayers j).contains layer = true → (layerAt j layer).snap = some own → peers.length + 1 = (jobGroup j).length →
    (∀ y ∈ peers, y.length = own.length) →
    Runs (.placementDecision p layer peers) s (fun t => ∃ k, (partOf t p).job = some k ∧ (layerAt k layer).snap = none ∧
      (layerAt k layer).map = (layerAt j layer).map ∧
      (∀ r, placeExperts (sumLoads own peers) (jobGroup j).length (lySlots (layerAt j layer).rec_) = some r →
        gainEnough r.2 (mapLoad (sumLoads own peers) (jobGroup j).length (layerAt j layer).map) (pEnt t 0x3038 3 p) = true →
        (layerAt k layer).pending = some r) ∧
      (∀ r, placeExperts (sumLoads own peers) (jobGroup j).length (lySlots (layerAt j layer).rec_) = some r →
        gainEnough r.2 (mapLoad (sumLoads own peers) (jobGroup j).length (layerAt j layer).map) (pEnt t 0x3038 3 p) = false →
        (layerAt k layer).pending = (layerAt j layer).pending) ∧
      (placeExperts (sumLoads own peers) (jobGroup j).length (lySlots (layerAt j layer).rec_) = none →
        (layerAt k layer).pending = (layerAt j layer).pending))) ∧
  (∀ (s : State) (p layer : Nat) (peers : List (List Nat)) (votes : List Nat) (j : Job), (partOf s p).job = some j →
    ((layerAt j layer).snap = none → exec (.placementDecision p layer peers) s = .next s) ∧
    (j.adopting = [] → exec (.reshardRound2 p votes) s = .next s) ∧
    (∀ i new m rest, j.adopting = (i, new, m) :: rest →
      (votes.length + 1 ≠ (jobGroup j).length ∨ groupAcked s j.group = false → exec (.reshardRound2 p votes) s = .next s) ∧
      (votes.length + 1 = (jobGroup j).length → groupAcked s j.group = true →
        Runs (.reshardRound2 p votes) s (fun t => ∃ k, (partOf t p).job = some k ∧ k.adopting = rest ∧
          (votes.all (· == 1) = true ∧ j.vote = true ∧ groupErr s j.group = false → i < j.layers.length →
            (layerAt k i).map = new ∧ k.generation = (if rest = [] then (j.generation + 1) % 2 ^ 32 else j.generation)) ∧
          (votes.all (· == 1) = false ∨ j.vote = false ∨ groupErr s j.group = true → k.layers = j.layers ∧
            k.generation = (if rest = [] ∧ j.changed = true then (j.generation + 1) % 2 ^ 32 else j.generation))))))

/-- For an ATOMIC head of the row's kind that starts, well formed, of 4 or 8 bytes: on this device's memory, in a window
of its owner for atomics and reading clean, the field holds the result of the kind (wrapping sum, FP32 sum, swap,
compare and swap, AND, OR, XOR, smaller and larger, signed and unsigned), the old value is at the result pointer where
one is given, and the operation finishes with status 0x01; memory is otherwise unchanged, and so are other queues. For
another device of the rack that the guard admits, it is sent in the lowest free slot where none waits before it, or
waits for a slot. FLC_INVALIDATE with no modified line in its range drops the owner's lines there and finishes with
status 0x01. It rests on the model's own choice or reading in log entry 5. -/
def Obligations.AtomicsOfQueues : Prop :=
  (∀ (s : State) (q kind old a b w r : Nat) (x : Queue) (o : Op) (h : Head) (t : State) (i : Instr),
    startHead s q 0x0B 0 .ready = .go x o h t → amKind o.body = kind → amFormBad t o.body = false →
    (amResult o.body ≠ 0 → ptrOk t o.owner (amResult o.body) (amBytes o.body) .write = true) →
    w = 8 * amBytes o.body → old = rdNat t o.owner (raOff (amAddr o.body)) (amBytes o.body) → a = amOp1 o.body → b = amOp2 o.body →
    (kind, i, r) ∈ [(0x01, Instr.atomicAdd q, (old + a) % 2 ^ w), (0x02, .atomicFadd q, enc32 (fpAdd (dec32 old) (dec32 a))),
      (0x03, .atomicSwap q, a), (0x04, .atomicCas q, if old = a then b else old), (0x05, .atomicAnd q, old &&& a),
      (0x06, .atomicOr q, old ||| a), (0x07, .atomicXor q, old ^^^ a),
      (0x08, .atomicSmin q, if toSigned w old ≤ toSigned w a then old else a),
      (0x09, .atomicSmax q, if toSigned w old ≤ toSigned w a then a else old), (0x0A, .atomicUmin q, min old a),
      (0x0B, .atomicUmax q, max old a)] →
    (amRack o.body = ownRack t → raDev (amAddr o.body) = ownDev t →
      winOk t o.owner (raOff (amAddr o.body)) (amBytes o.body) .atomic = true →
      poisonAt t (raOff (amAddr o.body)) (amBytes o.body) = false →
      Runs i s (fun u => Finished u q o.seq 0x01 ∧ OtherQueues q s u ∧
        u.mem = (if amResult o.body = 0 then wr t o.owner (raOff (amAddr o.body)) (natLe (amBytes o.body) r)
          else wr (wr t o.owner (raOff (amAddr o.body)) (natLe (amBytes o.body) r)) o.owner (amResult o.body)
            (natLe (amBytes o.body) old)).mem ∧
        u = { s with
          queues := u.queues
          dict := u.dict
          mem := u.mem
          units := { s.units with retained := u.units.retained } })) ∧
    (∀ e, amRack o.body = ownRack t → raDev (amAddr o.body) ≠ ownDev t →
      guardWin t o.owner (amRack o.body) (raDev (amAddr o.body)) (raOff (amAddr o.body)) (amBytes o.body) .atomic = some e →
      (∀ n, t.fab.atomWait.any (fun y => y.1 == raDev (amAddr o.body)) = false → freeSlot t (raDev (amAddr o.body)) = some n →
        exec i s = .next (sendAtomic t q o n)) ∧
      (freeSlot t (raDev (amAddr o.body)) = none →
        Runs i s (fun u => u.fab.atomWait = s.fab.atomWait ++ [(raDev (amAddr o.body), q, o.seq)] ∧ u.mem = s.mem ∧ OtherQueues q s u)))) ∧
  (∀ (s : State) (q : Nat) (x : Queue) (o : Op) (h : Head) (t : State), startHead s q 0x0C 0 .ready = .go x o h t →
    (∀ y ∈ s.fab.lines, y.owner = o.owner → y.state ≠ 2) →
    Runs (.flcInvalidate q) s (fun u => Finished u q o.seq 0x01 ∧ OtherQueues q s u ∧ u.mem = s.mem ∧
      u.fab = { s.fab with lines := s.fab.lines.filter (fun y => !(y.owner == o.owner && (bit o.body 419 ||
        decide (bits o.body 460 52 / 256 * 256 ≤ y.addr ∧ y.addr < bits o.body 460 52 + bits o.body 420 40)))) }))

/-- Training that completes at the rate due with enough lanes: an Ethernet port is up; another goes to its identity check,
or comes up at the higher rate where the record it holds passes. A failed training starts again, and the third gives
up with fault 0xA001. An identity record sends a port that can to the higher rate. A flit that is next is taken; a bad
one asks for a replay, and the sixteenth in a row retrains the port. A request for a replay is counted. A lane that
loses lock leaves the port up with fewer lanes, or down to train again below its least; one that locks again is back.
A silent peer takes a port down. A pause is set in nanoseconds, and ended by zero. Of a port that is in no state for
the event, nothing changes. It rests on the model's own choice or reading in log entries 107 and 109. -/
def Obligations.PortsTrainAndFail : Prop :=
  (∀ (s : State) (port rate n m : Nat) (x : Port), x = portOf s port → port < 21 → portPowered s port = true → x.state = 1 →
    rate = (if x.highRate = true ∨ 19 ≤ port then 1 else 0) → m = trainedLanes x (min n (portLanes port)) →
    portMinLanes s port ≤ popCount m 32 →
    (19 ≤ port → Runs (.portTrainingComplete port rate n) s (fun t => portOf t port = { x with
        lanes := m
        rate := 212500
        state := 3
        trainFails := 0
        faulted := false } ∧ t = { s with fab := { s.fab with ports := t.fab.ports } })) ∧
    (port < 19 → x.highRate = false → Runs (.portTrainingComplete port rate n) s (fun t => portOf t port = { x with
        lanes := m
        rate := 106250
        state := 2 } ∧ t = { s with fab := { s.fab with ports := t.fab.ports } })) ∧
    (port < 19 → x.highRate = true → identityBad s port x.peer = none →
      Runs (.portTrainingComplete port rate n) s (fun t => portOf t port = { x with
        lanes := m
        rate := 212500
        state := if popCount m 32 = portLanes port then 3 else 4
        trainFails := 0
        faulted := false
        credits := 256 }))) ∧
  (∀ (s : State) (port : Nat) (x : Port), x = portOf s port → port < 21 → x.state = 1 ∨ x.state = 2 →
    (x.trainFails < 2 → Runs (.portTrainingFailed port) s (fun t => (portOf t port).state = 1 ∧ (portOf t port).trainFails = x.trainFails + 1 ∧
      (portOf t port).highRate = false ∧ t.log = s.log)) ∧
    (2 ≤ x.trainFails → Runs (.portTrainingFailed port) s (fun t => (portOf t port).state = 6 ∧ (portOf t port).faulted = true ∧
      t.log.raised = s.log.raised + 1))) ∧
  (∀ (s : State) (port r : Nat), port < 19 →
    ((portOf s port).state = 2 → bit r 320 = true → Runs (.identityRecordReceive port r) s (fun t =>
      (portOf t port).state = 1 ∧ (portOf t port).highRate = true ∧ (portOf t port).peer = r % 2 ^ 512 ∧ t.log = s.log)) ∧
    ((portOf s port).state = 5 → (∀ b, identityBad s port (r % 2 ^ 512) = some b →
      Runs (.identityRecordReceive port r) s (fun t => (portOf t port).state = 5 ∧ s.log.raised < t.log.raised)))) ∧
  (∀ (s : State) (port : Nat) (f : Flit) (x : Port), x = portOf s port → port < 19 → portUp s port = true →
    (f.ok = true → f.seq = x.rxSeq → Runs (.linkFlitReceive port f) s (fun t => (portOf t port).rxSeq = (x.rxSeq + 1) % 4096 ∧
      (portOf t port).replayAsked = 0 ∧ t = { s with fab := { s.fab with ports := t.fab.ports } })) ∧
    (f.ok = false → x.replayAsked < 15 → Runs (.linkFlitReceive port f) s (fun t =>
      portOf t port = { x with replayAsked := x.replayAsked + 1 } ∧ t.out.length = s.out.length + 1 ∧ t.log = s.log)) ∧
    (f.ok = false → x.replayAsked = 15 → Runs (.linkFlitReceive port f) s (fun t => (portOf t port).state = 1 ∧
      (portOf t port).faulted = true ∧ s.log.raised < t.log.raised)) ∧
    (∀ n, x.reqSeq = n → x.reqCount < 15 → Runs (.replayRequest port n) s (fun t => (portOf t port).replays = min (x.replays + 1) (2 ^ 64 - 1) ∧
      (portOf t port).reqCount = x.reqCount + 1 ∧ t.mem = s.mem ∧ t.log = s.log)) ∧
    (∀ n, x.reqSeq = n → 15 ≤ x.reqCount → Runs (.replayRequest port n) s (fun t => (portOf t port).state = 1))) ∧
  (∀ (s : State) (port lane : Nat) (x : Port), x = portOf s port → port < 21 → portUp s port = true → lane < portLanes port →
    (bit x.lanes lane = true →
      (portMinLanes s port ≤ popCount (x.lanes - 2 ^ lane) 32 → Runs (.laneLossOfLock port lane) s (fun t =>
        (portOf t port).state = 4 ∧ (portOf t port).lanes = x.lanes - 2 ^ lane ∧ (portOf t port).drops = min (x.drops + 1) (2 ^ 64 - 1))) ∧
      (popCount (x.lanes - 2 ^ lane) 32 < portMinLanes s port → Runs (.laneLossOfLock port lane) s (fun t =>
        (portOf t port).state = 1 ∧ (portOf t port).faulted = true ∧ s.log.raised < t.log.raised))) ∧
    (bit x.lanes lane = false → bit x.retired lane = false → Runs (.laneRetrained port lane) s (fun t =>
      portOf t port = { x with
        lanes := x.lanes + 2 ^ lane
        state := if popCount (x.lanes + 2 ^ lane) 32 = portLanes port then 3 else 4 } ∧
      t = { s with fab := { s.fab with ports := t.fab.ports } })) ∧
    Runs (.peerSilentTimeout port) s (fun t => (portOf t port).state = 1 ∧ (portOf t port).faulted = true ∧ s.log.raised < t.log.raised)) ∧
  (∀ (s : State) (port n : Nat), port = 19 ∨ port = 20 →
    (0 < n → Runs (.priorityFlowControl port (ent s 0x2B0605) n) s (fun t => (portOf t port).pause = (n * 512 + 799) / 800 ∧
      t = { s with fab := { s.fab with ports := t.fab.ports } })) ∧
    Runs (.priorityFlowControl port (ent s 0x2B0605) 0) s (fun t => (portOf t port).pause = 0 ∧ (portOf t port).txWait = [] ∧
      t = { s with fab := { s.fab with ports := t.fab.ports }, out := t.out }) ∧
    (∀ priority, priority ≠ ent s 0x2B0605 → exec (.priorityFlowControl port priority n) s = .next s)) ∧
  (∀ (s : State) (port a b : Nat) (f : Flit), portUp s port = false →
    exec (.linkFlitReceive port f) s = .next s ∧ exec (.replayRequest port a) s = .next s ∧ exec (.laneLossOfLock port a) s = .next s ∧
    exec (.laneRetrained port a) s = .next s ∧ exec (.peerSilentTimeout port) s = .next s ∧
    ((portOf s port).state ≠ 1 → exec (.portTrainingComplete port a b) s = .next s))

/-- Each for a packet of the row's type. Passing every check, next in its flow, for this device and of a live epoch: it is
counted and has the effect of its type, and an acknowledgement that is due leaves. One to be relayed takes a buffer of
the relay pool, is counted and goes nowhere yet. A packet that a flow has seen is counted and acknowledged again, and
its data has no effect on memory, queues or objects. One whose header or end-to-end check fails raises a fault, and
one of a sender not trusted is counted: neither does anything further. On a port that does not hear, nothing changes.
It rests on the model's own choice or reading in log entries 99, 100, 101 and 102. -/
def Obligations.PacketsAreTakenInOrder : Prop :=
  (∀ (s : State) (port : Nat) (k : Packet) (key : Nat) (u v : State) (ecc : List EccEvent) (m : Spdm) (mine : Bool) (c : Instr),
    (mine, c, v) ∈ [(k.ty == 0x01, Instr.load port k ecc, applyLoad u key k ecc), (k.ty == 0x02, .loadData port k, applyLoadData u k),
      (k.ty == 0x03, .store port k, applyStore u key k), (k.ty == 0x04, .atomicPacket port k, applyAtomic u key k),
      (k.ty == 0x05, .atomicResult port k, applyResult u key k), (k.ty == 0x06, .atomicRelease port k, applyRelease u k),
      (k.ty == 0x07 && k.op != 0x04, .copyData port k, applyCopy u key k),
      (k.ty == 0x07 && k.op == 0x04, .remoteSourceCopy port k, applyRemoteSource u key k),
      (k.ty == 0x08, .syncPacket port k, applySync u key k), (k.ty == 0x09, .watchMessage port k, applyMessage u k),
      (k.ty == 0x0A && cardKindOf k == 0, .cardRowForward port k, applyCard u key k),
      (k.ty == 0x0A && cardKindOf k == 1, .cardRowBackward port k, applyCard u key k),
      (k.ty == 0x0A && cardKindOf k == 2, .cardRowReturn port k, applyCard u key k),
      (k.ty == 0x0B && cardKindOf k == 0, .cardFillForward port k, applyCard u key k),
      (k.ty == 0x0B && cardKindOf k == 1, .cardFillBackward port k, applyCard u key k),
      (k.ty == 0x0C, .lateFault port k, applyLateAll u key k), (k.ty == 0x0E, .epochNotice port k, applyNotice u k),
      (k.ty == 0x0F && decide (k.payload.length ≤ 4), .epochClose port k, applyClose u key k),
      (k.ty == 0x0F && decide (4 < k.payload.length), .epochClosed port k, applyClosed u k),
      (k.ty == 0x10, .getS port k [], homeCycle u [(key, k)]), (k.ty == 0x11, .getM port k [], homeCycle u [(key, k)]),
      (k.ty == 0x12, .data port k, applyData u k), (k.ty == 0x13, .inv port k, applyInv u k),
      (k.ty == 0x14, .invAck port k, homeAnswer u (pkLine k) k.src none), (k.ty == 0x15, .recall port k, applyRecall u k),
      (k.ty == 0x16, .putM port k, homeCycle u [(key, k)]), (k.ty == 0x17, .retryAfter port k, applyRetryAfter u k),
      (k.ty == 0x19 && k.spdm == some m && !k.eth, .attest port k m, takeSpdm u k m)] →
    mine = true → PacketNext s port k key u → exec c s = .next (ackIfDue v key)) ∧
  (∀ (s : State) (port : Nat) (k : Packet) (key : Nat) (v : State), PacketPasses s port k key → toRelay s k = true →
    relayTake s key k = some v → heldNext (countApplied v key k) key = none →
    exec (.relayPacketReceive port k) s = .next (ackIfDue (countApplied v key k) key) ∧
    (∀ w b, frondState s cdeFrond ≠ .failed → k.dst ≤ 63 → deviceBuf s (entAt s 0x270101 10) false = (w, some b) →
      v.fab.relays = w.fab.relays ++ [(k, b.1)])) ∧
  (∀ (s : State) (port : Nat) (k : Packet) (key : Nat), portHears s port = true → k.eth = decide (19 ≤ port) → k.version = 2 →
    (k.eth = true → k.dstRack = ownRack s ∧ k.srcRack ≠ ownRack s) → key = keyOfPk k → k.ty = 0x03 →
    (flowOf s key).ackDue < 64 →
    (pkHeaderOk k = false ∨ pkCrcOk k = false → Runs (.store port k) s (fun t => t.log.raised = s.log.raised + 1 ∧ t.mem = s.mem ∧
      t.fab.flows = s.fab.flows ∧ t.queues = s.queues)) ∧
    (pkHeaderOk k = true → pkCrcOk k = true → trustedKey s key = false → Runs (.store port k) s (fun t =>
      ent t 0x2B0709 = min (ent s 0x2B0709 + 1) (2 ^ 64 - 1) ∧ t.mem = s.mem ∧ t.fab.flows = s.fab.flows ∧ t.queues = s.queues)) ∧
    (pkHeaderOk k = true → pkCrcOk k = true → trustedKey s key = true →
      2 ^ 31 ≤ (k.seq + 2 ^ 32 - (flowOf s key).rxNext) % 2 ^ 32 → Runs (.store port k) s (fun t =>
        ent t 0x2B0704 = min (ent s 0x2B0704 + 1) (2 ^ 64 - 1) ∧ (flowOf t key).ackDue = 0 ∧
        (flowOf t key).rxNext = (flowOf s key).rxNext ∧
        t = { s with dict := t.dict, out := t.out, fab := { s.fab with flows := t.fab.flows, ports := t.fab.ports } }))) ∧
  (∀ (s : State) (port : Nat) (k : Packet), portHears s port = false → (flowOf s (keyOfPk k)).ackDue < 64 →
    exec (.store port k) s = .next s)

/-- Each for a packet that passes and is next in its flow. STORE where memory admits it: the bytes of its address hold its
payload, with everything else of memory as a write leaves it. ATOMIC in a free slot, sound and clean: memory holds the
result, the ledger the old value; the same atomic in a taken slot changes no memory and answers with the old value
kept. ATOMIC_RELEASE: the ledger slot goes and memory stays. GET_S of a line in I is granted shared; GET_M of a line
that nobody else holds is granted modified; of a line that others share it waits for them; PUT_M of the device that
holds the line modified writes it back and leaves the line in I. It rests on the model's own choice or reading in log
entries 99, 104 and 105. -/
def Obligations.RemoteAccessesActOnce : Prop :=
  (∀ (s : State) (port : Nat) (k : Packet) (key : Nat) (u : State), PacketNext s port k key u →
    (k.ty = 0x03 → farBad u k (pkOff k) k.payload.length = none →
      Runs (.store port k) s (fun t => t.mem = (wr u k.owner (pkOff k) k.payload).mem ∧ t.queues = s.queues ∧ t.syu = s.syu ∧ t.log = s.log)) ∧
    (k.ty = 0x04 → ∀ v e, tget? u.fab.ledger (ledgerKey k) = none → farBad u k (pkOff k) (atomicBytes k) = none →
      atomicBytes k = 4 ∨ atomicBytes k = 8 → pkOff k % atomicBytes k = 0 → poisonAt u (pkOff k) (atomicBytes k) = false →
      atomicResult k.op (atomicBytes k) (rdNat u k.owner (pkOff k) (atomicBytes k)) (leNat (k.payload.take (atomicBytes k)))
        (leNat (k.payload.drop (atomicBytes k))) = some v →
      e = Ledger.mk k.owner k.epoch k.crc (rdNat u k.owner (pkOff k) (atomicBytes k)) (atomicBytes k) →
      exec (.atomicPacket port k) s = .next (ackIfDue (atomicReply
        { wr u k.owner (pkOff k) (natLe (atomicBytes k) v) with fab := { u.fab with ledger := tput u.fab.ledger (ledgerKey k) e } }
        key k e.width e.old false) key)) ∧
    (k.ty = 0x04 → ∀ e, tget? u.fab.ledger (ledgerKey k) = some e → e.owner = k.owner → e.epoch = k.epoch → e.crc = k.crc →
      Runs (.atomicPacket port k) s (fun t => t = ackIfDue (atomicReply (bump u 0x2B0705 1) key k e.width e.old false) key ∧
        tget? t.fab.ledger (ledgerKey k) = some e)) ∧
    (k.ty = 0x06 → Runs (.atomicRelease port k) s (fun t => t.fab.ledger = tdel s.fab.ledger (ledgerKey k) ∧ t.mem = s.mem ∧
      t.queues = s.queues ∧ t.log = s.log)) ∧
    (k.ty = 0x10 → cohIn u (raOff k.addr) = true → dirOf u (pkLine k) = {} →
      Runs (.getS port k []) s (fun t => dirOf t (pkLine k) = { state := 1, sharers := 2 ^ k.src, owner := k.owner } ∧
        t.fab.rrPtr = (k.src + 1) % 64)) ∧
    (k.ty = 0x11 → cohIn u (raOff k.addr) = true → (dirOf u (pkLine k)).busy = false → k.src < 64 →
      (dirOf u (pkLine k)).state = 0 ∨ (dirOf u (pkLine k)).state = 1 ∧ (dirOf u (pkLine k)).sharers = 2 ^ k.src →
      Runs (.getM port k []) s (fun t => dirOf t (pkLine k) = { state := 2, ownerDev := k.src, owner := k.owner })) ∧
    (k.ty = 0x11 → ∀ d, cohIn u (raOff k.addr) = true → (dirOf u (pkLine k)).busy = false → k.src < 64 → d < 64 → d ≠ k.src →
      (dirOf u (pkLine k)).state = 1 → (dirOf u (pkLine k)).sharers = 2 ^ d →
      Runs (.getM port k []) s (fun t => (dirOf t (pkLine k)).busy = true ∧ (dirOf t (pkLine k)).requester = k.src ∧
        (dirOf t (pkLine k)).waitFor = 2 ^ d ∧ (dirOf t (pkLine k)).want = 2)) ∧
    (k.ty = 0x16 → (dirOf u (pkLine k)).state = 2 → (dirOf u (pkLine k)).ownerDev = k.src → (dirOf u (pkLine k)).busy = false →
      k.owner ≠ 0 → keyActive u k.owner = true → tsorted s.fab.dir = true →
      Runs (.putM port k) s (fun t => dirOf t (pkLine k) = {} ∧ t.mem = (wr u k.owner (pkLine k * 256) k.payload).mem ∧
        t.queues = s.queues)))

/-- FLOW_ACK of a known flow acknowledges what it covers. FLOW_ACK_TIMER acknowledges what is due. E2E_TIMEOUT sends again
what is not acknowledged, and fails the flow after the last retry. FLOW_RESET restarts a flow from the base it names,
and FLOW_RESET_RETRY asks for one while a flow is failed. A withheld packet takes a buffer, or goes and is counted.
RELAY_FORWARD sends the oldest held packet of its pair on and frees its buffer. A failed attestation and a request
told to wait are tried again. TIME_SYNC sets a clock not yet locked to the time it carries, and steers a locked one
within 200 ppm; only the rack's time source sends; PTP updates its offset, its first lock makes the device the source,
and its loss ends that with a fault. Where the event cannot arise, nothing changes. It rests on the model's own choice
or reading in log entries 27, 102, 106 and 107. -/
def Obligations.FlowsRelaysAndTime : Prop :=
  (∀ (s : State) (port : Nat) (k : Packet) (key : Nat), portHears s port = true → k.eth = decide (19 ≤ port) → pkHeaderOk k = true →
    pkCrcOk k = true → key = keyOfPk k →
    (k.ty = 0x0D → thas s.fab.flows key = true → exec (.flowAck port k) s = .next (takeAck s key (leNat (k.payload.take 4)) (k.op == 1))) ∧
    (k.ty = 0x0D → thas s.fab.flows key = false → exec (.flowAck port k) s = .next s) ∧
    (k.ty = 0x1A → k.op = 0 ∨ (flowOf s key).failed = true → exec (.flowReset port k) s = .next (takeReset s key k)) ∧
    (k.ty = 0x1A → k.op ≠ 0 → (flowOf s key).failed = false → exec (.flowReset port k) s = .next s) ∧
    (k.ty = 0x18 → port < 16 → s.fab.isSource = false ∨ k.src < ownDev s →
      (s.clock.locked = false → Runs (.timeSync port k) s (fun t => t.clock.ns = leNat (k.payload.take 8) % 2 ^ 64 ∧ t.clock.locked = true ∧
        t.fab.sourceDev = k.src ∧ t.fab.isSource = false ∧ t = { s with clock := t.clock, fab := t.fab })) ∧
      (s.clock.locked = true → Runs (.timeSync port k) s (fun t => -200 ≤ t.fab.rateAdj ∧ t.fab.rateAdj ≤ 200 ∧
        t.fab.sourceDev = k.src ∧ t.fab.isSource = false ∧ t = { s with free := t.free, fab := t.fab }))) ∧
    (k.ty = 0x18 → port < 16 → s.fab.isSource = true → ownDev s ≤ k.src → exec (.timeSync port k) s = .next s)) ∧
  (∀ (s : State) (key ack : Nat) (f : Flow), flowOf s key = f → f.waiting = [] → s.queues = [] → isEth key = false →
    (∀ x ∈ f.unacked, x.pk.ty ≠ 0x0E) →
    flowOf (takeAck s key ack false) key = { f with
      unacked := f.unacked.filter (fun x => !decide ((ack + 2 ^ 32 - x.pk.seq) % 2 ^ 32 < 2 ^ 31))
      retries := if f.unacked.all (fun x => !decide ((ack + 2 ^ 32 - x.pk.seq) % 2 ^ 32 < 2 ^ 31)) then f.retries else 0 }) ∧
  (∀ (s : State) (key : Nat) (f : Flow), flowOf s key = f →
    (f.ackDue = 0 → exec (.flowAckTimer key) s = .next s) ∧
    (f.ackDue ≠ 0 → Runs (.flowAckTimer key) s (fun t => (flowOf t key).ackDue = 0 ∧ (flowOf t key).rxNext = f.rxNext ∧
      t = { s with out := t.out, fab := { s.fab with flows := t.fab.flows, ports := t.fab.ports } })) ∧
    (f.unacked = [] ∨ f.failed = true → exec (.e2eTimeout key) s = .next s) ∧
    (f.unacked ≠ [] → f.failed = false → f.retries + 1 < ent s 0x2B0202 →
      Runs (.e2eTimeout key) s (fun t => (flowOf t key).retries = f.retries + 1 ∧ (flowOf t key).unacked = f.unacked ∧ t.mem = s.mem ∧
        t.queues = s.queues ∧ t.log = s.log)) ∧
    (f.unacked ≠ [] → f.failed = false → ent s 0x2B0202 ≤ f.retries + 1 →
      Runs (.e2eTimeout key) s (fun t => t = settleCards (failFlow s key) ∧ s.log.raised < t.log.raised)) ∧
    (f.failed = false → exec (.flowResetRetry key) s = .next s) ∧
    (f.failed = true → Runs (.flowResetRetry key) s (fun t => t = sendReset s key f.txNext 0 ∧
      t = { s with out := t.out, fab := { s.fab with ports := t.fab.ports } })) ∧
    (f.withheld = [] → exec (.creditWithholdExpiry key) s = .next s) ∧
    (∀ k r t b, f.withheld = k :: r → deviceBuf s (ent s 0x290401) false = (t, some b) → t.fab = s.fab →
      Runs (.creditWithholdExpiry key) s (fun u => (flowOf u key).withheld = r ∧ (flowOf u key).ahead = f.ahead ++ [(k, b.1)])) ∧
    (∀ k r t, f.withheld = k :: r → deviceBuf s (ent s 0x290401) false = (t, none) → t.fab = s.fab →
      Runs (.creditWithholdExpiry key) s (fun u => (flowOf u key).withheld = r ∧ (flowOf u key).ahead = f.ahead ∧ u.mem = t.mem))) ∧
  (∀ (s : State) (n : Nat),
    (s.fab.relays[n]? = none → exec (.relayForward n) s = .next s) ∧
    (∀ x, s.fab.relays[n]? = some x → (s.fab.relays.take n).any (fun y => y.1.srcRack == x.1.srcRack && y.1.src == x.1.src &&
        y.1.dst == x.1.dst) = true → exec (.relayForward n) s = .next s) ∧
    (∀ x, s.fab.relays[n]? = some x → (s.fab.relays.take n).any (fun y => y.1.srcRack == x.1.srcRack && y.1.src == x.1.src &&
        y.1.dst == x.1.dst) = false → s.fab.holdRelays = [] →
      Runs (.relayForward n) s (fun t => t.fab.relays = s.fab.relays.eraseIdx n ∧
        (flowOf t x.1.dst).txNext = ((flowOf s x.1.dst).txNext + 1) % 2 ^ 32)) ∧
    ((tgetD s.fab.attests n {}).failed = false → exec (.attestRetry n) s = .next s) ∧
    ((tgetD s.fab.attests n {}).failed = true → Runs (.attestRetry n) s (fun t => tgetD t.fab.attests n {} = { sent := 1 })) ∧
    (∀ r, s.fab.requests[n]? = some r → r.retry = true → r.done = false →
      exec (.retryAfterExpiry n) s = .next (sendRequest { s with fab := { s.fab with requests := s.fab.requests.set n { r with
        retry := false } } } r)) ∧
    (∀ r, s.fab.requests[n]? = some r → r.retry = false ∨ r.done = true → exec (.retryAfterExpiry n) s = .next s)) ∧
  (∀ (s : State),
    (s.fab.isSource = false → exec .timeSyncSend s = .next s) ∧
    (s.fab.isSource = true → Runs .timeSyncSend s (fun t => t.out.length = s.out.length + ((List.range 16).filter (portUp s)).length ∧
      t = { s with out := t.out, fab := { s.fab with ports := t.fab.ports } })) ∧
    (s.fab.ptpLocked = false → exec .ptpLockLost s = .next s) ∧
    (s.fab.ptpLocked = true → Runs .ptpLockLost s (fun t => t.fab.ptpLocked = false ∧ t.fab.isSource = false ∧
      t.log.raised = s.log.raised + 1)) ∧
    (∀ port m, port = 19 ∨ port = 20 → portHears s port = true → ent s 0x2B0606 ≠ 0 → m.domain = ent s 0x2B0607 →
      (m.locked = false → exec (.ptpMessage port m) s = .next (setEnt s 0x2B0608 (ofSigned 32 m.offsetNs))) ∧
      (m.locked = true → s.fab.ptpLocked = false → Runs (.ptpMessage port m) s (fun t => t.fab.ptpLocked = true ∧ t.fab.isSource = true ∧
        t.dict = (setEnt s 0x2B0608 (ofSigned 32 m.offsetNs)).dict ∧ t.mem = s.mem))))

/-- For every command c and state s, a step of s with c at the front of its queue and a rest behind it is what the command
does to s with the rest as its queue. Every command answers a next state from every state: no step ends in a fault or
a refusal. With an empty queue the part idles: where the Thallus's power domain is valid, the microsecond count goes
up by one; memory, queues, owners and objects stay. It rests on the model's own choice or reading in log entries 1 and
2. -/
def Obligations.StepTakesTheFrontCommand : Prop :=
  (∀ (c : Instr) (s : State) (r : List Instr), step { s with pending := c :: r } = exec c { s with pending := r }) ∧
  (∀ (c : Instr) (s : State), ∃ t, exec c s = .next t) ∧
  (∀ (s : State), s.pending = [] → ∃ t, step s = .next t ∧ t.clock.us = s.clock.us + (if s.power.domain then 1 else 0) ∧
    t.mem = s.mem ∧ t.queues = s.queues ∧ t.owners = s.owners ∧ t.syu = s.syu ∧ t.dict = s.dict ∧ t.parts = s.parts ∧
    t.pending = [])

/-- In the state after reset: memory is in its canonical form; every byte of HBM reads zero for the device and every byte
of the Tile Store reads zero for anyone, and no word is poisoned; no command waits; no owner is active and no queue,
pool, object, watch, flow or fault record exists; no dictionary entry differs from its default or has a value pending;
the device's own key is active and no other; and each of the 21 ports is in training. It rests on the model's own
choice or reading in log entries 20, 22, 28, 34 and 35. -/
def Obligations.StateAfterReset : Prop :=
  MemOk State.reset ∧ State.reset.pending = [] ∧ State.reset.queues = [] ∧ State.reset.dict = [] ∧ State.reset.shadow = [] ∧
  State.reset.parts = [] ∧ State.reset.syu = {} ∧ State.reset.log = {} ∧ State.reset.fab.flows = [] ∧ State.reset.mem.poison = [] ∧
  (∀ o, ownerState State.reset o = .free) ∧
  (∀ a g, isTile a = false → rdByte State.reset.mem 0 g a = 0) ∧ (∀ a o g, isTile a = true → rdByte State.reset.mem o g a = 0) ∧
  keyActive State.reset 0 = true ∧ (∀ o, o ≠ 0 → keyActive State.reset o = false) ∧
  (∀ p, p < 21 → (portOf State.reset p).state = 1)

/-- For every 39-bit offset, with g its granule index, x the local granule in the pseudo-channel and h the folded bits of
x: the pseudo-channel is the low nine bits of g exclusive-or h, the stack its bits 8 to 6, the channel bits 5 to 1 and
the pseudo-channel of the channel bit 0; column, row and bank are the bits of x that R237 names. Each pair of a
pseudo-channel from 0 to 511 and a local granule below 2^22 is the place of exactly one of the 2^31 granules. -/
def Obligations.OffsetsHaveOnePlace : Prop :=
  (∀ o g x h, o < 2 ^ 39 → g = o / 256 → x = g / 512 → h = (x ^^^ (x / 512) ^^^ (x / 2 ^ 18)) % 512 →
    pcOf o = (g % 512) ^^^ h ∧ pcOf o < 512 ∧ stackOf o = pcOf o / 64 ∧ channelOf o = pcOf o / 2 % 32 ∧ pseudoOf o = pcOf o % 2 ∧
    columnOf o = x / 64 % 4 ∧ rowOf o = x / 256 % 16384 ∧ bankOf o = ((x % 64) ^^^ (x / 256 % 64))) ∧
  (∀ pc x, pc < 512 → x < 2 ^ 22 →
    ∃ g, g < 2 ^ 31 ∧ (∀ b, b < 256 → pcOf (256 * g + b) = pc ∧ (256 * g + b) / 2 ^ 17 = x) ∧
      ∀ k, k < 2 ^ 31 → pcOf (256 * k) = pc → 256 * k / 2 ^ 17 = x → k = g)

/-- For a DISPATCH whose checks pass, with T tokens and C chunks: C is 1, 2, 4, 8 or 16; with S the smallest whole number
of at least T / C, the operation at chunk c comes to exactly the tokens from c S to min((c + 1) S, T) - 1, in
ascending order, none where c S is T or more; and each of the T tokens lies in exactly one chunk below C. -/
def Obligations.DispatchRunsInChunks : Prop :=
  ∀ (s : State) (o : Op) (p at_ : Nat) (c : Card) (t k n : Nat), cardCheck s o p at_ = .ok c → ccKind c.ccb = 1 →
    t = ccTokens c.ccb → k = ccChunks c.ccb → n = (t + k - 1) / k →
    k ∈ [1, 2, 4, 8, 16] ∧
    (∀ i, chunkList { c with chunk := i } = (List.range' (i * n) (min ((i + 1) * n) t - i * n))) ∧
    (∀ i, t ≤ i * n → chunkList { c with chunk := i } = []) ∧
    (∀ y, y < t → ∃ i, i < k ∧ y ∈ chunkList { c with chunk := i } ∧ ∀ j, y ∈ chunkList { c with chunk := j } → j = i)

/-- For every state and every step that answers a next state, the queue of commands that wait is what it was without its
first, or empty if it was. So for every list l of which the queue is the end, it still is after the step: commands run
in the order in which they were given, each once. It rests on the model's own choice or reading in log entry 1. -/
def Obligations.StepsKeepTheQueueInOrder : Prop :=
  (∀ s t, step s = .next t → t.pending = s.pending.tail) ∧
  (∀ l s t, s.pending <:+ l → step s = .next t → t.pending <:+ l)

/-- For every state whose memory is in canonical form (its cells strictly rising by address, and none holding the zero
that an unlisted byte of the Tile Store reads as), and every step that answers a next state, whatever command it runs,
memory of the next state is in canonical form. So equal memories are equal data in every state that a run reaches. It
rests on the model's own choice or reading in log entries 2 and 39. -/
def Obligations.StepsKeepMemoryCanonical : Prop :=
  ∀ s t, MemOk s → step s = .next t → MemOk t
end

