-- ==== Sys2Proof/Laws/State.lean ====
section
/-!
SUPPORT. Laws/State.lean: for each named update of the state, the fields it leaves as they were, one lemma a field, and the field it
sets.
-/
namespace Sys2Proof.Machine

/-! ### Updates of one field -/

@[simp] theorem setEntV_pending (s : State) (k : Nat) (v : Val) : (setEntV s k v).pending = s.pending := rfl
@[simp] theorem setEntV_mem (s : State) (k : Nat) (v : Val) : (setEntV s k v).mem = s.mem := rfl
@[simp] theorem setEntV_shadow (s : State) (k : Nat) (v : Val) : (setEntV s k v).shadow = s.shadow := rfl
@[simp] theorem setEntV_placeVals (s : State) (k : Nat) (v : Val) : (setEntV s k v).placeVals = s.placeVals := rfl
@[simp] theorem setEntV_host (s : State) (k : Nat) (v : Val) : (setEntV s k v).host = s.host := rfl
@[simp] theorem setEntV_owners (s : State) (k : Nat) (v : Val) : (setEntV s k v).owners = s.owners := rfl
@[simp] theorem setEntV_queues (s : State) (k : Nat) (v : Val) : (setEntV s k v).queues = s.queues := rfl
@[simp] theorem setEntV_th (s : State) (k : Nat) (v : Val) : (setEntV s k v).th = s.th := rfl
@[simp] theorem setEntV_startup (s : State) (k : Nat) (v : Val) : (setEntV s k v).startup = s.startup := rfl
@[simp] theorem setEntV_fronds (s : State) (k : Nat) (v : Val) : (setEntV s k v).fronds = s.fronds := rfl
@[simp] theorem setEntV_log (s : State) (k : Nat) (v : Val) : (setEntV s k v).log = s.log := rfl
@[simp] theorem setEntV_resets (s : State) (k : Nat) (v : Val) : (setEntV s k v).resets = s.resets := rfl
@[simp] theorem setEntV_pools (s : State) (k : Nat) (v : Val) : (setEntV s k v).pools = s.pools := rfl
@[simp] theorem setEntV_mc (s : State) (k : Nat) (v : Val) : (setEntV s k v).mc = s.mc := rfl
@[simp] theorem setEntV_syu (s : State) (k : Nat) (v : Val) : (setEntV s k v).syu = s.syu := rfl
@[simp] theorem setEntV_fab (s : State) (k : Nat) (v : Val) : (setEntV s k v).fab = s.fab := rfl
@[simp] theorem setEntV_units (s : State) (k : Nat) (v : Val) : (setEntV s k v).units = s.units := rfl
@[simp] theorem setEntV_card (s : State) (k : Nat) (v : Val) : (setEntV s k v).card = s.card := rfl
@[simp] theorem setEntV_parts (s : State) (k : Nat) (v : Val) : (setEntV s k v).parts = s.parts := rfl
@[simp] theorem setEntV_power (s : State) (k : Nat) (v : Val) : (setEntV s k v).power = s.power := rfl
@[simp] theorem setEntV_clock (s : State) (k : Nat) (v : Val) : (setEntV s k v).clock = s.clock := rfl
@[simp] theorem setEntV_free (s : State) (k : Nat) (v : Val) : (setEntV s k v).free = s.free := rfl
@[simp] theorem setEntV_out (s : State) (k : Nat) (v : Val) : (setEntV s k v).out = s.out := rfl
@[simp] theorem setEntV_dict (s : State) (k : Nat) (v : Val) : (setEntV s k v).dict = tput s.dict k v := rfl

@[simp] theorem setEnt_pending (s : State) (k n : Nat) : (setEnt s k n).pending = s.pending := rfl
@[simp] theorem setEnt_mem (s : State) (k n : Nat) : (setEnt s k n).mem = s.mem := rfl
@[simp] theorem setEnt_shadow (s : State) (k n : Nat) : (setEnt s k n).shadow = s.shadow := rfl
@[simp] theorem setEnt_placeVals (s : State) (k n : Nat) : (setEnt s k n).placeVals = s.placeVals := rfl
@[simp] theorem setEnt_host (s : State) (k n : Nat) : (setEnt s k n).host = s.host := rfl
@[simp] theorem setEnt_owners (s : State) (k n : Nat) : (setEnt s k n).owners = s.owners := rfl
@[simp] theorem setEnt_queues (s : State) (k n : Nat) : (setEnt s k n).queues = s.queues := rfl
@[simp] theorem setEnt_th (s : State) (k n : Nat) : (setEnt s k n).th = s.th := rfl
@[simp] theorem setEnt_startup (s : State) (k n : Nat) : (setEnt s k n).startup = s.startup := rfl
@[simp] theorem setEnt_fronds (s : State) (k n : Nat) : (setEnt s k n).fronds = s.fronds := rfl
@[simp] theorem setEnt_log (s : State) (k n : Nat) : (setEnt s k n).log = s.log := rfl
@[simp] theorem setEnt_resets (s : State) (k n : Nat) : (setEnt s k n).resets = s.resets := rfl
@[simp] theorem setEnt_pools (s : State) (k n : Nat) : (setEnt s k n).pools = s.pools := rfl
@[simp] theorem setEnt_mc (s : State) (k n : Nat) : (setEnt s k n).mc = s.mc := rfl
@[simp] theorem setEnt_syu (s : State) (k n : Nat) : (setEnt s k n).syu = s.syu := rfl
@[simp] theorem setEnt_fab (s : State) (k n : Nat) : (setEnt s k n).fab = s.fab := rfl
@[simp] theorem setEnt_units (s : State) (k n : Nat) : (setEnt s k n).units = s.units := rfl
@[simp] theorem setEnt_card (s : State) (k n : Nat) : (setEnt s k n).card = s.card := rfl
@[simp] theorem setEnt_parts (s : State) (k n : Nat) : (setEnt s k n).parts = s.parts := rfl
@[simp] theorem setEnt_power (s : State) (k n : Nat) : (setEnt s k n).power = s.power := rfl
@[simp] theorem setEnt_clock (s : State) (k n : Nat) : (setEnt s k n).clock = s.clock := rfl
@[simp] theorem setEnt_free (s : State) (k n : Nat) : (setEnt s k n).free = s.free := rfl
@[simp] theorem setEnt_out (s : State) (k n : Nat) : (setEnt s k n).out = s.out := rfl
@[simp] theorem setEnt_dict (s : State) (k n : Nat) : (setEnt s k n).dict = tput s.dict k (.num n) := rfl

@[simp] theorem bump_pending (s : State) (k n : Nat) : (bump s k n).pending = s.pending := rfl
@[simp] theorem bump_mem (s : State) (k n : Nat) : (bump s k n).mem = s.mem := rfl
@[simp] theorem bump_shadow (s : State) (k n : Nat) : (bump s k n).shadow = s.shadow := rfl
@[simp] theorem bump_placeVals (s : State) (k n : Nat) : (bump s k n).placeVals = s.placeVals := rfl
@[simp] theorem bump_host (s : State) (k n : Nat) : (bump s k n).host = s.host := rfl
@[simp] theorem bump_owners (s : State) (k n : Nat) : (bump s k n).owners = s.owners := rfl
@[simp] theorem bump_queues (s : State) (k n : Nat) : (bump s k n).queues = s.queues := rfl
@[simp] theorem bump_th (s : State) (k n : Nat) : (bump s k n).th = s.th := rfl
@[simp] theorem bump_startup (s : State) (k n : Nat) : (bump s k n).startup = s.startup := rfl
@[simp] theorem bump_fronds (s : State) (k n : Nat) : (bump s k n).fronds = s.fronds := rfl
@[simp] theorem bump_log (s : State) (k n : Nat) : (bump s k n).log = s.log := rfl
@[simp] theorem bump_resets (s : State) (k n : Nat) : (bump s k n).resets = s.resets := rfl
@[simp] theorem bump_pools (s : State) (k n : Nat) : (bump s k n).pools = s.pools := rfl
@[simp] theorem bump_mc (s : State) (k n : Nat) : (bump s k n).mc = s.mc := rfl
@[simp] theorem bump_syu (s : State) (k n : Nat) : (bump s k n).syu = s.syu := rfl
@[simp] theorem bump_fab (s : State) (k n : Nat) : (bump s k n).fab = s.fab := rfl
@[simp] theorem bump_units (s : State) (k n : Nat) : (bump s k n).units = s.units := rfl
@[simp] theorem bump_card (s : State) (k n : Nat) : (bump s k n).card = s.card := rfl
@[simp] theorem bump_parts (s : State) (k n : Nat) : (bump s k n).parts = s.parts := rfl
@[simp] theorem bump_power (s : State) (k n : Nat) : (bump s k n).power = s.power := rfl
@[simp] theorem bump_clock (s : State) (k n : Nat) : (bump s k n).clock = s.clock := rfl
@[simp] theorem bump_free (s : State) (k n : Nat) : (bump s k n).free = s.free := rfl
@[simp] theorem bump_out (s : State) (k n : Nat) : (bump s k n).out = s.out := rfl
@[simp] theorem bump_dict (s : State) (k n : Nat) : (bump s k n).dict = tput s.dict k (.num (satAdd 64 (ent s k) n)) := rfl

@[simp] theorem modOwner_pending (s : State) (o : Nat) (f : Owner → Owner) : (modOwner s o f).pending = s.pending := rfl
@[simp] theorem modOwner_mem (s : State) (o : Nat) (f : Owner → Owner) : (modOwner s o f).mem = s.mem := rfl
@[simp] theorem modOwner_dict (s : State) (o : Nat) (f : Owner → Owner) : (modOwner s o f).dict = s.dict := rfl
@[simp] theorem modOwner_shadow (s : State) (o : Nat) (f : Owner → Owner) : (modOwner s o f).shadow = s.shadow := rfl
@[simp] theorem modOwner_placeVals (s : State) (o : Nat) (f : Owner → Owner) : (modOwner s o f).placeVals = s.placeVals := rfl
@[simp] theorem modOwner_host (s : State) (o : Nat) (f : Owner → Owner) : (modOwner s o f).host = s.host := rfl
@[simp] theorem modOwner_queues (s : State) (o : Nat) (f : Owner → Owner) : (modOwner s o f).queues = s.queues := rfl
@[simp] theorem modOwner_th (s : State) (o : Nat) (f : Owner → Owner) : (modOwner s o f).th = s.th := rfl
@[simp] theorem modOwner_startup (s : State) (o : Nat) (f : Owner → Owner) : (modOwner s o f).startup = s.startup := rfl
@[simp] theorem modOwner_fronds (s : State) (o : Nat) (f : Owner → Owner) : (modOwner s o f).fronds = s.fronds := rfl
@[simp] theorem modOwner_log (s : State) (o : Nat) (f : Owner → Owner) : (modOwner s o f).log = s.log := rfl
@[simp] theorem modOwner_resets (s : State) (o : Nat) (f : Owner → Owner) : (modOwner s o f).resets = s.resets := rfl
@[simp] theorem modOwner_pools (s : State) (o : Nat) (f : Owner → Owner) : (modOwner s o f).pools = s.pools := rfl
@[simp] theorem modOwner_mc (s : State) (o : Nat) (f : Owner → Owner) : (modOwner s o f).mc = s.mc := rfl
@[simp] theorem modOwner_syu (s : State) (o : Nat) (f : Owner → Owner) : (modOwner s o f).syu = s.syu := rfl
@[simp] theorem modOwner_fab (s : State) (o : Nat) (f : Owner → Owner) : (modOwner s o f).fab = s.fab := rfl
@[simp] theorem modOwner_units (s : State) (o : Nat) (f : Owner → Owner) : (modOwner s o f).units = s.units := rfl
@[simp] theorem modOwner_card (s : State) (o : Nat) (f : Owner → Owner) : (modOwner s o f).card = s.card := rfl
@[simp] theorem modOwner_parts (s : State) (o : Nat) (f : Owner → Owner) : (modOwner s o f).parts = s.parts := rfl
@[simp] theorem modOwner_power (s : State) (o : Nat) (f : Owner → Owner) : (modOwner s o f).power = s.power := rfl
@[simp] theorem modOwner_clock (s : State) (o : Nat) (f : Owner → Owner) : (modOwner s o f).clock = s.clock := rfl
@[simp] theorem modOwner_free (s : State) (o : Nat) (f : Owner → Owner) : (modOwner s o f).free = s.free := rfl
@[simp] theorem modOwner_out (s : State) (o : Nat) (f : Owner → Owner) : (modOwner s o f).out = s.out := rfl
@[simp] theorem modOwner_owners (s : State) (o : Nat) (f : Owner → Owner) : (modOwner s o f).owners = tupd s.owners o {} f := rfl

@[simp] theorem modQueue_pending (s : State) (q : Nat) (f : Queue → Queue) : (modQueue s q f).pending = s.pending := rfl
@[simp] theorem modQueue_mem (s : State) (q : Nat) (f : Queue → Queue) : (modQueue s q f).mem = s.mem := rfl
@[simp] theorem modQueue_dict (s : State) (q : Nat) (f : Queue → Queue) : (modQueue s q f).dict = s.dict := rfl
@[simp] theorem modQueue_shadow (s : State) (q : Nat) (f : Queue → Queue) : (modQueue s q f).shadow = s.shadow := rfl
@[simp] theorem modQueue_placeVals (s : State) (q : Nat) (f : Queue → Queue) : (modQueue s q f).placeVals = s.placeVals := rfl
@[simp] theorem modQueue_host (s : State) (q : Nat) (f : Queue → Queue) : (modQueue s q f).host = s.host := rfl
@[simp] theorem modQueue_owners (s : State) (q : Nat) (f : Queue → Queue) : (modQueue s q f).owners = s.owners := rfl
@[simp] theorem modQueue_th (s : State) (q : Nat) (f : Queue → Queue) : (modQueue s q f).th = s.th := rfl
@[simp] theorem modQueue_startup (s : State) (q : Nat) (f : Queue → Queue) : (modQueue s q f).startup = s.startup := rfl
@[simp] theorem modQueue_fronds (s : State) (q : Nat) (f : Queue → Queue) : (modQueue s q f).fronds = s.fronds := rfl
@[simp] theorem modQueue_log (s : State) (q : Nat) (f : Queue → Queue) : (modQueue s q f).log = s.log := rfl
@[simp] theorem modQueue_resets (s : State) (q : Nat) (f : Queue → Queue) : (modQueue s q f).resets = s.resets := rfl
@[simp] theorem modQueue_pools (s : State) (q : Nat) (f : Queue → Queue) : (modQueue s q f).pools = s.pools := rfl
@[simp] theorem modQueue_mc (s : State) (q : Nat) (f : Queue → Queue) : (modQueue s q f).mc = s.mc := rfl
@[simp] theorem modQueue_syu (s : State) (q : Nat) (f : Queue → Queue) : (modQueue s q f).syu = s.syu := rfl
@[simp] theorem modQueue_fab (s : State) (q : Nat) (f : Queue → Queue) : (modQueue s q f).fab = s.fab := rfl
@[simp] theorem modQueue_units (s : State) (q : Nat) (f : Queue → Queue) : (modQueue s q f).units = s.units := rfl
@[simp] theorem modQueue_card (s : State) (q : Nat) (f : Queue → Queue) : (modQueue s q f).card = s.card := rfl
@[simp] theorem modQueue_parts (s : State) (q : Nat) (f : Queue → Queue) : (modQueue s q f).parts = s.parts := rfl
@[simp] theorem modQueue_power (s : State) (q : Nat) (f : Queue → Queue) : (modQueue s q f).power = s.power := rfl
@[simp] theorem modQueue_clock (s : State) (q : Nat) (f : Queue → Queue) : (modQueue s q f).clock = s.clock := rfl
@[simp] theorem modQueue_free (s : State) (q : Nat) (f : Queue → Queue) : (modQueue s q f).free = s.free := rfl
@[simp] theorem modQueue_out (s : State) (q : Nat) (f : Queue → Queue) : (modQueue s q f).out = s.out := rfl
@[simp] theorem modQueue_queues (s : State) (q : Nat) (f : Queue → Queue) : (modQueue s q f).queues = tmod s.queues q f := rfl

@[simp] theorem modOp_pending (s : State) (q n : Nat) (f : Op → Op) : (modOp s q n f).pending = s.pending := rfl
@[simp] theorem modOp_mem (s : State) (q n : Nat) (f : Op → Op) : (modOp s q n f).mem = s.mem := rfl
@[simp] theorem modOp_dict (s : State) (q n : Nat) (f : Op → Op) : (modOp s q n f).dict = s.dict := rfl
@[simp] theorem modOp_shadow (s : State) (q n : Nat) (f : Op → Op) : (modOp s q n f).shadow = s.shadow := rfl
@[simp] theorem modOp_placeVals (s : State) (q n : Nat) (f : Op → Op) : (modOp s q n f).placeVals = s.placeVals := rfl
@[simp] theorem modOp_host (s : State) (q n : Nat) (f : Op → Op) : (modOp s q n f).host = s.host := rfl
@[simp] theorem modOp_owners (s : State) (q n : Nat) (f : Op → Op) : (modOp s q n f).owners = s.owners := rfl
@[simp] theorem modOp_th (s : State) (q n : Nat) (f : Op → Op) : (modOp s q n f).th = s.th := rfl
@[simp] theorem modOp_startup (s : State) (q n : Nat) (f : Op → Op) : (modOp s q n f).startup = s.startup := rfl
@[simp] theorem modOp_fronds (s : State) (q n : Nat) (f : Op → Op) : (modOp s q n f).fronds = s.fronds := rfl
@[simp] theorem modOp_log (s : State) (q n : Nat) (f : Op → Op) : (modOp s q n f).log = s.log := rfl
@[simp] theorem modOp_resets (s : State) (q n : Nat) (f : Op → Op) : (modOp s q n f).resets = s.resets := rfl
@[simp] theorem modOp_pools (s : State) (q n : Nat) (f : Op → Op) : (modOp s q n f).pools = s.pools := rfl
@[simp] theorem modOp_mc (s : State) (q n : Nat) (f : Op → Op) : (modOp s q n f).mc = s.mc := rfl
@[simp] theorem modOp_syu (s : State) (q n : Nat) (f : Op → Op) : (modOp s q n f).syu = s.syu := rfl
@[simp] theorem modOp_fab (s : State) (q n : Nat) (f : Op → Op) : (modOp s q n f).fab = s.fab := rfl
@[simp] theorem modOp_units (s : State) (q n : Nat) (f : Op → Op) : (modOp s q n f).units = s.units := rfl
@[simp] theorem modOp_card (s : State) (q n : Nat) (f : Op → Op) : (modOp s q n f).card = s.card := rfl
@[simp] theorem modOp_parts (s : State) (q n : Nat) (f : Op → Op) : (modOp s q n f).parts = s.parts := rfl
@[simp] theorem modOp_power (s : State) (q n : Nat) (f : Op → Op) : (modOp s q n f).power = s.power := rfl
@[simp] theorem modOp_clock (s : State) (q n : Nat) (f : Op → Op) : (modOp s q n f).clock = s.clock := rfl
@[simp] theorem modOp_free (s : State) (q n : Nat) (f : Op → Op) : (modOp s q n f).free = s.free := rfl
@[simp] theorem modOp_out (s : State) (q n : Nat) (f : Op → Op) : (modOp s q n f).out = s.out := rfl
@[simp] theorem modOp_queues (s : State) (q n : Nat) (f : Op → Op) : (modOp s q n f).queues = tmod s.queues q (fun x => { x with ops := modSeq x.ops n f }) := rfl

@[simp] theorem endOp_pending (s : State) (q : Nat) (o : Op) (n : Nat) : (endOp s q o n).pending = s.pending := rfl
@[simp] theorem endOp_mem (s : State) (q : Nat) (o : Op) (n : Nat) : (endOp s q o n).mem = s.mem := rfl
@[simp] theorem endOp_dict (s : State) (q : Nat) (o : Op) (n : Nat) : (endOp s q o n).dict = s.dict := rfl
@[simp] theorem endOp_shadow (s : State) (q : Nat) (o : Op) (n : Nat) : (endOp s q o n).shadow = s.shadow := rfl
@[simp] theorem endOp_placeVals (s : State) (q : Nat) (o : Op) (n : Nat) : (endOp s q o n).placeVals = s.placeVals := rfl
@[simp] theorem endOp_host (s : State) (q : Nat) (o : Op) (n : Nat) : (endOp s q o n).host = s.host := rfl
@[simp] theorem endOp_owners (s : State) (q : Nat) (o : Op) (n : Nat) : (endOp s q o n).owners = s.owners := rfl
@[simp] theorem endOp_th (s : State) (q : Nat) (o : Op) (n : Nat) : (endOp s q o n).th = s.th := rfl
@[simp] theorem endOp_startup (s : State) (q : Nat) (o : Op) (n : Nat) : (endOp s q o n).startup = s.startup := rfl
@[simp] theorem endOp_fronds (s : State) (q : Nat) (o : Op) (n : Nat) : (endOp s q o n).fronds = s.fronds := rfl
@[simp] theorem endOp_log (s : State) (q : Nat) (o : Op) (n : Nat) : (endOp s q o n).log = s.log := rfl
@[simp] theorem endOp_resets (s : State) (q : Nat) (o : Op) (n : Nat) : (endOp s q o n).resets = s.resets := rfl
@[simp] theorem endOp_pools (s : State) (q : Nat) (o : Op) (n : Nat) : (endOp s q o n).pools = s.pools := rfl
@[simp] theorem endOp_mc (s : State) (q : Nat) (o : Op) (n : Nat) : (endOp s q o n).mc = s.mc := rfl
@[simp] theorem endOp_syu (s : State) (q : Nat) (o : Op) (n : Nat) : (endOp s q o n).syu = s.syu := rfl
@[simp] theorem endOp_fab (s : State) (q : Nat) (o : Op) (n : Nat) : (endOp s q o n).fab = s.fab := rfl
@[simp] theorem endOp_units (s : State) (q : Nat) (o : Op) (n : Nat) : (endOp s q o n).units = s.units := rfl
@[simp] theorem endOp_card (s : State) (q : Nat) (o : Op) (n : Nat) : (endOp s q o n).card = s.card := rfl
@[simp] theorem endOp_parts (s : State) (q : Nat) (o : Op) (n : Nat) : (endOp s q o n).parts = s.parts := rfl
@[simp] theorem endOp_power (s : State) (q : Nat) (o : Op) (n : Nat) : (endOp s q o n).power = s.power := rfl
@[simp] theorem endOp_clock (s : State) (q : Nat) (o : Op) (n : Nat) : (endOp s q o n).clock = s.clock := rfl
@[simp] theorem endOp_free (s : State) (q : Nat) (o : Op) (n : Nat) : (endOp s q o n).free = s.free := rfl
@[simp] theorem endOp_out (s : State) (q : Nat) (o : Op) (n : Nat) : (endOp s q o n).out = s.out := rfl
@[simp] theorem endOp_queues (s : State) (q : Nat) (o : Op) (n : Nat) : (endOp s q o n).queues = tmod s.queues q (fun x => { x with ops := modSeq x.ops o.seq (fun y => { y with progress := .finished, status := n }) }) := rfl

@[simp] theorem modPart_pending (s : State) (p : Nat) (f : Part → Part) : (modPart s p f).pending = s.pending := rfl
@[simp] theorem modPart_mem (s : State) (p : Nat) (f : Part → Part) : (modPart s p f).mem = s.mem := rfl
@[simp] theorem modPart_dict (s : State) (p : Nat) (f : Part → Part) : (modPart s p f).dict = s.dict := rfl
@[simp] theorem modPart_shadow (s : State) (p : Nat) (f : Part → Part) : (modPart s p f).shadow = s.shadow := rfl
@[simp] theorem modPart_placeVals (s : State) (p : Nat) (f : Part → Part) : (modPart s p f).placeVals = s.placeVals := rfl
@[simp] theorem modPart_host (s : State) (p : Nat) (f : Part → Part) : (modPart s p f).host = s.host := rfl
@[simp] theorem modPart_owners (s : State) (p : Nat) (f : Part → Part) : (modPart s p f).owners = s.owners := rfl
@[simp] theorem modPart_queues (s : State) (p : Nat) (f : Part → Part) : (modPart s p f).queues = s.queues := rfl
@[simp] theorem modPart_th (s : State) (p : Nat) (f : Part → Part) : (modPart s p f).th = s.th := rfl
@[simp] theorem modPart_startup (s : State) (p : Nat) (f : Part → Part) : (modPart s p f).startup = s.startup := rfl
@[simp] theorem modPart_fronds (s : State) (p : Nat) (f : Part → Part) : (modPart s p f).fronds = s.fronds := rfl
@[simp] theorem modPart_log (s : State) (p : Nat) (f : Part → Part) : (modPart s p f).log = s.log := rfl
@[simp] theorem modPart_resets (s : State) (p : Nat) (f : Part → Part) : (modPart s p f).resets = s.resets := rfl
@[simp] theorem modPart_pools (s : State) (p : Nat) (f : Part → Part) : (modPart s p f).pools = s.pools := rfl
@[simp] theorem modPart_mc (s : State) (p : Nat) (f : Part → Part) : (modPart s p f).mc = s.mc := rfl
@[simp] theorem modPart_syu (s : State) (p : Nat) (f : Part → Part) : (modPart s p f).syu = s.syu := rfl
@[simp] theorem modPart_fab (s : State) (p : Nat) (f : Part → Part) : (modPart s p f).fab = s.fab := rfl
@[simp] theorem modPart_units (s : State) (p : Nat) (f : Part → Part) : (modPart s p f).units = s.units := rfl
@[simp] theorem modPart_card (s : State) (p : Nat) (f : Part → Part) : (modPart s p f).card = s.card := rfl
@[simp] theorem modPart_power (s : State) (p : Nat) (f : Part → Part) : (modPart s p f).power = s.power := rfl
@[simp] theorem modPart_clock (s : State) (p : Nat) (f : Part → Part) : (modPart s p f).clock = s.clock := rfl
@[simp] theorem modPart_free (s : State) (p : Nat) (f : Part → Part) : (modPart s p f).free = s.free := rfl
@[simp] theorem modPart_out (s : State) (p : Nat) (f : Part → Part) : (modPart s p f).out = s.out := rfl
@[simp] theorem modPart_parts (s : State) (p : Nat) (f : Part → Part) : (modPart s p f).parts = tupd s.parts p {} f := rfl

@[simp] theorem poisonS_pending (s : State) (a : Nat) : (poisonS s a).pending = s.pending := rfl
@[simp] theorem poisonS_dict (s : State) (a : Nat) : (poisonS s a).dict = s.dict := rfl
@[simp] theorem poisonS_shadow (s : State) (a : Nat) : (poisonS s a).shadow = s.shadow := rfl
@[simp] theorem poisonS_placeVals (s : State) (a : Nat) : (poisonS s a).placeVals = s.placeVals := rfl
@[simp] theorem poisonS_host (s : State) (a : Nat) : (poisonS s a).host = s.host := rfl
@[simp] theorem poisonS_owners (s : State) (a : Nat) : (poisonS s a).owners = s.owners := rfl
@[simp] theorem poisonS_queues (s : State) (a : Nat) : (poisonS s a).queues = s.queues := rfl
@[simp] theorem poisonS_th (s : State) (a : Nat) : (poisonS s a).th = s.th := rfl
@[simp] theorem poisonS_startup (s : State) (a : Nat) : (poisonS s a).startup = s.startup := rfl
@[simp] theorem poisonS_fronds (s : State) (a : Nat) : (poisonS s a).fronds = s.fronds := rfl
@[simp] theorem poisonS_log (s : State) (a : Nat) : (poisonS s a).log = s.log := rfl
@[simp] theorem poisonS_resets (s : State) (a : Nat) : (poisonS s a).resets = s.resets := rfl
@[simp] theorem poisonS_pools (s : State) (a : Nat) : (poisonS s a).pools = s.pools := rfl
@[simp] theorem poisonS_mc (s : State) (a : Nat) : (poisonS s a).mc = s.mc := rfl
@[simp] theorem poisonS_syu (s : State) (a : Nat) : (poisonS s a).syu = s.syu := rfl
@[simp] theorem poisonS_fab (s : State) (a : Nat) : (poisonS s a).fab = s.fab := rfl
@[simp] theorem poisonS_units (s : State) (a : Nat) : (poisonS s a).units = s.units := rfl
@[simp] theorem poisonS_card (s : State) (a : Nat) : (poisonS s a).card = s.card := rfl
@[simp] theorem poisonS_parts (s : State) (a : Nat) : (poisonS s a).parts = s.parts := rfl
@[simp] theorem poisonS_power (s : State) (a : Nat) : (poisonS s a).power = s.power := rfl
@[simp] theorem poisonS_clock (s : State) (a : Nat) : (poisonS s a).clock = s.clock := rfl
@[simp] theorem poisonS_free (s : State) (a : Nat) : (poisonS s a).free = s.free := rfl
@[simp] theorem poisonS_out (s : State) (a : Nat) : (poisonS s a).out = s.out := rfl
@[simp] theorem poisonS_mem (s : State) (a : Nat) : (poisonS s a).mem = markPoison s.mem a := rfl

@[simp] theorem emit_pending (s : State) (e : OutEv) : (emit s e).pending = s.pending := rfl
@[simp] theorem emit_mem (s : State) (e : OutEv) : (emit s e).mem = s.mem := rfl
@[simp] theorem emit_dict (s : State) (e : OutEv) : (emit s e).dict = s.dict := rfl
@[simp] theorem emit_shadow (s : State) (e : OutEv) : (emit s e).shadow = s.shadow := rfl
@[simp] theorem emit_placeVals (s : State) (e : OutEv) : (emit s e).placeVals = s.placeVals := rfl
@[simp] theorem emit_host (s : State) (e : OutEv) : (emit s e).host = s.host := rfl
@[simp] theorem emit_owners (s : State) (e : OutEv) : (emit s e).owners = s.owners := rfl
@[simp] theorem emit_queues (s : State) (e : OutEv) : (emit s e).queues = s.queues := rfl
@[simp] theorem emit_th (s : State) (e : OutEv) : (emit s e).th = s.th := rfl
@[simp] theorem emit_startup (s : State) (e : OutEv) : (emit s e).startup = s.startup := rfl
@[simp] theorem emit_fronds (s : State) (e : OutEv) : (emit s e).fronds = s.fronds := rfl
@[simp] theorem emit_log (s : State) (e : OutEv) : (emit s e).log = s.log := rfl
@[simp] theorem emit_resets (s : State) (e : OutEv) : (emit s e).resets = s.resets := rfl
@[simp] theorem emit_pools (s : State) (e : OutEv) : (emit s e).pools = s.pools := rfl
@[simp] theorem emit_mc (s : State) (e : OutEv) : (emit s e).mc = s.mc := rfl
@[simp] theorem emit_syu (s : State) (e : OutEv) : (emit s e).syu = s.syu := rfl
@[simp] theorem emit_fab (s : State) (e : OutEv) : (emit s e).fab = s.fab := rfl
@[simp] theorem emit_units (s : State) (e : OutEv) : (emit s e).units = s.units := rfl
@[simp] theorem emit_card (s : State) (e : OutEv) : (emit s e).card = s.card := rfl
@[simp] theorem emit_parts (s : State) (e : OutEv) : (emit s e).parts = s.parts := rfl
@[simp] theorem emit_power (s : State) (e : OutEv) : (emit s e).power = s.power := rfl
@[simp] theorem emit_clock (s : State) (e : OutEv) : (emit s e).clock = s.clock := rfl
@[simp] theorem emit_free (s : State) (e : OutEv) : (emit s e).free = s.free := rfl
@[simp] theorem emit_out (s : State) (e : OutEv) : (emit s e).out = s.out ++ [e] := rfl

@[simp] theorem setObj_pending (s : State) (k : Nat) (o : SyncObj) : (setObj s k o).pending = s.pending := rfl
@[simp] theorem setObj_mem (s : State) (k : Nat) (o : SyncObj) : (setObj s k o).mem = s.mem := rfl
@[simp] theorem setObj_dict (s : State) (k : Nat) (o : SyncObj) : (setObj s k o).dict = s.dict := rfl
@[simp] theorem setObj_shadow (s : State) (k : Nat) (o : SyncObj) : (setObj s k o).shadow = s.shadow := rfl
@[simp] theorem setObj_placeVals (s : State) (k : Nat) (o : SyncObj) : (setObj s k o).placeVals = s.placeVals := rfl
@[simp] theorem setObj_host (s : State) (k : Nat) (o : SyncObj) : (setObj s k o).host = s.host := rfl
@[simp] theorem setObj_owners (s : State) (k : Nat) (o : SyncObj) : (setObj s k o).owners = s.owners := rfl
@[simp] theorem setObj_queues (s : State) (k : Nat) (o : SyncObj) : (setObj s k o).queues = s.queues := rfl
@[simp] theorem setObj_th (s : State) (k : Nat) (o : SyncObj) : (setObj s k o).th = s.th := rfl
@[simp] theorem setObj_startup (s : State) (k : Nat) (o : SyncObj) : (setObj s k o).startup = s.startup := rfl
@[simp] theorem setObj_fronds (s : State) (k : Nat) (o : SyncObj) : (setObj s k o).fronds = s.fronds := rfl
@[simp] theorem setObj_log (s : State) (k : Nat) (o : SyncObj) : (setObj s k o).log = s.log := rfl
@[simp] theorem setObj_resets (s : State) (k : Nat) (o : SyncObj) : (setObj s k o).resets = s.resets := rfl
@[simp] theorem setObj_pools (s : State) (k : Nat) (o : SyncObj) : (setObj s k o).pools = s.pools := rfl
@[simp] theorem setObj_mc (s : State) (k : Nat) (o : SyncObj) : (setObj s k o).mc = s.mc := rfl
@[simp] theorem setObj_fab (s : State) (k : Nat) (o : SyncObj) : (setObj s k o).fab = s.fab := rfl
@[simp] theorem setObj_units (s : State) (k : Nat) (o : SyncObj) : (setObj s k o).units = s.units := rfl
@[simp] theorem setObj_card (s : State) (k : Nat) (o : SyncObj) : (setObj s k o).card = s.card := rfl
@[simp] theorem setObj_parts (s : State) (k : Nat) (o : SyncObj) : (setObj s k o).parts = s.parts := rfl
@[simp] theorem setObj_power (s : State) (k : Nat) (o : SyncObj) : (setObj s k o).power = s.power := rfl
@[simp] theorem setObj_clock (s : State) (k : Nat) (o : SyncObj) : (setObj s k o).clock = s.clock := rfl
@[simp] theorem setObj_free (s : State) (k : Nat) (o : SyncObj) : (setObj s k o).free = s.free := rfl
@[simp] theorem setObj_out (s : State) (k : Nat) (o : SyncObj) : (setObj s k o).out = s.out := rfl

@[simp] theorem dropWatch_pending (s : State) (i : Nat) : (dropWatch s i).pending = s.pending := rfl
@[simp] theorem dropWatch_mem (s : State) (i : Nat) : (dropWatch s i).mem = s.mem := rfl
@[simp] theorem dropWatch_dict (s : State) (i : Nat) : (dropWatch s i).dict = s.dict := rfl
@[simp] theorem dropWatch_shadow (s : State) (i : Nat) : (dropWatch s i).shadow = s.shadow := rfl
@[simp] theorem dropWatch_placeVals (s : State) (i : Nat) : (dropWatch s i).placeVals = s.placeVals := rfl
@[simp] theorem dropWatch_host (s : State) (i : Nat) : (dropWatch s i).host = s.host := rfl
@[simp] theorem dropWatch_owners (s : State) (i : Nat) : (dropWatch s i).owners = s.owners := rfl
@[simp] theorem dropWatch_queues (s : State) (i : Nat) : (dropWatch s i).queues = s.queues := rfl
@[simp] theorem dropWatch_th (s : State) (i : Nat) : (dropWatch s i).th = s.th := rfl
@[simp] theorem dropWatch_startup (s : State) (i : Nat) : (dropWatch s i).startup = s.startup := rfl
@[simp] theorem dropWatch_fronds (s : State) (i : Nat) : (dropWatch s i).fronds = s.fronds := rfl
@[simp] theorem dropWatch_log (s : State) (i : Nat) : (dropWatch s i).log = s.log := rfl
@[simp] theorem dropWatch_resets (s : State) (i : Nat) : (dropWatch s i).resets = s.resets := rfl
@[simp] theorem dropWatch_pools (s : State) (i : Nat) : (dropWatch s i).pools = s.pools := rfl
@[simp] theorem dropWatch_mc (s : State) (i : Nat) : (dropWatch s i).mc = s.mc := rfl
@[simp] theorem dropWatch_fab (s : State) (i : Nat) : (dropWatch s i).fab = s.fab := rfl
@[simp] theorem dropWatch_units (s : State) (i : Nat) : (dropWatch s i).units = s.units := rfl
@[simp] theorem dropWatch_card (s : State) (i : Nat) : (dropWatch s i).card = s.card := rfl
@[simp] theorem dropWatch_parts (s : State) (i : Nat) : (dropWatch s i).parts = s.parts := rfl
@[simp] theorem dropWatch_power (s : State) (i : Nat) : (dropWatch s i).power = s.power := rfl
@[simp] theorem dropWatch_clock (s : State) (i : Nat) : (dropWatch s i).clock = s.clock := rfl
@[simp] theorem dropWatch_free (s : State) (i : Nat) : (dropWatch s i).free = s.free := rfl
@[simp] theorem dropWatch_out (s : State) (i : Nat) : (dropWatch s i).out = s.out := rfl

@[simp] theorem setFlow_pending (s : State) (k : Nat) (f : Flow) : (setFlow s k f).pending = s.pending := rfl
@[simp] theorem setFlow_mem (s : State) (k : Nat) (f : Flow) : (setFlow s k f).mem = s.mem := rfl
@[simp] theorem setFlow_dict (s : State) (k : Nat) (f : Flow) : (setFlow s k f).dict = s.dict := rfl
@[simp] theorem setFlow_shadow (s : State) (k : Nat) (f : Flow) : (setFlow s k f).shadow = s.shadow := rfl
@[simp] theorem setFlow_placeVals (s : State) (k : Nat) (f : Flow) : (setFlow s k f).placeVals = s.placeVals := rfl
@[simp] theorem setFlow_host (s : State) (k : Nat) (f : Flow) : (setFlow s k f).host = s.host := rfl
@[simp] theorem setFlow_owners (s : State) (k : Nat) (f : Flow) : (setFlow s k f).owners = s.owners := rfl
@[simp] theorem setFlow_queues (s : State) (k : Nat) (f : Flow) : (setFlow s k f).queues = s.queues := rfl
@[simp] theorem setFlow_th (s : State) (k : Nat) (f : Flow) : (setFlow s k f).th = s.th := rfl
@[simp] theorem setFlow_startup (s : State) (k : Nat) (f : Flow) : (setFlow s k f).startup = s.startup := rfl
@[simp] theorem setFlow_fronds (s : State) (k : Nat) (f : Flow) : (setFlow s k f).fronds = s.fronds := rfl
@[simp] theorem setFlow_log (s : State) (k : Nat) (f : Flow) : (setFlow s k f).log = s.log := rfl
@[simp] theorem setFlow_resets (s : State) (k : Nat) (f : Flow) : (setFlow s k f).resets = s.resets := rfl
@[simp] theorem setFlow_pools (s : State) (k : Nat) (f : Flow) : (setFlow s k f).pools = s.pools := rfl
@[simp] theorem setFlow_mc (s : State) (k : Nat) (f : Flow) : (setFlow s k f).mc = s.mc := rfl
@[simp] theorem setFlow_syu (s : State) (k : Nat) (f : Flow) : (setFlow s k f).syu = s.syu := rfl
@[simp] theorem setFlow_units (s : State) (k : Nat) (f : Flow) : (setFlow s k f).units = s.units := rfl
@[simp] theorem setFlow_card (s : State) (k : Nat) (f : Flow) : (setFlow s k f).card = s.card := rfl
@[simp] theorem setFlow_parts (s : State) (k : Nat) (f : Flow) : (setFlow s k f).parts = s.parts := rfl
@[simp] theorem setFlow_power (s : State) (k : Nat) (f : Flow) : (setFlow s k f).power = s.power := rfl
@[simp] theorem setFlow_clock (s : State) (k : Nat) (f : Flow) : (setFlow s k f).clock = s.clock := rfl
@[simp] theorem setFlow_free (s : State) (k : Nat) (f : Flow) : (setFlow s k f).free = s.free := rfl
@[simp] theorem setFlow_out (s : State) (k : Nat) (f : Flow) : (setFlow s k f).out = s.out := rfl

@[simp] theorem modFlow_pending (s : State) (k : Nat) (f : Flow → Flow) : (modFlow s k f).pending = s.pending := rfl
@[simp] theorem modFlow_mem (s : State) (k : Nat) (f : Flow → Flow) : (modFlow s k f).mem = s.mem := rfl
@[simp] theorem modFlow_dict (s : State) (k : Nat) (f : Flow → Flow) : (modFlow s k f).dict = s.dict := rfl
@[simp] theorem modFlow_shadow (s : State) (k : Nat) (f : Flow → Flow) : (modFlow s k f).shadow = s.shadow := rfl
@[simp] theorem modFlow_placeVals (s : State) (k : Nat) (f : Flow → Flow) : (modFlow s k f).placeVals = s.placeVals := rfl
@[simp] theorem modFlow_host (s : State) (k : Nat) (f : Flow → Flow) : (modFlow s k f).host = s.host := rfl
@[simp] theorem modFlow_owners (s : State) (k : Nat) (f : Flow → Flow) : (modFlow s k f).owners = s.owners := rfl
@[simp] theorem modFlow_queues (s : State) (k : Nat) (f : Flow → Flow) : (modFlow s k f).queues = s.queues := rfl
@[simp] theorem modFlow_th (s : State) (k : Nat) (f : Flow → Flow) : (modFlow s k f).th = s.th := rfl
@[simp] theorem modFlow_startup (s : State) (k : Nat) (f : Flow → Flow) : (modFlow s k f).startup = s.startup := rfl
@[simp] theorem modFlow_fronds (s : State) (k : Nat) (f : Flow → Flow) : (modFlow s k f).fronds = s.fronds := rfl
@[simp] theorem modFlow_log (s : State) (k : Nat) (f : Flow → Flow) : (modFlow s k f).log = s.log := rfl
@[simp] theorem modFlow_resets (s : State) (k : Nat) (f : Flow → Flow) : (modFlow s k f).resets = s.resets := rfl
@[simp] theorem modFlow_pools (s : State) (k : Nat) (f : Flow → Flow) : (modFlow s k f).pools = s.pools := rfl
@[simp] theorem modFlow_mc (s : State) (k : Nat) (f : Flow → Flow) : (modFlow s k f).mc = s.mc := rfl
@[simp] theorem modFlow_syu (s : State) (k : Nat) (f : Flow → Flow) : (modFlow s k f).syu = s.syu := rfl
@[simp] theorem modFlow_units (s : State) (k : Nat) (f : Flow → Flow) : (modFlow s k f).units = s.units := rfl
@[simp] theorem modFlow_card (s : State) (k : Nat) (f : Flow → Flow) : (modFlow s k f).card = s.card := rfl
@[simp] theorem modFlow_parts (s : State) (k : Nat) (f : Flow → Flow) : (modFlow s k f).parts = s.parts := rfl
@[simp] theorem modFlow_power (s : State) (k : Nat) (f : Flow → Flow) : (modFlow s k f).power = s.power := rfl
@[simp] theorem modFlow_clock (s : State) (k : Nat) (f : Flow → Flow) : (modFlow s k f).clock = s.clock := rfl
@[simp] theorem modFlow_free (s : State) (k : Nat) (f : Flow → Flow) : (modFlow s k f).free = s.free := rfl
@[simp] theorem modFlow_out (s : State) (k : Nat) (f : Flow → Flow) : (modFlow s k f).out = s.out := rfl

@[simp] theorem modPort_pending (s : State) (p : Nat) (f : Port → Port) : (modPort s p f).pending = s.pending := rfl
@[simp] theorem modPort_mem (s : State) (p : Nat) (f : Port → Port) : (modPort s p f).mem = s.mem := rfl
@[simp] theorem modPort_dict (s : State) (p : Nat) (f : Port → Port) : (modPort s p f).dict = s.dict := rfl
@[simp] theorem modPort_shadow (s : State) (p : Nat) (f : Port → Port) : (modPort s p f).shadow = s.shadow := rfl
@[simp] theorem modPort_placeVals (s : State) (p : Nat) (f : Port → Port) : (modPort s p f).placeVals = s.placeVals := rfl
@[simp] theorem modPort_host (s : State) (p : Nat) (f : Port → Port) : (modPort s p f).host = s.host := rfl
@[simp] theorem modPort_owners (s : State) (p : Nat) (f : Port → Port) : (modPort s p f).owners = s.owners := rfl
@[simp] theorem modPort_queues (s : State) (p : Nat) (f : Port → Port) : (modPort s p f).queues = s.queues := rfl
@[simp] theorem modPort_th (s : State) (p : Nat) (f : Port → Port) : (modPort s p f).th = s.th := rfl
@[simp] theorem modPort_startup (s : State) (p : Nat) (f : Port → Port) : (modPort s p f).startup = s.startup := rfl
@[simp] theorem modPort_fronds (s : State) (p : Nat) (f : Port → Port) : (modPort s p f).fronds = s.fronds := rfl
@[simp] theorem modPort_log (s : State) (p : Nat) (f : Port → Port) : (modPort s p f).log = s.log := rfl
@[simp] theorem modPort_resets (s : State) (p : Nat) (f : Port → Port) : (modPort s p f).resets = s.resets := rfl
@[simp] theorem modPort_pools (s : State) (p : Nat) (f : Port → Port) : (modPort s p f).pools = s.pools := rfl
@[simp] theorem modPort_mc (s : State) (p : Nat) (f : Port → Port) : (modPort s p f).mc = s.mc := rfl
@[simp] theorem modPort_syu (s : State) (p : Nat) (f : Port → Port) : (modPort s p f).syu = s.syu := rfl
@[simp] theorem modPort_units (s : State) (p : Nat) (f : Port → Port) : (modPort s p f).units = s.units := rfl
@[simp] theorem modPort_card (s : State) (p : Nat) (f : Port → Port) : (modPort s p f).card = s.card := rfl
@[simp] theorem modPort_parts (s : State) (p : Nat) (f : Port → Port) : (modPort s p f).parts = s.parts := rfl
@[simp] theorem modPort_power (s : State) (p : Nat) (f : Port → Port) : (modPort s p f).power = s.power := rfl
@[simp] theorem modPort_clock (s : State) (p : Nat) (f : Port → Port) : (modPort s p f).clock = s.clock := rfl
@[simp] theorem modPort_free (s : State) (p : Nat) (f : Port → Port) : (modPort s p f).free = s.free := rfl
@[simp] theorem modPort_out (s : State) (p : Nat) (f : Port → Port) : (modPort s p f).out = s.out := rfl

@[simp] theorem setDir_pending (s : State) (l : Nat) (d : Dir) : (setDir s l d).pending = s.pending := rfl
@[simp] theorem setDir_mem (s : State) (l : Nat) (d : Dir) : (setDir s l d).mem = s.mem := rfl
@[simp] theorem setDir_dict (s : State) (l : Nat) (d : Dir) : (setDir s l d).dict = s.dict := rfl
@[simp] theorem setDir_shadow (s : State) (l : Nat) (d : Dir) : (setDir s l d).shadow = s.shadow := rfl
@[simp] theorem setDir_placeVals (s : State) (l : Nat) (d : Dir) : (setDir s l d).placeVals = s.placeVals := rfl
@[simp] theorem setDir_host (s : State) (l : Nat) (d : Dir) : (setDir s l d).host = s.host := rfl
@[simp] theorem setDir_owners (s : State) (l : Nat) (d : Dir) : (setDir s l d).owners = s.owners := rfl
@[simp] theorem setDir_queues (s : State) (l : Nat) (d : Dir) : (setDir s l d).queues = s.queues := rfl
@[simp] theorem setDir_th (s : State) (l : Nat) (d : Dir) : (setDir s l d).th = s.th := rfl
@[simp] theorem setDir_startup (s : State) (l : Nat) (d : Dir) : (setDir s l d).startup = s.startup := rfl
@[simp] theorem setDir_fronds (s : State) (l : Nat) (d : Dir) : (setDir s l d).fronds = s.fronds := rfl
@[simp] theorem setDir_log (s : State) (l : Nat) (d : Dir) : (setDir s l d).log = s.log := rfl
@[simp] theorem setDir_resets (s : State) (l : Nat) (d : Dir) : (setDir s l d).resets = s.resets := rfl
@[simp] theorem setDir_pools (s : State) (l : Nat) (d : Dir) : (setDir s l d).pools = s.pools := rfl
@[simp] theorem setDir_mc (s : State) (l : Nat) (d : Dir) : (setDir s l d).mc = s.mc := rfl
@[simp] theorem setDir_syu (s : State) (l : Nat) (d : Dir) : (setDir s l d).syu = s.syu := rfl
@[simp] theorem setDir_units (s : State) (l : Nat) (d : Dir) : (setDir s l d).units = s.units := rfl
@[simp] theorem setDir_card (s : State) (l : Nat) (d : Dir) : (setDir s l d).card = s.card := rfl
@[simp] theorem setDir_parts (s : State) (l : Nat) (d : Dir) : (setDir s l d).parts = s.parts := rfl
@[simp] theorem setDir_power (s : State) (l : Nat) (d : Dir) : (setDir s l d).power = s.power := rfl
@[simp] theorem setDir_clock (s : State) (l : Nat) (d : Dir) : (setDir s l d).clock = s.clock := rfl
@[simp] theorem setDir_free (s : State) (l : Nat) (d : Dir) : (setDir s l d).free = s.free := rfl
@[simp] theorem setDir_out (s : State) (l : Nat) (d : Dir) : (setDir s l d).out = s.out := rfl

@[simp] theorem dropLines_pending (s : State) (f : Line → Bool) : (dropLines s f).pending = s.pending := rfl
@[simp] theorem dropLines_mem (s : State) (f : Line → Bool) : (dropLines s f).mem = s.mem := rfl
@[simp] theorem dropLines_dict (s : State) (f : Line → Bool) : (dropLines s f).dict = s.dict := rfl
@[simp] theorem dropLines_shadow (s : State) (f : Line → Bool) : (dropLines s f).shadow = s.shadow := rfl
@[simp] theorem dropLines_placeVals (s : State) (f : Line → Bool) : (dropLines s f).placeVals = s.placeVals := rfl
@[simp] theorem dropLines_host (s : State) (f : Line → Bool) : (dropLines s f).host = s.host := rfl
@[simp] theorem dropLines_owners (s : State) (f : Line → Bool) : (dropLines s f).owners = s.owners := rfl
@[simp] theorem dropLines_queues (s : State) (f : Line → Bool) : (dropLines s f).queues = s.queues := rfl
@[simp] theorem dropLines_th (s : State) (f : Line → Bool) : (dropLines s f).th = s.th := rfl
@[simp] theorem dropLines_startup (s : State) (f : Line → Bool) : (dropLines s f).startup = s.startup := rfl
@[simp] theorem dropLines_fronds (s : State) (f : Line → Bool) : (dropLines s f).fronds = s.fronds := rfl
@[simp] theorem dropLines_log (s : State) (f : Line → Bool) : (dropLines s f).log = s.log := rfl
@[simp] theorem dropLines_resets (s : State) (f : Line → Bool) : (dropLines s f).resets = s.resets := rfl
@[simp] theorem dropLines_pools (s : State) (f : Line → Bool) : (dropLines s f).pools = s.pools := rfl
@[simp] theorem dropLines_mc (s : State) (f : Line → Bool) : (dropLines s f).mc = s.mc := rfl
@[simp] theorem dropLines_syu (s : State) (f : Line → Bool) : (dropLines s f).syu = s.syu := rfl
@[simp] theorem dropLines_units (s : State) (f : Line → Bool) : (dropLines s f).units = s.units := rfl
@[simp] theorem dropLines_card (s : State) (f : Line → Bool) : (dropLines s f).card = s.card := rfl
@[simp] theorem dropLines_parts (s : State) (f : Line → Bool) : (dropLines s f).parts = s.parts := rfl
@[simp] theorem dropLines_power (s : State) (f : Line → Bool) : (dropLines s f).power = s.power := rfl
@[simp] theorem dropLines_clock (s : State) (f : Line → Bool) : (dropLines s f).clock = s.clock := rfl
@[simp] theorem dropLines_free (s : State) (f : Line → Bool) : (dropLines s f).free = s.free := rfl
@[simp] theorem dropLines_out (s : State) (f : Line → Bool) : (dropLines s f).out = s.out := rfl

@[simp] theorem setPool_pending (s : State) (p : Nat) (x : Pool) : (setPool s p x).pending = s.pending := rfl
@[simp] theorem setPool_mem (s : State) (p : Nat) (x : Pool) : (setPool s p x).mem = s.mem := rfl
@[simp] theorem setPool_dict (s : State) (p : Nat) (x : Pool) : (setPool s p x).dict = s.dict := rfl
@[simp] theorem setPool_shadow (s : State) (p : Nat) (x : Pool) : (setPool s p x).shadow = s.shadow := rfl
@[simp] theorem setPool_placeVals (s : State) (p : Nat) (x : Pool) : (setPool s p x).placeVals = s.placeVals := rfl
@[simp] theorem setPool_host (s : State) (p : Nat) (x : Pool) : (setPool s p x).host = s.host := rfl
@[simp] theorem setPool_owners (s : State) (p : Nat) (x : Pool) : (setPool s p x).owners = s.owners := rfl
@[simp] theorem setPool_queues (s : State) (p : Nat) (x : Pool) : (setPool s p x).queues = s.queues := rfl
@[simp] theorem setPool_th (s : State) (p : Nat) (x : Pool) : (setPool s p x).th = s.th := rfl
@[simp] theorem setPool_startup (s : State) (p : Nat) (x : Pool) : (setPool s p x).startup = s.startup := rfl
@[simp] theorem setPool_fronds (s : State) (p : Nat) (x : Pool) : (setPool s p x).fronds = s.fronds := rfl
@[simp] theorem setPool_log (s : State) (p : Nat) (x : Pool) : (setPool s p x).log = s.log := rfl
@[simp] theorem setPool_resets (s : State) (p : Nat) (x : Pool) : (setPool s p x).resets = s.resets := rfl
@[simp] theorem setPool_mc (s : State) (p : Nat) (x : Pool) : (setPool s p x).mc = s.mc := rfl
@[simp] theorem setPool_syu (s : State) (p : Nat) (x : Pool) : (setPool s p x).syu = s.syu := rfl
@[simp] theorem setPool_fab (s : State) (p : Nat) (x : Pool) : (setPool s p x).fab = s.fab := rfl
@[simp] theorem setPool_units (s : State) (p : Nat) (x : Pool) : (setPool s p x).units = s.units := rfl
@[simp] theorem setPool_card (s : State) (p : Nat) (x : Pool) : (setPool s p x).card = s.card := rfl
@[simp] theorem setPool_parts (s : State) (p : Nat) (x : Pool) : (setPool s p x).parts = s.parts := rfl
@[simp] theorem setPool_power (s : State) (p : Nat) (x : Pool) : (setPool s p x).power = s.power := rfl
@[simp] theorem setPool_clock (s : State) (p : Nat) (x : Pool) : (setPool s p x).clock = s.clock := rfl
@[simp] theorem setPool_free (s : State) (p : Nat) (x : Pool) : (setPool s p x).free = s.free := rfl
@[simp] theorem setPool_out (s : State) (p : Nat) (x : Pool) : (setPool s p x).out = s.out := rfl

@[simp] theorem setRec_pending (s : State) (i : Nat) (r : BufRec) : (setRec s i r).pending = s.pending := rfl
@[simp] theorem setRec_mem (s : State) (i : Nat) (r : BufRec) : (setRec s i r).mem = s.mem := rfl
@[simp] theorem setRec_dict (s : State) (i : Nat) (r : BufRec) : (setRec s i r).dict = s.dict := rfl
@[simp] theorem setRec_shadow (s : State) (i : Nat) (r : BufRec) : (setRec s i r).shadow = s.shadow := rfl
@[simp] theorem setRec_placeVals (s : State) (i : Nat) (r : BufRec) : (setRec s i r).placeVals = s.placeVals := rfl
@[simp] theorem setRec_host (s : State) (i : Nat) (r : BufRec) : (setRec s i r).host = s.host := rfl
@[simp] theorem setRec_owners (s : State) (i : Nat) (r : BufRec) : (setRec s i r).owners = s.owners := rfl
@[simp] theorem setRec_queues (s : State) (i : Nat) (r : BufRec) : (setRec s i r).queues = s.queues := rfl
@[simp] theorem setRec_th (s : State) (i : Nat) (r : BufRec) : (setRec s i r).th = s.th := rfl
@[simp] theorem setRec_startup (s : State) (i : Nat) (r : BufRec) : (setRec s i r).startup = s.startup := rfl
@[simp] theorem setRec_fronds (s : State) (i : Nat) (r : BufRec) : (setRec s i r).fronds = s.fronds := rfl
@[simp] theorem setRec_log (s : State) (i : Nat) (r : BufRec) : (setRec s i r).log = s.log := rfl
@[simp] theorem setRec_resets (s : State) (i : Nat) (r : BufRec) : (setRec s i r).resets = s.resets := rfl
@[simp] theorem setRec_mc (s : State) (i : Nat) (r : BufRec) : (setRec s i r).mc = s.mc := rfl
@[simp] theorem setRec_syu (s : State) (i : Nat) (r : BufRec) : (setRec s i r).syu = s.syu := rfl
@[simp] theorem setRec_fab (s : State) (i : Nat) (r : BufRec) : (setRec s i r).fab = s.fab := rfl
@[simp] theorem setRec_units (s : State) (i : Nat) (r : BufRec) : (setRec s i r).units = s.units := rfl
@[simp] theorem setRec_card (s : State) (i : Nat) (r : BufRec) : (setRec s i r).card = s.card := rfl
@[simp] theorem setRec_parts (s : State) (i : Nat) (r : BufRec) : (setRec s i r).parts = s.parts := rfl
@[simp] theorem setRec_power (s : State) (i : Nat) (r : BufRec) : (setRec s i r).power = s.power := rfl
@[simp] theorem setRec_clock (s : State) (i : Nat) (r : BufRec) : (setRec s i r).clock = s.clock := rfl
@[simp] theorem setRec_free (s : State) (i : Nat) (r : BufRec) : (setRec s i r).free = s.free := rfl
@[simp] theorem setRec_out (s : State) (i : Nat) (r : BufRec) : (setRec s i r).out = s.out := rfl

@[simp] theorem setMc_pending (s : State) (f : Mc → Mc) : (setMc s f).pending = s.pending := rfl
@[simp] theorem setMc_mem (s : State) (f : Mc → Mc) : (setMc s f).mem = s.mem := rfl
@[simp] theorem setMc_dict (s : State) (f : Mc → Mc) : (setMc s f).dict = s.dict := rfl
@[simp] theorem setMc_shadow (s : State) (f : Mc → Mc) : (setMc s f).shadow = s.shadow := rfl
@[simp] theorem setMc_placeVals (s : State) (f : Mc → Mc) : (setMc s f).placeVals = s.placeVals := rfl
@[simp] theorem setMc_host (s : State) (f : Mc → Mc) : (setMc s f).host = s.host := rfl
@[simp] theorem setMc_owners (s : State) (f : Mc → Mc) : (setMc s f).owners = s.owners := rfl
@[simp] theorem setMc_queues (s : State) (f : Mc → Mc) : (setMc s f).queues = s.queues := rfl
@[simp] theorem setMc_th (s : State) (f : Mc → Mc) : (setMc s f).th = s.th := rfl
@[simp] theorem setMc_startup (s : State) (f : Mc → Mc) : (setMc s f).startup = s.startup := rfl
@[simp] theorem setMc_fronds (s : State) (f : Mc → Mc) : (setMc s f).fronds = s.fronds := rfl
@[simp] theorem setMc_log (s : State) (f : Mc → Mc) : (setMc s f).log = s.log := rfl
@[simp] theorem setMc_resets (s : State) (f : Mc → Mc) : (setMc s f).resets = s.resets := rfl
@[simp] theorem setMc_pools (s : State) (f : Mc → Mc) : (setMc s f).pools = s.pools := rfl
@[simp] theorem setMc_syu (s : State) (f : Mc → Mc) : (setMc s f).syu = s.syu := rfl
@[simp] theorem setMc_fab (s : State) (f : Mc → Mc) : (setMc s f).fab = s.fab := rfl
@[simp] theorem setMc_units (s : State) (f : Mc → Mc) : (setMc s f).units = s.units := rfl
@[simp] theorem setMc_card (s : State) (f : Mc → Mc) : (setMc s f).card = s.card := rfl
@[simp] theorem setMc_parts (s : State) (f : Mc → Mc) : (setMc s f).parts = s.parts := rfl
@[simp] theorem setMc_power (s : State) (f : Mc → Mc) : (setMc s f).power = s.power := rfl
@[simp] theorem setMc_clock (s : State) (f : Mc → Mc) : (setMc s f).clock = s.clock := rfl
@[simp] theorem setMc_free (s : State) (f : Mc → Mc) : (setMc s f).free = s.free := rfl
@[simp] theorem setMc_out (s : State) (f : Mc → Mc) : (setMc s f).out = s.out := rfl
@[simp] theorem setMc_mc (s : State) (f : Mc → Mc) : (setMc s f).mc = f s.mc := rfl

@[simp] theorem setPower_pending (s : State) (f : Module → Module) : (setPower s f).pending = s.pending := rfl
@[simp] theorem setPower_mem (s : State) (f : Module → Module) : (setPower s f).mem = s.mem := rfl
@[simp] theorem setPower_dict (s : State) (f : Module → Module) : (setPower s f).dict = s.dict := rfl
@[simp] theorem setPower_shadow (s : State) (f : Module → Module) : (setPower s f).shadow = s.shadow := rfl
@[simp] theorem setPower_placeVals (s : State) (f : Module → Module) : (setPower s f).placeVals = s.placeVals := rfl
@[simp] theorem setPower_host (s : State) (f : Module → Module) : (setPower s f).host = s.host := rfl
@[simp] theorem setPower_owners (s : State) (f : Module → Module) : (setPower s f).owners = s.owners := rfl
@[simp] theorem setPower_queues (s : State) (f : Module → Module) : (setPower s f).queues = s.queues := rfl
@[simp] theorem setPower_th (s : State) (f : Module → Module) : (setPower s f).th = s.th := rfl
@[simp] theorem setPower_startup (s : State) (f : Module → Module) : (setPower s f).startup = s.startup := rfl
@[simp] theorem setPower_fronds (s : State) (f : Module → Module) : (setPower s f).fronds = s.fronds := rfl
@[simp] theorem setPower_log (s : State) (f : Module → Module) : (setPower s f).log = s.log := rfl
@[simp] theorem setPower_resets (s : State) (f : Module → Module) : (setPower s f).resets = s.resets := rfl
@[simp] theorem setPower_pools (s : State) (f : Module → Module) : (setPower s f).pools = s.pools := rfl
@[simp] theorem setPower_mc (s : State) (f : Module → Module) : (setPower s f).mc = s.mc := rfl
@[simp] theorem setPower_syu (s : State) (f : Module → Module) : (setPower s f).syu = s.syu := rfl
@[simp] theorem setPower_fab (s : State) (f : Module → Module) : (setPower s f).fab = s.fab := rfl
@[simp] theorem setPower_units (s : State) (f : Module → Module) : (setPower s f).units = s.units := rfl
@[simp] theorem setPower_card (s : State) (f : Module → Module) : (setPower s f).card = s.card := rfl
@[simp] theorem setPower_parts (s : State) (f : Module → Module) : (setPower s f).parts = s.parts := rfl
@[simp] theorem setPower_clock (s : State) (f : Module → Module) : (setPower s f).clock = s.clock := rfl
@[simp] theorem setPower_free (s : State) (f : Module → Module) : (setPower s f).free = s.free := rfl
@[simp] theorem setPower_out (s : State) (f : Module → Module) : (setPower s f).out = s.out := rfl
@[simp] theorem setPower_power (s : State) (f : Module → Module) : (setPower s f).power = f s.power := rfl

@[simp] theorem modWalk_pending (s : State) (q : Nat) (f : Walk → Walk) : (modWalk s q f).pending = s.pending := rfl
@[simp] theorem modWalk_mem (s : State) (q : Nat) (f : Walk → Walk) : (modWalk s q f).mem = s.mem := rfl
@[simp] theorem modWalk_dict (s : State) (q : Nat) (f : Walk → Walk) : (modWalk s q f).dict = s.dict := rfl
@[simp] theorem modWalk_shadow (s : State) (q : Nat) (f : Walk → Walk) : (modWalk s q f).shadow = s.shadow := rfl
@[simp] theorem modWalk_placeVals (s : State) (q : Nat) (f : Walk → Walk) : (modWalk s q f).placeVals = s.placeVals := rfl
@[simp] theorem modWalk_host (s : State) (q : Nat) (f : Walk → Walk) : (modWalk s q f).host = s.host := rfl
@[simp] theorem modWalk_owners (s : State) (q : Nat) (f : Walk → Walk) : (modWalk s q f).owners = s.owners := rfl
@[simp] theorem modWalk_queues (s : State) (q : Nat) (f : Walk → Walk) : (modWalk s q f).queues = s.queues := rfl
@[simp] theorem modWalk_th (s : State) (q : Nat) (f : Walk → Walk) : (modWalk s q f).th = s.th := rfl
@[simp] theorem modWalk_startup (s : State) (q : Nat) (f : Walk → Walk) : (modWalk s q f).startup = s.startup := rfl
@[simp] theorem modWalk_fronds (s : State) (q : Nat) (f : Walk → Walk) : (modWalk s q f).fronds = s.fronds := rfl
@[simp] theorem modWalk_log (s : State) (q : Nat) (f : Walk → Walk) : (modWalk s q f).log = s.log := rfl
@[simp] theorem modWalk_resets (s : State) (q : Nat) (f : Walk → Walk) : (modWalk s q f).resets = s.resets := rfl
@[simp] theorem modWalk_pools (s : State) (q : Nat) (f : Walk → Walk) : (modWalk s q f).pools = s.pools := rfl
@[simp] theorem modWalk_mc (s : State) (q : Nat) (f : Walk → Walk) : (modWalk s q f).mc = s.mc := rfl
@[simp] theorem modWalk_syu (s : State) (q : Nat) (f : Walk → Walk) : (modWalk s q f).syu = s.syu := rfl
@[simp] theorem modWalk_fab (s : State) (q : Nat) (f : Walk → Walk) : (modWalk s q f).fab = s.fab := rfl
@[simp] theorem modWalk_card (s : State) (q : Nat) (f : Walk → Walk) : (modWalk s q f).card = s.card := rfl
@[simp] theorem modWalk_parts (s : State) (q : Nat) (f : Walk → Walk) : (modWalk s q f).parts = s.parts := rfl
@[simp] theorem modWalk_power (s : State) (q : Nat) (f : Walk → Walk) : (modWalk s q f).power = s.power := rfl
@[simp] theorem modWalk_clock (s : State) (q : Nat) (f : Walk → Walk) : (modWalk s q f).clock = s.clock := rfl
@[simp] theorem modWalk_free (s : State) (q : Nat) (f : Walk → Walk) : (modWalk s q f).free = s.free := rfl
@[simp] theorem modWalk_out (s : State) (q : Nat) (f : Walk → Walk) : (modWalk s q f).out = s.out := rfl

@[simp] theorem setCard_pending (s : State) (q : Nat) (c : Card) : (setCard s q c).pending = s.pending := rfl
@[simp] theorem setCard_mem (s : State) (q : Nat) (c : Card) : (setCard s q c).mem = s.mem := rfl
@[simp] theorem setCard_dict (s : State) (q : Nat) (c : Card) : (setCard s q c).dict = s.dict := rfl
@[simp] theorem setCard_shadow (s : State) (q : Nat) (c : Card) : (setCard s q c).shadow = s.shadow := rfl
@[simp] theorem setCard_placeVals (s : State) (q : Nat) (c : Card) : (setCard s q c).placeVals = s.placeVals := rfl
@[simp] theorem setCard_host (s : State) (q : Nat) (c : Card) : (setCard s q c).host = s.host := rfl
@[simp] theorem setCard_owners (s : State) (q : Nat) (c : Card) : (setCard s q c).owners = s.owners := rfl
@[simp] theorem setCard_queues (s : State) (q : Nat) (c : Card) : (setCard s q c).queues = s.queues := rfl
@[simp] theorem setCard_th (s : State) (q : Nat) (c : Card) : (setCard s q c).th = s.th := rfl
@[simp] theorem setCard_startup (s : State) (q : Nat) (c : Card) : (setCard s q c).startup = s.startup := rfl
@[simp] theorem setCard_fronds (s : State) (q : Nat) (c : Card) : (setCard s q c).fronds = s.fronds := rfl
@[simp] theorem setCard_log (s : State) (q : Nat) (c : Card) : (setCard s q c).log = s.log := rfl
@[simp] theorem setCard_resets (s : State) (q : Nat) (c : Card) : (setCard s q c).resets = s.resets := rfl
@[simp] theorem setCard_pools (s : State) (q : Nat) (c : Card) : (setCard s q c).pools = s.pools := rfl
@[simp] theorem setCard_mc (s : State) (q : Nat) (c : Card) : (setCard s q c).mc = s.mc := rfl
@[simp] theorem setCard_syu (s : State) (q : Nat) (c : Card) : (setCard s q c).syu = s.syu := rfl
@[simp] theorem setCard_fab (s : State) (q : Nat) (c : Card) : (setCard s q c).fab = s.fab := rfl
@[simp] theorem setCard_units (s : State) (q : Nat) (c : Card) : (setCard s q c).units = s.units := rfl
@[simp] theorem setCard_parts (s : State) (q : Nat) (c : Card) : (setCard s q c).parts = s.parts := rfl
@[simp] theorem setCard_power (s : State) (q : Nat) (c : Card) : (setCard s q c).power = s.power := rfl
@[simp] theorem setCard_clock (s : State) (q : Nat) (c : Card) : (setCard s q c).clock = s.clock := rfl
@[simp] theorem setCard_free (s : State) (q : Nat) (c : Card) : (setCard s q c).free = s.free := rfl
@[simp] theorem setCard_out (s : State) (q : Nat) (c : Card) : (setCard s q c).out = s.out := rfl

@[simp] theorem dropCard_pending (s : State) (q : Nat) : (dropCard s q).pending = s.pending := rfl
@[simp] theorem dropCard_mem (s : State) (q : Nat) : (dropCard s q).mem = s.mem := rfl
@[simp] theorem dropCard_dict (s : State) (q : Nat) : (dropCard s q).dict = s.dict := rfl
@[simp] theorem dropCard_shadow (s : State) (q : Nat) : (dropCard s q).shadow = s.shadow := rfl
@[simp] theorem dropCard_placeVals (s : State) (q : Nat) : (dropCard s q).placeVals = s.placeVals := rfl
@[simp] theorem dropCard_host (s : State) (q : Nat) : (dropCard s q).host = s.host := rfl
@[simp] theorem dropCard_owners (s : State) (q : Nat) : (dropCard s q).owners = s.owners := rfl
@[simp] theorem dropCard_queues (s : State) (q : Nat) : (dropCard s q).queues = s.queues := rfl
@[simp] theorem dropCard_th (s : State) (q : Nat) : (dropCard s q).th = s.th := rfl
@[simp] theorem dropCard_startup (s : State) (q : Nat) : (dropCard s q).startup = s.startup := rfl
@[simp] theorem dropCard_fronds (s : State) (q : Nat) : (dropCard s q).fronds = s.fronds := rfl
@[simp] theorem dropCard_log (s : State) (q : Nat) : (dropCard s q).log = s.log := rfl
@[simp] theorem dropCard_resets (s : State) (q : Nat) : (dropCard s q).resets = s.resets := rfl
@[simp] theorem dropCard_pools (s : State) (q : Nat) : (dropCard s q).pools = s.pools := rfl
@[simp] theorem dropCard_mc (s : State) (q : Nat) : (dropCard s q).mc = s.mc := rfl
@[simp] theorem dropCard_syu (s : State) (q : Nat) : (dropCard s q).syu = s.syu := rfl
@[simp] theorem dropCard_fab (s : State) (q : Nat) : (dropCard s q).fab = s.fab := rfl
@[simp] theorem dropCard_units (s : State) (q : Nat) : (dropCard s q).units = s.units := rfl
@[simp] theorem dropCard_parts (s : State) (q : Nat) : (dropCard s q).parts = s.parts := rfl
@[simp] theorem dropCard_power (s : State) (q : Nat) : (dropCard s q).power = s.power := rfl
@[simp] theorem dropCard_clock (s : State) (q : Nat) : (dropCard s q).clock = s.clock := rfl
@[simp] theorem dropCard_free (s : State) (q : Nat) : (dropCard s q).free = s.free := rfl
@[simp] theorem dropCard_out (s : State) (q : Nat) : (dropCard s q).out = s.out := rfl

@[simp] theorem setFrond_pending (s : State) (f : Nat) (x : Frond) : (setFrond s f x).pending = s.pending := rfl
@[simp] theorem setFrond_mem (s : State) (f : Nat) (x : Frond) : (setFrond s f x).mem = s.mem := rfl
@[simp] theorem setFrond_dict (s : State) (f : Nat) (x : Frond) : (setFrond s f x).dict = s.dict := rfl
@[simp] theorem setFrond_shadow (s : State) (f : Nat) (x : Frond) : (setFrond s f x).shadow = s.shadow := rfl
@[simp] theorem setFrond_placeVals (s : State) (f : Nat) (x : Frond) : (setFrond s f x).placeVals = s.placeVals := rfl
@[simp] theorem setFrond_host (s : State) (f : Nat) (x : Frond) : (setFrond s f x).host = s.host := rfl
@[simp] theorem setFrond_owners (s : State) (f : Nat) (x : Frond) : (setFrond s f x).owners = s.owners := rfl
@[simp] theorem setFrond_queues (s : State) (f : Nat) (x : Frond) : (setFrond s f x).queues = s.queues := rfl
@[simp] theorem setFrond_th (s : State) (f : Nat) (x : Frond) : (setFrond s f x).th = s.th := rfl
@[simp] theorem setFrond_startup (s : State) (f : Nat) (x : Frond) : (setFrond s f x).startup = s.startup := rfl
@[simp] theorem setFrond_log (s : State) (f : Nat) (x : Frond) : (setFrond s f x).log = s.log := rfl
@[simp] theorem setFrond_resets (s : State) (f : Nat) (x : Frond) : (setFrond s f x).resets = s.resets := rfl
@[simp] theorem setFrond_pools (s : State) (f : Nat) (x : Frond) : (setFrond s f x).pools = s.pools := rfl
@[simp] theorem setFrond_mc (s : State) (f : Nat) (x : Frond) : (setFrond s f x).mc = s.mc := rfl
@[simp] theorem setFrond_syu (s : State) (f : Nat) (x : Frond) : (setFrond s f x).syu = s.syu := rfl
@[simp] theorem setFrond_fab (s : State) (f : Nat) (x : Frond) : (setFrond s f x).fab = s.fab := rfl
@[simp] theorem setFrond_units (s : State) (f : Nat) (x : Frond) : (setFrond s f x).units = s.units := rfl
@[simp] theorem setFrond_card (s : State) (f : Nat) (x : Frond) : (setFrond s f x).card = s.card := rfl
@[simp] theorem setFrond_parts (s : State) (f : Nat) (x : Frond) : (setFrond s f x).parts = s.parts := rfl
@[simp] theorem setFrond_power (s : State) (f : Nat) (x : Frond) : (setFrond s f x).power = s.power := rfl
@[simp] theorem setFrond_clock (s : State) (f : Nat) (x : Frond) : (setFrond s f x).clock = s.clock := rfl
@[simp] theorem setFrond_free (s : State) (f : Nat) (x : Frond) : (setFrond s f x).free = s.free := rfl
@[simp] theorem setFrond_out (s : State) (f : Nat) (x : Frond) : (setFrond s f x).out = s.out := rfl

@[simp] theorem setMain_pending (s : State) (m : Option Nat) : (setMain s m).pending = s.pending := rfl
@[simp] theorem setMain_mem (s : State) (m : Option Nat) : (setMain s m).mem = s.mem := rfl
@[simp] theorem setMain_dict (s : State) (m : Option Nat) : (setMain s m).dict = s.dict := rfl
@[simp] theorem setMain_shadow (s : State) (m : Option Nat) : (setMain s m).shadow = s.shadow := rfl
@[simp] theorem setMain_placeVals (s : State) (m : Option Nat) : (setMain s m).placeVals = s.placeVals := rfl
@[simp] theorem setMain_host (s : State) (m : Option Nat) : (setMain s m).host = s.host := rfl
@[simp] theorem setMain_owners (s : State) (m : Option Nat) : (setMain s m).owners = s.owners := rfl
@[simp] theorem setMain_queues (s : State) (m : Option Nat) : (setMain s m).queues = s.queues := rfl
@[simp] theorem setMain_th (s : State) (m : Option Nat) : (setMain s m).th = s.th := rfl
@[simp] theorem setMain_fronds (s : State) (m : Option Nat) : (setMain s m).fronds = s.fronds := rfl
@[simp] theorem setMain_log (s : State) (m : Option Nat) : (setMain s m).log = s.log := rfl
@[simp] theorem setMain_resets (s : State) (m : Option Nat) : (setMain s m).resets = s.resets := rfl
@[simp] theorem setMain_pools (s : State) (m : Option Nat) : (setMain s m).pools = s.pools := rfl
@[simp] theorem setMain_mc (s : State) (m : Option Nat) : (setMain s m).mc = s.mc := rfl
@[simp] theorem setMain_syu (s : State) (m : Option Nat) : (setMain s m).syu = s.syu := rfl
@[simp] theorem setMain_fab (s : State) (m : Option Nat) : (setMain s m).fab = s.fab := rfl
@[simp] theorem setMain_units (s : State) (m : Option Nat) : (setMain s m).units = s.units := rfl
@[simp] theorem setMain_card (s : State) (m : Option Nat) : (setMain s m).card = s.card := rfl
@[simp] theorem setMain_parts (s : State) (m : Option Nat) : (setMain s m).parts = s.parts := rfl
@[simp] theorem setMain_power (s : State) (m : Option Nat) : (setMain s m).power = s.power := rfl
@[simp] theorem setMain_clock (s : State) (m : Option Nat) : (setMain s m).clock = s.clock := rfl
@[simp] theorem setMain_free (s : State) (m : Option Nat) : (setMain s m).free = s.free := rfl
@[simp] theorem setMain_out (s : State) (m : Option Nat) : (setMain s m).out = s.out := rfl
@[simp] theorem setMain_startup (s : State) (m : Option Nat) : (setMain s m).startup = { s.startup with main := m } := rfl

@[simp] theorem setBack_pending (s : State) (m : Option Nat) : (setBack s m).pending = s.pending := rfl
@[simp] theorem setBack_mem (s : State) (m : Option Nat) : (setBack s m).mem = s.mem := rfl
@[simp] theorem setBack_dict (s : State) (m : Option Nat) : (setBack s m).dict = s.dict := rfl
@[simp] theorem setBack_shadow (s : State) (m : Option Nat) : (setBack s m).shadow = s.shadow := rfl
@[simp] theorem setBack_placeVals (s : State) (m : Option Nat) : (setBack s m).placeVals = s.placeVals := rfl
@[simp] theorem setBack_host (s : State) (m : Option Nat) : (setBack s m).host = s.host := rfl
@[simp] theorem setBack_owners (s : State) (m : Option Nat) : (setBack s m).owners = s.owners := rfl
@[simp] theorem setBack_queues (s : State) (m : Option Nat) : (setBack s m).queues = s.queues := rfl
@[simp] theorem setBack_th (s : State) (m : Option Nat) : (setBack s m).th = s.th := rfl
@[simp] theorem setBack_fronds (s : State) (m : Option Nat) : (setBack s m).fronds = s.fronds := rfl
@[simp] theorem setBack_log (s : State) (m : Option Nat) : (setBack s m).log = s.log := rfl
@[simp] theorem setBack_resets (s : State) (m : Option Nat) : (setBack s m).resets = s.resets := rfl
@[simp] theorem setBack_pools (s : State) (m : Option Nat) : (setBack s m).pools = s.pools := rfl
@[simp] theorem setBack_mc (s : State) (m : Option Nat) : (setBack s m).mc = s.mc := rfl
@[simp] theorem setBack_syu (s : State) (m : Option Nat) : (setBack s m).syu = s.syu := rfl
@[simp] theorem setBack_fab (s : State) (m : Option Nat) : (setBack s m).fab = s.fab := rfl
@[simp] theorem setBack_units (s : State) (m : Option Nat) : (setBack s m).units = s.units := rfl
@[simp] theorem setBack_card (s : State) (m : Option Nat) : (setBack s m).card = s.card := rfl
@[simp] theorem setBack_parts (s : State) (m : Option Nat) : (setBack s m).parts = s.parts := rfl
@[simp] theorem setBack_power (s : State) (m : Option Nat) : (setBack s m).power = s.power := rfl
@[simp] theorem setBack_clock (s : State) (m : Option Nat) : (setBack s m).clock = s.clock := rfl
@[simp] theorem setBack_free (s : State) (m : Option Nat) : (setBack s m).free = s.free := rfl
@[simp] theorem setBack_out (s : State) (m : Option Nat) : (setBack s m).out = s.out := rfl
@[simp] theorem setBack_startup (s : State) (m : Option Nat) : (setBack s m).startup = { s.startup with back := m } := rfl

end Sys2Proof.Machine
end

