-- ==== Sys2Proof/Laws/Frames.lean ====
section
/-!
SUPPORT. Laws/Frames.lean: for each shared operation that has cases (writes, messages outside, faults), the fields of the state that
it leaves as they were in every case, one lemma a field.
-/
namespace Sys2Proof.Machine

@[simp] theorem wr_pending (s : State) (o a : Nat) (b : List Nat) : (wr s o a b).pending = s.pending := by
  unfold wr; dsimp only; split <;> rfl
@[simp] theorem wr_shadow (s : State) (o a : Nat) (b : List Nat) : (wr s o a b).shadow = s.shadow := by
  unfold wr; dsimp only; split <;> rfl
@[simp] theorem wr_placeVals (s : State) (o a : Nat) (b : List Nat) : (wr s o a b).placeVals = s.placeVals := by
  unfold wr; dsimp only; split <;> rfl
@[simp] theorem wr_host (s : State) (o a : Nat) (b : List Nat) : (wr s o a b).host = s.host := by
  unfold wr; dsimp only; split <;> rfl
@[simp] theorem wr_owners (s : State) (o a : Nat) (b : List Nat) : (wr s o a b).owners = s.owners := by
  unfold wr; dsimp only; split <;> rfl
@[simp] theorem wr_queues (s : State) (o a : Nat) (b : List Nat) : (wr s o a b).queues = s.queues := by
  unfold wr; dsimp only; split <;> rfl
@[simp] theorem wr_th (s : State) (o a : Nat) (b : List Nat) : (wr s o a b).th = s.th := by
  unfold wr; dsimp only; split <;> rfl
@[simp] theorem wr_startup (s : State) (o a : Nat) (b : List Nat) : (wr s o a b).startup = s.startup := by
  unfold wr; dsimp only; split <;> rfl
@[simp] theorem wr_fronds (s : State) (o a : Nat) (b : List Nat) : (wr s o a b).fronds = s.fronds := by
  unfold wr; dsimp only; split <;> rfl
@[simp] theorem wr_log (s : State) (o a : Nat) (b : List Nat) : (wr s o a b).log = s.log := by
  unfold wr; dsimp only; split <;> rfl
@[simp] theorem wr_resets (s : State) (o a : Nat) (b : List Nat) : (wr s o a b).resets = s.resets := by
  unfold wr; dsimp only; split <;> rfl
@[simp] theorem wr_pools (s : State) (o a : Nat) (b : List Nat) : (wr s o a b).pools = s.pools := by
  unfold wr; dsimp only; split <;> rfl
@[simp] theorem wr_mc (s : State) (o a : Nat) (b : List Nat) : (wr s o a b).mc = s.mc := by
  unfold wr; dsimp only; split <;> rfl
@[simp] theorem wr_syu (s : State) (o a : Nat) (b : List Nat) : (wr s o a b).syu = s.syu := by
  unfold wr; dsimp only; split <;> rfl
@[simp] theorem wr_fab (s : State) (o a : Nat) (b : List Nat) : (wr s o a b).fab = s.fab := by
  unfold wr; dsimp only; split <;> rfl
@[simp] theorem wr_card (s : State) (o a : Nat) (b : List Nat) : (wr s o a b).card = s.card := by
  unfold wr; dsimp only; split <;> rfl
@[simp] theorem wr_parts (s : State) (o a : Nat) (b : List Nat) : (wr s o a b).parts = s.parts := by
  unfold wr; dsimp only; split <;> rfl
@[simp] theorem wr_power (s : State) (o a : Nat) (b : List Nat) : (wr s o a b).power = s.power := by
  unfold wr; dsimp only; split <;> rfl
@[simp] theorem wr_clock (s : State) (o a : Nat) (b : List Nat) : (wr s o a b).clock = s.clock := by
  unfold wr; dsimp only; split <;> rfl
@[simp] theorem wr_free (s : State) (o a : Nat) (b : List Nat) : (wr s o a b).free = s.free := by
  unfold wr; dsimp only; split <;> rfl
@[simp] theorem wr_out (s : State) (o a : Nat) (b : List Nat) : (wr s o a b).out = s.out := by
  unfold wr; dsimp only; split <;> rfl

@[simp] theorem zeroTileS_pending (s : State) (o n : Nat) : (zeroTileS s o n).pending = s.pending := by
  rfl
@[simp] theorem zeroTileS_dict (s : State) (o n : Nat) : (zeroTileS s o n).dict = s.dict := by
  rfl
@[simp] theorem zeroTileS_shadow (s : State) (o n : Nat) : (zeroTileS s o n).shadow = s.shadow := by
  rfl
@[simp] theorem zeroTileS_placeVals (s : State) (o n : Nat) : (zeroTileS s o n).placeVals = s.placeVals := by
  rfl
@[simp] theorem zeroTileS_host (s : State) (o n : Nat) : (zeroTileS s o n).host = s.host := by
  rfl
@[simp] theorem zeroTileS_owners (s : State) (o n : Nat) : (zeroTileS s o n).owners = s.owners := by
  rfl
@[simp] theorem zeroTileS_queues (s : State) (o n : Nat) : (zeroTileS s o n).queues = s.queues := by
  rfl
@[simp] theorem zeroTileS_th (s : State) (o n : Nat) : (zeroTileS s o n).th = s.th := by
  rfl
@[simp] theorem zeroTileS_startup (s : State) (o n : Nat) : (zeroTileS s o n).startup = s.startup := by
  rfl
@[simp] theorem zeroTileS_fronds (s : State) (o n : Nat) : (zeroTileS s o n).fronds = s.fronds := by
  rfl
@[simp] theorem zeroTileS_log (s : State) (o n : Nat) : (zeroTileS s o n).log = s.log := by
  rfl
@[simp] theorem zeroTileS_resets (s : State) (o n : Nat) : (zeroTileS s o n).resets = s.resets := by
  rfl
@[simp] theorem zeroTileS_pools (s : State) (o n : Nat) : (zeroTileS s o n).pools = s.pools := by
  rfl
@[simp] theorem zeroTileS_mc (s : State) (o n : Nat) : (zeroTileS s o n).mc = s.mc := by
  rfl
@[simp] theorem zeroTileS_syu (s : State) (o n : Nat) : (zeroTileS s o n).syu = s.syu := by
  rfl
@[simp] theorem zeroTileS_fab (s : State) (o n : Nat) : (zeroTileS s o n).fab = s.fab := by
  rfl
@[simp] theorem zeroTileS_card (s : State) (o n : Nat) : (zeroTileS s o n).card = s.card := by
  rfl
@[simp] theorem zeroTileS_parts (s : State) (o n : Nat) : (zeroTileS s o n).parts = s.parts := by
  rfl
@[simp] theorem zeroTileS_power (s : State) (o n : Nat) : (zeroTileS s o n).power = s.power := by
  rfl
@[simp] theorem zeroTileS_clock (s : State) (o n : Nat) : (zeroTileS s o n).clock = s.clock := by
  rfl
@[simp] theorem zeroTileS_free (s : State) (o n : Nat) : (zeroTileS s o n).free = s.free := by
  rfl
@[simp] theorem zeroTileS_out (s : State) (o n : Nat) : (zeroTileS s o n).out = s.out := by
  rfl

@[simp] theorem toHost_pending (s : State) (e : OutEv) : (toHost s e).pending = s.pending := by
  unfold toHost; split <;> rfl
@[simp] theorem toHost_mem (s : State) (e : OutEv) : (toHost s e).mem = s.mem := by
  unfold toHost; split <;> rfl
@[simp] theorem toHost_dict (s : State) (e : OutEv) : (toHost s e).dict = s.dict := by
  unfold toHost; split <;> rfl
@[simp] theorem toHost_shadow (s : State) (e : OutEv) : (toHost s e).shadow = s.shadow := by
  unfold toHost; split <;> rfl
@[simp] theorem toHost_placeVals (s : State) (e : OutEv) : (toHost s e).placeVals = s.placeVals := by
  unfold toHost; split <;> rfl
@[simp] theorem toHost_owners (s : State) (e : OutEv) : (toHost s e).owners = s.owners := by
  unfold toHost; split <;> rfl
@[simp] theorem toHost_queues (s : State) (e : OutEv) : (toHost s e).queues = s.queues := by
  unfold toHost; split <;> rfl
@[simp] theorem toHost_th (s : State) (e : OutEv) : (toHost s e).th = s.th := by
  unfold toHost; split <;> rfl
@[simp] theorem toHost_startup (s : State) (e : OutEv) : (toHost s e).startup = s.startup := by
  unfold toHost; split <;> rfl
@[simp] theorem toHost_fronds (s : State) (e : OutEv) : (toHost s e).fronds = s.fronds := by
  unfold toHost; split <;> rfl
@[simp] theorem toHost_log (s : State) (e : OutEv) : (toHost s e).log = s.log := by
  unfold toHost; split <;> rfl
@[simp] theorem toHost_resets (s : State) (e : OutEv) : (toHost s e).resets = s.resets := by
  unfold toHost; split <;> rfl
@[simp] theorem toHost_pools (s : State) (e : OutEv) : (toHost s e).pools = s.pools := by
  unfold toHost; split <;> rfl
@[simp] theorem toHost_mc (s : State) (e : OutEv) : (toHost s e).mc = s.mc := by
  unfold toHost; split <;> rfl
@[simp] theorem toHost_syu (s : State) (e : OutEv) : (toHost s e).syu = s.syu := by
  unfold toHost; split <;> rfl
@[simp] theorem toHost_fab (s : State) (e : OutEv) : (toHost s e).fab = s.fab := by
  unfold toHost; split <;> rfl
@[simp] theorem toHost_units (s : State) (e : OutEv) : (toHost s e).units = s.units := by
  unfold toHost; split <;> rfl
@[simp] theorem toHost_card (s : State) (e : OutEv) : (toHost s e).card = s.card := by
  unfold toHost; split <;> rfl
@[simp] theorem toHost_parts (s : State) (e : OutEv) : (toHost s e).parts = s.parts := by
  unfold toHost; split <;> rfl
@[simp] theorem toHost_power (s : State) (e : OutEv) : (toHost s e).power = s.power := by
  unfold toHost; split <;> rfl
@[simp] theorem toHost_clock (s : State) (e : OutEv) : (toHost s e).clock = s.clock := by
  unfold toHost; split <;> rfl
@[simp] theorem toHost_free (s : State) (e : OutEv) : (toHost s e).free = s.free := by
  unfold toHost; split <;> rfl

@[simp] theorem hostWr_pending (s : State) (o a : Nat) (b : List Nat) : (hostWr s o a b).pending = s.pending := by
  simp [hostWr]
@[simp] theorem hostWr_mem (s : State) (o a : Nat) (b : List Nat) : (hostWr s o a b).mem = s.mem := by
  simp [hostWr]
@[simp] theorem hostWr_dict (s : State) (o a : Nat) (b : List Nat) : (hostWr s o a b).dict = s.dict := by
  simp [hostWr]
@[simp] theorem hostWr_shadow (s : State) (o a : Nat) (b : List Nat) : (hostWr s o a b).shadow = s.shadow := by
  simp [hostWr]
@[simp] theorem hostWr_placeVals (s : State) (o a : Nat) (b : List Nat) : (hostWr s o a b).placeVals = s.placeVals := by
  simp [hostWr]
@[simp] theorem hostWr_owners (s : State) (o a : Nat) (b : List Nat) : (hostWr s o a b).owners = s.owners := by
  simp [hostWr]
@[simp] theorem hostWr_queues (s : State) (o a : Nat) (b : List Nat) : (hostWr s o a b).queues = s.queues := by
  simp [hostWr]
@[simp] theorem hostWr_th (s : State) (o a : Nat) (b : List Nat) : (hostWr s o a b).th = s.th := by
  simp [hostWr]
@[simp] theorem hostWr_startup (s : State) (o a : Nat) (b : List Nat) : (hostWr s o a b).startup = s.startup := by
  simp [hostWr]
@[simp] theorem hostWr_fronds (s : State) (o a : Nat) (b : List Nat) : (hostWr s o a b).fronds = s.fronds := by
  simp [hostWr]
@[simp] theorem hostWr_log (s : State) (o a : Nat) (b : List Nat) : (hostWr s o a b).log = s.log := by
  simp [hostWr]
@[simp] theorem hostWr_resets (s : State) (o a : Nat) (b : List Nat) : (hostWr s o a b).resets = s.resets := by
  simp [hostWr]
@[simp] theorem hostWr_pools (s : State) (o a : Nat) (b : List Nat) : (hostWr s o a b).pools = s.pools := by
  simp [hostWr]
@[simp] theorem hostWr_mc (s : State) (o a : Nat) (b : List Nat) : (hostWr s o a b).mc = s.mc := by
  simp [hostWr]
@[simp] theorem hostWr_syu (s : State) (o a : Nat) (b : List Nat) : (hostWr s o a b).syu = s.syu := by
  simp [hostWr]
@[simp] theorem hostWr_fab (s : State) (o a : Nat) (b : List Nat) : (hostWr s o a b).fab = s.fab := by
  simp [hostWr]
@[simp] theorem hostWr_units (s : State) (o a : Nat) (b : List Nat) : (hostWr s o a b).units = s.units := by
  simp [hostWr]
@[simp] theorem hostWr_card (s : State) (o a : Nat) (b : List Nat) : (hostWr s o a b).card = s.card := by
  simp [hostWr]
@[simp] theorem hostWr_parts (s : State) (o a : Nat) (b : List Nat) : (hostWr s o a b).parts = s.parts := by
  simp [hostWr]
@[simp] theorem hostWr_power (s : State) (o a : Nat) (b : List Nat) : (hostWr s o a b).power = s.power := by
  simp [hostWr]
@[simp] theorem hostWr_clock (s : State) (o a : Nat) (b : List Nat) : (hostWr s o a b).clock = s.clock := by
  simp [hostWr]
@[simp] theorem hostWr_free (s : State) (o a : Nat) (b : List Nat) : (hostWr s o a b).free = s.free := by
  simp [hostWr]

@[simp] theorem ringWr_pending (s : State) (o : Nat) (l : Bool) (a : Nat) (b : List Nat) : (ringWr s o l a b).pending = s.pending := by
  unfold ringWr; split <;> simp
@[simp] theorem ringWr_shadow (s : State) (o : Nat) (l : Bool) (a : Nat) (b : List Nat) : (ringWr s o l a b).shadow = s.shadow := by
  unfold ringWr; split <;> simp
@[simp] theorem ringWr_placeVals (s : State) (o : Nat) (l : Bool) (a : Nat) (b : List Nat) : (ringWr s o l a b).placeVals = s.placeVals := by
  unfold ringWr; split <;> simp
@[simp] theorem ringWr_owners (s : State) (o : Nat) (l : Bool) (a : Nat) (b : List Nat) : (ringWr s o l a b).owners = s.owners := by
  unfold ringWr; split <;> simp
@[simp] theorem ringWr_queues (s : State) (o : Nat) (l : Bool) (a : Nat) (b : List Nat) : (ringWr s o l a b).queues = s.queues := by
  unfold ringWr; split <;> simp
@[simp] theorem ringWr_th (s : State) (o : Nat) (l : Bool) (a : Nat) (b : List Nat) : (ringWr s o l a b).th = s.th := by
  unfold ringWr; split <;> simp
@[simp] theorem ringWr_startup (s : State) (o : Nat) (l : Bool) (a : Nat) (b : List Nat) : (ringWr s o l a b).startup = s.startup := by
  unfold ringWr; split <;> simp
@[simp] theorem ringWr_fronds (s : State) (o : Nat) (l : Bool) (a : Nat) (b : List Nat) : (ringWr s o l a b).fronds = s.fronds := by
  unfold ringWr; split <;> simp
@[simp] theorem ringWr_log (s : State) (o : Nat) (l : Bool) (a : Nat) (b : List Nat) : (ringWr s o l a b).log = s.log := by
  unfold ringWr; split <;> simp
@[simp] theorem ringWr_resets (s : State) (o : Nat) (l : Bool) (a : Nat) (b : List Nat) : (ringWr s o l a b).resets = s.resets := by
  unfold ringWr; split <;> simp
@[simp] theorem ringWr_pools (s : State) (o : Nat) (l : Bool) (a : Nat) (b : List Nat) : (ringWr s o l a b).pools = s.pools := by
  unfold ringWr; split <;> simp
@[simp] theorem ringWr_mc (s : State) (o : Nat) (l : Bool) (a : Nat) (b : List Nat) : (ringWr s o l a b).mc = s.mc := by
  unfold ringWr; split <;> simp
@[simp] theorem ringWr_syu (s : State) (o : Nat) (l : Bool) (a : Nat) (b : List Nat) : (ringWr s o l a b).syu = s.syu := by
  unfold ringWr; split <;> simp
@[simp] theorem ringWr_fab (s : State) (o : Nat) (l : Bool) (a : Nat) (b : List Nat) : (ringWr s o l a b).fab = s.fab := by
  unfold ringWr; split <;> simp
@[simp] theorem ringWr_card (s : State) (o : Nat) (l : Bool) (a : Nat) (b : List Nat) : (ringWr s o l a b).card = s.card := by
  unfold ringWr; split <;> simp
@[simp] theorem ringWr_parts (s : State) (o : Nat) (l : Bool) (a : Nat) (b : List Nat) : (ringWr s o l a b).parts = s.parts := by
  unfold ringWr; split <;> simp
@[simp] theorem ringWr_power (s : State) (o : Nat) (l : Bool) (a : Nat) (b : List Nat) : (ringWr s o l a b).power = s.power := by
  unfold ringWr; split <;> simp
@[simp] theorem ringWr_clock (s : State) (o : Nat) (l : Bool) (a : Nat) (b : List Nat) : (ringWr s o l a b).clock = s.clock := by
  unfold ringWr; split <;> simp
@[simp] theorem ringWr_free (s : State) (o : Nat) (l : Bool) (a : Nat) (b : List Nat) : (ringWr s o l a b).free = s.free := by
  unfold ringWr; split <;> simp

@[simp] theorem sendFrame_pending (s : State) (c d t : Nat) (b : List Nat) : (sendFrame s c d t b).pending = s.pending := by
  unfold sendFrame; split <;> simp
@[simp] theorem sendFrame_mem (s : State) (c d t : Nat) (b : List Nat) : (sendFrame s c d t b).mem = s.mem := by
  unfold sendFrame; split <;> simp
@[simp] theorem sendFrame_dict (s : State) (c d t : Nat) (b : List Nat) : (sendFrame s c d t b).dict = s.dict := by
  unfold sendFrame; split <;> simp
@[simp] theorem sendFrame_shadow (s : State) (c d t : Nat) (b : List Nat) : (sendFrame s c d t b).shadow = s.shadow := by
  unfold sendFrame; split <;> simp
@[simp] theorem sendFrame_placeVals (s : State) (c d t : Nat) (b : List Nat) : (sendFrame s c d t b).placeVals = s.placeVals := by
  unfold sendFrame; split <;> simp
@[simp] theorem sendFrame_host (s : State) (c d t : Nat) (b : List Nat) : (sendFrame s c d t b).host = s.host := by
  unfold sendFrame; split <;> simp
@[simp] theorem sendFrame_owners (s : State) (c d t : Nat) (b : List Nat) : (sendFrame s c d t b).owners = s.owners := by
  unfold sendFrame; split <;> simp
@[simp] theorem sendFrame_queues (s : State) (c d t : Nat) (b : List Nat) : (sendFrame s c d t b).queues = s.queues := by
  unfold sendFrame; split <;> simp
@[simp] theorem sendFrame_th (s : State) (c d t : Nat) (b : List Nat) : (sendFrame s c d t b).th = s.th := by
  unfold sendFrame; split <;> simp
@[simp] theorem sendFrame_startup (s : State) (c d t : Nat) (b : List Nat) : (sendFrame s c d t b).startup = s.startup := by
  unfold sendFrame; split <;> simp
@[simp] theorem sendFrame_fronds (s : State) (c d t : Nat) (b : List Nat) : (sendFrame s c d t b).fronds = s.fronds := by
  unfold sendFrame; split <;> simp
@[simp] theorem sendFrame_log (s : State) (c d t : Nat) (b : List Nat) : (sendFrame s c d t b).log = s.log := by
  unfold sendFrame; split <;> simp
@[simp] theorem sendFrame_resets (s : State) (c d t : Nat) (b : List Nat) : (sendFrame s c d t b).resets = s.resets := by
  unfold sendFrame; split <;> simp
@[simp] theorem sendFrame_pools (s : State) (c d t : Nat) (b : List Nat) : (sendFrame s c d t b).pools = s.pools := by
  unfold sendFrame; split <;> simp
@[simp] theorem sendFrame_mc (s : State) (c d t : Nat) (b : List Nat) : (sendFrame s c d t b).mc = s.mc := by
  unfold sendFrame; split <;> simp
@[simp] theorem sendFrame_syu (s : State) (c d t : Nat) (b : List Nat) : (sendFrame s c d t b).syu = s.syu := by
  unfold sendFrame; split <;> simp
@[simp] theorem sendFrame_fab (s : State) (c d t : Nat) (b : List Nat) : (sendFrame s c d t b).fab = s.fab := by
  unfold sendFrame; split <;> simp
@[simp] theorem sendFrame_units (s : State) (c d t : Nat) (b : List Nat) : (sendFrame s c d t b).units = s.units := by
  unfold sendFrame; split <;> simp
@[simp] theorem sendFrame_card (s : State) (c d t : Nat) (b : List Nat) : (sendFrame s c d t b).card = s.card := by
  unfold sendFrame; split <;> simp
@[simp] theorem sendFrame_parts (s : State) (c d t : Nat) (b : List Nat) : (sendFrame s c d t b).parts = s.parts := by
  unfold sendFrame; split <;> simp
@[simp] theorem sendFrame_power (s : State) (c d t : Nat) (b : List Nat) : (sendFrame s c d t b).power = s.power := by
  unfold sendFrame; split <;> simp
@[simp] theorem sendFrame_clock (s : State) (c d t : Nat) (b : List Nat) : (sendFrame s c d t b).clock = s.clock := by
  unfold sendFrame; split <;> simp
@[simp] theorem sendFrame_free (s : State) (c d t : Nat) (b : List Nat) : (sendFrame s c d t b).free = s.free := by
  unfold sendFrame; split <;> simp

@[simp] theorem noticeOf_pending (s : State) (r : Nat) : (noticeOf s r).pending = s.pending := by
  unfold noticeOf; split <;> simp
@[simp] theorem noticeOf_mem (s : State) (r : Nat) : (noticeOf s r).mem = s.mem := by
  unfold noticeOf; split <;> simp
@[simp] theorem noticeOf_dict (s : State) (r : Nat) : (noticeOf s r).dict = s.dict := by
  unfold noticeOf; split <;> simp
@[simp] theorem noticeOf_shadow (s : State) (r : Nat) : (noticeOf s r).shadow = s.shadow := by
  unfold noticeOf; split <;> simp
@[simp] theorem noticeOf_placeVals (s : State) (r : Nat) : (noticeOf s r).placeVals = s.placeVals := by
  unfold noticeOf; split <;> simp
@[simp] theorem noticeOf_host (s : State) (r : Nat) : (noticeOf s r).host = s.host := by
  unfold noticeOf; split <;> simp
@[simp] theorem noticeOf_owners (s : State) (r : Nat) : (noticeOf s r).owners = s.owners := by
  unfold noticeOf; split <;> simp
@[simp] theorem noticeOf_queues (s : State) (r : Nat) : (noticeOf s r).queues = s.queues := by
  unfold noticeOf; split <;> simp
@[simp] theorem noticeOf_startup (s : State) (r : Nat) : (noticeOf s r).startup = s.startup := by
  unfold noticeOf; split <;> simp
@[simp] theorem noticeOf_fronds (s : State) (r : Nat) : (noticeOf s r).fronds = s.fronds := by
  unfold noticeOf; split <;> simp
@[simp] theorem noticeOf_log (s : State) (r : Nat) : (noticeOf s r).log = s.log := by
  unfold noticeOf; split <;> simp
@[simp] theorem noticeOf_resets (s : State) (r : Nat) : (noticeOf s r).resets = s.resets := by
  unfold noticeOf; split <;> simp
@[simp] theorem noticeOf_pools (s : State) (r : Nat) : (noticeOf s r).pools = s.pools := by
  unfold noticeOf; split <;> simp
@[simp] theorem noticeOf_mc (s : State) (r : Nat) : (noticeOf s r).mc = s.mc := by
  unfold noticeOf; split <;> simp
@[simp] theorem noticeOf_syu (s : State) (r : Nat) : (noticeOf s r).syu = s.syu := by
  unfold noticeOf; split <;> simp
@[simp] theorem noticeOf_fab (s : State) (r : Nat) : (noticeOf s r).fab = s.fab := by
  unfold noticeOf; split <;> simp
@[simp] theorem noticeOf_units (s : State) (r : Nat) : (noticeOf s r).units = s.units := by
  unfold noticeOf; split <;> simp
@[simp] theorem noticeOf_card (s : State) (r : Nat) : (noticeOf s r).card = s.card := by
  unfold noticeOf; split <;> simp
@[simp] theorem noticeOf_parts (s : State) (r : Nat) : (noticeOf s r).parts = s.parts := by
  unfold noticeOf; split <;> simp
@[simp] theorem noticeOf_power (s : State) (r : Nat) : (noticeOf s r).power = s.power := by
  unfold noticeOf; split <;> simp
@[simp] theorem noticeOf_clock (s : State) (r : Nat) : (noticeOf s r).clock = s.clock := by
  unfold noticeOf; split <;> simp
@[simp] theorem noticeOf_free (s : State) (r : Nat) : (noticeOf s r).free = s.free := by
  unfold noticeOf; split <;> simp

@[simp] theorem storeRecord_pending (s : State) (r : Nat) : (storeRecord s r).pending = s.pending := by
  unfold storeRecord; dsimp only; split <;> simp
@[simp] theorem storeRecord_shadow (s : State) (r : Nat) : (storeRecord s r).shadow = s.shadow := by
  unfold storeRecord; dsimp only; split <;> simp
@[simp] theorem storeRecord_placeVals (s : State) (r : Nat) : (storeRecord s r).placeVals = s.placeVals := by
  unfold storeRecord; dsimp only; split <;> simp
@[simp] theorem storeRecord_host (s : State) (r : Nat) : (storeRecord s r).host = s.host := by
  unfold storeRecord; dsimp only; split <;> simp
@[simp] theorem storeRecord_owners (s : State) (r : Nat) : (storeRecord s r).owners = s.owners := by
  unfold storeRecord; dsimp only; split <;> simp
@[simp] theorem storeRecord_queues (s : State) (r : Nat) : (storeRecord s r).queues = s.queues := by
  unfold storeRecord; dsimp only; split <;> simp
@[simp] theorem storeRecord_startup (s : State) (r : Nat) : (storeRecord s r).startup = s.startup := by
  unfold storeRecord; dsimp only; split <;> simp
@[simp] theorem storeRecord_fronds (s : State) (r : Nat) : (storeRecord s r).fronds = s.fronds := by
  unfold storeRecord; dsimp only; split <;> simp
@[simp] theorem storeRecord_resets (s : State) (r : Nat) : (storeRecord s r).resets = s.resets := by
  unfold storeRecord; dsimp only; split <;> simp
@[simp] theorem storeRecord_pools (s : State) (r : Nat) : (storeRecord s r).pools = s.pools := by
  unfold storeRecord; dsimp only; split <;> simp
@[simp] theorem storeRecord_mc (s : State) (r : Nat) : (storeRecord s r).mc = s.mc := by
  unfold storeRecord; dsimp only; split <;> simp
@[simp] theorem storeRecord_syu (s : State) (r : Nat) : (storeRecord s r).syu = s.syu := by
  unfold storeRecord; dsimp only; split <;> simp
@[simp] theorem storeRecord_fab (s : State) (r : Nat) : (storeRecord s r).fab = s.fab := by
  unfold storeRecord; dsimp only; split <;> simp
@[simp] theorem storeRecord_card (s : State) (r : Nat) : (storeRecord s r).card = s.card := by
  unfold storeRecord; dsimp only; split <;> simp
@[simp] theorem storeRecord_parts (s : State) (r : Nat) : (storeRecord s r).parts = s.parts := by
  unfold storeRecord; dsimp only; split <;> simp
@[simp] theorem storeRecord_power (s : State) (r : Nat) : (storeRecord s r).power = s.power := by
  unfold storeRecord; dsimp only; split <;> simp
@[simp] theorem storeRecord_clock (s : State) (r : Nat) : (storeRecord s r).clock = s.clock := by
  unfold storeRecord; dsimp only; split <;> simp
@[simp] theorem storeRecord_free (s : State) (r : Nat) : (storeRecord s r).free = s.free := by
  unfold storeRecord; dsimp only; split <;> simp

@[simp] theorem takeRecord_pending (s : State) (r : Nat) : (takeRecord s r).pending = s.pending := by
  unfold takeRecord; split <;> (try split) <;> simp
@[simp] theorem takeRecord_shadow (s : State) (r : Nat) : (takeRecord s r).shadow = s.shadow := by
  unfold takeRecord; split <;> (try split) <;> simp
@[simp] theorem takeRecord_placeVals (s : State) (r : Nat) : (takeRecord s r).placeVals = s.placeVals := by
  unfold takeRecord; split <;> (try split) <;> simp
@[simp] theorem takeRecord_host (s : State) (r : Nat) : (takeRecord s r).host = s.host := by
  unfold takeRecord; split <;> (try split) <;> simp
@[simp] theorem takeRecord_owners (s : State) (r : Nat) : (takeRecord s r).owners = s.owners := by
  unfold takeRecord; split <;> (try split) <;> simp
@[simp] theorem takeRecord_queues (s : State) (r : Nat) : (takeRecord s r).queues = s.queues := by
  unfold takeRecord; split <;> (try split) <;> simp
@[simp] theorem takeRecord_startup (s : State) (r : Nat) : (takeRecord s r).startup = s.startup := by
  unfold takeRecord; split <;> (try split) <;> simp
@[simp] theorem takeRecord_fronds (s : State) (r : Nat) : (takeRecord s r).fronds = s.fronds := by
  unfold takeRecord; split <;> (try split) <;> simp
@[simp] theorem takeRecord_resets (s : State) (r : Nat) : (takeRecord s r).resets = s.resets := by
  unfold takeRecord; split <;> (try split) <;> simp
@[simp] theorem takeRecord_pools (s : State) (r : Nat) : (takeRecord s r).pools = s.pools := by
  unfold takeRecord; split <;> (try split) <;> simp
@[simp] theorem takeRecord_mc (s : State) (r : Nat) : (takeRecord s r).mc = s.mc := by
  unfold takeRecord; split <;> (try split) <;> simp
@[simp] theorem takeRecord_syu (s : State) (r : Nat) : (takeRecord s r).syu = s.syu := by
  unfold takeRecord; split <;> (try split) <;> simp
@[simp] theorem takeRecord_fab (s : State) (r : Nat) : (takeRecord s r).fab = s.fab := by
  unfold takeRecord; split <;> (try split) <;> simp
@[simp] theorem takeRecord_card (s : State) (r : Nat) : (takeRecord s r).card = s.card := by
  unfold takeRecord; split <;> (try split) <;> simp
@[simp] theorem takeRecord_parts (s : State) (r : Nat) : (takeRecord s r).parts = s.parts := by
  unfold takeRecord; split <;> (try split) <;> simp
@[simp] theorem takeRecord_power (s : State) (r : Nat) : (takeRecord s r).power = s.power := by
  unfold takeRecord; split <;> (try split) <;> simp
@[simp] theorem takeRecord_clock (s : State) (r : Nat) : (takeRecord s r).clock = s.clock := by
  unfold takeRecord; split <;> (try split) <;> simp
@[simp] theorem takeRecord_free (s : State) (r : Nat) : (takeRecord s r).free = s.free := by
  unfold takeRecord; split <;> (try split) <;> simp

@[simp] theorem ringRecord_pending (s : State) (o r : Nat) : (ringRecord s o r).pending = s.pending := by
  unfold ringRecord; dsimp only; split <;> (try split) <;> (try split) <;> simp
@[simp] theorem ringRecord_shadow (s : State) (o r : Nat) : (ringRecord s o r).shadow = s.shadow := by
  unfold ringRecord; dsimp only; split <;> (try split) <;> (try split) <;> simp
@[simp] theorem ringRecord_placeVals (s : State) (o r : Nat) : (ringRecord s o r).placeVals = s.placeVals := by
  unfold ringRecord; dsimp only; split <;> (try split) <;> (try split) <;> simp
@[simp] theorem ringRecord_queues (s : State) (o r : Nat) : (ringRecord s o r).queues = s.queues := by
  unfold ringRecord; dsimp only; split <;> (try split) <;> (try split) <;> simp
@[simp] theorem ringRecord_th (s : State) (o r : Nat) : (ringRecord s o r).th = s.th := by
  unfold ringRecord; dsimp only; split <;> (try split) <;> (try split) <;> simp
@[simp] theorem ringRecord_startup (s : State) (o r : Nat) : (ringRecord s o r).startup = s.startup := by
  unfold ringRecord; dsimp only; split <;> (try split) <;> (try split) <;> simp
@[simp] theorem ringRecord_fronds (s : State) (o r : Nat) : (ringRecord s o r).fronds = s.fronds := by
  unfold ringRecord; dsimp only; split <;> (try split) <;> (try split) <;> simp
@[simp] theorem ringRecord_log (s : State) (o r : Nat) : (ringRecord s o r).log = s.log := by
  unfold ringRecord; dsimp only; split <;> (try split) <;> (try split) <;> simp
@[simp] theorem ringRecord_resets (s : State) (o r : Nat) : (ringRecord s o r).resets = s.resets := by
  unfold ringRecord; dsimp only; split <;> (try split) <;> (try split) <;> simp
@[simp] theorem ringRecord_pools (s : State) (o r : Nat) : (ringRecord s o r).pools = s.pools := by
  unfold ringRecord; dsimp only; split <;> (try split) <;> (try split) <;> simp
@[simp] theorem ringRecord_mc (s : State) (o r : Nat) : (ringRecord s o r).mc = s.mc := by
  unfold ringRecord; dsimp only; split <;> (try split) <;> (try split) <;> simp
@[simp] theorem ringRecord_syu (s : State) (o r : Nat) : (ringRecord s o r).syu = s.syu := by
  unfold ringRecord; dsimp only; split <;> (try split) <;> (try split) <;> simp
@[simp] theorem ringRecord_fab (s : State) (o r : Nat) : (ringRecord s o r).fab = s.fab := by
  unfold ringRecord; dsimp only; split <;> (try split) <;> (try split) <;> simp
@[simp] theorem ringRecord_card (s : State) (o r : Nat) : (ringRecord s o r).card = s.card := by
  unfold ringRecord; dsimp only; split <;> (try split) <;> (try split) <;> simp
@[simp] theorem ringRecord_parts (s : State) (o r : Nat) : (ringRecord s o r).parts = s.parts := by
  unfold ringRecord; dsimp only; split <;> (try split) <;> (try split) <;> simp
@[simp] theorem ringRecord_power (s : State) (o r : Nat) : (ringRecord s o r).power = s.power := by
  unfold ringRecord; dsimp only; split <;> (try split) <;> (try split) <;> simp
@[simp] theorem ringRecord_clock (s : State) (o r : Nat) : (ringRecord s o r).clock = s.clock := by
  unfold ringRecord; dsimp only; split <;> (try split) <;> (try split) <;> simp
@[simp] theorem ringRecord_free (s : State) (o r : Nat) : (ringRecord s o r).free = s.free := by
  unfold ringRecord; dsimp only; split <;> (try split) <;> (try split) <;> simp

@[simp] theorem raise_pending (s : State) (f : Flt) : (raise s f).pending = s.pending := by
  unfold raise; dsimp only; split <;> simp
@[simp] theorem raise_shadow (s : State) (f : Flt) : (raise s f).shadow = s.shadow := by
  unfold raise; dsimp only; split <;> simp
@[simp] theorem raise_placeVals (s : State) (f : Flt) : (raise s f).placeVals = s.placeVals := by
  unfold raise; dsimp only; split <;> simp
@[simp] theorem raise_queues (s : State) (f : Flt) : (raise s f).queues = s.queues := by
  unfold raise; dsimp only; split <;> simp
@[simp] theorem raise_startup (s : State) (f : Flt) : (raise s f).startup = s.startup := by
  unfold raise; dsimp only; split <;> simp
@[simp] theorem raise_fronds (s : State) (f : Flt) : (raise s f).fronds = s.fronds := by
  unfold raise; dsimp only; split <;> simp
@[simp] theorem raise_resets (s : State) (f : Flt) : (raise s f).resets = s.resets := by
  unfold raise; dsimp only; split <;> simp
@[simp] theorem raise_pools (s : State) (f : Flt) : (raise s f).pools = s.pools := by
  unfold raise; dsimp only; split <;> simp
@[simp] theorem raise_mc (s : State) (f : Flt) : (raise s f).mc = s.mc := by
  unfold raise; dsimp only; split <;> simp
@[simp] theorem raise_syu (s : State) (f : Flt) : (raise s f).syu = s.syu := by
  unfold raise; dsimp only; split <;> simp
@[simp] theorem raise_fab (s : State) (f : Flt) : (raise s f).fab = s.fab := by
  unfold raise; dsimp only; split <;> simp
@[simp] theorem raise_card (s : State) (f : Flt) : (raise s f).card = s.card := by
  unfold raise; dsimp only; split <;> simp
@[simp] theorem raise_parts (s : State) (f : Flt) : (raise s f).parts = s.parts := by
  unfold raise; dsimp only; split <;> simp
@[simp] theorem raise_clock (s : State) (f : Flt) : (raise s f).clock = s.clock := by
  unfold raise; dsimp only; split <;> simp
@[simp] theorem raise_free (s : State) (f : Flt) : (raise s f).free = s.free := by
  unfold raise; dsimp only; split <;> simp

@[simp] theorem raiseDev_pending (s : State) (c r : Nat) (l : List (Nat × Nat)) : (raiseDev s c r l).pending = s.pending := by
  simp [raiseDev]
@[simp] theorem raiseDev_shadow (s : State) (c r : Nat) (l : List (Nat × Nat)) : (raiseDev s c r l).shadow = s.shadow := by
  simp [raiseDev]
@[simp] theorem raiseDev_placeVals (s : State) (c r : Nat) (l : List (Nat × Nat)) : (raiseDev s c r l).placeVals = s.placeVals := by
  simp [raiseDev]
@[simp] theorem raiseDev_queues (s : State) (c r : Nat) (l : List (Nat × Nat)) : (raiseDev s c r l).queues = s.queues := by
  simp [raiseDev]
@[simp] theorem raiseDev_startup (s : State) (c r : Nat) (l : List (Nat × Nat)) : (raiseDev s c r l).startup = s.startup := by
  simp [raiseDev]
@[simp] theorem raiseDev_fronds (s : State) (c r : Nat) (l : List (Nat × Nat)) : (raiseDev s c r l).fronds = s.fronds := by
  simp [raiseDev]
@[simp] theorem raiseDev_resets (s : State) (c r : Nat) (l : List (Nat × Nat)) : (raiseDev s c r l).resets = s.resets := by
  simp [raiseDev]
@[simp] theorem raiseDev_pools (s : State) (c r : Nat) (l : List (Nat × Nat)) : (raiseDev s c r l).pools = s.pools := by
  simp [raiseDev]
@[simp] theorem raiseDev_mc (s : State) (c r : Nat) (l : List (Nat × Nat)) : (raiseDev s c r l).mc = s.mc := by
  simp [raiseDev]
@[simp] theorem raiseDev_syu (s : State) (c r : Nat) (l : List (Nat × Nat)) : (raiseDev s c r l).syu = s.syu := by
  simp [raiseDev]
@[simp] theorem raiseDev_fab (s : State) (c r : Nat) (l : List (Nat × Nat)) : (raiseDev s c r l).fab = s.fab := by
  simp [raiseDev]
@[simp] theorem raiseDev_card (s : State) (c r : Nat) (l : List (Nat × Nat)) : (raiseDev s c r l).card = s.card := by
  simp [raiseDev]
@[simp] theorem raiseDev_parts (s : State) (c r : Nat) (l : List (Nat × Nat)) : (raiseDev s c r l).parts = s.parts := by
  simp [raiseDev]
@[simp] theorem raiseDev_clock (s : State) (c r : Nat) (l : List (Nat × Nat)) : (raiseDev s c r l).clock = s.clock := by
  simp [raiseDev]
@[simp] theorem raiseDev_free (s : State) (c r : Nat) (l : List (Nat × Nat)) : (raiseDev s c r l).free = s.free := by
  simp [raiseDev]

@[simp] theorem raiseOwner_pending (s : State) (c r o : Nat) (l : List (Nat × Nat)) : (raiseOwner s c r o l).pending = s.pending := by
  simp [raiseOwner]
@[simp] theorem raiseOwner_shadow (s : State) (c r o : Nat) (l : List (Nat × Nat)) : (raiseOwner s c r o l).shadow = s.shadow := by
  simp [raiseOwner]
@[simp] theorem raiseOwner_placeVals (s : State) (c r o : Nat) (l : List (Nat × Nat)) : (raiseOwner s c r o l).placeVals = s.placeVals := by
  simp [raiseOwner]
@[simp] theorem raiseOwner_queues (s : State) (c r o : Nat) (l : List (Nat × Nat)) : (raiseOwner s c r o l).queues = s.queues := by
  simp [raiseOwner]
@[simp] theorem raiseOwner_startup (s : State) (c r o : Nat) (l : List (Nat × Nat)) : (raiseOwner s c r o l).startup = s.startup := by
  simp [raiseOwner]
@[simp] theorem raiseOwner_fronds (s : State) (c r o : Nat) (l : List (Nat × Nat)) : (raiseOwner s c r o l).fronds = s.fronds := by
  simp [raiseOwner]
@[simp] theorem raiseOwner_resets (s : State) (c r o : Nat) (l : List (Nat × Nat)) : (raiseOwner s c r o l).resets = s.resets := by
  simp [raiseOwner]
@[simp] theorem raiseOwner_pools (s : State) (c r o : Nat) (l : List (Nat × Nat)) : (raiseOwner s c r o l).pools = s.pools := by
  simp [raiseOwner]
@[simp] theorem raiseOwner_mc (s : State) (c r o : Nat) (l : List (Nat × Nat)) : (raiseOwner s c r o l).mc = s.mc := by
  simp [raiseOwner]
@[simp] theorem raiseOwner_syu (s : State) (c r o : Nat) (l : List (Nat × Nat)) : (raiseOwner s c r o l).syu = s.syu := by
  simp [raiseOwner]
@[simp] theorem raiseOwner_fab (s : State) (c r o : Nat) (l : List (Nat × Nat)) : (raiseOwner s c r o l).fab = s.fab := by
  simp [raiseOwner]
@[simp] theorem raiseOwner_card (s : State) (c r o : Nat) (l : List (Nat × Nat)) : (raiseOwner s c r o l).card = s.card := by
  simp [raiseOwner]
@[simp] theorem raiseOwner_parts (s : State) (c r o : Nat) (l : List (Nat × Nat)) : (raiseOwner s c r o l).parts = s.parts := by
  simp [raiseOwner]
@[simp] theorem raiseOwner_clock (s : State) (c r o : Nat) (l : List (Nat × Nat)) : (raiseOwner s c r o l).clock = s.clock := by
  simp [raiseOwner]
@[simp] theorem raiseOwner_free (s : State) (c r o : Nat) (l : List (Nat × Nat)) : (raiseOwner s c r o l).free = s.free := by
  simp [raiseOwner]

@[simp] theorem raiseOp_pending (s : State) (q : Nat) (o : Op) (c r : Nat) (l : List (Nat × Nat)) : (raiseOp s q o c r l).pending = s.pending := by
  simp [raiseOp]
@[simp] theorem raiseOp_shadow (s : State) (q : Nat) (o : Op) (c r : Nat) (l : List (Nat × Nat)) : (raiseOp s q o c r l).shadow = s.shadow := by
  simp [raiseOp]
@[simp] theorem raiseOp_placeVals (s : State) (q : Nat) (o : Op) (c r : Nat) (l : List (Nat × Nat)) : (raiseOp s q o c r l).placeVals = s.placeVals := by
  simp [raiseOp]
@[simp] theorem raiseOp_startup (s : State) (q : Nat) (o : Op) (c r : Nat) (l : List (Nat × Nat)) : (raiseOp s q o c r l).startup = s.startup := by
  simp [raiseOp]
@[simp] theorem raiseOp_fronds (s : State) (q : Nat) (o : Op) (c r : Nat) (l : List (Nat × Nat)) : (raiseOp s q o c r l).fronds = s.fronds := by
  simp [raiseOp]
@[simp] theorem raiseOp_resets (s : State) (q : Nat) (o : Op) (c r : Nat) (l : List (Nat × Nat)) : (raiseOp s q o c r l).resets = s.resets := by
  simp [raiseOp]
@[simp] theorem raiseOp_pools (s : State) (q : Nat) (o : Op) (c r : Nat) (l : List (Nat × Nat)) : (raiseOp s q o c r l).pools = s.pools := by
  simp [raiseOp]
@[simp] theorem raiseOp_mc (s : State) (q : Nat) (o : Op) (c r : Nat) (l : List (Nat × Nat)) : (raiseOp s q o c r l).mc = s.mc := by
  simp [raiseOp]
@[simp] theorem raiseOp_syu (s : State) (q : Nat) (o : Op) (c r : Nat) (l : List (Nat × Nat)) : (raiseOp s q o c r l).syu = s.syu := by
  simp [raiseOp]
@[simp] theorem raiseOp_fab (s : State) (q : Nat) (o : Op) (c r : Nat) (l : List (Nat × Nat)) : (raiseOp s q o c r l).fab = s.fab := by
  simp [raiseOp]
@[simp] theorem raiseOp_card (s : State) (q : Nat) (o : Op) (c r : Nat) (l : List (Nat × Nat)) : (raiseOp s q o c r l).card = s.card := by
  simp [raiseOp]
@[simp] theorem raiseOp_parts (s : State) (q : Nat) (o : Op) (c r : Nat) (l : List (Nat × Nat)) : (raiseOp s q o c r l).parts = s.parts := by
  simp [raiseOp]
@[simp] theorem raiseOp_clock (s : State) (q : Nat) (o : Op) (c r : Nat) (l : List (Nat × Nat)) : (raiseOp s q o c r l).clock = s.clock := by
  simp [raiseOp]
@[simp] theorem raiseOp_free (s : State) (q : Nat) (o : Op) (c r : Nat) (l : List (Nat × Nat)) : (raiseOp s q o c r l).free = s.free := by
  simp [raiseOp]

@[simp] theorem refuseOp_pending (s : State) (q : Nat) (o : Op) (c r : Nat) (l : List (Nat × Nat)) : (refuseOp s q o c r l).pending = s.pending := by
  simp [refuseOp]
@[simp] theorem refuseOp_shadow (s : State) (q : Nat) (o : Op) (c r : Nat) (l : List (Nat × Nat)) : (refuseOp s q o c r l).shadow = s.shadow := by
  simp [refuseOp]
@[simp] theorem refuseOp_placeVals (s : State) (q : Nat) (o : Op) (c r : Nat) (l : List (Nat × Nat)) : (refuseOp s q o c r l).placeVals = s.placeVals := by
  simp [refuseOp]
@[simp] theorem refuseOp_startup (s : State) (q : Nat) (o : Op) (c r : Nat) (l : List (Nat × Nat)) : (refuseOp s q o c r l).startup = s.startup := by
  simp [refuseOp]
@[simp] theorem refuseOp_fronds (s : State) (q : Nat) (o : Op) (c r : Nat) (l : List (Nat × Nat)) : (refuseOp s q o c r l).fronds = s.fronds := by
  simp [refuseOp]
@[simp] theorem refuseOp_resets (s : State) (q : Nat) (o : Op) (c r : Nat) (l : List (Nat × Nat)) : (refuseOp s q o c r l).resets = s.resets := by
  simp [refuseOp]
@[simp] theorem refuseOp_pools (s : State) (q : Nat) (o : Op) (c r : Nat) (l : List (Nat × Nat)) : (refuseOp s q o c r l).pools = s.pools := by
  simp [refuseOp]
@[simp] theorem refuseOp_mc (s : State) (q : Nat) (o : Op) (c r : Nat) (l : List (Nat × Nat)) : (refuseOp s q o c r l).mc = s.mc := by
  simp [refuseOp]
@[simp] theorem refuseOp_syu (s : State) (q : Nat) (o : Op) (c r : Nat) (l : List (Nat × Nat)) : (refuseOp s q o c r l).syu = s.syu := by
  simp [refuseOp]
@[simp] theorem refuseOp_fab (s : State) (q : Nat) (o : Op) (c r : Nat) (l : List (Nat × Nat)) : (refuseOp s q o c r l).fab = s.fab := by
  simp [refuseOp]
@[simp] theorem refuseOp_card (s : State) (q : Nat) (o : Op) (c r : Nat) (l : List (Nat × Nat)) : (refuseOp s q o c r l).card = s.card := by
  simp [refuseOp]
@[simp] theorem refuseOp_parts (s : State) (q : Nat) (o : Op) (c r : Nat) (l : List (Nat × Nat)) : (refuseOp s q o c r l).parts = s.parts := by
  simp [refuseOp]
@[simp] theorem refuseOp_clock (s : State) (q : Nat) (o : Op) (c r : Nat) (l : List (Nat × Nat)) : (refuseOp s q o c r l).clock = s.clock := by
  simp [refuseOp]
@[simp] theorem refuseOp_free (s : State) (q : Nat) (o : Op) (c r : Nat) (l : List (Nat × Nat)) : (refuseOp s q o c r l).free = s.free := by
  simp [refuseOp]

@[simp] theorem stopOp_pending (s : State) (q : Nat) (o : Op) (c r : Nat) (l : List (Nat × Nat)) : (stopOp s q o c r l).pending = s.pending := by
  simp [stopOp]
@[simp] theorem stopOp_shadow (s : State) (q : Nat) (o : Op) (c r : Nat) (l : List (Nat × Nat)) : (stopOp s q o c r l).shadow = s.shadow := by
  simp [stopOp]
@[simp] theorem stopOp_placeVals (s : State) (q : Nat) (o : Op) (c r : Nat) (l : List (Nat × Nat)) : (stopOp s q o c r l).placeVals = s.placeVals := by
  simp [stopOp]
@[simp] theorem stopOp_startup (s : State) (q : Nat) (o : Op) (c r : Nat) (l : List (Nat × Nat)) : (stopOp s q o c r l).startup = s.startup := by
  simp [stopOp]
@[simp] theorem stopOp_fronds (s : State) (q : Nat) (o : Op) (c r : Nat) (l : List (Nat × Nat)) : (stopOp s q o c r l).fronds = s.fronds := by
  simp [stopOp]
@[simp] theorem stopOp_resets (s : State) (q : Nat) (o : Op) (c r : Nat) (l : List (Nat × Nat)) : (stopOp s q o c r l).resets = s.resets := by
  simp [stopOp]
@[simp] theorem stopOp_pools (s : State) (q : Nat) (o : Op) (c r : Nat) (l : List (Nat × Nat)) : (stopOp s q o c r l).pools = s.pools := by
  simp [stopOp]
@[simp] theorem stopOp_mc (s : State) (q : Nat) (o : Op) (c r : Nat) (l : List (Nat × Nat)) : (stopOp s q o c r l).mc = s.mc := by
  simp [stopOp]
@[simp] theorem stopOp_syu (s : State) (q : Nat) (o : Op) (c r : Nat) (l : List (Nat × Nat)) : (stopOp s q o c r l).syu = s.syu := by
  simp [stopOp]
@[simp] theorem stopOp_fab (s : State) (q : Nat) (o : Op) (c r : Nat) (l : List (Nat × Nat)) : (stopOp s q o c r l).fab = s.fab := by
  simp [stopOp]
@[simp] theorem stopOp_card (s : State) (q : Nat) (o : Op) (c r : Nat) (l : List (Nat × Nat)) : (stopOp s q o c r l).card = s.card := by
  simp [stopOp]
@[simp] theorem stopOp_parts (s : State) (q : Nat) (o : Op) (c r : Nat) (l : List (Nat × Nat)) : (stopOp s q o c r l).parts = s.parts := by
  simp [stopOp]
@[simp] theorem stopOp_clock (s : State) (q : Nat) (o : Op) (c r : Nat) (l : List (Nat × Nat)) : (stopOp s q o c r l).clock = s.clock := by
  simp [stopOp]
@[simp] theorem stopOp_free (s : State) (q : Nat) (o : Op) (c r : Nat) (l : List (Nat × Nat)) : (stopOp s q o c r l).free = s.free := by
  simp [stopOp]

@[simp] theorem freeUnits_pending (s : State) (q : Nat) : (freeUnits s q).pending = s.pending := by
  rfl
@[simp] theorem freeUnits_mem (s : State) (q : Nat) : (freeUnits s q).mem = s.mem := by
  rfl
@[simp] theorem freeUnits_dict (s : State) (q : Nat) : (freeUnits s q).dict = s.dict := by
  rfl
@[simp] theorem freeUnits_shadow (s : State) (q : Nat) : (freeUnits s q).shadow = s.shadow := by
  rfl
@[simp] theorem freeUnits_placeVals (s : State) (q : Nat) : (freeUnits s q).placeVals = s.placeVals := by
  rfl
@[simp] theorem freeUnits_host (s : State) (q : Nat) : (freeUnits s q).host = s.host := by
  rfl
@[simp] theorem freeUnits_owners (s : State) (q : Nat) : (freeUnits s q).owners = s.owners := by
  rfl
@[simp] theorem freeUnits_queues (s : State) (q : Nat) : (freeUnits s q).queues = s.queues := by
  rfl
@[simp] theorem freeUnits_th (s : State) (q : Nat) : (freeUnits s q).th = s.th := by
  rfl
@[simp] theorem freeUnits_startup (s : State) (q : Nat) : (freeUnits s q).startup = s.startup := by
  rfl
@[simp] theorem freeUnits_fronds (s : State) (q : Nat) : (freeUnits s q).fronds = s.fronds := by
  rfl
@[simp] theorem freeUnits_log (s : State) (q : Nat) : (freeUnits s q).log = s.log := by
  rfl
@[simp] theorem freeUnits_resets (s : State) (q : Nat) : (freeUnits s q).resets = s.resets := by
  rfl
@[simp] theorem freeUnits_pools (s : State) (q : Nat) : (freeUnits s q).pools = s.pools := by
  rfl
@[simp] theorem freeUnits_mc (s : State) (q : Nat) : (freeUnits s q).mc = s.mc := by
  rfl
@[simp] theorem freeUnits_syu (s : State) (q : Nat) : (freeUnits s q).syu = s.syu := by
  rfl
@[simp] theorem freeUnits_fab (s : State) (q : Nat) : (freeUnits s q).fab = s.fab := by
  rfl
@[simp] theorem freeUnits_card (s : State) (q : Nat) : (freeUnits s q).card = s.card := by
  rfl
@[simp] theorem freeUnits_parts (s : State) (q : Nat) : (freeUnits s q).parts = s.parts := by
  rfl
@[simp] theorem freeUnits_power (s : State) (q : Nat) : (freeUnits s q).power = s.power := by
  rfl
@[simp] theorem freeUnits_clock (s : State) (q : Nat) : (freeUnits s q).clock = s.clock := by
  rfl
@[simp] theorem freeUnits_free (s : State) (q : Nat) : (freeUnits s q).free = s.free := by
  rfl
@[simp] theorem freeUnits_out (s : State) (q : Nat) : (freeUnits s q).out = s.out := by
  rfl

@[simp] theorem requestWake_pending (s : State) (f : Nat) : (requestWake s f).pending = s.pending := by
  unfold requestWake; split <;> rfl
@[simp] theorem requestWake_mem (s : State) (f : Nat) : (requestWake s f).mem = s.mem := by
  unfold requestWake; split <;> rfl
@[simp] theorem requestWake_dict (s : State) (f : Nat) : (requestWake s f).dict = s.dict := by
  unfold requestWake; split <;> rfl
@[simp] theorem requestWake_shadow (s : State) (f : Nat) : (requestWake s f).shadow = s.shadow := by
  unfold requestWake; split <;> rfl
@[simp] theorem requestWake_placeVals (s : State) (f : Nat) : (requestWake s f).placeVals = s.placeVals := by
  unfold requestWake; split <;> rfl
@[simp] theorem requestWake_host (s : State) (f : Nat) : (requestWake s f).host = s.host := by
  unfold requestWake; split <;> rfl
@[simp] theorem requestWake_owners (s : State) (f : Nat) : (requestWake s f).owners = s.owners := by
  unfold requestWake; split <;> rfl
@[simp] theorem requestWake_queues (s : State) (f : Nat) : (requestWake s f).queues = s.queues := by
  unfold requestWake; split <;> rfl
@[simp] theorem requestWake_th (s : State) (f : Nat) : (requestWake s f).th = s.th := by
  unfold requestWake; split <;> rfl
@[simp] theorem requestWake_startup (s : State) (f : Nat) : (requestWake s f).startup = s.startup := by
  unfold requestWake; split <;> rfl
@[simp] theorem requestWake_log (s : State) (f : Nat) : (requestWake s f).log = s.log := by
  unfold requestWake; split <;> rfl
@[simp] theorem requestWake_resets (s : State) (f : Nat) : (requestWake s f).resets = s.resets := by
  unfold requestWake; split <;> rfl
@[simp] theorem requestWake_pools (s : State) (f : Nat) : (requestWake s f).pools = s.pools := by
  unfold requestWake; split <;> rfl
@[simp] theorem requestWake_mc (s : State) (f : Nat) : (requestWake s f).mc = s.mc := by
  unfold requestWake; split <;> rfl
@[simp] theorem requestWake_syu (s : State) (f : Nat) : (requestWake s f).syu = s.syu := by
  unfold requestWake; split <;> rfl
@[simp] theorem requestWake_fab (s : State) (f : Nat) : (requestWake s f).fab = s.fab := by
  unfold requestWake; split <;> rfl
@[simp] theorem requestWake_units (s : State) (f : Nat) : (requestWake s f).units = s.units := by
  unfold requestWake; split <;> rfl
@[simp] theorem requestWake_card (s : State) (f : Nat) : (requestWake s f).card = s.card := by
  unfold requestWake; split <;> rfl
@[simp] theorem requestWake_parts (s : State) (f : Nat) : (requestWake s f).parts = s.parts := by
  unfold requestWake; split <;> rfl
@[simp] theorem requestWake_power (s : State) (f : Nat) : (requestWake s f).power = s.power := by
  unfold requestWake; split <;> rfl
@[simp] theorem requestWake_clock (s : State) (f : Nat) : (requestWake s f).clock = s.clock := by
  unfold requestWake; split <;> rfl
@[simp] theorem requestWake_free (s : State) (f : Nat) : (requestWake s f).free = s.free := by
  unfold requestWake; split <;> rfl
@[simp] theorem requestWake_out (s : State) (f : Nat) : (requestWake s f).out = s.out := by
  unfold requestWake; split <;> rfl

@[simp] theorem clearLocalFinite_pending (s : State) (p : Nat) : (clearLocalFinite s p).pending = s.pending := by
  simp [clearLocalFinite]
@[simp] theorem clearLocalFinite_mem (s : State) (p : Nat) : (clearLocalFinite s p).mem = s.mem := by
  simp [clearLocalFinite]
@[simp] theorem clearLocalFinite_shadow (s : State) (p : Nat) : (clearLocalFinite s p).shadow = s.shadow := by
  simp [clearLocalFinite]
@[simp] theorem clearLocalFinite_placeVals (s : State) (p : Nat) : (clearLocalFinite s p).placeVals = s.placeVals := by
  simp [clearLocalFinite]
@[simp] theorem clearLocalFinite_host (s : State) (p : Nat) : (clearLocalFinite s p).host = s.host := by
  simp [clearLocalFinite]
@[simp] theorem clearLocalFinite_owners (s : State) (p : Nat) : (clearLocalFinite s p).owners = s.owners := by
  simp [clearLocalFinite]
@[simp] theorem clearLocalFinite_queues (s : State) (p : Nat) : (clearLocalFinite s p).queues = s.queues := by
  simp [clearLocalFinite]
@[simp] theorem clearLocalFinite_th (s : State) (p : Nat) : (clearLocalFinite s p).th = s.th := by
  simp [clearLocalFinite]
@[simp] theorem clearLocalFinite_startup (s : State) (p : Nat) : (clearLocalFinite s p).startup = s.startup := by
  simp [clearLocalFinite]
@[simp] theorem clearLocalFinite_fronds (s : State) (p : Nat) : (clearLocalFinite s p).fronds = s.fronds := by
  simp [clearLocalFinite]
@[simp] theorem clearLocalFinite_log (s : State) (p : Nat) : (clearLocalFinite s p).log = s.log := by
  simp [clearLocalFinite]
@[simp] theorem clearLocalFinite_resets (s : State) (p : Nat) : (clearLocalFinite s p).resets = s.resets := by
  simp [clearLocalFinite]
@[simp] theorem clearLocalFinite_pools (s : State) (p : Nat) : (clearLocalFinite s p).pools = s.pools := by
  simp [clearLocalFinite]
@[simp] theorem clearLocalFinite_mc (s : State) (p : Nat) : (clearLocalFinite s p).mc = s.mc := by
  simp [clearLocalFinite]
@[simp] theorem clearLocalFinite_syu (s : State) (p : Nat) : (clearLocalFinite s p).syu = s.syu := by
  simp [clearLocalFinite]
@[simp] theorem clearLocalFinite_fab (s : State) (p : Nat) : (clearLocalFinite s p).fab = s.fab := by
  simp [clearLocalFinite]
@[simp] theorem clearLocalFinite_units (s : State) (p : Nat) : (clearLocalFinite s p).units = s.units := by
  simp [clearLocalFinite]
@[simp] theorem clearLocalFinite_card (s : State) (p : Nat) : (clearLocalFinite s p).card = s.card := by
  simp [clearLocalFinite]
@[simp] theorem clearLocalFinite_power (s : State) (p : Nat) : (clearLocalFinite s p).power = s.power := by
  simp [clearLocalFinite]
@[simp] theorem clearLocalFinite_clock (s : State) (p : Nat) : (clearLocalFinite s p).clock = s.clock := by
  simp [clearLocalFinite]
@[simp] theorem clearLocalFinite_free (s : State) (p : Nat) : (clearLocalFinite s p).free = s.free := by
  simp [clearLocalFinite]
@[simp] theorem clearLocalFinite_out (s : State) (p : Nat) : (clearLocalFinite s p).out = s.out := by
  simp [clearLocalFinite]

@[simp] theorem commitSwitch_pending (s : State) (q : Nat) (o : Op) (h : Head) : (commitSwitch s q o h).pending = s.pending := by
  unfold commitSwitch; dsimp only; split <;> simp
@[simp] theorem commitSwitch_shadow (s : State) (q : Nat) (o : Op) (h : Head) : (commitSwitch s q o h).shadow = s.shadow := by
  unfold commitSwitch; dsimp only; split <;> simp
@[simp] theorem commitSwitch_placeVals (s : State) (q : Nat) (o : Op) (h : Head) : (commitSwitch s q o h).placeVals = s.placeVals := by
  unfold commitSwitch; dsimp only; split <;> simp
@[simp] theorem commitSwitch_host (s : State) (q : Nat) (o : Op) (h : Head) : (commitSwitch s q o h).host = s.host := by
  unfold commitSwitch; dsimp only; split <;> simp
@[simp] theorem commitSwitch_owners (s : State) (q : Nat) (o : Op) (h : Head) : (commitSwitch s q o h).owners = s.owners := by
  unfold commitSwitch; dsimp only; split <;> simp
@[simp] theorem commitSwitch_queues (s : State) (q : Nat) (o : Op) (h : Head) : (commitSwitch s q o h).queues = s.queues := by
  unfold commitSwitch; dsimp only; split <;> simp
@[simp] theorem commitSwitch_th (s : State) (q : Nat) (o : Op) (h : Head) : (commitSwitch s q o h).th = s.th := by
  unfold commitSwitch; dsimp only; split <;> simp
@[simp] theorem commitSwitch_startup (s : State) (q : Nat) (o : Op) (h : Head) : (commitSwitch s q o h).startup = s.startup := by
  unfold commitSwitch; dsimp only; split <;> simp
@[simp] theorem commitSwitch_fronds (s : State) (q : Nat) (o : Op) (h : Head) : (commitSwitch s q o h).fronds = s.fronds := by
  unfold commitSwitch; dsimp only; split <;> simp
@[simp] theorem commitSwitch_log (s : State) (q : Nat) (o : Op) (h : Head) : (commitSwitch s q o h).log = s.log := by
  unfold commitSwitch; dsimp only; split <;> simp
@[simp] theorem commitSwitch_resets (s : State) (q : Nat) (o : Op) (h : Head) : (commitSwitch s q o h).resets = s.resets := by
  unfold commitSwitch; dsimp only; split <;> simp
@[simp] theorem commitSwitch_pools (s : State) (q : Nat) (o : Op) (h : Head) : (commitSwitch s q o h).pools = s.pools := by
  unfold commitSwitch; dsimp only; split <;> simp
@[simp] theorem commitSwitch_mc (s : State) (q : Nat) (o : Op) (h : Head) : (commitSwitch s q o h).mc = s.mc := by
  unfold commitSwitch; dsimp only; split <;> simp
@[simp] theorem commitSwitch_syu (s : State) (q : Nat) (o : Op) (h : Head) : (commitSwitch s q o h).syu = s.syu := by
  unfold commitSwitch; dsimp only; split <;> simp
@[simp] theorem commitSwitch_fab (s : State) (q : Nat) (o : Op) (h : Head) : (commitSwitch s q o h).fab = s.fab := by
  unfold commitSwitch; dsimp only; split <;> simp
@[simp] theorem commitSwitch_card (s : State) (q : Nat) (o : Op) (h : Head) : (commitSwitch s q o h).card = s.card := by
  unfold commitSwitch; dsimp only; split <;> simp
@[simp] theorem commitSwitch_parts (s : State) (q : Nat) (o : Op) (h : Head) : (commitSwitch s q o h).parts = s.parts := by
  unfold commitSwitch; dsimp only; split <;> simp
@[simp] theorem commitSwitch_power (s : State) (q : Nat) (o : Op) (h : Head) : (commitSwitch s q o h).power = s.power := by
  unfold commitSwitch; dsimp only; split <;> simp
@[simp] theorem commitSwitch_clock (s : State) (q : Nat) (o : Op) (h : Head) : (commitSwitch s q o h).clock = s.clock := by
  unfold commitSwitch; dsimp only; split <;> simp
@[simp] theorem commitSwitch_free (s : State) (q : Nat) (o : Op) (h : Head) : (commitSwitch s q o h).free = s.free := by
  unfold commitSwitch; dsimp only; split <;> simp
@[simp] theorem commitSwitch_out (s : State) (q : Nat) (o : Op) (h : Head) : (commitSwitch s q o h).out = s.out := by
  unfold commitSwitch; dsimp only; split <;> simp

end Sys2Proof.Machine
end

