-- ==== Sys2Proof/Laws/Tbl.lean ====
section
/-!
SUPPORT. Laws/Tbl.lean: sparse tables read after a write, and their one form: keys strictly rising.
-/
namespace Sys2Proof.Machine

variable {α : Type}

@[simp] theorem tget_nil (k : Nat) : tget? ([] : Tbl α) k = none := rfl

/-- A key written reads the value written. -/
@[simp] theorem tget_tput_self (t : Tbl α) (k : Nat) (v : α) : tget? (tput t k v) k = some v := by
  induction t with
  | nil => simp [tput, tget?]
  | cons a r ih =>
    obtain ⟨x, w⟩ := a
    simp only [tput]
    split
    · simp [tget?]
    · split
      · simp_all [tget?]
      · simp only [tget?]
        split
        · omega
        · exact ih

/-- A write leaves every other key. -/
theorem tget_tput_ne (t : Tbl α) {k j : Nat} (v : α) (h : j ≠ k) : tget? (tput t k v) j = tget? t j := by
  induction t with
  | nil => simp [tput, tget?, h]
  | cons a r ih =>
    obtain ⟨x, w⟩ := a
    simp only [tput]
    split
    · simp [tget?, h]
    · split
      · subst x
        simp [tget?, h]
      · simp only [tget?, ih]

@[simp] theorem tgetD_tput_self (t : Tbl α) (k : Nat) (v d : α) : tgetD (tput t k v) k d = v := by simp [tgetD]

theorem tgetD_tput_ne (t : Tbl α) {k j : Nat} (v d : α) (h : j ≠ k) : tgetD (tput t k v) j d = tgetD t j d := by
  simp [tgetD, tget_tput_ne t v h]

@[simp] theorem tgetD_tupd_self (t : Tbl α) (k : Nat) (d : α) (f : α → α) : tgetD (tupd t k d f) k d = f (tgetD t k d) := by
  simp [tupd]

theorem tgetD_tupd_ne (t : Tbl α) {k j : Nat} (d e : α) (f : α → α) (h : j ≠ k) : tgetD (tupd t k d f) j e = tgetD t j e := by
  simp [tupd, tgetD_tput_ne t _ _ h]

/-- A change of a listed key changes its value. -/
@[simp] theorem tget_tmod_self (t : Tbl α) (k : Nat) (f : α → α) : tget? (tmod t k f) k = (tget? t k).map f := by
  unfold tmod
  split <;> simp_all

/-- A change of one key leaves every other. -/
theorem tget_tmod_ne (t : Tbl α) {k j : Nat} (f : α → α) (h : j ≠ k) : tget? (tmod t k f) j = tget? t j := by
  unfold tmod
  split
  · exact tget_tput_ne t _ h
  · rfl

/-- Removing a key leaves every other. -/
theorem tget_tdel_ne (t : Tbl α) {k j : Nat} (h : j ≠ k) : tget? (tdel t k) j = tget? t j := by
  induction t with
  | nil => rfl
  | cons a r ih =>
    obtain ⟨x, w⟩ := a
    simp only [tdel]
    split
    · subst x
      simp [tget?, h]
    · simp only [tget?, ih]

/-- The one form of a table as a statement about every pair of its entries. -/
theorem tsorted_iff (t : Tbl α) : tsorted t = true ↔ t.Pairwise (fun a b => a.1 < b.1) := by
  induction t with
  | nil => simp [tsorted]
  | cons a r ih =>
    cases r with
    | nil => simp [tsorted]
    | cons b r =>
      simp only [tsorted, Bool.and_eq_true, decide_eq_true_eq, ih, List.pairwise_cons, List.mem_cons, forall_eq_or_imp]
      constructor
      · rintro ⟨h, h1, h2⟩
        exact ⟨⟨h, fun x hx => lt_trans h (h1 x hx)⟩, h1, h2⟩
      · rintro ⟨⟨h, _⟩, h1, h2⟩
        exact ⟨h, h1, h2⟩

theorem mem_tput {t : Tbl α} {k : Nat} {v : α} {e : Nat × α} (h : e ∈ tput t k v) : e = (k, v) ∨ e ∈ t := by
  induction t with
  | nil => simpa [tput] using h
  | cons a r ih =>
    obtain ⟨x, w⟩ := a
    simp only [tput] at h
    split at h
    · simpa using h
    · split at h
      · next hk =>
        subst hk
        rcases List.mem_cons.1 h with h | h
        · exact .inl h
        · exact .inr (List.mem_cons_of_mem _ h)
      · rcases List.mem_cons.1 h with h | h
        · exact .inr (h ▸ List.mem_cons_self)
        · exact (ih h).imp_right (List.mem_cons_of_mem _)

/-- A write keeps a table's form. -/
theorem tsorted_tput {t : Tbl α} (k : Nat) (v : α) (h : tsorted t = true) : tsorted (tput t k v) = true := by
  rw [tsorted_iff] at h ⊢
  induction t with
  | nil => simp [tput]
  | cons a r ih =>
    obtain ⟨x, w⟩ := a
    obtain ⟨h1, h2⟩ := List.pairwise_cons.1 h
    simp only [tput]
    split
    · next hk =>
      exact List.pairwise_cons.2 ⟨fun e he => (List.mem_cons.1 he).elim (fun e0 => e0 ▸ hk) (fun e0 => lt_trans hk (h1 e e0)), h⟩
    · split
      · next hk => subst hk; exact List.pairwise_cons.2 ⟨h1, h2⟩
      · next hk hk2 =>
        exact List.pairwise_cons.2 ⟨fun e he => (mem_tput he).elim (fun e0 => by subst e0; simp only; omega) (h1 e), ih h2⟩

/-- A key that is not listed after its removal, in a table of the one form. -/
theorem tget_tdel_self {t : Tbl α} (k : Nat) (h : tsorted t = true) : tget? (tdel t k) k = none := by
  rw [tsorted_iff] at h
  induction t with
  | nil => rfl
  | cons a r ih =>
    obtain ⟨x, w⟩ := a
    obtain ⟨h1, h2⟩ := List.pairwise_cons.1 h
    simp only [tdel]
    split
    · next hk =>
      subst hk
      clear ih h h2
      induction r with
      | nil => rfl
      | cons b r ih =>
        obtain ⟨y, u⟩ := b
        have := h1 (y, u) List.mem_cons_self
        simp only [tget?]
        rw [if_neg (by simp at this; omega)]
        exact ih (fun e he => h1 e (List.mem_cons_of_mem _ he))
    · next hk => simp only [tget?, if_neg hk]; exact ih h2

end Sys2Proof.Machine
end

