-- ==== Sys2Proof/Laws/Queues.lean ====
section
/-!
SUPPORT. Laws/Queues.lean: queues and operations read after a change, entries read after a write, and what starting a queue's head
comes to.
-/
namespace Sys2Proof.Machine

@[simp] theorem queueOf_modQueue_self (s : State) (q : Nat) (f : Queue → Queue) :
    queueOf (modQueue s q f) q = (queueOf s q).map f := by simp [queueOf]

theorem queueOf_modQueue_ne (s : State) {q r : Nat} (f : Queue → Queue) (h : r ≠ q) :
    queueOf (modQueue s q f) r = queueOf s r := tget_tmod_ne s.queues f h

/-- A list of operations after one of them changed, read at that one. -/
theorem find_modSeq (l : List Op) (n : Nat) (f : Op → Op) (h : ∀ o, (f o).seq = o.seq) :
    (modSeq l n f).find? (fun o => o.seq == n) = (l.find? (fun o => o.seq == n)).map f := by
  induction l with
  | nil => rfl
  | cons a r ih =>
    by_cases ha : a.seq = n
    · simp [modSeq, ha, h]
    · simpa [modSeq, ha] using ih

/-- An operation changed reads as its change. -/
theorem opAt_modOp (s : State) (q n : Nat) (f : Op → Op) (h : ∀ o, (f o).seq = o.seq) :
    opAt (modOp s q n f) q n = (opAt s q n).map f := by
  unfold opAt modOp
  rw [queueOf_modQueue_self]
  cases queueOf s q <;> simp [find_modSeq _ _ _ h]

@[simp] theorem entV_setEntV_self (s : State) (k : Nat) (v : Val) : entV (setEntV s k v) k = v := by simp [entV]

@[simp] theorem ent_setEnt_self (s : State) (k n : Nat) : ent (setEnt s k n) k = n := by simp [ent, setEnt, valNat]

theorem ent_setEnt_ne (s : State) {k j : Nat} (n : Nat) (h : j ≠ k) : ent (setEnt s k n) j = ent s j := by
  simp [ent, entV, setEnt, tget_tput_ne _ _ h]

/-- A counter counts without wrapping. -/
@[simp] theorem ent_bump_self (s : State) (k n : Nat) : ent (bump s k n) k = satAdd 64 (ent s k) n := by simp [bump]

theorem ent_bump_ne (s : State) {k j : Nat} (n : Nat) (h : j ≠ k) : ent (bump s k n) j = ent s j := ent_setEnt_ne s _ h

/-- Entries are read from the values in force alone. -/
theorem ent_congr {s t : State} (h : t.dict = s.dict) (k : Nat) : ent t k = ent s k := by simp [ent, entV, h]

theorem queueOf_congr {s t : State} (h : t.queues = s.queues) (q : Nat) : queueOf t q = queueOf s q := by simp [queueOf, h]

/-- What starting a queue's head has done where it goes on: the head is marked as started, and a run again is counted. -/
theorem startHead_go {s : State} {q op sub : Nat} {n : Need} {x : Queue} {o : Op} {h : Head} {t : State}
    (e : startHead s q op sub n = .go x o h t) :
    queueOf s q = some x ∧ (∃ o', qHead x = some o' ∧ o = { o' with progress := .started } ∧ h = headOf x o' ∧
      t = modOp (if o'.rerun then bump s 0x210403 1 else s) q o'.seq
        (fun y => { y with progress := .started, rerun := false, runs := y.runs + 1 })) ∧
      mayStart s x = true ∧ h.opcode = op ∧ (sub = 0 ∨ subopOf o.body = sub) := by
  unfold startHead at e
  split at e
  · cases e
  · next x' hx =>
    split at e
    · cases e
    · next o' ho =>
      dsimp only at e
      split at e
      · cases e
      · next hm =>
        split at e
        · cases e
        · split at e
          · cases e
          · split at e
            · cases e
            · next hop =>
              unfold startGate at e
              split at e
              all_goals try (cases e)
              split at e
              · cases e
              · split at e
                · cases e
                · unfold startAwake at e
                  split at e
                  · split at e
                    · cases e
                    · cases e
                      refine ⟨hx, ⟨o', ho, rfl, rfl, rfl⟩, ?_, ?_, ?_⟩
                      · by_contra hc; exact hm (.inl hc)
                      · by_contra hc; exact hop (.inl hc)
                      · by_contra hc
                        rw [not_or] at hc
                        exact hop (.inr hc)
                  · cases e
                  · cases e

/-- Starting a head changes operations of its queue and one counter, and nothing else. -/
theorem startHead_frame {s : State} {q op sub : Nat} {n : Need} {x : Queue} {o : Op} {h : Head} {t : State}
    (e : startHead s q op sub n = .go x o h t) : t = { s with queues := t.queues, dict := t.dict } := by
  obtain ⟨_, ⟨o', _, _, _, rfl⟩, _⟩ := startHead_go e
  split <;> rfl

theorem qHead_mem {x : Queue} {o : Op} (h : qHead x = some o) : o ∈ x.ops := List.mem_of_find?_eq_some h

/-- A queue's head that has started is one of its operations. -/
theorem startHead_opAt {s : State} {q op sub : Nat} {n : Need} {x : Queue} {o : Op} {h : Head} {t : State}
    (e : startHead s q op sub n = .go x o h t) : ∃ y, opAt t q o.seq = some y := by
  obtain ⟨hx, ⟨o', ho, rfl, _, rfl⟩, _⟩ := startHead_go e
  rw [opAt_modOp (h := by intro; rfl)]
  have : (opAt (if o'.rerun then bump s 0x210403 1 else s) q o'.seq).isSome := by
    have hq : queueOf (if o'.rerun then bump s 0x210403 1 else s) q = some x := by split <;> simpa [queueOf] using hx
    rw [opAt, hq]
    simp only [Option.bind_some, List.find?_isSome]
    exact ⟨o', qHead_mem ho, by simp⟩
  obtain ⟨y, hy⟩ := Option.isSome_iff_exists.1 this
  exact ⟨_, by rw [hy]; rfl⟩

/-- A run that ends leaves its operation finished. -/
theorem finished_endOp {s : State} {q : Nat} {o : Op} {n : Nat} (h : ∃ y, opAt s q o.seq = some y) :
    Finished (endOp s q o n) q o.seq n := by
  obtain ⟨y, hy⟩ := h
  exact ⟨_, by rw [endOp, opAt_modOp (h := by intro; rfl), hy]; rfl, rfl, rfl⟩

end Sys2Proof.Machine
end

