-- ==== Sys2Proof/Laws/Agmir.lean ====
section
/-!
SUPPORT. Laws/Agmir.lean: what a request delivered to its row comes to, and the fields that answering leaves.
-/
namespace Sys2Proof.Machine

/-- A request that reaches its row is acted on in the state that delivery leaves, and answered on its path. -/
theorem agmirRow_delivers {s : State} {r : Req} {path : Path} {p : Pdu} {u : State} {want : Pdu → Bool}
    (act : State → Path → Pdu → State × Reply) (h : Delivers s r path p u) (hw : want p = true) :
    agmirRow s r want act = reply (act u path p).1 path p (act u path p).2 := by
  cases r with
  | mailbox d b =>
    obtain ⟨rfl, rfl, rfl, h1, h2, h3, rfl⟩ := h
    simp only [agmirRow, mailboxRow, h1, hw, h2, h3]
    simp
  | field f =>
    obtain ⟨rfl, rfl, h1, h2, h3, h4, h5, h6, h7, rfl, h8⟩ := h
    have hc : frClass f = 2 := by
      unfold filterCheck at h4
      by_contra hc
      simp [hc] at h4
    simp only [agmirRow, fieldRow, h1, h2, h3, h4, h5, h6, hw, hc, fieldRequest, h7, h8]
    simp
  | assembled n =>
    obtain ⟨tag, b, v, h1, rfl, rfl, h2, rfl, h3, rfl, h4⟩ := h
    simp only [agmirRow, assembledRow, h1, h2, hw, fieldRequest, h3, h4]
    simp

/-- Delivery changes nothing but the Thallus. -/
theorem Delivers_frame {s : State} {r : Req} {path : Path} {p : Pdu} {u : State} (h : Delivers s r path p u) :
    u = { s with th := servedTh s.th u.th } := by
  have acc : ∀ (v : State) (n : Nat) (x : Pdu),
      acceptCounter v n x = { v with th := servedTh v.th (acceptCounter v n x).th } := by
    intro v n x
    unfold acceptCounter
    split
    · rfl
    · dsimp only
      split
      · unfold storeCopies
        dsimp only
        split <;> rfl
      · rfl
  cases r with
  | mailbox d b => obtain ⟨_, _, _, _, _, _, rfl⟩ := h; rfl
  | field f => obtain ⟨_, _, _, _, _, _, _, _, _, rfl, _⟩ := h; rw [acc]; rfl
  | assembled n => obtain ⟨_, _, _, _, _, _, _, rfl, _, rfl, _⟩ := h; rw [acc]; rfl

theorem sendSegments_frame (node tag n : Nat) : ∀ (k : Nat) (b : List Nat) (s : State),
    sendSegments node tag n k b s = { s with out := (sendSegments node tag n k b s).out } := by
  induction n with
  | zero => intros; rfl
  | succ n ih =>
    intro k b s
    unfold sendSegments
    split
    · rfl
    · rw [ih]
      ext1 <;> simp

/-- An answer changes nothing but the mailbox and what is sent outside. -/
theorem reply_frame (s : State) (path : Path) (p : Pdu) (r : Reply) (h : r.post = 0) (hl : r.later = false) :
    AnsweredOnly s (reply s path p r) := by
  unfold AnsweredOnly reply
  rw [if_neg (by simp [hl])]
  have a0 : ∀ x, afterReply x 0 = x := fun x => by simp [afterReply]
  simp only [h, a0]
  cases path with
  | host =>
    simp only [answerHost, toHost]
    split <;> rfl
  | field n t =>
    simp only [answerField]
    rw [sendSegments_frame]
    simp only [sendFrame]
    split <;> rfl

/-- A WRITE that passes every check is applied and answered. -/
theorem dictRow_writes {s : State} {r : Req} {path : Path} {p : Pdu} {u : State} {id : Nat} (h : Writes s r path p u)
    (hid : rowId (pdKey p) (leNat p.value) = id) :
    dictRow id r s = reply (doWrite u path p).1 path p (doWrite u path p).2 := by
  obtain ⟨hd, h1, -, -⟩ := h
  exact agmirRow_delivers _ hd (by simp [wantWrite, h1, hid])

/-- A WRITE of an entry that is not stored and ends no service comes to its effect and the answer. -/
theorem dictRow_effect {s : State} {r : Req} {path : Path} {p : Pdu} {u v : State} {id : Nat} {e : EntrySpec} (h : Writes s r path p u)
    (hid : rowId (pdKey p) (leNat p.value) = id) (he : specOf (pdKey p) = some e) (hs : isStored (pdKey p) e = false)
    (hp : postOf (pdKey p) (valNat (valOfBytes e.ty p.value)) = 0)
    (hv : AnsweredOnly v (applyWrite u (!onField path) (pdKey p) (valOfBytes e.ty p.value))) :
    AnsweredOnly v (dictRow id r s) := by
  rw [dictRow_writes h hid]
  obtain ⟨-, -, hk, e', he', hw⟩ := h
  rw [he] at he'
  cases he'
  simp only [doWrite, hk, he, hw, hs, hp]
  have := reply_frame (applyWrite u (!onField path) (pdKey p) (valOfBytes e.ty p.value)) path p
    { status := 0, st := entryState (applyWrite u (!onField path) (pdKey p) (valOfBytes e.ty p.value)) (pdKey p), post := 0 } rfl rfl
  simp only [AnsweredOnly] at hv this ⊢
  simp only [not_true_eq_false, if_false, ne_eq, Bool.false_eq_true]
  generalize reply _ _ _ _ = t at *
  rw [this, hv]
  simp [servedTh]

end Sys2Proof.Machine
end

