-- ==== Sys2Proof/Laws/Memory.lean ====
section
/-!
SUPPORT. Laws/Memory.lean: memory keeps its canonical form through every operation on it, a byte written is read back, and every
other byte reads as before.
-/
namespace Sys2Proof.Machine

/-! ### The canonical form -/

theorem cellsSorted_iff (c : List Host.Cell) : cellsSorted c = true ↔ c.Pairwise (fun x y => x.1 < y.1) := by
  induction c with
  | nil => simp [cellsSorted]
  | cons a r ih =>
    cases r with
    | nil => simp [cellsSorted]
    | cons b t =>
      simp only [cellsSorted, Bool.and_eq_true, decide_eq_true_eq, ih, List.pairwise_cons, List.mem_cons, forall_eq_or_imp]
      constructor
      · rintro ⟨h, hb, ht⟩
        exact ⟨⟨h, fun x hx => Nat.lt_trans h (hb x hx)⟩, hb, ht⟩
      · rintro ⟨⟨h, _⟩, hb, ht⟩
        exact ⟨h, hb, ht⟩

/-- The canonical form as a statement about each cell. -/
theorem wf_iff (m : Mem) : Memory.wf m = true ↔
    m.cells.Pairwise (fun x y => x.1 < y.1) ∧ ∀ e ∈ m.cells, ¬ (isTile e.1 = true ∧ e.2 = 0 ∧ scratchOf m.scratch e.1 = none) := by
  have h (e : Host.Cell) : (!(isTile e.1 && e.2 == 0 && (scratchOf m.scratch e.1).isNone)) = true ↔
      ¬ (isTile e.1 = true ∧ e.2 = 0 ∧ scratchOf m.scratch e.1 = none) := by
    cases h1 : isTile e.1 <;> cases h2 : scratchOf m.scratch e.1 <;> simp
  simp only [Memory.wf, noZeroTile, Bool.and_eq_true, cellsSorted_iff, List.all_eq_true, h]

theorem mem_cellsBelow {c : List Host.Cell} {a : Nat} {e : Host.Cell} : e ∈ cellsBelow c a ↔ e ∈ c ∧ e.1 < a := by
  simp [cellsBelow]

theorem mem_cellsFrom {c : List Host.Cell} {a : Nat} {e : Host.Cell} : e ∈ cellsFrom c a ↔ e ∈ c ∧ a ≤ e.1 := by
  simp [cellsFrom]

/-- Cells on both sides of a gap are still rising. -/
theorem sorted_gap {c : List Host.Cell} (h : c.Pairwise (fun x y => x.1 < y.1)) {a b : Nat} (hab : a ≤ b) :
    (cellsBelow c a ++ cellsFrom c b).Pairwise (fun x y => x.1 < y.1) := by
  refine List.pairwise_append.2 ⟨h.filter _, h.filter _, fun x hx y hy => ?_⟩
  have := (mem_cellsBelow.1 hx).2
  have := (mem_cellsFrom.1 hy).2
  omega

theorem mem_newCells {sc : List (Nat × Nat × Nat)} {a : Nat} {b : List Nat} {e : Host.Cell} (h : e ∈ newCells sc a b) :
    a ≤ e.1 ∧ e.1 < a + b.length ∧ ¬ (isTile e.1 = true ∧ e.2 = 0 ∧ scratchOf sc e.1 = none) := by
  induction b generalizing a with
  | nil => simp [newCells] at h
  | cons x r ih =>
    simp only [newCells] at h
    split at h
    · obtain ⟨h1, h2, h3⟩ := ih h
      simp only [List.length_cons]
      exact ⟨by omega, by omega, h3⟩
    · rename_i hx
      rcases List.mem_cons.1 h with rfl | h
      · refine ⟨Nat.le_refl _, by simp, fun ⟨h1, h2, h3⟩ => hx ?_⟩
        have h4 : x % 256 = 0 := by
          have := congrArg BitVec.toNat h2
          simpa using this
        simp [h1, h3, h4]
      · obtain ⟨h1, h2, h3⟩ := ih h
        simp only [List.length_cons]
        exact ⟨by omega, by omega, h3⟩

theorem newCells_sorted (sc : List (Nat × Nat × Nat)) (a : Nat) (b : List Nat) :
    (newCells sc a b).Pairwise (fun x y => x.1 < y.1) := by
  induction b generalizing a with
  | nil => simp [newCells]
  | cons x r ih =>
    simp only [newCells]
    split
    · exact ih _
    · refine List.pairwise_cons.2 ⟨fun y hy => ?_, ih _⟩
      have := (mem_newCells hy).1
      simp only
      omega

/-- Replacing a range of cells by bytes keeps the form. -/
theorem putCells_wf {m : Mem} (h : Memory.wf m = true) (a : Nat) (b : List Nat) :
    Memory.wf { m with cells := putCells m.scratch m.cells a b } = true := by
  rw [wf_iff] at h ⊢
  constructor
  · refine List.pairwise_append.2 ⟨List.pairwise_append.2 ⟨h.1.filter _, newCells_sorted _ _ _, fun x hx y hy => ?_⟩, h.1.filter _,
      fun x hx y hy => ?_⟩
    · have := (mem_cellsBelow.1 hx).2
      have := (mem_newCells hy).1
      omega
    · have hy' := (mem_cellsFrom.1 hy).2
      rcases List.mem_append.1 hx with hx | hx
      · have := (mem_cellsBelow.1 hx).2
        omega
      · have := (mem_newCells hx).2.1
        omega
  · intro e he
    simp only [putCells, List.mem_append] at he
    rcases he with (he | he) | he
    · exact h.2 e (mem_cellsBelow.1 he).1
    · exact (mem_newCells he).2.2
    · exact h.2 e (mem_cellsFrom.1 he).1

/-- Dropping cells of a range keeps the form, for a staged area that is the same outside the range. -/
theorem dropCells_wf {m : Mem} (h : Memory.wf m = true) {a b : Nat} (hab : a ≤ b) (n : Mem)
    (hc : n.cells = cellsBelow m.cells a ++ cellsFrom m.cells b)
    (hs : ∀ x, x < a ∨ b ≤ x → scratchOf n.scratch x = scratchOf m.scratch x) : Memory.wf n = true := by
  rw [wf_iff] at h ⊢
  rw [hc]
  refine ⟨sorted_gap h.1 hab, fun e he => ?_⟩
  rcases List.mem_append.1 he with he | he
  · have := mem_cellsBelow.1 he
    rw [hs _ (Or.inl this.2)]
    exact h.2 e this.1
  · have := mem_cellsFrom.1 he
    rw [hs _ (Or.inr this.2)]
    exact h.2 e this.1

theorem markPoison_wf {m : Mem} (h : Memory.wf m = true) (a : Nat) : Memory.wf (markPoison m a) = true := h

theorem takeGranule_wf {m : Mem} (h : Memory.wf m = true) (o g n : Nat) : Memory.wf (takeGranule o g m n) = true := by
  unfold takeGranule
  split
  · exact h
  · split
    · exact h
    · exact dropCells_wf h (by omega) _ rfl (fun _ _ => rfl)

theorem takeGranules_wf (o g : Nat) (l : List Nat) {m : Mem} (h : Memory.wf m = true) :
    Memory.wf (l.foldl (takeGranule o g) m) = true := by
  induction l generalizing m with
  | nil => exact h
  | cons x r ih => exact ih (takeGranule_wf h o g x)

theorem wrMem_wf {m : Mem} (h : Memory.wf m = true) (o g a : Nat) (b : List Nat) : Memory.wf (wrMem m o g a b) = true := by
  unfold wrMem
  split
  · exact h
  · have h1 : Memory.wf (if isTile a then m else (granulesOf a b.length).foldl (takeGranule o g) m) = true := by
      split
      · exact h
      · exact takeGranules_wf o g _ h
    exact putCells_wf h1 a b

theorem wrParts_wf (o g a : Nat) (b : List Nat) (l : List Nat) {m : Mem} (h : Memory.wf m = true) :
    Memory.wf (l.foldl (wrParts o g a b) m) = true := by
  induction l generalizing m with
  | nil => exact h
  | cons x r ih =>
    refine ih ?_
    unfold wrParts
    split
    · exact h
    · exact wrMem_wf h _ _ _ _

theorem writeMem_wf {m : Mem} (h : Memory.wf m = true) (o g a : Nat) (b : List Nat) : Memory.wf (writeMem m o g a b).1 = true := by
  unfold writeMem
  split
  · exact wrMem_wf h _ _ _ _
  · exact wrParts_wf _ _ _ _ _ h

/-- Staged ranges after a cut: nothing inside it, all else as before. -/
theorem scratchOf_cutScratch {lo hi : Nat} (hl : lo ≤ hi) (sc : List (Nat × Nat × Nat)) (x : Nat) :
    scratchOf (cutScratch lo hi sc) x = if lo ≤ x ∧ x < hi then none else scratchOf sc x := by
  induction sc with
  | nil => simp [cutScratch, scratchOf]
  | cons r t ih =>
    obtain ⟨l, h, v⟩ := r
    simp only [cutScratch]
    by_cases h1 : l < min h lo <;> by_cases h2 : max l hi < h <;>
      simp only [h1, h2, if_true, if_false, List.nil_append, List.cons_append, scratchOf, ih] <;>
      (repeat' split) <;> first | rfl | omega

theorem spoilTile_wf {m : Mem} (h : Memory.wf m = true) (o n : Nat) : Memory.wf (spoilTile m o n) = true := by
  unfold spoilTile
  dsimp only
  split
  · exact h
  · refine dropCells_wf h (Nat.le_add_right (tilePtr o) n) _ rfl (fun x hx => ?_)
    simp only [scratchOf]
    rw [scratchOf_cutScratch (Nat.le_add_right _ _), if_neg (by omega), if_neg (by omega)]

theorem zeroTile_wf {m : Mem} (h : Memory.wf m = true) (o n : Nat) : Memory.wf (zeroTile m o n) = true := by
  refine dropCells_wf h (Nat.le_add_right (tilePtr o) n) _ rfl (fun x hx => ?_)
  rw [show (zeroTile m o n).scratch = cutScratch (tilePtr o) (tilePtr o + n) m.scratch from rfl,
    scratchOf_cutScratch (Nat.le_add_right _ _), if_neg (by omega)]

/-! ### Memory of the machine's operations -/

theorem reset_memOk : MemOk State.reset := by
  unfold MemOk
  decide

theorem wr_memOk {s : State} (h : MemOk s) (o a : Nat) (b : List Nat) : MemOk (wr s o a b) := by
  have h1 : Memory.wf (writeMem s.mem o (keyGen s o) a b).1 = true := writeMem_wf h _ _ _ _
  unfold MemOk wr
  dsimp only
  split <;> exact h1

theorem zeroTileS_memOk {s : State} (h : MemOk s) (o n : Nat) : MemOk (zeroTileS s o n) := zeroTile_wf h o n

theorem poisonS_memOk {s : State} (h : MemOk s) (a : Nat) : MemOk (poisonS s a) := h

theorem zeroStack_memOk {s : State} (h : MemOk s) (st : Nat) : MemOk (zeroStack s st) := by
  have h1 := (wf_iff s.mem).1 h
  exact (wf_iff _).2 ⟨h1.1.filter _, fun e he => h1.2 e (List.mem_of_mem_filter he)⟩

/-! ### Reading back -/

theorem cellAt_eq_none {c : List Host.Cell} {a : Nat} (h : ∀ e ∈ c, e.1 ≠ a) : cellAt c a = none := by
  induction c with
  | nil => rfl
  | cons x r ih =>
    have h1 : ¬ a = x.1 := fun h2 => h x (List.mem_cons_self ..) h2.symm
    simp only [cellAt, h1, if_false]
    split
    · rfl
    · exact ih (fun e he => h e (List.mem_cons_of_mem _ he))

theorem cellAt_of_mem {c : List Host.Cell} (h : c.Pairwise (fun x y => x.1 < y.1)) {e : Host.Cell} (he : e ∈ c) :
    cellAt c e.1 = some e.2 := by
  induction c with
  | nil => cases he
  | cons x r ih =>
    rcases List.mem_cons.1 he with rfl | he'
    · simp [cellAt]
    · have h1 := (List.pairwise_cons.1 h).1 e he'
      have h2 : ¬ e.1 = x.1 := by omega
      have h3 : ¬ e.1 < x.1 := by omega
      simp only [cellAt, h2, h3, if_false]
      exact ih (List.pairwise_cons.1 h).2 he'

/-- A cell that two sorted lists agree on is read alike from both. -/
theorem cellAt_congr {c d : List Host.Cell} (hc : c.Pairwise (fun x y => x.1 < y.1)) (hd : d.Pairwise (fun x y => x.1 < y.1)) {a : Nat}
    (h : ∀ v, (a, v) ∈ c ↔ (a, v) ∈ d) : cellAt c a = cellAt d a := by
  by_cases h1 : ∃ v, (a, v) ∈ c
  · obtain ⟨v, hv⟩ := h1
    rw [cellAt_of_mem hc hv, cellAt_of_mem hd ((h v).1 hv)]
  · rw [cellAt_eq_none, cellAt_eq_none]
    · rintro ⟨k, v⟩ he rfl
      exact h1 ⟨v, (h v).2 he⟩
    · rintro ⟨k, v⟩ he rfl
      exact h1 ⟨v, he⟩

/-- Outside the bytes put, a cell reads as before. -/
theorem cellAt_putCells_ne {m : Mem} (h : Memory.wf m = true) {a x : Nat} {b : List Nat} (hx : x < a ∨ a + b.length ≤ x) :
    cellAt (putCells m.scratch m.cells a b) x = cellAt m.cells x := by
  refine cellAt_congr ((wf_iff _).1 (putCells_wf h a b)).1 ((wf_iff _).1 h).1 (fun v => ?_)
  simp only [putCells, List.mem_append, mem_cellsBelow, mem_cellsFrom]
  constructor
  · rintro ((h1 | h1) | h1)
    · exact h1.1
    · have := mem_newCells h1
      simp only at this
      omega
    · exact h1.1
  · intro h1
    rcases hx with hx | hx
    · exact Or.inl (Or.inl ⟨h1, hx⟩)
    · exact Or.inr ⟨h1, hx⟩

/-- The cell of a byte put, where it has one. -/
theorem newCells_mem {sc : List (Nat × Nat × Nat)} {a i : Nat} {b : List Nat} (hi : i < b.length)
    (h : ¬ (isTile (a + i) = true ∧ (b[i]) % 256 = 0 ∧ scratchOf sc (a + i) = none)) :
    (a + i, BitVec.ofNat 8 (b[i])) ∈ newCells sc a b := by
  induction b generalizing a i with
  | nil => simp at hi
  | cons x r ih =>
    cases i with
    | zero =>
      have h1 : ¬ (isTile a && x % 256 == 0 && (scratchOf sc a).isNone) = true := by
        simpa [and_assoc] using h
      simp only [newCells, h1]
      simp
    | succ i =>
      have h2 : a + (i + 1) = a + 1 + i := by omega
      rw [h2] at h ⊢
      have := ih (a := a + 1) (i := i) (by simpa using hi) (by simpa using h)
      simp only [newCells]
      split
      · simpa using this
      · exact List.mem_cons_of_mem _ (by simpa using this)

/-- A byte put reads back, as its cell or as the zero of an unlisted byte of the Tile Store. -/
theorem cellAt_putCells {m : Mem} (h : Memory.wf m = true) {a i : Nat} {b : List Nat} (hi : i < b.length) :
    (cellAt (putCells m.scratch m.cells a b) (a + i)).getD (if isTile (a + i) = true then tileUnlisted m (a + i) else 0) =
      BitVec.ofNat 8 (b[i]) ∧
    (isTile (a + i) = false → cellAt (putCells m.scratch m.cells a b) (a + i) = some (BitVec.ofNat 8 (b[i]))) := by
  have hs := ((wf_iff _).1 (putCells_wf h a b)).1
  by_cases hz : isTile (a + i) = true ∧ (b[i]) % 256 = 0 ∧ scratchOf m.scratch (a + i) = none
  · have hn : cellAt (putCells m.scratch m.cells a b) (a + i) = none := by
      refine cellAt_eq_none ?_
      rintro ⟨k, v⟩ he rfl
      simp only [putCells, List.mem_append, mem_cellsBelow, mem_cellsFrom] at he
      rcases he with (he | he) | he
      · have := he.2; omega
      · have hv : (b[i]) % 256 = v.toNat := newCells_val he hi
        exact (mem_newCells he).2.2 ⟨hz.1, by
          apply BitVec.eq_of_toNat_eq
          simp only [BitVec.ofNat_eq_ofNat, BitVec.toNat_ofNat]
          omega, hz.2.2⟩
      · have := he.2; omega
    have h0 : BitVec.ofNat 8 (b[i]) = 0 := by
      apply BitVec.eq_of_toNat_eq
      simpa using hz.2.1
    refine ⟨?_, fun h1 => absurd hz.1 (by simp [h1])⟩
    rw [hn, h0]
    simp [hz.1, tileUnlisted, hz.2.2]
  · have h1 : cellAt (putCells m.scratch m.cells a b) (a + i) = some (BitVec.ofNat 8 (b[i])) :=
      cellAt_of_mem (e := (a + i, BitVec.ofNat 8 (b[i]))) hs (by
        simp only [putCells, List.mem_append]
        exact Or.inl (Or.inr (newCells_mem hi hz)))
    exact ⟨by rw [h1]; rfl, fun _ => h1⟩
where
  /-- The value of a new cell. -/
  newCells_val {sc : List (Nat × Nat × Nat)} {a i : Nat} {b : List Nat} {v : BitVec 8} (h : (a + i, v) ∈ newCells sc a b)
      (hi : i < b.length) : (b[i]) % 256 = v.toNat := by
    induction b generalizing a i with
    | nil => simp at hi
    | cons x r ih =>
      simp only [newCells] at h
      cases i with
      | zero =>
        split at h
        · have := (mem_newCells h).1
          simp only at this
          omega
        · rcases List.mem_cons.1 h with h1 | h1
          · have h2 : v = BitVec.ofNat 8 x := (Prod.ext_iff.1 h1).2
            simp [h2]
          · have := (mem_newCells h1).1
            simp only at this
            omega
      | succ i =>
        have h2 : a + (i + 1) = a + 1 + i := by omega
        rw [h2] at h
        split at h
        · simpa using ih h (by simpa using hi)
        · rcases List.mem_cons.1 h with h1 | h1
          · have h3 : a + 1 + i = a := (Prod.ext_iff.1 h1).1
            omega
          · simpa using ih h1 (by simpa using hi)

/-- The Tile Store as read after a write to it: every byte outside the ones written as before. -/
theorem rdByte_wrMem_tile_ne {m : Mem} (h : Memory.wf m = true) {o g a x o2 g2 : Nat} {b : List Nat} (ha : isTile a = true)
    (hx : isTile x = true) (hn : x < a ∨ a + b.length ≤ x) : rdByte (wrMem m o g a b) o2 g2 x = rdByte m o2 g2 x := by
  unfold wrMem
  split
  · rfl
  · simp only [if_true, rdByte, hx]
    rw [cellAt_putCells_ne h hn]
    rfl

/-- The Tile Store as read after a write to it: the bytes written. -/
theorem rdByte_wrMem_tile {m : Mem} (h : Memory.wf m = true) {o g a i o2 g2 : Nat} {b : List Nat} (ha : isTile a = true)
    (hx : isTile (a + i) = true) (hi : i < b.length) : rdByte (wrMem m o g a b) o2 g2 (a + i) = BitVec.ofNat 8 (b[i]) := by
  have hb : b.isEmpty = false := by
    cases b with
    | nil => simp at hi
    | cons => rfl
  have h1 := (cellAt_putCells h (a := a) hi).1
  simp only [hx, if_true] at h1
  simp only [wrMem, hb, ha, if_true, rdByte, hx]
  exact h1

/-- A granule taken over is under the key that took it. -/
theorem tag_takeGranule (o g : Nat) (m : Mem) (n : Nat) :
    ∃ t, tget? (takeGranule o g m n).tags n = some t ∧ t.owner = o ∧ t.gen = g := by
  unfold takeGranule
  split
  · exact ⟨_, tget_tput_self _ _ _, rfl, rfl⟩
  · split
    · rename_i hk
      exact ⟨_, tget_tput_self _ _ _, hk.1, hk.2⟩
    · exact ⟨_, tget_tput_self _ _ _, rfl, rfl⟩

theorem tag_takeGranule_keeps {o g : Nat} {m : Mem} {k : Nat} (n : Nat)
    (h : ∃ t, tget? m.tags k = some t ∧ t.owner = o ∧ t.gen = g) :
    ∃ t, tget? (takeGranule o g m n).tags k = some t ∧ t.owner = o ∧ t.gen = g := by
  by_cases hk : k = n
  · subst hk
    exact tag_takeGranule o g m k
  · obtain ⟨t, h1, h2⟩ := h
    refine ⟨t, ?_, h2⟩
    rw [← h1]
    unfold takeGranule
    split
    · exact tget_tput_ne _ _ hk
    · split <;> exact tget_tput_ne _ _ hk

theorem tag_takeGranules {o g : Nat} {l : List Nat} {m : Mem} {k : Nat} (hk : k ∈ l) :
    ∃ t, tget? (l.foldl (takeGranule o g) m).tags k = some t ∧ t.owner = o ∧ t.gen = g := by
  have keep : ∀ (l : List Nat) (m : Mem), (∃ t, tget? m.tags k = some t ∧ t.owner = o ∧ t.gen = g) →
      ∃ t, tget? (l.foldl (takeGranule o g) m).tags k = some t ∧ t.owner = o ∧ t.gen = g := by
    intro l
    induction l with
    | nil => exact fun m h => h
    | cons x r ih => exact fun m h => ih _ (tag_takeGranule_keeps x h)
  induction l generalizing m with
  | nil => cases hk
  | cons x r ih =>
    rcases List.mem_cons.1 hk with rfl | hk
    · exact keep r _ (tag_takeGranule o g m k)
    · exact ih hk

/-- HBM as the holder of the key reads it after a write: the bytes written. -/
theorem rdByte_wrMem_hbm {m : Mem} (h : Memory.wf m = true) {o g a i : Nat} {b : List Nat} (ha : isTile a = false)
    (hx : isTile (a + i) = false) (hi : i < b.length) : rdByte (wrMem m o g a b) o g (a + i) = BitVec.ofNat 8 (b[i]) := by
  have hb : b.isEmpty = false := by
    cases b with
    | nil => simp at hi
    | cons => rfl
  have hg : (a + i) / 256 ∈ granulesOf a b.length := by
    have hz : b.length ≠ 0 := by omega
    simp only [granulesOf, hz, if_false, List.mem_map, List.mem_range]
    exact ⟨(a + i) / 256 - a / 256, by omega, by omega⟩
  obtain ⟨t, h1, h2, h3⟩ := tag_takeGranules (o := o) (g := g) (m := m) hg
  have h4 := (cellAt_putCells (takeGranules_wf o g (granulesOf a b.length) h) (a := a) hi).2 hx
  simp only [wrMem, hb, ha, rdByte, hx, Bool.false_eq_true, if_false, h1, h2, h3, and_self, if_true, h4, Option.getD_some]

end Sys2Proof.Machine
end

