-- ==== Sys2Proof/Laws/Keeps.lean ====
section
/-!
SUPPORT. Laws/Keeps.lean: what every function within a command passes on: the commands that wait, and the canonical form of memory;
and how folds, branches and updates pass it on.
-/
namespace Sys2Proof.Machine
set_option Elab.async false

/-- What a state passes on to the next within a command: the commands that wait, and the form of memory. -/
def Keeps (s t : State) : Prop := t.pending = s.pending ∧ (MemOk s → MemOk t)

/-- The same of a state that may be there. -/
def KeepsO {α : Type} (g : α → State) (s : State) : Option α → Prop
  | none => True
  | some a => Keeps s (g a)

def KeepsStart (s : State) : Start → Prop
  | .no => True
  | .ends t => Keeps s t
  | .go _ _ _ t => Keeps s t

def KeepsSyn (s : State) : Syn → Prop
  | .done t => Keeps s t
  | .discarded t => Keeps s t
  | .refused _ _ => True

def KeepsCollEnd (s : State) : CollEnd → Prop
  | .waits => True
  | .stopped t _ _ => Keeps s t
  | .done t _ _ => Keeps s t

def KeepsGatherEnd (s : State) : GatherEnd → Prop
  | .waits => True
  | .stopped t _ _ => Keeps s t
  | .done t _ => Keeps s t

theorem KeepsO_none {α : Type} (g : α → State) (s : State) : KeepsO g s none = True := rfl
theorem KeepsO_some {α : Type} (g : α → State) (s : State) (a : α) : KeepsO g s (some a) = Keeps s (g a) := rfl
theorem KeepsStart_no (s : State) : KeepsStart s .no = True := rfl
theorem KeepsStart_ends (s t : State) : KeepsStart s (.ends t) = Keeps s t := rfl
theorem KeepsStart_go (s t : State) (x : Queue) (o : Op) (h : Head) : KeepsStart s (.go x o h t) = Keeps s t := rfl
theorem KeepsSyn_done (s t : State) : KeepsSyn s (.done t) = Keeps s t := rfl
theorem KeepsSyn_discarded (s t : State) : KeepsSyn s (.discarded t) = Keeps s t := rfl
theorem KeepsSyn_refused (s : State) (c : Nat) (l : List (Nat × Nat)) : KeepsSyn s (.refused c l) = True := rfl
theorem KeepsCollEnd_waits (s : State) : KeepsCollEnd s .waits = True := rfl
theorem KeepsCollEnd_stopped (s t : State) (c : Nat) (l : List (Nat × Nat)) : KeepsCollEnd s (.stopped t c l) = Keeps s t := rfl
theorem KeepsCollEnd_done (s t : State) (b : Bool) (d : DrainStats) : KeepsCollEnd s (.done t b d) = Keeps s t := rfl
theorem KeepsGatherEnd_waits (s : State) : KeepsGatherEnd s .waits = True := rfl
theorem KeepsGatherEnd_stopped (s t : State) (c : Nat) (l : List (Nat × Nat)) : KeepsGatherEnd s (.stopped t c l) = Keeps s t := rfl
theorem KeepsGatherEnd_done (s t : State) (r : List (List Contrib)) : KeepsGatherEnd s (.done t r) = Keeps s t := rfl

theorem Keeps.refl (s : State) : Keeps s s := ⟨rfl, id⟩
theorem Keeps.trans {s t u : State} (h : Keeps s t) (k : Keeps t u) : Keeps s u := ⟨k.1.trans h.1, fun m => k.2 (h.2 m)⟩
/-- Fields other than the queue and memory may change. -/
theorem Keeps.upd {s t : State} (h : Keeps s t) {a3 a4 a5 a6 a7 a8 a9 a10 a11 a12 a13 a14 a15 a16 a17 a18 a19 a20 a21 a22 a23 a24} :
    Keeps s (State.mk t.pending t.mem a3 a4 a5 a6 a7 a8 a9 a10 a11 a12 a13 a14 a15 a16 a17 a18 a19 a20 a21 a22 a23 a24) := h
theorem Keeps.upd_iff {s t : State} {a3 a4 a5 a6 a7 a8 a9 a10 a11 a12 a13 a14 a15 a16 a17 a18 a19 a20 a21 a22 a23 a24} :
    Keeps s (State.mk t.pending t.mem a3 a4 a5 a6 a7 a8 a9 a10 a11 a12 a13 a14 a15 a16 a17 a18 a19 a20 a21 a22 a23 a24) = Keeps s t := rfl
theorem Keeps.updMem {s t : State} (h : Keeps s t) {m : Mem} (hm : Memory.wf t.mem = true → Memory.wf m = true)
    {a3 a4 a5 a6 a7 a8 a9 a10 a11 a12 a13 a14 a15 a16 a17 a18 a19 a20 a21 a22 a23 a24} :
    Keeps s (State.mk t.pending m a3 a4 a5 a6 a7 a8 a9 a10 a11 a12 a13 a14 a15 a16 a17 a18 a19 a20 a21 a22 a23 a24) :=
  ⟨h.1, fun w => hm (h.2 w)⟩
theorem Keeps.foldl {α β : Type} {g : β → State} {s : State} {f : β → α → β} {b : β} {l : List α} (h : Keeps s (g b))
    (hf : ∀ b a, Keeps s (g b) → Keeps s (g (f b a))) : Keeps s (g (l.foldl f b)) := by
  induction l generalizing b with
  | nil => exact h
  | cons a l ih => exact ih (hf b a h)
theorem Keeps.fold {α : Type} {s : State} {f : State → α → State} {t : State} {l : List α} (h : Keeps s t)
    (hf : ∀ u a, Keeps s u → Keeps s (f u a)) : Keeps s (l.foldl f t) := Keeps.foldl (g := fun x => x) h hf
theorem Keeps.fold1 {α β : Type} {s : State} {f : State × β → α → State × β} {t : State × β} {l : List α} (h : Keeps s t.1)
    (hf : ∀ u a, Keeps s u.1 → Keeps s (f u a).1) : Keeps s (l.foldl f t).1 := Keeps.foldl (g := Prod.fst) h hf
theorem Keeps.fold2 {α β : Type} {s : State} {f : β × State → α → β × State} {t : β × State} {l : List α} (h : Keeps s t.2)
    (hf : ∀ u a, Keeps s u.2 → Keeps s (f u a).2) : Keeps s (l.foldl f t).2 := Keeps.foldl (g := Prod.snd) h hf

theorem KeepsSyn.of_done {s t : State} {r : Syn} (e : r = .done t) (h : KeepsSyn s r) : Keeps s t := by rw [e] at h; exact h
theorem KeepsSyn.of_discarded {s t : State} {r : Syn} (e : r = .discarded t) (h : KeepsSyn s r) : Keeps s t := by rw [e] at h; exact h
theorem KeepsStart.of_go {s t : State} {r : Start} {x o h'} (e : r = .go x o h' t) (h : KeepsStart s r) : Keeps s t := by
  rw [e] at h; exact h
theorem KeepsStart.of_ends {s t : State} {r : Start} (e : r = .ends t) (h : KeepsStart s r) : Keeps s t := by rw [e] at h; exact h
theorem Keeps.of_fst {α : Type} {s t : State} {r : State × α} {x} (e : r = (t, x)) (h : Keeps s r.1) : Keeps s t := by
  rw [e] at h; exact h
theorem Keeps.of_snd {α : Type} {s t : State} {r : α × State} {x} (e : r = (x, t)) (h : Keeps s r.2) : Keeps s t := by
  rw [e] at h; exact h
theorem KeepsO.of_some {α : Type} {g : α → State} {s : State} {r : Option α} {x} (e : r = some x) (h : KeepsO g s r) : Keeps s (g x) := by
  rw [e] at h; exact h
theorem Keeps.ite {s a b : State} {c : Prop} [Decidable c] (h : Keeps s a) (k : Keeps s b) : Keeps s (if c then a else b) := by
  split <;> assumption
theorem Keeps.ite1 {α : Type} {s : State} {a b : State × α} {c : Prop} [Decidable c] (h : Keeps s a.1) (k : Keeps s b.1) :
    Keeps s (if c then a else b).1 := by split <;> assumption
theorem Keeps.ite2 {α : Type} {s : State} {a b : α × State} {c : Prop} [Decidable c] (h : Keeps s a.2) (k : Keeps s b.2) :
    Keeps s (if c then a else b).2 := by split <;> assumption
theorem KeepsO.ite {α : Type} {g : α → State} {s : State} {a b : Option α} {c : Prop} [Decidable c] (h : KeepsO g s a) (k : KeepsO g s b) :
    KeepsO g s (if c then a else b) := by split <;> assumption
theorem KeepsSyn.ite {s : State} {a b : Syn} {c : Prop} [Decidable c] (h : KeepsSyn s a) (k : KeepsSyn s b) :
    KeepsSyn s (if c then a else b) := by split <;> assumption
theorem KeepsStart.ite {s : State} {a b : Start} {c : Prop} [Decidable c] (h : KeepsStart s a) (k : KeepsStart s b) :
    KeepsStart s (if c then a else b) := by split <;> assumption
theorem Keeps.foldCardRun {α : Type} {s : State} {f : CardRun → α → CardRun} {t : CardRun} {l : List α} (h : Keeps s t.s)
    (hf : ∀ u a, Keeps s u.s → Keeps s (f u a).s) : Keeps s (l.foldl f t).s := Keeps.foldl (g := CardRun.s) h hf
theorem Keeps.foldVcAcc {α : Type} {s : State} {f : VcAcc → α → VcAcc} {t : VcAcc} {l : List α} (h : Keeps s t.s)
    (hf : ∀ u a, Keeps s u.s → Keeps s (f u a).s) : Keeps s (l.foldl f t).s := Keeps.foldl (g := VcAcc.s) h hf
theorem Keeps.foldRowsAcc {α : Type} {s : State} {f : RowsAcc → α → RowsAcc} {t : RowsAcc} {l : List α} (h : Keeps s t.s)
    (hf : ∀ u a, Keeps s u.s → Keeps s (f u a).s) : Keeps s (l.foldl f t).s := Keeps.foldl (g := RowsAcc.s) h hf

end Sys2Proof.Machine
end

