-- ==== Sys2Proof/Laws/KeepsCore.lean ====
section
/-!
SUPPORT. Laws/KeepsCore.lean: every function of the shared operations, operands, flags, starting an operation, steps and objects
passes on the commands that wait and the canonical form of memory.
-/
namespace Sys2Proof.Machine
set_option Elab.async false

theorem setEntV_keeps {s : State} {a0 : State} (a1 : Nat) (a2 : Val) (h0 : Keeps s a0) :
    Keeps s (setEntV a0 a1 a2) := by
  unfold setEntV
  repeat' first
    | with_reducible assumption
    | simp only [Keeps.upd_iff]

theorem setEnt_keeps {s : State} {a0 : State} (a1 : Nat) (a2 : Nat) (h0 : Keeps s a0) :
    Keeps s (setEnt a0 a1 a2) := by
  unfold setEnt
  repeat' first
    | with_reducible assumption
    | with_reducible apply setEntV_keeps

theorem bump_keeps {s : State} {a0 : State} (a1 : Nat) (a2 : Nat) (h0 : Keeps s a0) :
    Keeps s (bump a0 a1 a2) := by
  unfold bump
  repeat' first
    | with_reducible assumption
    | with_reducible apply setEnt_keeps

theorem takeFree_keeps {s : State} {a0 : State} (h0 : Keeps s a0) :
    Keeps s (takeFree a0).2 := by
  unfold takeFree
  repeat' first
    | with_reducible assumption
    | simp only [KeepsO_none, KeepsO_some, KeepsStart_no, KeepsStart_ends, KeepsStart_go, KeepsSyn_done, KeepsSyn_discarded, KeepsSyn_refused, KeepsCollEnd_waits, KeepsCollEnd_stopped, KeepsCollEnd_done, KeepsGatherEnd_waits, KeepsGatherEnd_stopped, KeepsGatherEnd_done, id]
    | simp only [Keeps.upd_iff]
theorem takeFree_keeps_eq {s : State} {a0 : State} {u x} (e : takeFree a0 = (x, u)) (h0 : Keeps s a0) : Keeps s u := by
  have k := takeFree_keeps (s := s) h0
  rw [e] at k; exact k

theorem modOwner_keeps {s : State} {a0 : State} (a1 : Nat) (a2 : Owner → Owner) (h0 : Keeps s a0) :
    Keeps s (modOwner a0 a1 a2) := by
  unfold modOwner
  repeat' first
    | with_reducible assumption
    | simp only [Keeps.upd_iff]

theorem wr_keeps {s : State} {a0 : State} (a1 : Nat) (a2 : Nat) (a3 : List Nat) (h0 : Keeps s a0) :
    Keeps s (wr a0 a1 a2 a3) := by
  unfold wr
  dsimp only
  have k : Keeps s { a0 with mem := (writeMem a0.mem a1 (keyGen a0 a1) a2 a3).1, units := { a0.units with retained := keepRetained a0.units.retained a2 a3.length } } :=
    Keeps.updMem h0 (fun w => writeMem_wf w _ _ _ _)
  split
  · exact k
  · exact bump_keeps _ _ k

theorem zeroTileS_keeps {s : State} {a0 : State} (a1 : Nat) (a2 : Nat) (h0 : Keeps s a0) :
    Keeps s (zeroTileS a0 a1 a2) := by
  exact Keeps.updMem h0 (fun w => zeroTile_wf w _ _)

theorem poisonS_keeps {s : State} {a0 : State} (a1 : Nat) (h0 : Keeps s a0) :
    Keeps s (poisonS a0 a1) := by
  exact Keeps.updMem h0 (fun w => w)

theorem emit_keeps {s : State} {a0 : State} (a1 : OutEv) (h0 : Keeps s a0) :
    Keeps s (emit a0 a1) := by
  unfold emit
  repeat' first
    | with_reducible assumption
    | simp only [Keeps.upd_iff]

theorem toHost_keeps {s : State} {a0 : State} (a1 : OutEv) (h0 : Keeps s a0) :
    Keeps s (toHost a0 a1) := by
  unfold toHost
  repeat' first
    | with_reducible assumption
    | simp only [Keeps.upd_iff]
    | with_reducible apply emit_keeps
    | with_reducible apply Keeps.ite

theorem hostWr_keeps {s : State} {a0 : State} (a1 : Nat) (a2 : Nat) (a3 : List Nat) (h0 : Keeps s a0) :
    Keeps s (hostWr a0 a1 a2 a3) := by
  unfold hostWr
  repeat' first
    | with_reducible assumption
    | with_reducible apply toHost_keeps

theorem ringWr_keeps {s : State} {a0 : State} (a1 : Nat) (a2 : Bool) (a3 : Nat) (a4 : List Nat) (h0 : Keeps s a0) :
    Keeps s (ringWr a0 a1 a2 a3 a4) := by
  unfold ringWr
  repeat' first
    | with_reducible assumption
    | with_reducible apply wr_keeps
    | with_reducible apply hostWr_keeps
    | with_reducible apply Keeps.ite

theorem sendFrame_keeps {s : State} {a0 : State} (a1 : Nat) (a2 : Nat) (a3 : Nat) (a4 : List Nat) (h0 : Keeps s a0) :
    Keeps s (sendFrame a0 a1 a2 a3 a4) := by
  unfold sendFrame
  repeat' first
    | with_reducible assumption
    | with_reducible apply emit_keeps
    | with_reducible apply Keeps.ite

theorem noticeOf_keeps {s : State} {a0 : State} (a1 : Nat) (h0 : Keeps s a0) :
    Keeps s (noticeOf a0 a1) := by
  unfold noticeOf
  repeat' first
    | with_reducible assumption
    | simp only [Keeps.upd_iff]
    | with_reducible apply sendFrame_keeps
    | with_reducible apply Keeps.ite

theorem storeRecord_keeps {s : State} {a0 : State} (a1 : Nat) (h0 : Keeps s a0) :
    Keeps s (storeRecord a0 a1) := by
  unfold storeRecord
  repeat' first
    | with_reducible assumption
    | simp only [Keeps.upd_iff]
    | with_reducible apply noticeOf_keeps
    | with_reducible apply wr_keeps
    | (split)

theorem takeRecord_keeps {s : State} {a0 : State} (a1 : Nat) (h0 : Keeps s a0) :
    Keeps s (takeRecord a0 a1) := by
  unfold takeRecord
  repeat' first
    | with_reducible assumption
    | simp only [Keeps.upd_iff]
    | with_reducible apply bump_keeps
    | with_reducible apply storeRecord_keeps
    | with_reducible apply Keeps.ite

theorem ringRecord_keeps {s : State} {a0 : State} (a1 : Nat) (a2 : Nat) (h0 : Keeps s a0) :
    Keeps s (ringRecord a0 a1 a2) := by
  unfold ringRecord
  repeat' first
    | with_reducible assumption
    | simp only [Keeps.upd_iff]
    | with_reducible apply ringWr_keeps
    | with_reducible apply modOwner_keeps
    | with_reducible apply hostWr_keeps
    | with_reducible apply toHost_keeps
    | with_reducible apply Keeps.ite

theorem raise_keeps {s : State} {a0 : State} (a1 : Flt) (h0 : Keeps s a0) :
    Keeps s (raise a0 a1) := by
  unfold raise
  repeat' first
    | with_reducible assumption
    | simp only [Keeps.upd_iff]
    | with_reducible apply ringRecord_keeps
    | with_reducible apply takeRecord_keeps
    | with_reducible apply Keeps.ite

theorem raiseDev_keeps {s : State} {a0 : State} (a1 : Nat) (a2 : Nat) (a3 : List (Nat × Nat)) (h0 : Keeps s a0) :
    Keeps s (raiseDev a0 a1 a2 a3) := by
  unfold raiseDev
  repeat' first
    | with_reducible assumption
    | with_reducible apply raise_keeps

theorem raiseOwner_keeps {s : State} {a0 : State} (a1 : Nat) (a2 : Nat) (a3 : Nat) (a4 : List (Nat × Nat)) (h0 : Keeps s a0) :
    Keeps s (raiseOwner a0 a1 a2 a3 a4) := by
  unfold raiseOwner
  repeat' first
    | with_reducible assumption
    | with_reducible apply raise_keeps

theorem modQueue_keeps {s : State} {a0 : State} (a1 : Nat) (a2 : Queue → Queue) (h0 : Keeps s a0) :
    Keeps s (modQueue a0 a1 a2) := by
  unfold modQueue
  repeat' first
    | with_reducible assumption
    | simp only [Keeps.upd_iff]

theorem modOp_keeps {s : State} {a0 : State} (a1 : Nat) (a2 : Nat) (a3 : Op → Op) (h0 : Keeps s a0) :
    Keeps s (modOp a0 a1 a2 a3) := by
  unfold modOp
  repeat' first
    | with_reducible assumption
    | with_reducible apply modQueue_keeps

theorem modPart_keeps {s : State} {a0 : State} (a1 : Nat) (a2 : Part → Part) (h0 : Keeps s a0) :
    Keeps s (modPart a0 a1 a2) := by
  unfold modPart
  repeat' first
    | with_reducible assumption
    | simp only [Keeps.upd_iff]

theorem clearLocalFinite_keeps {s : State} {a0 : State} (a1 : Nat) (h0 : Keeps s a0) :
    Keeps s (clearLocalFinite a0 a1) := by
  unfold clearLocalFinite
  repeat' first
    | with_reducible assumption
    | with_reducible apply bump_keeps
    | with_reducible apply modPart_keeps

theorem setFlow_keeps {s : State} {a0 : State} (a1 : Nat) (a2 : Flow) (h0 : Keeps s a0) :
    Keeps s (setFlow a0 a1 a2) := by
  unfold setFlow
  repeat' first
    | with_reducible assumption
    | simp only [Keeps.upd_iff]

theorem modFlow_keeps {s : State} {a0 : State} (a1 : Nat) (a2 : Flow → Flow) (h0 : Keeps s a0) :
    Keeps s (modFlow a0 a1 a2) := by
  unfold modFlow
  repeat' first
    | with_reducible assumption
    | simp only [Keeps.upd_iff]

theorem modPort_keeps {s : State} {a0 : State} (a1 : Nat) (a2 : Port → Port) (h0 : Keeps s a0) :
    Keeps s (modPort a0 a1 a2) := by
  unfold modPort
  repeat' first
    | with_reducible assumption
    | simp only [Keeps.upd_iff]

theorem portSend_keeps {s : State} {a0 : State} (a1 : Nat) (a2 : Nat) (a3 : Packet) (h0 : Keeps s a0) :
    Keeps s (portSend a0 a1 a2 a3) := by
  unfold portSend
  repeat' first
    | with_reducible assumption
    | simp only [Keeps.upd_iff]
    | with_reducible apply modPort_keeps
    | with_reducible apply emit_keeps
    | with_reducible apply Keeps.ite

theorem stopFar_keeps {s : State} {a0 : State} (a1 : Nat) (a2 : Nat) (a3 : Nat) (h0 : Keeps s a0) :
    Keeps s (stopFar a0 a1 a2 a3) := by
  unfold stopFar
  repeat' first
    | with_reducible assumption
    | with_reducible apply modOp_keeps
    | with_reducible apply Keeps.ite
    | (split)

theorem takeLate_keeps {s : State} {a0 : State} (a1 : Sent) (a2 : Nat) (a3 : Nat) (h0 : Keeps s a0) :
    Keeps s (takeLate a0 a1 a2 a3) := by
  unfold takeLate
  repeat' first
    | with_reducible assumption
    | simp only [Keeps.upd_iff]
    | with_reducible apply raiseOwner_keeps
    | with_reducible apply stopFar_keeps

theorem poisonRequests_keeps {s : State} {a0 : State} (a1 : Nat) (h0 : Keeps s a0) :
    Keeps s (poisonRequests a0 a1) := by
  unfold poisonRequests
  repeat' first
    | with_reducible assumption
    | simp only [Keeps.upd_iff]

theorem unknownAtomics_keeps {s : State} {a0 : State} (a1 : Nat) (h0 : Keeps s a0) :
    Keeps s (unknownAtomics a0 a1) := by
  unfold unknownAtomics
  repeat' first
    | (intro _)
    | with_reducible assumption
    | simp only [Keeps.upd_iff]
    | with_reducible apply raiseOwner_keeps
    | with_reducible apply stopFar_keeps
    | with_reducible apply Keeps.fold

theorem failFlow_keeps {s : State} {a0 : State} (a1 : Nat) (h0 : Keeps s a0) :
    Keeps s (failFlow a0 a1) := by
  unfold failFlow
  repeat' first
    | (intro _)
    | with_reducible assumption
    | simp only [Keeps.upd_iff]
    | with_reducible apply raiseDev_keeps
    | with_reducible apply setFlow_keeps
    | with_reducible apply takeLate_keeps
    | with_reducible apply unknownAtomics_keeps
    | with_reducible apply poisonRequests_keeps
    | with_reducible apply Keeps.fold

theorem transmit_keeps {s : State} {a0 : State} (a1 : Nat) (a2 : Packet) (a3 : Option Nat) (h0 : Keeps s a0) :
    Keeps s (transmit a0 a1 a2 a3) := by
  unfold transmit
  repeat' first
    | with_reducible assumption
    | with_reducible apply portSend_keeps
    | (split)

theorem pumpFlow_keeps {s : State} (a0 : Nat) {a1 : State} (a2 : Nat) (h0 : Keeps s a1) :
    Keeps s (pumpFlow a0 a1 a2) := by
  induction a0 generalizing a1 a2 with
  | zero =>
    unfold pumpFlow
    repeat' first
      | with_reducible assumption
  | succ n ih =>
    unfold pumpFlow
    repeat' first
      | with_reducible assumption
      | simp only [Keeps.upd_iff]
      | with_reducible apply ih
      | with_reducible apply failFlow_keeps
      | with_reducible apply setFlow_keeps
      | with_reducible apply bump_keeps
      | with_reducible apply portSend_keeps
      | with_reducible apply Keeps.ite
      | (split)

theorem sendPk_keeps {s : State} {a0 : State} (a1 : Nat) (a2 : Nat) (a3 : Nat) (a4 : Packet) (h0 : Keeps s a0) :
    Keeps s (sendPk a0 a1 a2 a3 a4) := by
  unfold sendPk
  repeat' first
    | with_reducible assumption
    | simp only [Keeps.upd_iff]
    | with_reducible apply takeLate_keeps
    | with_reducible apply raiseDev_keeps
    | with_reducible apply pumpFlow_keeps
    | with_reducible apply setFlow_keeps
    | with_reducible apply Keeps.ite

theorem sendOn_keeps {s : State} {a0 : State} (a1 : Nat) (a2 : Packet) (h0 : Keeps s a0) :
    Keeps s (sendOn a0 a1 a2) := by
  unfold sendOn
  repeat' first
    | with_reducible assumption
    | simp only [Keeps.upd_iff]
    | with_reducible apply pumpFlow_keeps
    | with_reducible apply setFlow_keeps

theorem sendLoose_keeps {s : State} {a0 : State} (a1 : Nat) (a2 : Packet) (h0 : Keeps s a0) :
    Keeps s (sendLoose a0 a1 a2) := by
  unfold sendLoose
  repeat' first
    | with_reducible assumption
    | with_reducible apply transmit_keeps

theorem setDir_keeps {s : State} {a0 : State} (a1 : Nat) (a2 : Dir) (h0 : Keeps s a0) :
    Keeps s (setDir a0 a1 a2) := by
  unfold setDir
  repeat' first
    | with_reducible assumption
    | simp only [Keeps.upd_iff]

theorem cohSend_keeps {s : State} {a0 : State} (a1 : Nat) (a2 : Nat) (a3 : Nat) (a4 : Nat) (a5 : Nat) (a6 : Nat) (a7 : List Nat) (a8 : Bool) (h0 : Keeps s a0) :
    Keeps s (cohSend a0 a1 a2 a3 a4 a5 a6 a7 a8) := by
  unfold cohSend
  repeat' first
    | with_reducible assumption
    | with_reducible apply sendPk_keeps

theorem homeGrant_keeps {s : State} {a0 : State} (a1 : Nat) (a2 : Nat) (a3 : Nat) (a4 : Nat) (a5 : Nat) (a6 : Nat) (a7 : Option (List Nat)) (h0 : Keeps s a0) :
    Keeps s (homeGrant a0 a1 a2 a3 a4 a5 a6 a7) := by
  unfold homeGrant
  repeat' first
    | with_reducible assumption
    | simp only [Keeps.upd_iff]
    | with_reducible apply setDir_keeps
    | with_reducible apply cohSend_keeps
    | with_reducible apply Keeps.ite

theorem homeFinish_keeps {s : State} {a0 : State} (a1 : Nat) (a2 : Option (List Nat)) (h0 : Keeps s a0) :
    Keeps s (homeFinish a0 a1 a2) := by
  unfold homeFinish
  repeat' first
    | with_reducible assumption
    | simp only [Keeps.upd_iff]
    | with_reducible apply homeGrant_keeps

theorem cohAll_keeps {s : State} {a0 : State} (a1 : Nat) (a2 : Nat) (a3 : Nat) (a4 : Nat) (a5 : Nat) (h0 : Keeps s a0) :
    Keeps s (cohAll a0 a1 a2 a3 a4 a5) := by
  unfold cohAll
  repeat' first
    | (intro _)
    | with_reducible assumption
    | with_reducible apply cohSend_keeps
    | with_reducible apply Keeps.ite
    | with_reducible apply Keeps.fold

theorem homeStart_keeps {s : State} {a0 : State} (a1 : Nat) (a2 : Nat) (a3 : Nat) (a4 : Nat) (a5 : Nat) (h0 : Keeps s a0) :
    Keeps s (homeStart a0 a1 a2 a3 a4 a5) := by
  unfold homeStart
  repeat' first
    | with_reducible assumption
    | simp only [Keeps.upd_iff]
    | with_reducible apply cohAll_keeps
    | with_reducible apply setDir_keeps
    | with_reducible apply homeGrant_keeps
    | with_reducible apply Keeps.ite

theorem homeAnswer_keeps {s : State} {a0 : State} (a1 : Nat) (a2 : Nat) (a3 : Option (List Nat)) (h0 : Keeps s a0) :
    Keeps s (homeAnswer a0 a1 a2 a3) := by
  unfold homeAnswer
  repeat' first
    | with_reducible assumption
    | simp only [Keeps.upd_iff]
    | with_reducible apply homeFinish_keeps
    | with_reducible apply setDir_keeps
    | with_reducible apply Keeps.ite

theorem homePut_keeps {s : State} {a0 : State} (a1 : Nat) (a2 : Nat) (a3 : Nat) (a4 : List Nat) (h0 : Keeps s a0) :
    Keeps s (homePut a0 a1 a2 a3 a4) := by
  unfold homePut
  repeat' first
    | with_reducible assumption
    | simp only [Keeps.upd_iff]
    | with_reducible apply wr_keeps
    | with_reducible apply homeAnswer_keeps
    | with_reducible apply setDir_keeps
    | with_reducible apply Keeps.ite

theorem homeForget_keeps {s : State} {a0 : State} (a1 : Nat) (a2 : Dir → Bool) (h0 : Keeps s a0) :
    Keeps s (homeForget a0 a1 a2) := by
  unfold homeForget
  repeat' first
    | (intro _)
    | with_reducible assumption
    | simp only [Keeps.upd_iff]
    | with_reducible apply homeAnswer_keeps
    | with_reducible apply setDir_keeps
    | with_reducible apply Keeps.ite
    | with_reducible apply Keeps.fold

theorem homeTakeBack_keeps {s : State} {a0 : State} (a1 : Nat) (h0 : Keeps s a0) :
    Keeps s (homeTakeBack a0 a1) := by
  unfold homeTakeBack
  repeat' first
    | (intro _)
    | with_reducible assumption
    | with_reducible apply homeStart_keeps
    | with_reducible apply Keeps.fold

theorem raiseOp_keeps {s : State} {a0 : State} (a1 : Nat) (a2 : Op) (a3 : Nat) (a4 : Nat) (a5 : List (Nat × Nat)) (h0 : Keeps s a0) :
    Keeps s (raiseOp a0 a1 a2 a3 a4 a5) := by
  unfold raiseOp
  repeat' first
    | with_reducible assumption
    | with_reducible apply modOp_keeps
    | with_reducible apply raise_keeps

theorem endOp_keeps {s : State} {a0 : State} (a1 : Nat) (a2 : Op) (a3 : Nat) (h0 : Keeps s a0) :
    Keeps s (endOp a0 a1 a2 a3) := by
  unfold endOp
  repeat' first
    | with_reducible assumption
    | with_reducible apply modOp_keeps

theorem refuseOp_keeps {s : State} {a0 : State} (a1 : Nat) (a2 : Op) (a3 : Nat) (a4 : Nat) (a5 : List (Nat × Nat)) (h0 : Keeps s a0) :
    Keeps s (refuseOp a0 a1 a2 a3 a4 a5) := by
  unfold refuseOp
  repeat' first
    | with_reducible assumption
    | with_reducible apply endOp_keeps
    | with_reducible apply raiseOp_keeps

theorem stopOp_keeps {s : State} {a0 : State} (a1 : Nat) (a2 : Op) (a3 : Nat) (a4 : Nat) (a5 : List (Nat × Nat)) (h0 : Keeps s a0) :
    Keeps s (stopOp a0 a1 a2 a3 a4 a5) := by
  unfold stopOp
  repeat' first
    | with_reducible assumption
    | with_reducible apply endOp_keeps
    | with_reducible apply raiseOp_keeps

theorem countPoison_keeps {s : State} {a0 : State} (a1 : Nat) (h0 : Keeps s a0) :
    Keeps s (countPoison a0 a1) := by
  unfold countPoison
  repeat' first
    | with_reducible assumption
    | with_reducible apply bump_keeps
    | with_reducible apply Keeps.ite

theorem notRerun_keeps {s : State} {a0 : State} (a1 : Nat) (a2 : Op) (a3 : Nat) (a4 : Nat) (h0 : Keeps s a0) :
    Keeps s (notRerun a0 a1 a2 a3 a4) := by
  unfold notRerun
  repeat' first
    | with_reducible assumption
    | with_reducible apply endOp_keeps
    | with_reducible apply modOp_keeps
    | with_reducible apply raiseOp_keeps

theorem againOp_keeps {s : State} {a0 : State} (a1 : Nat) (a2 : Op) (a3 : Head) (a4 : Bool) (a5 : Nat) (h0 : Keeps s a0) :
    Keeps s (againOp a0 a1 a2 a3 a4 a5) := by
  unfold againOp
  repeat' first
    | with_reducible assumption
    | with_reducible apply notRerun_keeps
    | with_reducible apply endOp_keeps
    | with_reducible apply modOp_keeps
    | with_reducible apply Keeps.ite

theorem rerunOp_keeps {s : State} {a0 : State} (a1 : Nat) (a2 : Op) (a3 : Head) (a4 : Bool) (a5 : Nat) (a6 : Nat) (a7 : List (Nat × Nat)) (h0 : Keeps s a0) :
    Keeps s (rerunOp a0 a1 a2 a3 a4 a5 a6 a7) := by
  unfold rerunOp
  repeat' first
    | with_reducible assumption
    | with_reducible apply againOp_keeps
    | with_reducible apply modOp_keeps
    | with_reducible apply raiseOp_keeps

theorem commitSwitch_keeps {s : State} {a0 : State} (a1 : Nat) (a2 : Op) (a3 : Head) (h0 : Keeps s a0) :
    Keeps s (commitSwitch a0 a1 a2 a3) := by
  unfold commitSwitch
  repeat' first
    | with_reducible assumption
    | simp only [Keeps.upd_iff]
    | with_reducible apply wr_keeps
    | with_reducible apply Keeps.ite

theorem doneOp_keeps {s : State} {a0 : State} (a1 : Nat) (a2 : Op) (h0 : Keeps s a0) :
    Keeps s (doneOp a0 a1 a2) := by
  unfold doneOp
  repeat' first
    | with_reducible assumption
    | with_reducible apply endOp_keeps

theorem badPtr_keeps {s : State} {a0 : State} (a1 : Nat) (a2 : Op) (a3 : Nat) (h0 : Keeps s a0) :
    Keeps s (badPtr a0 a1 a2 a3) := by
  unfold badPtr
  repeat' first
    | with_reducible assumption
    | with_reducible apply refuseOp_keeps

theorem requestWake_keeps {s : State} {a0 : State} (a1 : Nat) (h0 : Keeps s a0) :
    Keeps s (requestWake a0 a1) := by
  unfold requestWake
  repeat' first
    | with_reducible assumption
    | simp only [Keeps.upd_iff]
    | with_reducible apply Keeps.ite

theorem startAwake_keeps {s : State} {a0 : State} (a1 : Nat) (a2 : Queue) (a3 : Op) (a4 : Head) (a5 : Need) (h0 : Keeps s a0) :
    KeepsStart s (startAwake a0 a1 a2 a3 a4 a5) := by
  unfold startAwake
  repeat' first
    | (intro _)
    | with_reducible assumption
    | simp only [KeepsO_none, KeepsO_some, KeepsStart_no, KeepsStart_ends, KeepsStart_go, KeepsSyn_done, KeepsSyn_discarded, KeepsSyn_refused, KeepsCollEnd_waits, KeepsCollEnd_stopped, KeepsCollEnd_done, KeepsGatherEnd_waits, KeepsGatherEnd_stopped, KeepsGatherEnd_done, id]
    | with_reducible apply modOp_keeps
    | with_reducible apply homeTakeBack_keeps
    | with_reducible apply bump_keeps
    | with_reducible apply refuseOp_keeps
    | with_reducible apply requestWake_keeps
    | with_reducible apply Keeps.ite
    | with_reducible apply KeepsStart.ite
    | with_reducible apply Keeps.fold
    | (split)
theorem startAwake_keeps_go {s : State} {a0 : State} {a1 : Nat} {a2 : Queue} {a3 : Op} {a4 : Head} {a5 : Need} {x o h u} (e : startAwake a0 a1 a2 a3 a4 a5 = .go x o h u) (h0 : Keeps s a0) : Keeps s u := by
  have k := startAwake_keeps (s := s) a1 a2 a3 a4 a5 h0
  rw [e] at k; exact k

theorem startAwake_keeps_ends {s : State} {a0 : State} {a1 : Nat} {a2 : Queue} {a3 : Op} {a4 : Head} {a5 : Need} {u} (e : startAwake a0 a1 a2 a3 a4 a5 = .ends u) (h0 : Keeps s a0) : Keeps s u := by
  have k := startAwake_keeps (s := s) a1 a2 a3 a4 a5 h0
  rw [e] at k; exact k

theorem startGate_keeps {s : State} {a0 : State} (a1 : Nat) (a2 : Queue) (a3 : Op) (a4 : Head) (a5 : Need) (h0 : Keeps s a0) :
    KeepsStart s (startGate a0 a1 a2 a3 a4 a5) := by
  unfold startGate
  repeat' first
    | with_reducible assumption
    | simp only [KeepsO_none, KeepsO_some, KeepsStart_no, KeepsStart_ends, KeepsStart_go, KeepsSyn_done, KeepsSyn_discarded, KeepsSyn_refused, KeepsCollEnd_waits, KeepsCollEnd_stopped, KeepsCollEnd_done, KeepsGatherEnd_waits, KeepsGatherEnd_stopped, KeepsGatherEnd_done, id]
    | with_reducible apply refuseOp_keeps
    | with_reducible apply modOp_keeps
    | with_reducible apply endOp_keeps
    | with_reducible apply modPart_keeps
    | with_reducible apply startAwake_keeps
    | with_reducible apply KeepsStart.ite
    | (split)
theorem startGate_keeps_go {s : State} {a0 : State} {a1 : Nat} {a2 : Queue} {a3 : Op} {a4 : Head} {a5 : Need} {x o h u} (e : startGate a0 a1 a2 a3 a4 a5 = .go x o h u) (h0 : Keeps s a0) : Keeps s u := by
  have k := startGate_keeps (s := s) a1 a2 a3 a4 a5 h0
  rw [e] at k; exact k

theorem startGate_keeps_ends {s : State} {a0 : State} {a1 : Nat} {a2 : Queue} {a3 : Op} {a4 : Head} {a5 : Need} {u} (e : startGate a0 a1 a2 a3 a4 a5 = .ends u) (h0 : Keeps s a0) : Keeps s u := by
  have k := startGate_keeps (s := s) a1 a2 a3 a4 a5 h0
  rw [e] at k; exact k

theorem startHead_keeps {s : State} {a0 : State} (a1 : Nat) (a2 : Nat) (a3 : Nat) (a4 : Need) (h0 : Keeps s a0) :
    KeepsStart s (startHead a0 a1 a2 a3 a4) := by
  unfold startHead
  repeat' first
    | with_reducible assumption
    | exact trivial
    | simp only [KeepsO_none, KeepsO_some, KeepsStart_no, KeepsStart_ends, KeepsStart_go, KeepsSyn_done, KeepsSyn_discarded, KeepsSyn_refused, KeepsCollEnd_waits, KeepsCollEnd_stopped, KeepsCollEnd_done, KeepsGatherEnd_waits, KeepsGatherEnd_stopped, KeepsGatherEnd_done, id]
    | with_reducible apply refuseOp_keeps
    | with_reducible apply startGate_keeps
    | with_reducible apply KeepsStart.ite
    | (split)
theorem startHead_keeps_go {s : State} {a0 : State} {a1 : Nat} {a2 : Nat} {a3 : Nat} {a4 : Need} {x o h u} (e : startHead a0 a1 a2 a3 a4 = .go x o h u) (h0 : Keeps s a0) : Keeps s u := by
  have k := startHead_keeps (s := s) a1 a2 a3 a4 h0
  rw [e] at k; exact k

theorem startHead_keeps_ends {s : State} {a0 : State} {a1 : Nat} {a2 : Nat} {a3 : Nat} {a4 : Need} {u} (e : startHead a0 a1 a2 a3 a4 = .ends u) (h0 : Keeps s a0) : Keeps s u := by
  have k := startHead_keeps (s := s) a1 a2 a3 a4 h0
  rw [e] at k; exact k

theorem runHead_keeps {s : State} {a0 : State} (a1 a2 a3 : Nat) (a4 : Need) (f : State → Queue → Op → Head → State) (h0 : Keeps s a0)
    (hf : ∀ t x o h, Keeps s t → Keeps s (f t x o h)) : Keeps s (runHead a0 a1 a2 a3 a4 f) := by
  unfold runHead
  split
  · exact h0
  · exact startHead_keeps_ends (by assumption) h0
  · exact hf _ _ _ _ (startHead_keeps_go (by assumption) h0)

theorem writePacked_keeps {s : State} {a0 : State} (a1 : Nat) (a2 : Nat) (a3 : Nat) (a4 : Nat) (a5 : List Nat) (h0 : Keeps s a0) :
    Keeps s (writePacked a0 a1 a2 a3 a4 a5) := by
  unfold writePacked
  repeat' first
    | with_reducible assumption
    | simp only [Keeps.upd_iff]
    | with_reducible apply wr_keeps
    | with_reducible apply Keeps.ite

theorem dropPlaces_keeps {s : State} {a0 : State} (a1 : Nat) (h0 : Keeps s a0) :
    Keeps s (dropPlaces a0 a1) := by
  unfold dropPlaces
  repeat' first
    | with_reducible assumption
    | simp only [Keeps.upd_iff]

theorem applyShadow_keeps {s : State} {a0 : State} (a1 : Nat) (h0 : Keeps s a0) :
    Keeps s (applyShadow a0 a1) := by
  unfold applyShadow
  repeat' first
    | with_reducible assumption
    | simp only [Keeps.upd_iff]
    | with_reducible apply dropPlaces_keeps
    | with_reducible apply setEntV_keeps
    | (split)

theorem takePlaces_keeps {s : State} {a0 : State} (a1 : Nat) (a2 : List Nat) (h0 : Keeps s a0) :
    Keeps s (takePlaces a0 a1 a2) := by
  unfold takePlaces
  repeat' first
    | (intro _)
    | with_reducible assumption
    | simp only [Keeps.upd_iff]
    | with_reducible apply applyShadow_keeps
    | with_reducible apply Keeps.ite
    | with_reducible apply Keeps.fold
    | (split)

theorem settleOps_keeps {s : State} {a0 : State} (h0 : Keeps s a0) :
    Keeps s (settleOps a0) := by
  unfold settleOps
  repeat' first
    | (intro _)
    | with_reducible assumption
    | with_reducible apply takePlaces_keeps
    | with_reducible apply Keeps.fold

theorem settleStep_keeps {s : State} {a0 : State} (a1 : Nat) (h0 : Keeps s a0) :
    Keeps s (settleStep a0 a1) := by
  unfold settleStep
  repeat' first
    | (intro _)
    | with_reducible assumption
    | simp only [Keeps.upd_iff]
    | with_reducible apply takePlaces_keeps
    | with_reducible apply Keeps.fold

theorem settleReset_keeps {s : State} {a0 : State} (a1 : EEff) (a2 : Option Nat) (h0 : Keeps s a0) :
    Keeps s (settleReset a0 a1 a2) := by
  unfold settleReset
  repeat' first
    | (intro _)
    | with_reducible assumption
    | with_reducible apply applyShadow_keeps
    | with_reducible apply Keeps.fold

theorem putEntry_keeps {s : State} {a0 : State} (a1 : Nat) (a2 : Val) (h0 : Keeps s a0) :
    Keeps s (putEntry a0 a1 a2) := by
  unfold putEntry
  repeat' first
    | (intro _)
    | with_reducible assumption
    | simp only [Keeps.upd_iff]
    | with_reducible apply settleOps_keeps
    | with_reducible apply applyShadow_keeps
    | with_reducible apply setEntV_keeps
    | with_reducible apply Keeps.ite
    | with_reducible apply Keeps.fold
    | (split)

theorem signalQueue_keeps {s : State} {a0 : State} (a1 : Nat) (a2 : Queue) (h0 : Keeps s a0) :
    Keeps s (signalQueue a0 a1 a2) := by
  unfold signalQueue
  repeat' first
    | with_reducible assumption
    | simp only [Keeps.upd_iff]
    | with_reducible apply modQueue_keeps
    | with_reducible apply toHost_keeps
    | with_reducible apply Keeps.ite

theorem landMsg_keeps {s : State} {a0 : State} (a1 : Nat) (a2 : Held) (h0 : Keeps s a0) :
    Keeps s (landMsg a0 a1 a2) := by
  unfold landMsg
  repeat' first
    | with_reducible assumption
    | simp only [Keeps.upd_iff]
    | with_reducible apply ringWr_keeps
    | with_reducible apply modQueue_keeps
    | with_reducible apply bump_keeps
    | with_reducible apply signalQueue_keeps
    | with_reducible apply Keeps.ite
    | (split)

theorem postMsg_keeps {s : State} {a0 : State} (a1 : Nat) (a2 : Nat) (a3 : Bool) (h0 : Keeps s a0) :
    Keeps s (postMsg a0 a1 a2 a3) := by
  unfold postMsg
  repeat' first
    | with_reducible assumption
    | simp only [Keeps.upd_iff]
    | with_reducible apply modQueue_keeps
    | with_reducible apply landMsg_keeps
    | with_reducible apply bump_keeps
    | with_reducible apply Keeps.ite
    | (split)

theorem postHeld_keeps {s : State} {a0 : State} (a1 : Nat) (h0 : Keeps s a0) :
    Keeps s (postHeld a0 a1) := by
  unfold postHeld
  repeat' first
    | with_reducible assumption
    | with_reducible apply landMsg_keeps
    | with_reducible apply modQueue_keeps
    | with_reducible apply Keeps.ite
    | (split)

theorem modJob_keeps {s : State} {a0 : State} (a1 : Nat) (a2 : Job → Job) (h0 : Keeps s a0) :
    Keeps s (modJob a0 a1 a2) := by
  unfold modJob
  repeat' first
    | with_reducible assumption
    | with_reducible apply modPart_keeps

theorem modLayer_keeps {s : State} {a0 : State} (a1 : Nat) (a2 : Nat) (a3 : Layer → Layer) (h0 : Keeps s a0) :
    Keeps s (modLayer a0 a1 a2 a3) := by
  unfold modLayer
  repeat' first
    | with_reducible assumption
    | with_reducible apply modJob_keeps

theorem pleSend_keeps {s : State} {a0 : State} (a1 : Nat) (a2 : Nat) (a3 : Nat) (a4 : Nat) (a5 : Nat) (a6 : Bool) (a7 : List Nat) (h0 : Keeps s a0) :
    Keeps s (pleSend a0 a1 a2 a3 a4 a5 a6 a7) := by
  unfold pleSend
  repeat' first
    | (intro _)
    | with_reducible assumption
    | with_reducible apply sendPk_keeps
    | with_reducible apply Keeps.fold

theorem takeGroup_keeps {s : State} {a0 : State} (h0 : Keeps s a0) :
    Keeps s (takeGroup a0).2 := by
  unfold takeGroup
  repeat' first
    | with_reducible assumption
    | simp only [KeepsO_none, KeepsO_some, KeepsStart_no, KeepsStart_ends, KeepsStart_go, KeepsSyn_done, KeepsSyn_discarded, KeepsSyn_refused, KeepsCollEnd_waits, KeepsCollEnd_stopped, KeepsCollEnd_done, KeepsGatherEnd_waits, KeepsGatherEnd_stopped, KeepsGatherEnd_done, id]
    | simp only [Keeps.upd_iff]
theorem takeGroup_keeps_eq {s : State} {a0 : State} {u x} (e : takeGroup a0 = (x, u)) (h0 : Keeps s a0) : Keeps s u := by
  have k := takeGroup_keeps (s := s) h0
  rw [e] at k; exact k

theorem pleFault_keeps {s : State} {a0 : State} (a1 : Job) (a2 : Nat) (a3 : List (Nat × Nat)) (h0 : Keeps s a0) :
    Keeps s (pleFault a0 a1 a2 a3) := by
  unfold pleFault
  repeat' first
    | with_reducible assumption
    | with_reducible apply raiseOwner_keeps

theorem imageBad_keeps {s : State} {a0 : State} (a1 : Job) (a2 : Nat) (h0 : Keeps s a0) :
    Keeps s (imageBad a0 a1 a2) := by
  unfold imageBad
  repeat' first
    | with_reducible assumption
    | with_reducible apply pleFault_keeps

theorem writeImage_keeps {s : State} {a0 : State} (a1 : Nat) (h0 : Keeps s a0) :
    Keeps s (writeImage a0 a1) := by
  unfold writeImage
  repeat' first
    | with_reducible assumption
    | simp only [Keeps.upd_iff]
    | with_reducible apply imageBad_keeps
    | with_reducible apply wr_keeps
    | with_reducible apply Keeps.ite
    | (split)

theorem copySlot_countPoisonAt_keeps {s : State} {a0 : State} (a1 : Nat) (h0 : Keeps s a0) :
    Keeps s (copySlot.countPoisonAt a0 a1) := by
  unfold copySlot.countPoisonAt
  repeat' first
    | with_reducible assumption
    | with_reducible apply bump_keeps
    | with_reducible apply Keeps.ite

theorem copySlot_keeps {s : State} (a0 : Nat) (a1 : Nat) (a2 : List ((Nat × Nat) × Nat × Nat)) {a3 : State} (a4 : (Nat × Nat) × Nat × Nat) (h0 : Keeps s a3) :
    Keeps s (copySlot a0 a1 a2 a3 a4) := by
  unfold copySlot
  repeat' first
    | (intro _)
    | with_reducible assumption
    | simp only [Keeps.upd_iff]
    | with_reducible apply modJob_keeps
    | with_reducible apply copySlot_countPoisonAt_keeps
    | with_reducible apply wr_keeps
    | with_reducible apply raiseOwner_keeps
    | with_reducible apply pleSend_keeps
    | with_reducible apply Keeps.ite
    | with_reducible apply Keeps.fold
    | (split)

theorem roundOne_keeps {s : State} {a0 : State} (a1 : Nat) (h0 : Keeps s a0) :
    Keeps s (roundOne a0 a1) := by
  unfold roundOne
  repeat' first
    | (intro _)
    | with_reducible assumption
    | simp only [Keeps.upd_iff]
    | with_reducible apply takeGroup_keeps
    | with_reducible apply modJob_keeps
    | with_reducible apply pleFault_keeps
    | with_reducible apply copySlot_keeps
    | with_reducible apply Keeps.fold
    | (split)

theorem takeMap_keeps {s : State} {a0 : State} (a1 : Nat) (a2 : Nat) (a3 : List (List (Nat × Nat))) (a4 : Nat) (h0 : Keeps s a0) :
    Keeps s (takeMap a0 a1 a2 a3 a4) := by
  unfold takeMap
  repeat' first
    | with_reducible assumption
    | with_reducible apply bump_keeps
    | with_reducible apply modJob_keeps
    | with_reducible apply modLayer_keeps

theorem endAdoption_keeps {s : State} {a0 : State} (a1 : Nat) (h0 : Keeps s a0) :
    Keeps s (endAdoption a0 a1) := by
  unfold endAdoption
  repeat' first
    | with_reducible assumption
    | with_reducible apply writeImage_keeps
    | with_reducible apply modJob_keeps
    | with_reducible apply Keeps.ite
    | (split)

theorem beginAdoption_keeps {s : State} {a0 : State} (a1 : Nat) (a2 : Nat) (a3 : Nat) (a4 : List (Nat × List (List (Nat × Nat)) × Nat)) (h0 : Keeps s a0) :
    Keeps s (beginAdoption a0 a1 a2 a3 a4) := by
  unfold beginAdoption
  repeat' first
    | (intro _)
    | with_reducible assumption
    | simp only [Keeps.upd_iff]
    | with_reducible apply modJob_keeps
    | with_reducible apply takeMap_keeps
    | with_reducible apply endAdoption_keeps
    | with_reducible apply roundOne_keeps
    | with_reducible apply Keeps.ite
    | with_reducible apply Keeps.fold
    | (split)

theorem snapHists_keeps {s : State} {a0 : State} (a1 : Nat) (a2 : Nat) (a3 : Nat) (h0 : Keeps s a0) :
    Keeps s (snapHists a0 a1 a2 a3) := by
  unfold snapHists
  repeat' first
    | with_reducible assumption
    | simp only [Keeps.upd_iff]
    | with_reducible apply modJob_keeps

theorem dropDecisions_keeps {s : State} {a0 : State} (a1 : Nat) (h0 : Keeps s a0) :
    Keeps s (dropDecisions a0 a1) := by
  unfold dropDecisions
  repeat' first
    | with_reducible assumption
    | with_reducible apply modJob_keeps

theorem adoptStep_keeps {s : State} {a0 : State} (a1 : Nat) (a2 : Nat) (h0 : Keeps s a0) :
    Keeps s (adoptStep a0 a1 a2) := by
  unfold adoptStep
  repeat' first
    | with_reducible assumption
    | simp only [Keeps.upd_iff]
    | with_reducible apply dropDecisions_keeps
    | with_reducible apply beginAdoption_keeps
    | with_reducible apply modJob_keeps
    | with_reducible apply imageBad_keeps
    | with_reducible apply snapHists_keeps
    | with_reducible apply Keeps.ite
    | (split)

theorem countDispatch_keeps {s : State} {a0 : State} (a1 : Nat) (a2 : Nat) (a3 : Tbl Nat) (h0 : Keeps s a0) :
    Keeps s (countDispatch a0 a1 a2 a3) := by
  unfold countDispatch
  repeat' first
    | (intro _)
    | with_reducible assumption
    | with_reducible apply modLayer_keeps
    | with_reducible apply Keeps.ite
    | with_reducible apply Keeps.fold
    | (split)

theorem setPEnt_keeps {s : State} {a0 : State} (a1 : Nat) (a2 : Nat) (a3 : Nat) (a4 : Nat) (h0 : Keeps s a0) :
    Keeps s (setPEnt a0 a1 a2 a3 a4) := by
  unfold setPEnt
  repeat' first
    | with_reducible assumption
    | with_reducible apply setEnt_keeps

theorem stepUpdate_keeps {s : State} {a0 : State} (a1 : Nat) (a2 : Bool) (h0 : Keeps s a0) :
    Keeps s (stepUpdate a0 a1 a2) := by
  unfold stepUpdate
  repeat' first
    | with_reducible assumption
    | simp only [Keeps.upd_iff]
    | with_reducible apply setPEnt_keeps
    | with_reducible apply bump_keeps
    | with_reducible apply raiseDev_keeps
    | with_reducible apply Keeps.ite

theorem writeStepRecord_keeps {s : State} {a0 : State} (a1 : Nat) (a2 : Nat) (a3 : Nat) (a4 : Bool) (h0 : Keeps s a0) :
    Keeps s (writeStepRecord a0 a1 a2 a3 a4) := by
  unfold writeStepRecord
  repeat' first
    | with_reducible assumption
    | with_reducible apply wr_keeps
    | with_reducible apply raiseDev_keeps
    | with_reducible apply Keeps.ite
    | (split)

theorem tellGates_keeps {s : State} {a0 : State} (a1 : Nat) (a2 : Nat) (a3 : Nat) (h0 : Keeps s a0) :
    Keeps s (tellGates a0 a1 a2 a3) := by
  unfold tellGates
  repeat' first
    | (intro _)
    | with_reducible assumption
    | with_reducible apply modOp_keeps
    | with_reducible apply Keeps.ite
    | with_reducible apply Keeps.fold
    | (split)

theorem stepDone_keeps {s : State} {a0 : State} (a1 : Nat) (a2 : Bool) (h0 : Keeps s a0) :
    Keeps s (stepDone a0 a1 a2) := by
  unfold stepDone
  repeat' first
    | with_reducible assumption
    | simp only [Keeps.upd_iff]
    | with_reducible apply stepUpdate_keeps
    | with_reducible apply settleStep_keeps
    | with_reducible apply writeStepRecord_keeps
    | with_reducible apply adoptStep_keeps
    | with_reducible apply modPart_keeps
    | with_reducible apply tellGates_keeps
    | with_reducible apply Keeps.ite

theorem setObj_keeps {s : State} {a0 : State} (a1 : Nat) (a2 : SyncObj) (h0 : Keeps s a0) :
    Keeps s (setObj a0 a1 a2) := by
  unfold setObj
  repeat' first
    | with_reducible assumption
    | simp only [Keeps.upd_iff]

theorem dropWatch_keeps {s : State} {a0 : State} (a1 : Nat) (h0 : Keeps s a0) :
    Keeps s (dropWatch a0 a1) := by
  unfold dropWatch
  repeat' first
    | with_reducible assumption
    | simp only [Keeps.upd_iff]

theorem fireWatch_keeps {s : State} {a0 : State} (a1 : Nat) (a2 : Watch) (a3 : Nat) (h0 : Keeps s a0) :
    Keeps s (fireWatch a0 a1 a2 a3) := by
  unfold fireWatch
  repeat' first
    | with_reducible assumption
    | simp only [Keeps.upd_iff]
    | with_reducible apply dropWatch_keeps
    | with_reducible apply postMsg_keeps
    | with_reducible apply sendPk_keeps
    | (split)

theorem evalWatches_keeps {s : State} {a0 : State} (a1 : Nat) (h0 : Keeps s a0) :
    Keeps s (evalWatches a0 a1) := by
  unfold evalWatches
  repeat' first
    | (intro _)
    | with_reducible assumption
    | simp only [Keeps.upd_iff]
    | with_reducible apply fireWatch_keeps
    | with_reducible apply Keeps.ite
    | with_reducible apply Keeps.fold

theorem addWatch_keeps {s : State} {a0 : State} (a1 : Watch) (h0 : Keeps s a0) :
    Keeps s (addWatch a0 a1).2 := by
  unfold addWatch
  repeat' first
    | with_reducible assumption
    | simp only [KeepsO_none, KeepsO_some, KeepsStart_no, KeepsStart_ends, KeepsStart_go, KeepsSyn_done, KeepsSyn_discarded, KeepsSyn_refused, KeepsCollEnd_waits, KeepsCollEnd_stopped, KeepsCollEnd_done, KeepsGatherEnd_waits, KeepsGatherEnd_stopped, KeepsGatherEnd_done, id]
    | simp only [Keeps.upd_iff]
    | with_reducible apply bump_keeps
    | with_reducible apply fireWatch_keeps
    | with_reducible apply Keeps.ite
theorem addWatch_keeps_eq {s : State} {a0 : State} {a1 : Watch} {u x} (e : addWatch a0 a1 = (x, u)) (h0 : Keeps s a0) : Keeps s u := by
  have k := addWatch_keeps (s := s) a1 h0
  rw [e] at k; exact k

theorem engineWatch_keeps {s : State} {a0 : State} (a1 : Nat) (a2 : Nat) (h0 : Keeps s a0) :
    Keeps s (engineWatch a0 a1 a2) := by
  unfold engineWatch
  repeat' first
    | with_reducible assumption
    | with_reducible apply addWatch_keeps

theorem dropWaits_keeps {s : State} {a0 : State} (a1 : Nat) (h0 : Keeps s a0) :
    Keeps s (dropWaits a0 a1) := by
  unfold dropWaits
  repeat' first
    | with_reducible assumption
    | simp only [Keeps.upd_iff]

theorem syuFault_keeps {s : State} {a0 : State} (a1 : Option (Nat × Op)) (a2 : Nat) (a3 : List (Nat × Nat)) (h0 : Keeps s a0) :
    Keeps s (syuFault a0 a1 a2 a3) := by
  unfold syuFault
  repeat' first
    | with_reducible assumption
    | with_reducible apply raiseOp_keeps
    | with_reducible apply raiseDev_keeps
    | (split)

theorem touchObj_keeps {s : State} {a0 : State} (a1 : Nat) (a2 : SyncObj) (h0 : Keeps s a0) :
    Keeps s (touchObj a0 a1 a2) := by
  unfold touchObj
  repeat' first
    | with_reducible assumption
    | simp only [Keeps.upd_iff]
    | with_reducible apply evalWatches_keeps
    | with_reducible apply setObj_keeps

theorem poisonObj_keeps {s : State} {a0 : State} (a1 : Option (Nat × Op)) (a2 : Nat) (a3 : Nat) (a4 : List (Nat × Nat)) (h0 : Keeps s a0) :
    Keeps s (poisonObj a0 a1 a2 a3 a4) := by
  unfold poisonObj
  repeat' first
    | with_reducible assumption
    | simp only [Keeps.upd_iff]
    | with_reducible apply touchObj_keeps
    | with_reducible apply bump_keeps
    | with_reducible apply syuFault_keeps

theorem peerPoison_keeps {s : State} {a0 : State} (a1 : Nat) (a2 : Nat) (a3 : Nat) (h0 : Keeps s a0) :
    Keeps s (peerPoison a0 a1 a2 a3) := by
  unfold peerPoison
  repeat' first
    | with_reducible assumption
    | with_reducible apply poisonObj_keeps
    | with_reducible apply bump_keeps
    | with_reducible apply Keeps.ite

theorem objInit_keeps {s : State} {a0 : State} (a1 : Nat) (a2 : Nat) (a3 : Nat) (a4 : Nat) (a5 : Bool) (h0 : Keeps s a0) :
    KeepsSyn s (objInit a0 a1 a2 a3 a4 a5) := by
  unfold objInit
  repeat' first
    | with_reducible assumption
    | exact trivial
    | simp only [KeepsO_none, KeepsO_some, KeepsStart_no, KeepsStart_ends, KeepsStart_go, KeepsSyn_done, KeepsSyn_discarded, KeepsSyn_refused, KeepsCollEnd_waits, KeepsCollEnd_stopped, KeepsCollEnd_done, KeepsGatherEnd_waits, KeepsGatherEnd_stopped, KeepsGatherEnd_done, id]
    | with_reducible apply touchObj_keeps
    | with_reducible apply bump_keeps
    | with_reducible apply KeepsSyn.ite
theorem objInit_keeps_done {s : State} {a0 : State} {a1 : Nat} {a2 : Nat} {a3 : Nat} {a4 : Nat} {a5 : Bool} {u} (e : objInit a0 a1 a2 a3 a4 a5 = .done u) (h0 : Keeps s a0) : Keeps s u := by
  have k := objInit_keeps (s := s) a1 a2 a3 a4 a5 h0
  rw [e] at k; exact k

theorem objInit_keeps_disc {s : State} {a0 : State} {a1 : Nat} {a2 : Nat} {a3 : Nat} {a4 : Nat} {a5 : Bool} {u} (e : objInit a0 a1 a2 a3 a4 a5 = .discarded u) (h0 : Keeps s a0) : Keeps s u := by
  have k := objInit_keeps (s := s) a1 a2 a3 a4 a5 h0
  rw [e] at k; exact k

theorem objFree_keeps {s : State} {a0 : State} (a1 : Nat) (a2 : Nat) (a3 : Nat) (h0 : Keeps s a0) :
    KeepsSyn s (objFree a0 a1 a2 a3) := by
  unfold objFree
  repeat' first
    | with_reducible assumption
    | exact trivial
    | simp only [KeepsO_none, KeepsO_some, KeepsStart_no, KeepsStart_ends, KeepsStart_go, KeepsSyn_done, KeepsSyn_discarded, KeepsSyn_refused, KeepsCollEnd_waits, KeepsCollEnd_stopped, KeepsCollEnd_done, KeepsGatherEnd_waits, KeepsGatherEnd_stopped, KeepsGatherEnd_done, id]
    | with_reducible apply setObj_keeps
    | with_reducible apply bump_keeps
    | with_reducible apply KeepsSyn.ite
theorem objFree_keeps_done {s : State} {a0 : State} {a1 : Nat} {a2 : Nat} {a3 : Nat} {u} (e : objFree a0 a1 a2 a3 = .done u) (h0 : Keeps s a0) : Keeps s u := by
  have k := objFree_keeps (s := s) a1 a2 a3 h0
  rw [e] at k; exact k

theorem objFree_keeps_disc {s : State} {a0 : State} {a1 : Nat} {a2 : Nat} {a3 : Nat} {u} (e : objFree a0 a1 a2 a3 = .discarded u) (h0 : Keeps s a0) : Keeps s u := by
  have k := objFree_keeps (s := s) a1 a2 a3 h0
  rw [e] at k; exact k

theorem barrierDone_keeps {s : State} {a0 : State} (a1 : Nat) (a2 : SyncObj) (h0 : Keeps s a0) :
    Keeps s (barrierDone a0 a1 a2) := by
  unfold barrierDone
  repeat' first
    | with_reducible assumption
    | simp only [Keeps.upd_iff]
    | with_reducible apply touchObj_keeps
    | with_reducible apply stepDone_keeps
    | with_reducible apply setObj_keeps
    | (split)

theorem objArrive_keeps {s : State} {a0 : State} (a1 : Option (Nat × Op)) (a2 : Nat) (a3 : Nat) (a4 : Nat) (a5 : Bool) (a6 : Nat) (h0 : Keeps s a0) :
    Keeps s (objArrive a0 a1 a2 a3 a4 a5 a6) := by
  unfold objArrive
  repeat' first
    | with_reducible assumption
    | simp only [Keeps.upd_iff]
    | with_reducible apply poisonObj_keeps
    | with_reducible apply barrierDone_keeps
    | with_reducible apply touchObj_keeps
    | with_reducible apply Keeps.ite

theorem objAdd_keeps {s : State} {a0 : State} (a1 : Option (Nat × Op)) (a2 : Nat) (a3 : Int) (h0 : Keeps s a0) :
    Keeps s (objAdd a0 a1 a2 a3) := by
  unfold objAdd
  repeat' first
    | with_reducible assumption
    | simp only [Keeps.upd_iff]
    | with_reducible apply poisonObj_keeps
    | with_reducible apply touchObj_keeps
    | with_reducible apply Keeps.ite

theorem objSignal_keeps {s : State} {a0 : State} (a1 : Option (Nat × Op)) (a2 : Nat) (a3 : Nat) (a4 : Nat) (a5 : Nat) (h0 : Keeps s a0) :
    KeepsSyn s (objSignal a0 a1 a2 a3 a4 a5) := by
  unfold objSignal
  repeat' first
    | with_reducible assumption
    | exact trivial
    | simp only [KeepsO_none, KeepsO_some, KeepsStart_no, KeepsStart_ends, KeepsStart_go, KeepsSyn_done, KeepsSyn_discarded, KeepsSyn_refused, KeepsCollEnd_waits, KeepsCollEnd_stopped, KeepsCollEnd_done, KeepsGatherEnd_waits, KeepsGatherEnd_stopped, KeepsGatherEnd_done, id]
    | with_reducible apply bump_keeps
    | with_reducible apply objArrive_keeps
    | with_reducible apply touchObj_keeps
    | with_reducible apply objAdd_keeps
    | with_reducible apply Keeps.ite
    | with_reducible apply KeepsSyn.ite
theorem objSignal_keeps_done {s : State} {a0 : State} {a1 : Option (Nat × Op)} {a2 : Nat} {a3 : Nat} {a4 : Nat} {a5 : Nat} {u} (e : objSignal a0 a1 a2 a3 a4 a5 = .done u) (h0 : Keeps s a0) : Keeps s u := by
  have k := objSignal_keeps (s := s) a1 a2 a3 a4 a5 h0
  rw [e] at k; exact k

theorem objSignal_keeps_disc {s : State} {a0 : State} {a1 : Option (Nat × Op)} {a2 : Nat} {a3 : Nat} {a4 : Nat} {a5 : Nat} {u} (e : objSignal a0 a1 a2 a3 a4 a5 = .discarded u) (h0 : Keeps s a0) : Keeps s u := by
  have k := objSignal_keeps (s := s) a1 a2 a3 a4 a5 h0
  rw [e] at k; exact k

theorem engineAdd_keeps {s : State} {a0 : State} (a1 : Nat) (a2 : Nat) (h0 : Keeps s a0) :
    Keeps s (engineAdd a0 a1 a2) := by
  unfold engineAdd
  repeat' first
    | with_reducible assumption
    | (with_reducible apply objSignal_keeps_done; case e => with_reducible assumption)
    | (with_reducible apply objSignal_keeps_disc; case e => with_reducible assumption)
    | with_reducible apply raiseDev_keeps
    | (split)

theorem unsetRange_keeps {s : State} {a0 : State} (a1 : Nat) (h0 : Keeps s a0) :
    Keeps s (unsetRange a0 a1) := by
  unfold unsetRange
  repeat' first
    | (intro _)
    | with_reducible assumption
    | simp only [Keeps.upd_iff]
    | with_reducible apply dropWatch_keeps
    | with_reducible apply fireWatch_keeps
    | with_reducible apply Keeps.fold

theorem abandonOwner_keeps {s : State} {a0 : State} (a1 : Nat) (h0 : Keeps s a0) :
    Keeps s (abandonOwner a0 a1) := by
  unfold abandonOwner
  repeat' first
    | (intro _)
    | with_reducible assumption
    | simp only [Keeps.upd_iff]
    | with_reducible apply dropWatch_keeps
    | with_reducible apply touchObj_keeps
    | with_reducible apply bump_keeps
    | with_reducible apply Keeps.fold

theorem freezeObjs_keeps {s : State} {a0 : State} (a1 : Nat) (a2 : Bool) (h0 : Keeps s a0) :
    Keeps s (freezeObjs a0 a1 a2) := by
  unfold freezeObjs
  repeat' first
    | with_reducible assumption
    | simp only [Keeps.upd_iff]

end Sys2Proof.Machine
end

