-- ==== Sys2Proof/Laws/KeepsUnits.lean ====
section
/-!
SUPPORT. Laws/KeepsUnits.lean: every function of the array and walker, synchronisation, the host interface, copies, pools and memory management
passes on the commands that wait and the canonical form of memory.
-/
namespace Sys2Proof.Machine
set_option Elab.async false

theorem modWalk_keeps {s : State} {a0 : State} (a1 : Nat) (a2 : Walk → Walk) (h0 : Keeps s a0) :
    Keeps s (modWalk a0 a1 a2) := by
  unfold modWalk
  repeat' first
    | with_reducible assumption
    | simp only [Keeps.upd_iff]

theorem dropWalk_keeps {s : State} {a0 : State} (a1 : Nat) (h0 : Keeps s a0) :
    Keeps s (dropWalk a0 a1) := by
  unfold dropWalk
  repeat' first
    | with_reducible assumption
    | simp only [Keeps.upd_iff]
    | with_reducible apply dropWaits_keeps

theorem refusedStatus_keeps {s : State} {a0 : State} (a1 : Nat) (a2 : Nat) (h0 : Keeps s a0) :
    Keeps s (refusedStatus a0 a1 a2) := by
  unfold refusedStatus
  repeat' first
    | with_reducible assumption
    | with_reducible apply wr_keeps
    | with_reducible apply Keeps.ite

theorem refuseWalk_keeps {s : State} {a0 : State} (a1 : Nat) (a2 : Op) (a3 : Nat) (a4 : Bad) (h0 : Keeps s a0) :
    Keeps s (refuseWalk a0 a1 a2 a3 a4) := by
  unfold refuseWalk
  repeat' first
    | with_reducible assumption
    | simp only [Keeps.upd_iff]
    | with_reducible apply bump_keeps
    | with_reducible apply refuseOp_keeps
    | with_reducible apply dropWalk_keeps
    | with_reducible apply refusedStatus_keeps
    | with_reducible apply Keeps.ite

theorem retainTiles_keeps {s : State} {a0 : State} (a1 : Nat) (a2 : Walk) (h0 : Keeps s a0) :
    Keeps s (retainTiles a0 a1 a2) := by
  unfold retainTiles
  repeat' first
    | with_reducible assumption
    | simp only [Keeps.upd_iff]
    | with_reducible apply Keeps.ite

theorem closeWalk_keeps {s : State} {a0 : State} (a1 : Op) (a2 : Walk) (h0 : Keeps s a0) :
    Keeps s (closeWalk a0 a1 a2) := by
  unfold closeWalk
  repeat' first
    | with_reducible assumption
    | simp only [Keeps.upd_iff]
    | with_reducible apply wr_keeps
    | with_reducible apply bump_keeps
    | with_reducible apply Keeps.ite

theorem chargeArray_keeps {s : State} {a0 : State} (a1 : Nat) (a2 : Walk) (h0 : Keeps s a0) :
    Keeps s (chargeArray a0 a1 a2) := by
  unfold chargeArray
  repeat' first
    | with_reducible assumption
    | simp only [Keeps.upd_iff]
    | with_reducible apply bump_keeps
    | with_reducible apply Keeps.ite

theorem carryBits_keeps {s : State} {a0 : State} (a1 : Nat) (a2 : Op) (a3 : Walk) (h0 : Keeps s a0) :
    Keeps s (carryBits a0 a1 a2 a3) := by
  unfold carryBits
  repeat' first
    | with_reducible assumption
    | with_reducible apply modOp_keeps

theorem finishWalk_keeps {s : State} {a0 : State} (a1 : Nat) (a2 : Op) (a3 : Walk) (h0 : Keeps s a0) :
    Keeps s (finishWalk a0 a1 a2 a3) := by
  unfold finishWalk
  repeat' first
    | with_reducible assumption
    | with_reducible apply doneOp_keeps
    | with_reducible apply carryBits_keeps
    | with_reducible apply dropWalk_keeps
    | with_reducible apply retainTiles_keeps
    | with_reducible apply closeWalk_keeps
    | with_reducible apply chargeArray_keeps

theorem returnAhead_keeps {s : State} {a0 : State} (a1 : Nat) (h0 : Keeps s a0) :
    Keeps s (returnAhead a0 a1) := by
  unfold returnAhead
  repeat' first
    | (intro _)
    | with_reducible assumption
    | with_reducible apply modOp_keeps
    | with_reducible apply dropWalk_keeps
    | with_reducible apply Keeps.ite
    | with_reducible apply Keeps.fold

theorem stopWalk_keeps {s : State} {a0 : State} (a1 : Nat) (a2 : Op) (a3 : Walk) (a4 : Nat) (a5 : Nat) (a6 : List (Nat × Nat)) (h0 : Keeps s a0) :
    Keeps s (stopWalk a0 a1 a2 a3 a4 a5 a6) := by
  unfold stopWalk
  repeat' first
    | with_reducible assumption
    | with_reducible apply stopOp_keeps
    | with_reducible apply carryBits_keeps
    | with_reducible apply dropWalk_keeps
    | with_reducible apply closeWalk_keeps
    | with_reducible apply chargeArray_keeps

theorem quitWalk_keeps {s : State} {a0 : State} (a1 : Nat) (a2 : Op) (a3 : Head) (a4 : Walk) (h0 : Keeps s a0) :
    Keeps s (quitWalk a0 a1 a2 a3 a4) := by
  unfold quitWalk
  repeat' first
    | with_reducible assumption
    | with_reducible apply carryBits_keeps
    | with_reducible apply dropWalk_keeps
    | with_reducible apply closeWalk_keeps
    | with_reducible apply chargeArray_keeps
    | with_reducible apply returnAhead_keeps
    | with_reducible apply Keeps.ite

theorem lostWalk_keeps {s : State} {a0 : State} (a1 : Nat) (a2 : Op) (a3 : Head) (a4 : Walk) (a5 : Nat) (a6 : Nat) (a7 : List (Nat × Nat)) (h0 : Keeps s a0) :
    Keeps s (lostWalk a0 a1 a2 a3 a4 a5 a6 a7) := by
  unfold lostWalk
  repeat' first
    | with_reducible assumption
    | with_reducible apply rerunOp_keeps
    | with_reducible apply quitWalk_keeps

theorem planWalk_keeps {s : State} {a0 : State} (a1 : Nat) (a2 : Op) (a3 : Head) (a4 : Walk) (h0 : Keeps s a0) :
    Keeps s (planWalk a0 a1 a2 a3 a4) := by
  unfold planWalk
  repeat' first
    | with_reducible assumption
    | simp only [Keeps.upd_iff]
    | with_reducible apply refuseWalk_keeps
    | with_reducible apply bump_keeps
    | with_reducible apply finishWalk_keeps
    | with_reducible apply Keeps.ite
    | (split)

theorem startWalk_keeps {s : State} {a0 : State} (a1 : Nat) (a2 : Op) (a3 : Head) (a4 : Walk) (h0 : Keeps s a0) :
    Keeps s (startWalk a0 a1 a2 a3 a4) := by
  unfold startWalk
  repeat' first
    | with_reducible assumption
    | simp only [Keeps.upd_iff]
    | with_reducible apply planWalk_keeps
    | with_reducible apply refuseWalk_keeps
    | with_reducible apply engineWatch_keeps
    | with_reducible apply dropWaits_keeps
    | with_reducible apply Keeps.ite
    | (split)

theorem startGrouped_keeps {s : State} (a0 : Nat) {a1 : State} (a2 : Queue) (a3 : Op) (a4 : Head) (h0 : Keeps s a1) :
    Keeps s (startGrouped a0 a1 a2 a3 a4) := by
  unfold startGrouped
  repeat' first
    | with_reducible assumption
    | simp only [Keeps.upd_iff]
    | with_reducible apply badPtr_keeps
    | with_reducible apply refuseWalk_keeps
    | with_reducible apply startWalk_keeps
    | with_reducible apply Keeps.ite
    | (split)

theorem startMatrix_keeps {s : State} (a0 : Nat) {a1 : State} (a2 : Queue) (a3 : Op) (a4 : Head) (h0 : Keeps s a1) :
    Keeps s (startMatrix a0 a1 a2 a3 a4) := by
  unfold startMatrix
  repeat' first
    | with_reducible assumption
    | simp only [Keeps.upd_iff]
    | with_reducible apply badPtr_keeps
    | with_reducible apply refuseWalk_keeps
    | with_reducible apply startWalk_keeps
    | with_reducible apply Keeps.ite
    | (split)

theorem writeRow_keeps {s : State} {a0 : State} (a1 : Prob) (a2 : Nat) (a3 : Nat) (a4 : RowOut) (h0 : Keeps s a0) :
    Keeps s (writeRow a0 a1 a2 a3 a4) := by
  unfold writeRow
  repeat' first
    | with_reducible assumption
    | simp only [Keeps.upd_iff]
    | with_reducible apply writePacked_keeps
    | with_reducible apply wr_keeps
    | with_reducible apply Keeps.ite

theorem runRow_keeps {s : State} (a0 : Nat) (a1 : Prob) (a2 : List (Nat × Bool)) (a3 : Nat) (a4 : List Col) (a5 : List Fp) (a6 : Bool) (a7 : Nat) {a8 : RowsAcc} (h0 : Keeps s a8.s) :
    Keeps s (runRow a0 a1 a2 a3 a4 a5 a6 a7 a8).s := by
  unfold runRow
  repeat' first
    | with_reducible assumption
    | simp only [Keeps.upd_iff]
    | with_reducible apply writeRow_keeps
    | with_reducible apply wr_keeps
    | (split)

theorem runRows_keeps {s : State} (a0 : Nat) (a1 : Prob) (a2 : List (Nat × Bool)) (a3 : Nat) (a4 : List Col) (a5 : List Fp) (a6 : Bool) (a7 : List Nat) {a8 : RowsAcc} (h0 : Keeps s a8.s) :
    Keeps s (runRows a0 a1 a2 a3 a4 a5 a6 a7 a8).s := by
  induction a7 generalizing a8 with
  | nil =>
    unfold runRows
    repeat' first
      | with_reducible assumption
  | cons hd tl ih =>
    unfold runRows
    repeat' first
      | with_reducible assumption
      | simp only [Keeps.upd_iff]
      | with_reducible apply ih
      | with_reducible apply runRow_keeps
      | (split)

theorem runChain_keeps {s : State} {a0 : State} (a1 : Walk) (a2 : Nat) (a3 : Chain) (a4 : Bool) (h0 : Keeps s a0) :
    Keeps s (runChain a0 a1 a2 a3 a4).s := by
  unfold runChain
  repeat' first
    | with_reducible assumption
    | simp only [Keeps.upd_iff]
    | with_reducible apply runRows_keeps
    | (split)

theorem drainCounters_keeps {s : State} {a0 : State} {a1 : RowsAcc} (h0 : Keeps s a0) (h1 : Keeps s a1.s) :
    Keeps s (drainCounters a0 a1) := by
  unfold drainCounters
  repeat' first
    | (intro _)
    | with_reducible assumption
    | simp only [Keeps.upd_iff]
    | with_reducible apply bump_keeps
    | with_reducible apply Keeps.ite
    | with_reducible apply Keeps.fold

theorem chainCounters_keeps {s : State} {a0 : State} (a1 : Walk) (a2 : Nat) (a3 : Nat) (a4 : Chain) (h0 : Keeps s a0) :
    Keeps s (chainCounters a0 a1 a2 a3 a4) := by
  unfold chainCounters
  repeat' first
    | (intro _)
    | with_reducible assumption
    | simp only [Keeps.upd_iff]
    | with_reducible apply bump_keeps
    | with_reducible apply Keeps.ite
    | with_reducible apply Keeps.fold

theorem takeArray_keeps {s : State} {a0 : State} (a1 : Nat) (a2 : Walk) (a3 : Drr) (h0 : Keeps s a0) :
    Keeps s (takeArray a0 a1 a2 a3) := by
  unfold takeArray
  dsimp only
  refine Keeps.updMem h0 (fun w => ?_)
  split
  · exact w
  · exact spoilTile_wf w _ _

theorem holdArray_keeps {s : State} {a0 : State} (a1 : Nat) (a2 : Walk) (h0 : Keeps s a0) :
    KeepsO id s (holdArray a0 a1 a2) := by
  unfold holdArray
  repeat' first
    | with_reducible assumption
    | exact trivial
    | simp only [KeepsO_none, KeepsO_some, KeepsStart_no, KeepsStart_ends, KeepsStart_go, KeepsSyn_done, KeepsSyn_discarded, KeepsSyn_refused, KeepsCollEnd_waits, KeepsCollEnd_stopped, KeepsCollEnd_done, KeepsGatherEnd_waits, KeepsGatherEnd_stopped, KeepsGatherEnd_done, id]
    | with_reducible apply takeArray_keeps
    | with_reducible apply KeepsO.ite
    | (split)
theorem holdArray_keeps_eq {s : State} {a0 : State} {a1 : Nat} {a2 : Walk} {u} (e : holdArray a0 a1 a2 = some u) (h0 : Keeps s a0) : Keeps s u := by
  have k := holdArray_keeps (s := s) a1 a2 h0
  rw [e] at k; exact k

theorem streamChain_keeps {s : State} {a0 : State} (a1 : Nat) (a2 : Op) (a3 : Walk) (a4 : Nat) (a5 : Chain) (a6 : Bool) (h0 : Keeps s a0) :
    Keeps s (streamChain a0 a1 a2 a3 a4 a5 a6) := by
  unfold streamChain
  repeat' first
    | with_reducible assumption
    | simp only [Keeps.upd_iff]
    | with_reducible apply runChain_keeps
    | with_reducible apply drainCounters_keeps
    | with_reducible apply stopWalk_keeps
    | with_reducible apply countPoison_keeps
    | with_reducible apply chainCounters_keeps
    | with_reducible apply Keeps.ite
    | (split)

theorem faultBand_keeps {s : State} {a0 : State} (a1 : Nat) (h0 : Keeps s a0) :
    Keeps s (faultBand a0 a1) := by
  unfold faultBand
  repeat' first
    | with_reducible assumption
    | simp only [Keeps.upd_iff]

theorem syRefuse_keeps {s : State} {a0 : State} (a1 : Nat) (a2 : Op) (a3 : Nat) (a4 : List (Nat × Nat)) (h0 : Keeps s a0) :
    Keeps s (syRefuse a0 a1 a2 a3 a4) := by
  unfold syRefuse
  repeat' first
    | with_reducible assumption
    | with_reducible apply refuseOp_keeps

theorem sySend_keeps {s : State} {a0 : State} (a1 : Nat) (a2 : Op) (a3 : Nat) (a4 : Nat) (a5 : List Nat) (h0 : Keeps s a0) :
    Keeps s (sySend a0 a1 a2 a3 a4 a5) := by
  unfold sySend
  repeat' first
    | with_reducible assumption
    | with_reducible apply refuseOp_keeps
    | with_reducible apply endOp_keeps
    | with_reducible apply sendPk_keeps
    | (split)

theorem syObject_keeps {s : State} (a0 : Nat) (a1 : Nat) {a2 : State} (a3 : Queue) (a4 : Op) (a5 : Head) (h0 : Keeps s a2) :
    Keeps s (syObject a0 a1 a2 a3 a4 a5) := by
  unfold syObject
  repeat' first
    | with_reducible assumption
    | simp only [Keeps.upd_iff]
    | with_reducible apply syRefuse_keeps
    | with_reducible apply sySend_keeps
    | with_reducible apply objInit_keeps
    | with_reducible apply objFree_keeps
    | with_reducible apply objSignal_keeps
    | with_reducible apply endOp_keeps
    | with_reducible apply Keeps.ite
    | with_reducible apply KeepsSyn.ite
    | (with_reducible apply KeepsSyn.of_done; case e => with_reducible assumption)
    | (with_reducible apply KeepsSyn.of_discarded; case e => with_reducible assumption)
    | (split)

theorem syExec_keeps {s : State} (a0 : Nat) (a1 : Nat) {a2 : State} (h0 : Keeps s a2) :
    Keeps s (syExec a0 a1 a2) := by
  unfold syExec
  repeat' first
    | (intro _)
    | with_reducible assumption
    | with_reducible apply runHead_keeps
    | with_reducible apply syObject_keeps

theorem syArrive_keeps {s : State} (a0 : Nat) {a1 : State} (a2 : Queue) (a3 : Op) (a4 : Head) (h0 : Keeps s a1) :
    Keeps s (syArrive a0 a1 a2 a3 a4) := by
  unfold syArrive
  repeat' first
    | with_reducible assumption
    | with_reducible apply syObject_keeps
    | with_reducible apply modOp_keeps
    | with_reducible apply modPart_keeps
    | with_reducible apply Keeps.ite
    | (split)

theorem syWatch_keeps {s : State} (a0 : Nat) {a1 : State} (a2 : Queue) (a3 : Op) (a4 : Head) (h0 : Keeps s a1) :
    Keeps s (syWatch a0 a1 a2 a3 a4) := by
  unfold syWatch
  repeat' first
    | with_reducible assumption
    | simp only [Keeps.upd_iff]
    | with_reducible apply badPtr_keeps
    | with_reducible apply syRefuse_keeps
    | with_reducible apply takeFree_keeps
    | with_reducible apply modOp_keeps
    | with_reducible apply sySend_keeps
    | with_reducible apply addWatch_keeps
    | with_reducible apply endOp_keeps
    | with_reducible apply Keeps.ite
    | (split)

theorem syUnwatch_keeps {s : State} (a0 : Nat) {a1 : State} (a2 : Queue) (a3 : Op) (a4 : Head) (h0 : Keeps s a1) :
    Keeps s (syUnwatch a0 a1 a2 a3 a4) := by
  unfold syUnwatch
  repeat' first
    | with_reducible assumption
    | simp only [Keeps.upd_iff]
    | with_reducible apply takeFree_keeps
    | with_reducible apply modOp_keeps
    | with_reducible apply sySend_keeps
    | with_reducible apply endOp_keeps
    | with_reducible apply dropWatch_keeps
    | with_reducible apply syRefuse_keeps
    | with_reducible apply Keeps.ite
    | (split)

theorem syRead_keeps {s : State} (a0 : Nat) {a1 : State} (a2 : Queue) (a3 : Op) (a4 : Head) (h0 : Keeps s a1) :
    Keeps s (syRead a0 a1 a2 a3 a4) := by
  unfold syRead
  repeat' first
    | with_reducible assumption
    | simp only [Keeps.upd_iff]
    | with_reducible apply badPtr_keeps
    | with_reducible apply syRefuse_keeps
    | with_reducible apply endOp_keeps
    | with_reducible apply wr_keeps
    | with_reducible apply Keeps.ite

theorem syTaskBegin_keeps {s : State} (a0 : Nat) {a1 : State} (a2 : Queue) (a3 : Op) (a4 : Head) (h0 : Keeps s a1) :
    Keeps s (syTaskBegin a0 a1 a2 a3 a4) := by
  unfold syTaskBegin
  repeat' first
    | with_reducible assumption
    | simp only [Keeps.upd_iff]
    | with_reducible apply syRefuse_keeps
    | with_reducible apply badPtr_keeps
    | with_reducible apply endOp_keeps
    | with_reducible apply Keeps.ite
    | (split)

theorem residueFaults_keeps {s : State} {a0 : State} (a1 : Nat) (a2 : Op) (a3 : Nat) (a4 : Nat) (a5 : List (Nat × Nat)) (h0 : Keeps s a0) :
    Keeps s (residueFaults a0 a1 a2 a3 a4 a5) := by
  induction a5 generalizing a0 a4 with
  | nil =>
    unfold residueFaults
    repeat' first
      | with_reducible assumption
  | cons hd tl ih =>
    unfold residueFaults
    repeat' first
      | with_reducible assumption
      | simp only [Keeps.upd_iff]
      | with_reducible apply ih
      | with_reducible apply bump_keeps
      | with_reducible apply raiseOp_keeps
      | with_reducible apply Keeps.ite

theorem syTaskEnd_keeps {s : State} (a0 : Nat) {a1 : State} (a2 : Queue) (a3 : Op) (a4 : Head) (h0 : Keeps s a1) :
    Keeps s (syTaskEnd a0 a1 a2 a3 a4) := by
  unfold syTaskEnd
  repeat' first
    | with_reducible assumption
    | simp only [Keeps.upd_iff]
    | with_reducible apply syRefuse_keeps
    | with_reducible apply endOp_keeps
    | with_reducible apply residueFaults_keeps
    | (split)

theorem waitEnds_keeps {s : State} {a0 : State} (a1 : Nat) (a2 : Op) (h0 : Keeps s a0) :
    Keeps s (waitEnds a0 a1 a2) := by
  unfold waitEnds
  repeat' first
    | with_reducible assumption
    | with_reducible apply endOp_keeps
    | with_reducible apply dropWaits_keeps
    | with_reducible apply refuseOp_keeps
    | (split)

theorem syWait_keeps {s : State} (a0 : Nat) {a1 : State} (a2 : Queue) (a3 : Op) (a4 : Head) (h0 : Keeps s a1) :
    Keeps s (syWait a0 a1 a2 a3 a4) := by
  unfold syWait
  repeat' first
    | with_reducible assumption
    | simp only [Keeps.upd_iff]
    | with_reducible apply badPtr_keeps
    | with_reducible apply syRefuse_keeps
    | with_reducible apply waitEnds_keeps
    | with_reducible apply engineWatch_keeps
    | with_reducible apply refuseOp_keeps
    | with_reducible apply sendPk_keeps
    | with_reducible apply Keeps.ite
    | (split)

theorem writeSnapshot_keeps {s : State} {a0 : State} (a1 : Nat) (a2 : List (Nat × Nat)) (h0 : Keeps s a0) :
    Keeps s (writeSnapshot a0 a1 a2) := by
  unfold writeSnapshot
  repeat' first
    | with_reducible assumption
    | simp only [Keeps.upd_iff]
    | with_reducible apply wr_keeps
    | with_reducible apply Keeps.ite
    | (split)

theorem samplePart_keeps {s : State} {a0 : State} (a1 : Nat) (h0 : Keeps s a0) :
    Keeps s (samplePart a0 a1) := by
  unfold samplePart
  repeat' first
    | with_reducible assumption
    | simp only [Keeps.upd_iff]
    | with_reducible apply bump_keeps
    | with_reducible apply raiseDev_keeps
    | with_reducible apply writeSnapshot_keeps
    | with_reducible apply Keeps.ite
    | (split)

theorem issueRead_keeps {s : State} {a0 : State} (a1 : Nat) (h0 : Keeps s a0) :
    Keeps s (issueRead a0 a1) := by
  unfold issueRead
  repeat' first
    | with_reducible assumption
    | with_reducible apply toHost_keeps
    | with_reducible apply Keeps.ite
    | (split)

theorem doorbell_keeps {s : State} {a0 : State} (a1 : Nat) (a2 : Nat) (a3 : Nat) (a4 : State → Nat → Queue → Nat → State) (h0 : Keeps s a0) (hf : ∀ t q x n, Keeps s t → Keeps s (a4 t q x n)) :
    Keeps s (doorbell a0 a1 a2 a3 a4) := by
  unfold doorbell
  repeat' first
    | with_reducible assumption
    | simp only [Keeps.upd_iff]
    | with_reducible apply hf
    | with_reducible apply bump_keeps
    | with_reducible apply raiseDev_keeps
    | with_reducible apply Keeps.ite
    | (split)

theorem submit_keeps {s : State} {a0 : State} (a1 : Nat) (a2 : Queue) (a3 : Nat) (h0 : Keeps s a0) :
    Keeps s (submit a0 a1 a2 a3) := by
  unfold submit
  repeat' first
    | with_reducible assumption
    | simp only [Keeps.upd_iff]
    | with_reducible apply modQueue_keeps
    | with_reducible apply issueRead_keeps
    | with_reducible apply Keeps.ite

theorem consume_keeps {s : State} {a0 : State} (a1 : Nat) (a2 : Queue) (a3 : Nat) (h0 : Keeps s a0) :
    Keeps s (consume a0 a1 a2 a3) := by
  unfold consume
  repeat' first
    | with_reducible assumption
    | simp only [Keeps.upd_iff]
    | with_reducible apply modQueue_keeps
    | with_reducible apply Keeps.ite

theorem applySignal_keeps {s : State} {a0 : State} (a1 : Nat) (a2 : Queue) (a3 : Op) (h0 : Keeps s a0) :
    Keeps s (applySignal a0 a1 a2 a3) := by
  unfold applySignal
  repeat' first
    | with_reducible assumption
    | with_reducible apply raiseOp_keeps
    | with_reducible apply peerPoison_keeps
    | (with_reducible apply objSignal_keeps_done; case e => with_reducible assumption)
    | (with_reducible apply objSignal_keeps_disc; case e => with_reducible assumption)
    | with_reducible apply Keeps.ite
    | (split)

theorem postCompletion_keeps {s : State} {a0 : State} (a1 : Nat) (a2 : Nat) (h0 : Keeps s a0) :
    Keeps s (postCompletion a0 a1 a2) := by
  unfold postCompletion
  repeat' first
    | with_reducible assumption
    | simp only [Keeps.upd_iff]
    | with_reducible apply modOp_keeps
    | with_reducible apply postMsg_keeps
    | with_reducible apply modQueue_keeps
    | with_reducible apply bump_keeps
    | with_reducible apply Keeps.ite
    | (split)

theorem settlePreempt_keeps {s : State} {a0 : State} (a1 : Nat) (h0 : Keeps s a0) :
    Keeps s (settlePreempt a0 a1) := by
  unfold settlePreempt
  repeat' first
    | with_reducible assumption
    | with_reducible apply modOwner_keeps
    | with_reducible apply Keeps.ite

theorem freeUnits_keeps {s : State} {a0 : State} (a1 : Nat) (h0 : Keeps s a0) :
    Keeps s (freeUnits a0 a1) := by
  unfold freeUnits
  repeat' first
    | with_reducible assumption
    | simp only [Keeps.upd_iff]

theorem ringHoldoffEnds_keeps {s : State} {a0 : State} (a1 : Nat) (h0 : Keeps s a0) :
    Keeps s (ringHoldoffEnds a0 a1) := by
  unfold ringHoldoffEnds
  repeat' first
    | with_reducible assumption
    | simp only [Keeps.upd_iff]
    | with_reducible apply toHost_keeps
    | with_reducible apply modOwner_keeps
    | with_reducible apply Keeps.ite

theorem dropHead_keeps {s : State} {a0 : State} (a1 : Nat) (h0 : Keeps s a0) :
    Keeps s (dropHead a0 a1) := by
  unfold dropHead
  repeat' first
    | with_reducible assumption
    | simp only [Keeps.upd_iff]
    | with_reducible apply dropWalk_keeps
    | with_reducible apply freeUnits_keeps

theorem loseOp_keeps {s : State} {a0 : State} (a1 : Nat) (a2 : Nat) (a3 : Queue) (a4 : Op) (h0 : Keeps s a0) :
    Keeps s (loseOp a0 a1 a2 a3 a4) := by
  unfold loseOp
  repeat' first
    | with_reducible assumption
    | simp only [Keeps.upd_iff]
    | with_reducible apply endOp_keeps
    | with_reducible apply raiseOp_keeps
    | with_reducible apply peerPoison_keeps
    | with_reducible apply clearLocalFinite_keeps
    | with_reducible apply postCompletion_keeps
    | with_reducible apply Keeps.ite
    | (split)

theorem loseQueue_keeps {s : State} {a0 : State} (a1 : Nat) (a2 : Nat) (h0 : Keeps s a0) :
    Keeps s (loseQueue a0 a1 a2) := by
  unfold loseQueue
  repeat' first
    | (intro _)
    | with_reducible assumption
    | simp only [Keeps.upd_iff]
    | with_reducible apply bump_keeps
    | with_reducible apply postMsg_keeps
    | with_reducible apply modQueue_keeps
    | with_reducible apply dropHead_keeps
    | with_reducible apply loseOp_keeps
    | with_reducible apply Keeps.fold
    | (split)

theorem loseQueues_keeps {s : State} {a0 : State} (a1 : Nat) (a2 : Queue → Bool) (h0 : Keeps s a0) :
    Keeps s (loseQueues a0 a1 a2) := by
  unfold loseQueues
  repeat' first
    | (intro _)
    | with_reducible assumption
    | with_reducible apply loseQueue_keeps
    | with_reducible apply Keeps.fold

theorem journalStackFails_keeps {s : State} {a0 : State} (a1 : Nat) (h0 : Keeps s a0) :
    Keeps s (journalStackFails a0 a1) := by
  unfold journalStackFails
  repeat' first
    | with_reducible assumption
    | simp only [Keeps.upd_iff]
    | with_reducible apply raiseDev_keeps
    | with_reducible apply loseQueues_keeps
    | with_reducible apply Keeps.ite

theorem makeQueue_keeps {s : State} {a0 : State} (a1 : Nat) (a2 : Nat) (h0 : Keeps s a0) :
    Keeps s (makeQueue a0 a1 a2) := by
  unfold makeQueue
  repeat' first
    | with_reducible assumption
    | simp only [Keeps.upd_iff]

theorem offAdmin_keeps {s : State} {a0 : State} (a1 : Nat) (a2 : Op) (a3 : Nat) (h0 : Keeps s a0) :
    Keeps s (offAdmin a0 a1 a2 a3) := by
  unfold offAdmin
  repeat' first
    | with_reducible assumption
    | with_reducible apply refuseOp_keeps

theorem queueMake_keeps {s : State} (a0 : Nat) {a1 : State} (a2 : Queue) (a3 : Op) (a4 : Head) (h0 : Keeps s a1) :
    Keeps s (queueMake a0 a1 a2 a3 a4) := by
  unfold queueMake
  repeat' first
    | with_reducible assumption
    | with_reducible apply offAdmin_keeps
    | with_reducible apply refuseOp_keeps
    | with_reducible apply endOp_keeps
    | with_reducible apply modOp_keeps
    | with_reducible apply makeQueue_keeps
    | with_reducible apply Keeps.ite
    | (split)

theorem queueEnd_keeps {s : State} (a0 : Nat) {a1 : State} (a2 : Queue) (a3 : Op) (a4 : Head) (h0 : Keeps s a1) :
    Keeps s (queueEnd a0 a1 a2 a3 a4) := by
  unfold queueEnd
  repeat' first
    | with_reducible assumption
    | simp only [Keeps.upd_iff]
    | with_reducible apply offAdmin_keeps
    | with_reducible apply endOp_keeps
    | with_reducible apply refuseOp_keeps
    | with_reducible apply Keeps.ite
    | (split)

theorem queueShow_keeps {s : State} (a0 : Nat) {a1 : State} (a2 : Queue) (a3 : Op) (a4 : Head) (h0 : Keeps s a1) :
    Keeps s (queueShow a0 a1 a2 a3 a4) := by
  unfold queueShow
  repeat' first
    | with_reducible assumption
    | simp only [Keeps.upd_iff]
    | with_reducible apply endOp_keeps
    | with_reducible apply wr_keeps
    | with_reducible apply badPtr_keeps
    | with_reducible apply Keeps.ite

theorem putRows_keeps {s : State} {a0 : State} (a1 : Nat) (a2 : Nat) (a3 : Nat) (a4 : Nat) (a5 : List (List Nat)) (h0 : Keeps s a0) :
    Keeps s (putRows a0 a1 a2 a3 a4 a5) := by
  unfold putRows
  repeat' first
    | (intro _)
    | with_reducible assumption
    | with_reducible apply writePacked_keeps
    | with_reducible apply Keeps.fold

theorem putLineBytes_keeps {s : State} {a0 : State} (a1 : Nat) (a2 : Nat → Nat → Nat) (a3 : List (List Nat)) (h0 : Keeps s a0) :
    Keeps s (putLineBytes a0 a1 a2 a3) := by
  unfold putLineBytes
  repeat' first
    | (intro _)
    | with_reducible assumption
    | with_reducible apply wr_keeps
    | with_reducible apply Keeps.fold

theorem writeCompressed_keeps {s : State} {a0 : State} (a1 : Nat) (a2 : Nat) (a3 : Nat) (a4 : Nat) (a5 : List (List Nat)) (h0 : Keeps s a0) :
    Keeps s (writeCompressed a0 a1 a2 a3 a4 a5) := by
  unfold writeCompressed
  repeat' first
    | with_reducible assumption
    | simp only [Keeps.upd_iff]
    | with_reducible apply putRows_keeps
    | with_reducible apply putLineBytes_keeps
    | with_reducible apply bump_keeps
    | with_reducible apply Keeps.ite

theorem writeExpanded_keeps {s : State} {a0 : State} (a1 : Nat) (a2 : Nat) (a3 : Nat) (a4 : Nat) (a5 : List (List Nat × List Nat)) (h0 : Keeps s a0) :
    Keeps s (writeExpanded a0 a1 a2 a3 a4 a5) := by
  unfold writeExpanded
  repeat' first
    | with_reducible assumption
    | simp only [Keeps.upd_iff]
    | with_reducible apply putRows_keeps
    | with_reducible apply putLineBytes_keeps
    | with_reducible apply Keeps.ite

theorem dmRefuse_keeps {s : State} {a0 : State} (a1 : Nat) (a2 : Op) (a3 : Nat) (a4 : List (Nat × Nat)) (h0 : Keeps s a0) :
    Keeps s (dmRefuse a0 a1 a2 a3 a4) := by
  unfold dmRefuse
  repeat' first
    | with_reducible assumption
    | with_reducible apply refuseOp_keeps

theorem dmSignal_keeps {s : State} {a0 : State} (a1 : Nat) (a2 : Op) (a3 : Nat) (h0 : Keeps s a0) :
    Keeps s (dmSignal a0 a1 a2 a3) := by
  unfold dmSignal
  repeat' first
    | with_reducible assumption
    | simp only [Keeps.upd_iff]
    | (with_reducible apply objSignal_keeps_done; case e => with_reducible assumption)
    | (with_reducible apply objSignal_keeps_disc; case e => with_reducible assumption)
    | with_reducible apply raiseOp_keeps
    | with_reducible apply Keeps.ite
    | (split)

theorem sendCopy_keeps {s : State} {a0 : State} (a1 : Nat) (a2 : Nat) (a3 : Nat) (a4 : Nat) (a5 : Nat) (a6 : Nat) (a7 : Nat) (a8 : List (Nat × List Nat)) (h0 : Keeps s a0) :
    Keeps s (sendCopy a0 a1 a2 a3 a4 a5 a6 a7 a8) := by
  unfold sendCopy
  repeat' first
    | (intro _)
    | with_reducible assumption
    | with_reducible apply sendPk_keeps
    | with_reducible apply Keeps.fold

theorem dmForm_keeps {s : State} {a0 : State} (a1 : Nat) (a2 : Op) (a3 : Nat) (a4 : Nat) (h0 : Keeps s a0) :
    Keeps s (dmForm a0 a1 a2 a3 a4) := by
  unfold dmForm
  repeat' first
    | with_reducible assumption
    | simp only [Keeps.upd_iff]
    | with_reducible apply dmRefuse_keeps
    | with_reducible apply countPoison_keeps
    | with_reducible apply badPtr_keeps
    | with_reducible apply doneOp_keeps
    | with_reducible apply dmSignal_keeps
    | with_reducible apply bump_keeps
    | with_reducible apply putRows_keeps
    | with_reducible apply writeExpanded_keeps
    | with_reducible apply modOp_keeps
    | with_reducible apply wr_keeps
    | with_reducible apply writeCompressed_keeps
    | with_reducible apply Keeps.ite
    | (split)

theorem dmPlain_keeps {s : State} {a0 : State} (a1 : Nat) (a2 : Op) (a3 : Nat) (a4 : DmaEnd) (h0 : Keeps s a0) :
    Keeps s (dmPlain a0 a1 a2 a3 a4) := by
  unfold dmPlain
  repeat' first
    | with_reducible assumption
    | simp only [Keeps.upd_iff]
    | with_reducible apply dmRefuse_keeps
    | with_reducible apply countPoison_keeps
    | with_reducible apply doneOp_keeps
    | with_reducible apply dmSignal_keeps
    | with_reducible apply putRows_keeps
    | with_reducible apply sendCopy_keeps
    | (split)

theorem askCopy_keeps {s : State} {a0 : State} (a1 : Nat) (a2 : Op) (a3 : Nat) (a4 : Nat) (h0 : Keeps s a0) :
    Keeps s (askCopy a0 a1 a2 a3 a4) := by
  unfold askCopy
  repeat' first
    | with_reducible assumption
    | with_reducible apply doneOp_keeps
    | with_reducible apply sendPk_keeps

theorem dmRun_keeps {s : State} (a0 : Nat) (a1 : Nat) {a2 : State} (a3 : Queue) (a4 : Op) (a5 : Head) (h0 : Keeps s a2) :
    Keeps s (dmRun a0 a1 a2 a3 a4 a5) := by
  unfold dmRun
  repeat' first
    | with_reducible assumption
    | simp only [Keeps.upd_iff]
    | with_reducible apply modOp_keeps
    | with_reducible apply dmRefuse_keeps
    | with_reducible apply refuseOp_keeps
    | with_reducible apply badPtr_keeps
    | with_reducible apply askCopy_keeps
    | with_reducible apply dmPlain_keeps
    | with_reducible apply dmForm_keeps
    | with_reducible apply Keeps.ite
    | (split)

theorem dmaExec_keeps {s : State} (a0 : Nat) (a1 : Nat) {a2 : State} (h0 : Keeps s a2) :
    Keeps s (dmaExec a0 a1 a2) := by
  unfold dmaExec
  repeat' first
    | (intro _)
    | with_reducible assumption
    | with_reducible apply runHead_keeps
    | with_reducible apply dmRun_keeps
    | with_reducible apply Keeps.ite
    | (split)

theorem tagGroup_keeps {s : State} {a0 : State} (a1 : Nat) (a2 : Nat) (h0 : Keeps s a0) :
    Keeps s (tagGroup a0 a1 a2) := by
  unfold tagGroup
  repeat' first
    | with_reducible assumption
    | simp only [Keeps.upd_iff]

theorem settleFence_keeps {s : State} {a0 : State} (a1 : Nat) (a2 : Op) (h0 : Keeps s a0) :
    Keeps s (settleFence a0 a1 a2) := by
  unfold settleFence
  repeat' first
    | with_reducible assumption
    | simp only [Keeps.upd_iff]
    | with_reducible apply endOp_keeps
    | with_reducible apply modOp_keeps
    | with_reducible apply Keeps.ite

theorem fenceRun_keeps {s : State} (a0 : Nat) {a1 : State} (a2 : Queue) (a3 : Op) (a4 : Head) (h0 : Keeps s a1) :
    Keeps s (fenceRun a0 a1 a2 a3 a4) := by
  unfold fenceRun
  repeat' first
    | with_reducible assumption
    | simp only [Keeps.upd_iff]
    | with_reducible apply settleFence_keeps
    | with_reducible apply tagGroup_keeps
    | with_reducible apply refuseOp_keeps
    | with_reducible apply Keeps.ite

theorem setPool_keeps {s : State} {a0 : State} (a1 : Nat) (a2 : Pool) (h0 : Keeps s a0) :
    Keeps s (setPool a0 a1 a2) := by
  unfold setPool
  repeat' first
    | with_reducible assumption
    | simp only [Keeps.upd_iff]

theorem setRec_keeps {s : State} {a0 : State} (a1 : Nat) (a2 : BufRec) (h0 : Keeps s a0) :
    Keeps s (setRec a0 a1 a2) := by
  unfold setRec
  repeat' first
    | with_reducible assumption
    | simp only [Keeps.upd_iff]

theorem writeLink_keeps {s : State} {a0 : State} (a1 : Nat) (a2 : Nat) (a3 : Nat) (h0 : Keeps s a0) :
    Keeps s (writeLink a0 a1 a2 a3) := by
  unfold writeLink
  repeat' first
    | with_reducible assumption
    | simp only [Keeps.upd_iff]
    | with_reducible apply wr_keeps

theorem failPool_keeps {s : State} {a0 : State} (a1 : Nat) (a2 : Nat) (h0 : Keeps s a0) :
    Keeps s (failPool a0 a1 a2) := by
  unfold failPool
  repeat' first
    | with_reducible assumption
    | simp only [Keeps.upd_iff]
    | with_reducible apply raiseDev_keeps
    | with_reducible apply setPool_keeps

theorem startRebuild_keeps {s : State} {a0 : State} (a1 : Nat) (h0 : Keeps s a0) :
    Keeps s (startRebuild a0 a1) := by
  unfold startRebuild
  repeat' first
    | with_reducible assumption
    | simp only [Keeps.upd_iff]
    | with_reducible apply setPool_keeps

theorem breakPool_keeps {s : State} {a0 : State} (a1 : Nat) (a2 : Nat) (a3 : Nat) (h0 : Keeps s a0) :
    Keeps s (breakPool a0 a1 a2 a3) := by
  unfold breakPool
  repeat' first
    | with_reducible assumption
    | with_reducible apply startRebuild_keeps
    | with_reducible apply raiseDev_keeps

theorem refillOne_keeps {s : State} {a0 : State} (a1 : Nat) (h0 : Keeps s a0) :
    Keeps s (refillOne a0 a1) := by
  unfold refillOne
  repeat' first
    | with_reducible assumption
    | simp only [Keeps.upd_iff]
    | with_reducible apply failPool_keeps
    | with_reducible apply breakPool_keeps
    | with_reducible apply setPool_keeps
    | with_reducible apply Keeps.ite
    | (split)

theorem refill_keeps {s : State} (a0 : Nat) (a1 : Nat) {a2 : State} (h0 : Keeps s a2) :
    Keeps s (refill a0 a1 a2) := by
  induction a1 generalizing a2 with
  | zero =>
    unfold refill
    repeat' first
      | with_reducible assumption
  | succ n ih =>
    unfold refill
    repeat' first
      | with_reducible assumption
      | with_reducible apply ih
      | with_reducible apply refillOne_keeps

theorem pushBuf_keeps {s : State} {a0 : State} (a1 : Nat) (a2 : Nat) (h0 : Keeps s a0) :
    Keeps s (pushBuf a0 a1 a2) := by
  unfold pushBuf
  repeat' first
    | with_reducible assumption
    | simp only [Keeps.upd_iff]
    | with_reducible apply writeLink_keeps
    | with_reducible apply setPool_keeps
    | with_reducible apply Keeps.ite

theorem freeBuf_keeps {s : State} {a0 : State} (a1 : Nat) (a2 : Nat) (h0 : Keeps s a0) :
    Keeps s (freeBuf a0 a1 a2) := by
  unfold freeBuf
  repeat' first
    | with_reducible assumption
    | simp only [Keeps.upd_iff]
    | with_reducible apply bump_keeps
    | with_reducible apply setRec_keeps
    | with_reducible apply setPool_keeps
    | with_reducible apply pushBuf_keeps
    | with_reducible apply Keeps.ite

theorem popBuf_keeps {s : State} {a0 : State} (a1 : Nat) (h0 : Keeps s a0) :
    Keeps s (popBuf a0 a1).1 := by
  unfold popBuf
  repeat' first
    | with_reducible assumption
    | simp only [KeepsO_none, KeepsO_some, KeepsStart_no, KeepsStart_ends, KeepsStart_go, KeepsSyn_done, KeepsSyn_discarded, KeepsSyn_refused, KeepsCollEnd_waits, KeepsCollEnd_stopped, KeepsCollEnd_done, KeepsGatherEnd_waits, KeepsGatherEnd_stopped, KeepsGatherEnd_done, id]
    | with_reducible apply refill_keeps
    | with_reducible apply failPool_keeps
    | with_reducible apply breakPool_keeps
    | with_reducible apply setPool_keeps
    | with_reducible apply Keeps.ite
    | with_reducible apply Keeps.ite1
    | (split)
theorem popBuf_keeps_eq {s : State} {a0 : State} {a1 : Nat} {u x} (e : popBuf a0 a1 = (u, x)) (h0 : Keeps s a0) : Keeps s u := by
  have k := popBuf_keeps (s := s) a1 h0
  rw [e] at k; exact k

theorem popBufs_keeps {s : State} (a0 : Nat) (a1 : Nat) {a2 : State} (h0 : Keeps s a2) :
    Keeps s (popBufs a0 a1 a2).1 := by
  induction a1 generalizing a2 with
  | zero =>
    unfold popBufs
    repeat' first
      | with_reducible assumption
  | succ n ih =>
    unfold popBufs
    repeat' first
      | with_reducible assumption
      | simp only [KeepsO_none, KeepsO_some, KeepsStart_no, KeepsStart_ends, KeepsStart_go, KeepsSyn_done, KeepsSyn_discarded, KeepsSyn_refused, KeepsCollEnd_waits, KeepsCollEnd_stopped, KeepsCollEnd_done, KeepsGatherEnd_waits, KeepsGatherEnd_stopped, KeepsGatherEnd_done, id]
      | with_reducible apply ih
      | (with_reducible apply popBuf_keeps_eq; case e => with_reducible assumption)
      | (split)
theorem popBufs_keeps_eq {s : State} {a0 : Nat} {a1 : Nat} {a2 : State} {u x} (e : popBufs a0 a1 a2 = (u, x)) (h0 : Keeps s a2) : Keeps s u := by
  have k := popBufs_keeps (s := s) a0 a1 h0
  rw [e] at k; exact k

theorem walkChain_keeps {s : State} (a0 : Nat) (a1 : Bool) (a2 : Nat) {a3 : State} (a4 : Option Nat) (a5 : Nat) (h0 : Keeps s a3) :
    Keeps s (walkChain a0 a1 a2 a3 a4 a5).1 := by
  induction a2 generalizing a3 a4 a5 with
  | zero =>
    unfold walkChain
    repeat' first
      | with_reducible assumption
  | succ n ih =>
    unfold walkChain
    repeat' first
      | with_reducible assumption
      | simp only [KeepsO_none, KeepsO_some, KeepsStart_no, KeepsStart_ends, KeepsStart_go, KeepsSyn_done, KeepsSyn_discarded, KeepsSyn_refused, KeepsCollEnd_waits, KeepsCollEnd_stopped, KeepsCollEnd_done, KeepsGatherEnd_waits, KeepsGatherEnd_stopped, KeepsGatherEnd_done, id]
      | with_reducible apply ih
      | with_reducible apply popBufs_keeps
      | with_reducible apply Keeps.ite1
theorem walkChain_keeps_eq {s : State} {a0 : Nat} {a1 : Bool} {a2 : Nat} {a3 : State} {a4 : Option Nat} {a5 : Nat} {u x} (e : walkChain a0 a1 a2 a3 a4 a5 = (u, x)) (h0 : Keeps s a3) : Keeps s u := by
  have k := walkChain_keeps (s := s) a0 a1 a2 a4 a5 h0
  rw [e] at k; exact k

theorem grantBuf_keeps {s : State} (a0 : Nat) (a1 : Nat) (a2 : Nat) {a3 : State} (a4 : Nat) (h0 : Keeps s a3) :
    Keeps s (grantBuf a0 a1 a2 a3 a4) := by
  unfold grantBuf
  repeat' first
    | with_reducible assumption
    | simp only [Keeps.upd_iff]
    | with_reducible apply setRec_keeps
    | with_reducible apply wr_keeps
    | with_reducible apply setPool_keeps

theorem allocBufs_keeps {s : State} {a0 : State} (a1 : Nat) (a2 : Nat) (a3 : Bool) (a4 : Nat) (a5 : Nat) (h0 : Keeps s a0) :
    Keeps s (allocBufs a0 a1 a2 a3 a4 a5).1 := by
  unfold allocBufs
  repeat' first
    | (intro _)
    | with_reducible assumption
    | simp only [KeepsO_none, KeepsO_some, KeepsStart_no, KeepsStart_ends, KeepsStart_go, KeepsSyn_done, KeepsSyn_discarded, KeepsSyn_refused, KeepsCollEnd_waits, KeepsCollEnd_stopped, KeepsCollEnd_done, KeepsGatherEnd_waits, KeepsGatherEnd_stopped, KeepsGatherEnd_done, id]
    | (with_reducible apply walkChain_keeps_eq; case e => with_reducible assumption)
    | with_reducible apply bump_keeps
    | with_reducible apply grantBuf_keeps
    | with_reducible apply Keeps.ite
    | with_reducible apply Keeps.fold
    | (split)
theorem allocBufs_keeps_eq {s : State} {a0 : State} {a1 : Nat} {a2 : Nat} {a3 : Bool} {a4 : Nat} {a5 : Nat} {u x} (e : allocBufs a0 a1 a2 a3 a4 a5 = (u, x)) (h0 : Keeps s a0) : Keeps s u := by
  have k := allocBufs_keeps (s := s) a1 a2 a3 a4 a5 h0
  rw [e] at k; exact k

theorem deviceBuf_keeps {s : State} {a0 : State} (a1 : Nat) (a2 : Bool) (h0 : Keeps s a0) :
    Keeps s (deviceBuf a0 a1 a2).1 := by
  unfold deviceBuf
  repeat' first
    | with_reducible assumption
    | simp only [KeepsO_none, KeepsO_some, KeepsStart_no, KeepsStart_ends, KeepsStart_go, KeepsSyn_done, KeepsSyn_discarded, KeepsSyn_refused, KeepsCollEnd_waits, KeepsCollEnd_stopped, KeepsCollEnd_done, KeepsGatherEnd_waits, KeepsGatherEnd_stopped, KeepsGatherEnd_done, id]
    | with_reducible apply bump_keeps
    | (with_reducible apply allocBufs_keeps_eq; case e => with_reducible assumption)
    | with_reducible apply Keeps.ite1
    | (split)
theorem deviceBuf_keeps_eq {s : State} {a0 : State} {a1 : Nat} {a2 : Bool} {u x} (e : deviceBuf a0 a1 a2 = (u, x)) (h0 : Keeps s a0) : Keeps s u := by
  have k := deviceBuf_keeps (s := s) a1 a2 h0
  rw [e] at k; exact k

theorem discardOld_keeps {s : State} {a0 : State} (a1 : Nat) (a2 : Op) (h0 : Keeps s a0) :
    Keeps s (discardOld a0 a1 a2) := by
  unfold discardOld
  repeat' first
    | with_reducible assumption
    | with_reducible apply bump_keeps
    | with_reducible apply modQueue_keeps

theorem poolTake_keeps {s : State} (a0 : Nat) {a1 : State} (a2 : Queue) (a3 : Op) (a4 : Head) (h0 : Keeps s a1) :
    Keeps s (poolTake a0 a1 a2 a3 a4) := by
  unfold poolTake
  repeat' first
    | with_reducible assumption
    | simp only [Keeps.upd_iff]
    | with_reducible apply discardOld_keeps
    | with_reducible apply badPtr_keeps
    | with_reducible apply refuseOp_keeps
    | (with_reducible apply allocBufs_keeps_eq; case e => with_reducible assumption)
    | with_reducible apply endOp_keeps
    | with_reducible apply modOp_keeps
    | with_reducible apply wr_keeps
    | with_reducible apply Keeps.ite
    | (split)

theorem readRec_keeps {s : State} {a0 : State} (a1 : Nat) (h0 : Keeps s a0) :
    Keeps s (readRec a0 a1) := by
  unfold readRec
  repeat' first
    | with_reducible assumption
    | simp only [Keeps.upd_iff]
    | with_reducible apply failPool_keeps
    | with_reducible apply Keeps.ite

theorem dropRef_keeps {s : State} {a0 : State} (a1 : Nat) (h0 : Keeps s a0) :
    Keeps s (dropRef a0 a1) := by
  unfold dropRef
  repeat' first
    | with_reducible assumption
    | simp only [Keeps.upd_iff]
    | with_reducible apply freeBuf_keeps
    | with_reducible apply setRec_keeps
    | with_reducible apply Keeps.ite

theorem poolRef_keeps {s : State} (a0 : Bool) (a1 : Nat) {a2 : State} (a3 : Queue) (a4 : Op) (a5 : Head) (h0 : Keeps s a2) :
    Keeps s (poolRef a0 a1 a2 a3 a4 a5) := by
  unfold poolRef
  repeat' first
    | with_reducible assumption
    | simp only [Keeps.upd_iff]
    | with_reducible apply discardOld_keeps
    | with_reducible apply refuseOp_keeps
    | with_reducible apply readRec_keeps
    | with_reducible apply endOp_keeps
    | with_reducible apply bump_keeps
    | with_reducible apply dropRef_keeps
    | with_reducible apply setRec_keeps
    | with_reducible apply Keeps.ite

theorem deviceRelease_keeps {s : State} {a0 : State} (a1 : Nat) (h0 : Keeps s a0) :
    Keeps s (deviceRelease a0 a1) := by
  unfold deviceRelease
  repeat' first
    | with_reducible assumption
    | simp only [Keeps.upd_iff]
    | with_reducible apply readRec_keeps
    | with_reducible apply bump_keeps
    | with_reducible apply dropRef_keeps
    | with_reducible apply raiseDev_keeps
    | with_reducible apply Keeps.ite

theorem enablePool_keeps {s : State} {a0 : State} (a1 : Nat) (h0 : Keeps s a0) :
    Keeps s (enablePool a0 a1) := by
  unfold enablePool
  repeat' first
    | with_reducible assumption
    | simp only [Keeps.upd_iff]
    | with_reducible apply setPool_keeps

theorem poolCmd_keeps {s : State} {a0 : State} (a1 : Nat) (a2 : Nat) (h0 : Keeps s a0) :
    Keeps s (poolCmd a0 a1 a2) := by
  unfold poolCmd
  repeat' first
    | with_reducible assumption
    | simp only [Keeps.upd_iff]
    | with_reducible apply enablePool_keeps
    | with_reducible apply setPool_keeps
    | with_reducible apply startRebuild_keeps
    | with_reducible apply Keeps.ite

theorem writeLinks_keeps {s : State} (a0 : Nat) {a1 : State} (a2 : List Nat) (h0 : Keeps s a1) :
    Keeps s (writeLinks a0 a1 a2) := by
  induction a2 generalizing a1 with
  | nil => exact h0
  | cons i r ih =>
    cases r with
    | nil => exact writeLink_keeps _ _ _ h0
    | cons j r => exact ih (writeLink_keeps _ _ _ h0)

theorem revokeRec_keeps {s : State} (a0 : Nat) (a1 : Nat) {a2 : State × Nat × Nat} (a3 : Nat) (h0 : Keeps s a2.1) :
    Keeps s (revokeRec a0 a1 a2 a3).1 := by
  unfold revokeRec
  repeat' first
    | with_reducible assumption
    | simp only [KeepsO_none, KeepsO_some, KeepsStart_no, KeepsStart_ends, KeepsStart_go, KeepsSyn_done, KeepsSyn_discarded, KeepsSyn_refused, KeepsCollEnd_waits, KeepsCollEnd_stopped, KeepsCollEnd_done, KeepsGatherEnd_waits, KeepsGatherEnd_stopped, KeepsGatherEnd_done, id]
    | with_reducible apply failPool_keeps
    | with_reducible apply bump_keeps
    | with_reducible apply freeBuf_keeps
    | with_reducible apply setRec_keeps
    | with_reducible apply Keeps.ite1
theorem revokeRec_keeps_eq {s : State} {a0 : Nat} {a1 : Nat} {a2 : State × Nat × Nat} {a3 : Nat} {u x} (e : revokeRec a0 a1 a2 a3 = (u, x)) (h0 : Keeps s a2.1) : Keeps s u := by
  have k := revokeRec_keeps (s := s) a0 a1 a3 h0
  rw [e] at k; exact k

theorem revokeOwner_keeps {s : State} {a0 : State} (a1 : Nat) (h0 : Keeps s a0) :
    Keeps s (revokeOwner a0 a1).1 := by
  unfold revokeOwner
  repeat' first
    | (intro _)
    | with_reducible assumption
    | simp only [KeepsO_none, KeepsO_some, KeepsStart_no, KeepsStart_ends, KeepsStart_go, KeepsSyn_done, KeepsSyn_discarded, KeepsSyn_refused, KeepsCollEnd_waits, KeepsCollEnd_stopped, KeepsCollEnd_done, KeepsGatherEnd_waits, KeepsGatherEnd_stopped, KeepsGatherEnd_done, id]
    | with_reducible apply revokeRec_keeps
    | with_reducible apply Keeps.fold1
theorem revokeOwner_keeps_eq {s : State} {a0 : State} {a1 : Nat} {u x} (e : revokeOwner a0 a1 = (u, x)) (h0 : Keeps s a0) : Keeps s u := by
  have k := revokeOwner_keeps (s := s) a1 h0
  rw [e] at k; exact k

theorem scanRec_keeps {s : State} {a0 : State × Tbl (List Nat) × Nat} (a1 : Nat × Nat × Nat) (h0 : Keeps s a0.1) :
    Keeps s (scanRec a0 a1).1 := by
  unfold scanRec
  repeat' first
    | with_reducible assumption
    | simp only [KeepsO_none, KeepsO_some, KeepsStart_no, KeepsStart_ends, KeepsStart_go, KeepsSyn_done, KeepsSyn_discarded, KeepsSyn_refused, KeepsCollEnd_waits, KeepsCollEnd_stopped, KeepsCollEnd_done, KeepsGatherEnd_waits, KeepsGatherEnd_stopped, KeepsGatherEnd_done, id]
    | with_reducible apply failPool_keeps
    | with_reducible apply bump_keeps
    | with_reducible apply raiseOwner_keeps
    | with_reducible apply setRec_keeps
    | with_reducible apply Keeps.ite1
theorem scanRec_keeps_eq {s : State} {a0 : State × Tbl (List Nat) × Nat} {a1 : Nat × Nat × Nat} {u x} (e : scanRec a0 a1 = (u, x)) (h0 : Keeps s a0.1) : Keeps s u := by
  have k := scanRec_keeps (s := s) a1 h0
  rw [e] at k; exact k

theorem setMc_keeps {s : State} {a0 : State} (a1 : Mc → Mc) (h0 : Keeps s a0) :
    Keeps s (setMc a0 a1) := by
  unfold setMc
  repeat' first
    | with_reducible assumption
    | simp only [Keeps.upd_iff]

theorem failStack_keeps {s : State} {a0 : State} (a1 : Nat) (a2 : Nat) (h0 : Keeps s a0) :
    Keeps s (failStack a0 a1 a2) := by
  unfold failStack
  dsimp only
  split
  · exact h0
  · exact journalStackFails_keeps _ (raiseDev_keeps _ _ _ (Keeps.updMem h0 (fun w => w)))

theorem failPc_keeps {s : State} {a0 : State} (a1 : Nat) (a2 : Nat) (h0 : Keeps s a0) :
    Keeps s (failPc a0 a1 a2) := by
  unfold failPc
  dsimp only
  have k : Keeps s (raiseDev { a0 with mem := { a0.mem with failedPc := insertKey a0.mem.failedPc a1 } } 0x7005 srcMc
      [(a1 / 64, 3), (a1, 9), (Config.causeCode 0x7005 a2, 8)]) := raiseDev_keeps _ _ _ (Keeps.updMem h0 (fun w => w))
  split
  · exact h0
  · split
    · exact failStack_keeps _ _ k
    · exact k

theorem beginRepair_keeps {s : State} {a0 : State} (a1 : Nat) (a2 : Bool) (h0 : Keeps s a0) :
    Keeps s (beginRepair a0 a1 a2) := by
  unfold beginRepair
  repeat' first
    | with_reducible assumption
    | with_reducible apply raiseDev_keeps
    | with_reducible apply setEnt_keeps
    | with_reducible apply setMc_keeps
    | with_reducible apply Keeps.ite

theorem nextRepair_keeps {s : State} {a0 : State} (h0 : Keeps s a0) :
    Keeps s (nextRepair a0) := by
  unfold nextRepair
  repeat' first
    | with_reducible assumption
    | with_reducible apply beginRepair_keeps
    | with_reducible apply Keeps.ite
    | (split)

theorem storeCopies_keeps {s : State} {a0 : State} (a1 : Copy → Copy) (h0 : Keeps s a0) :
    Keeps s (storeCopies a0 a1) := by
  unfold storeCopies
  repeat' first
    | with_reducible assumption
    | simp only [Keeps.upd_iff]

theorem repairDone_keeps {s : State} {a0 : State} (a1 : Nat) (h0 : Keeps s a0) :
    Keeps s (repairDone a0 a1) := by
  unfold repairDone
  repeat' first
    | with_reducible assumption
    | simp only [Keeps.upd_iff]
    | with_reducible apply setMc_keeps
    | with_reducible apply storeCopies_keeps
    | with_reducible apply bump_keeps
    | with_reducible apply Keeps.ite

theorem trackRow_keeps {s : State} {a0 : State} (a1 : Nat) (h0 : Keeps s a0) :
    Keeps s (trackRow a0 a1) := by
  unfold trackRow
  repeat' first
    | with_reducible assumption
    | simp only [Keeps.upd_iff]
    | with_reducible apply setMc_keeps
    | with_reducible apply raiseDev_keeps
    | with_reducible apply nextRepair_keeps
    | with_reducible apply Keeps.ite

theorem eccFound_keeps {s : State} {a0 : State} (a1 : Nat) (a2 : Nat) (a3 : EccEvent) (h0 : Keeps s a0) :
    Keeps s (eccFound a0 a1 a2 a3) := by
  unfold eccFound
  repeat' first
    | with_reducible assumption
    | simp only [Keeps.upd_iff]
    | with_reducible apply trackRow_keeps
    | with_reducible apply bump_keeps
    | with_reducible apply poisonS_keeps
    | with_reducible apply raiseOwner_keeps
    | with_reducible apply setMc_keeps
    | with_reducible apply failPc_keeps
    | with_reducible apply Keeps.ite

theorem zeroStack_keeps {s : State} {a0 : State} (a1 : Nat) (h0 : Keeps s a0) :
    Keeps s (zeroStack a0 a1) := by
  exact ⟨h0.1, fun w => zeroStack_memOk (h0.2 w) _⟩

theorem setMaint_keeps {s : State} {a0 : State} (a1 : Nat) (h0 : Keeps s a0) :
    Keeps s (setMaint a0 a1) := by
  unfold setMaint
  repeat' first
    | with_reducible assumption
    | simp only [Keeps.upd_iff]
    | with_reducible apply zeroStack_keeps
    | with_reducible apply setEnt_keeps
    | with_reducible apply Keeps.ite

theorem writeLocalWin_keeps {s : State} {a0 : State} (a1 : Nat) (a2 : Nat) (h0 : Keeps s a0) :
    Keeps s (writeLocalWin a0 a1 a2) := by
  unfold writeLocalWin
  repeat' first
    | with_reducible assumption
    | simp only [Keeps.upd_iff]
    | with_reducible apply zeroTileS_keeps
    | with_reducible apply setMc_keeps
    | with_reducible apply Keeps.ite

theorem keyCmd_keeps {s : State} {a0 : State} (a1 : Nat) (a2 : Nat) (h0 : Keeps s a0) :
    Keeps s (keyCmd a0 a1 a2) := by
  unfold keyCmd
  repeat' first
    | with_reducible assumption
    | simp only [Keeps.upd_iff]
    | with_reducible apply setMc_keeps
    | with_reducible apply Keeps.ite

theorem writeRemoteWin_keeps {s : State} {a0 : State} (a1 : Nat) (a2 : Nat) (h0 : Keeps s a0) :
    Keeps s (writeRemoteWin a0 a1 a2) := by
  unfold writeRemoteWin
  repeat' first
    | with_reducible assumption
    | simp only [Keeps.upd_iff]

theorem addReset_keeps {s : State} {a0 : State} (a1 : Reset) (h0 : Keeps s a0) :
    Keeps s (addReset a0 a1) := by
  unfold addReset
  repeat' first
    | with_reducible assumption
    | simp only [Keeps.upd_iff]

theorem completeReset_keeps {s : State} {a0 : State} (a1 : Reset) (h0 : Keeps s a0) :
    Keeps s (completeReset a0 a1) := by
  unfold completeReset
  repeat' first
    | with_reducible assumption
    | simp only [Keeps.upd_iff]
    | with_reducible apply bump_keeps
    | with_reducible apply raise_keeps
    | with_reducible apply Keeps.ite

theorem noteReset_keeps {s : State} {a0 : State} (a1 : Reset) (h0 : Keeps s a0) :
    Keeps s (noteReset a0 a1) := by
  unfold noteReset
  repeat' first
    | with_reducible assumption
    | with_reducible apply addReset_keeps
    | with_reducible apply Keeps.ite

end Sys2Proof.Machine
end

