-- ==== Sys2Proof/Laws/KeepsFabric.lean ====
section
/-!
SUPPORT. Laws/KeepsFabric.lean: every function of ports, packets, coherence, atomics, the Vector Engine, Carding and the receipt of packets
passes on the commands that wait and the canonical form of memory.
-/
namespace Sys2Proof.Machine
set_option Elab.async false

theorem failUnreached_keeps {s : State} {a0 : State} (h0 : Keeps s a0) :
    Keeps s (failUnreached a0) := by
  unfold failUnreached
  repeat' first
    | (intro _)
    | with_reducible assumption
    | with_reducible apply failFlow_keeps
    | with_reducible apply Keeps.ite
    | with_reducible apply Keeps.fold

theorem retrainPort_keeps {s : State} {a0 : State} (a1 : Nat) (h0 : Keeps s a0) :
    Keeps s (retrainPort a0 a1) := by
  unfold retrainPort
  repeat' first
    | with_reducible assumption
    | simp only [Keeps.upd_iff]
    | with_reducible apply failUnreached_keeps
    | with_reducible apply modPort_keeps
    | with_reducible apply noteReset_keeps

theorem portDown_keeps {s : State} {a0 : State} (a1 : Nat) (h0 : Keeps s a0) :
    Keeps s (portDown a0 a1) := by
  unfold portDown
  repeat' first
    | with_reducible assumption
    | with_reducible apply retrainPort_keeps
    | with_reducible apply raiseDev_keeps

theorem checkIdentity_keeps {s : State} {a0 : State} (a1 : Nat) (h0 : Keeps s a0) :
    Keeps s (checkIdentity a0 a1) := by
  unfold checkIdentity
  repeat' first
    | with_reducible assumption
    | with_reducible apply failUnreached_keeps
    | with_reducible apply modPort_keeps
    | with_reducible apply raiseDev_keeps
    | (split)

theorem enablePort_keeps {s : State} {a0 : State} (a1 : Nat) (h0 : Keeps s a0) :
    Keeps s (enablePort a0 a1) := by
  unfold enablePort
  repeat' first
    | (intro _)
    | with_reducible assumption
    | simp only [Keeps.upd_iff]
    | with_reducible apply modPort_keeps
    | with_reducible apply requestWake_keeps
    | with_reducible apply checkIdentity_keeps
    | with_reducible apply Keeps.ite
    | with_reducible apply Keeps.fold

theorem disablePort_keeps {s : State} {a0 : State} (a1 : Nat) (h0 : Keeps s a0) :
    Keeps s (disablePort a0 a1) := by
  unfold disablePort
  repeat' first
    | with_reducible assumption
    | simp only [Keeps.upd_iff]
    | with_reducible apply failUnreached_keeps
    | with_reducible apply modPort_keeps

theorem askReplay_keeps {s : State} {a0 : State} (a1 : Nat) (h0 : Keeps s a0) :
    Keeps s (askReplay a0 a1) := by
  unfold askReplay
  repeat' first
    | with_reducible assumption
    | simp only [Keeps.upd_iff]
    | with_reducible apply emit_keeps

theorem badFlit_keeps {s : State} {a0 : State} (a1 : Nat) (h0 : Keeps s a0) :
    Keeps s (badFlit a0 a1) := by
  unfold badFlit
  repeat' first
    | with_reducible assumption
    | simp only [Keeps.upd_iff]
    | with_reducible apply modPort_keeps
    | with_reducible apply askReplay_keeps
    | with_reducible apply retrainPort_keeps
    | with_reducible apply raiseDev_keeps
    | with_reducible apply Keeps.ite

theorem resendFlits_keeps {s : State} (a0 : Nat) (a1 : Nat) (a2 : Nat) {a3 : State} (a4 : List (List Nat)) (h0 : Keeps s a3) :
    Keeps s (resendFlits a0 a1 a2 a3 a4) := by
  induction a4 generalizing a1 a3 with
  | nil =>
    unfold resendFlits
    repeat' first
      | with_reducible assumption
  | cons hd tl ih =>
    unfold resendFlits
    repeat' first
      | with_reducible assumption
      | with_reducible apply ih
      | with_reducible apply emit_keeps

theorem laneLost_keeps {s : State} {a0 : State} (a1 : Nat) (a2 : Nat) (h0 : Keeps s a0) :
    Keeps s (laneLost a0 a1 a2) := by
  unfold laneLost
  repeat' first
    | with_reducible assumption
    | simp only [Keeps.upd_iff]
    | with_reducible apply modPort_keeps
    | with_reducible apply raiseDev_keeps
    | with_reducible apply portDown_keeps
    | with_reducible apply askReplay_keeps
    | with_reducible apply noteReset_keeps
    | with_reducible apply Keeps.ite

theorem endPause_keeps {s : State} {a0 : State} (a1 : Nat) (h0 : Keeps s a0) :
    Keeps s (endPause a0 a1) := by
  unfold endPause
  repeat' first
    | (intro _)
    | with_reducible assumption
    | simp only [Keeps.upd_iff]
    | with_reducible apply emit_keeps
    | with_reducible apply modPort_keeps
    | with_reducible apply Keeps.fold

theorem lateOnly_keeps {s : State} {a0 : State} (a1 : Nat) (a2 : Packet) (a3 : Nat) (a4 : Nat) (h0 : Keeps s a0) :
    Keeps s (lateOnly a0 a1 a2 a3 a4) := by
  unfold lateOnly
  repeat' first
    | with_reducible assumption
    | with_reducible apply sendPk_keeps

theorem sendLate_keeps {s : State} {a0 : State} (a1 : Nat) (a2 : Packet) (a3 : Nat) (h0 : Keeps s a0) :
    Keeps s (sendLate a0 a1 a2 a3) := by
  unfold sendLate
  repeat' first
    | with_reducible assumption
    | with_reducible apply lateOnly_keeps
    | with_reducible apply peerPoison_keeps
    | with_reducible apply Keeps.ite

theorem farFault_keeps {s : State} {a0 : State} (a1 : Packet) (a2 : Nat) (a3 : Nat) (a4 : Nat) (h0 : Keeps s a0) :
    Keeps s (farFault a0 a1 a2 a3 a4) := by
  unfold farFault
  repeat' first
    | with_reducible assumption
    | with_reducible apply raiseOwner_keeps
    | with_reducible apply bump_keeps
    | with_reducible apply Keeps.ite

theorem farWrite_keeps {s : State} {a0 : State} (a1 : Packet) (a2 : Nat) (a3 : List Nat) (h0 : Keeps s a0) :
    Keeps s (farWrite a0 a1 a2 a3).1 := by
  unfold farWrite
  repeat' first
    | with_reducible assumption
    | simp only [KeepsO_none, KeepsO_some, KeepsStart_no, KeepsStart_ends, KeepsStart_go, KeepsSyn_done, KeepsSyn_discarded, KeepsSyn_refused, KeepsCollEnd_waits, KeepsCollEnd_stopped, KeepsCollEnd_done, KeepsGatherEnd_waits, KeepsGatherEnd_stopped, KeepsGatherEnd_done, id]
    | with_reducible apply wr_keeps
    | with_reducible apply farFault_keeps
    | with_reducible apply bump_keeps
    | with_reducible apply Keeps.ite
    | (split)
theorem farWrite_keeps_eq {s : State} {a0 : State} {a1 : Packet} {a2 : Nat} {a3 : List Nat} {u x} (e : farWrite a0 a1 a2 a3 = (u, x)) (h0 : Keeps s a0) : Keeps s u := by
  have k := farWrite_keeps (s := s) a1 a2 a3 h0
  rw [e] at k; exact k

theorem replyTo_keeps {s : State} {a0 : State} (a1 : Nat) (a2 : Packet) (a3 : Packet) (h0 : Keeps s a0) :
    Keeps s (replyTo a0 a1 a2 a3) := by
  unfold replyTo
  repeat' first
    | with_reducible assumption
    | with_reducible apply sendPk_keeps

theorem applyLoad_keeps {s : State} {a0 : State} (a1 : Nat) (a2 : Packet) (a3 : List EccEvent) (h0 : Keeps s a0) :
    Keeps s (applyLoad a0 a1 a2 a3) := by
  unfold applyLoad
  repeat' first
    | (intro _)
    | with_reducible assumption
    | simp only [Keeps.upd_iff]
    | with_reducible apply replyTo_keeps
    | with_reducible apply farFault_keeps
    | with_reducible apply eccFound_keeps
    | with_reducible apply countPoison_keeps
    | with_reducible apply Keeps.ite
    | with_reducible apply Keeps.fold
    | (split)

theorem applyStore_keeps {s : State} {a0 : State} (a1 : Nat) (a2 : Packet) (h0 : Keeps s a0) :
    Keeps s (applyStore a0 a1 a2) := by
  unfold applyStore
  repeat' first
    | with_reducible assumption
    | (with_reducible apply farWrite_keeps_eq; case e => with_reducible assumption)
    | with_reducible apply sendLate_keeps
    | (split)

theorem copyCount_keeps {s : State} {a0 : State} (a1 : Nat) (a2 : Packet) (h0 : Keeps s a0) :
    Keeps s (copyCount a0 a1 a2) := by
  unfold copyCount
  repeat' first
    | with_reducible assumption
    | simp only [Keeps.upd_iff]
    | with_reducible apply lateOnly_keeps
    | with_reducible apply bump_keeps
    | with_reducible apply engineAdd_keeps
    | with_reducible apply Keeps.ite

theorem applyCopy_keeps {s : State} {a0 : State} (a1 : Nat) (a2 : Packet) (h0 : Keeps s a0) :
    Keeps s (applyCopy a0 a1 a2) := by
  unfold applyCopy
  repeat' first
    | with_reducible assumption
    | with_reducible apply bump_keeps
    | (with_reducible apply farWrite_keeps_eq; case e => with_reducible assumption)
    | with_reducible apply copyCount_keeps
    | with_reducible apply sendLate_keeps
    | with_reducible apply Keeps.ite
    | (split)

theorem atomicReply_keeps {s : State} {a0 : State} (a1 : Nat) (a2 : Packet) (a3 : Nat) (a4 : Nat) (a5 : Bool) (h0 : Keeps s a0) :
    Keeps s (atomicReply a0 a1 a2 a3 a4 a5) := by
  unfold atomicReply
  repeat' first
    | with_reducible assumption
    | with_reducible apply replyTo_keeps

theorem applyAtomic_keeps {s : State} {a0 : State} (a1 : Nat) (a2 : Packet) (h0 : Keeps s a0) :
    Keeps s (applyAtomic a0 a1 a2) := by
  unfold applyAtomic
  repeat' first
    | with_reducible assumption
    | simp only [Keeps.upd_iff]
    | with_reducible apply atomicReply_keeps
    | with_reducible apply bump_keeps
    | with_reducible apply raiseOwner_keeps
    | with_reducible apply farFault_keeps
    | with_reducible apply countPoison_keeps
    | with_reducible apply wr_keeps
    | with_reducible apply Keeps.ite
    | (split)

theorem applyRelease_keeps {s : State} {a0 : State} (a1 : Packet) (h0 : Keeps s a0) :
    Keeps s (applyRelease a0 a1) := by
  unfold applyRelease
  repeat' first
    | with_reducible assumption
    | simp only [Keeps.upd_iff]

theorem applySignalPk_keeps {s : State} {a0 : State} (a1 : Nat) (a2 : Packet) (a3 : Nat) (h0 : Keeps s a0) :
    Keeps s (applySignalPk a0 a1 a2 a3) := by
  unfold applySignalPk
  repeat' first
    | with_reducible assumption
    | simp only [Keeps.upd_iff]
    | with_reducible apply lateOnly_keeps
    | with_reducible apply bump_keeps
    | with_reducible apply objInit_keeps
    | with_reducible apply objFree_keeps
    | with_reducible apply objSignal_keeps
    | with_reducible apply raiseOwner_keeps
    | with_reducible apply Keeps.ite
    | with_reducible apply KeepsSyn.ite
    | (with_reducible apply KeepsSyn.of_done; case e => with_reducible assumption)
    | (with_reducible apply KeepsSyn.of_discarded; case e => with_reducible assumption)
    | (split)

theorem applyWatchPk_keeps {s : State} {a0 : State} (a1 : Nat) (a2 : Packet) (a3 : Nat) (h0 : Keeps s a0) :
    Keeps s (applyWatchPk a0 a1 a2 a3) := by
  unfold applyWatchPk
  repeat' first
    | with_reducible assumption
    | simp only [Keeps.upd_iff]
    | with_reducible apply lateOnly_keeps
    | with_reducible apply bump_keeps
    | with_reducible apply raiseOwner_keeps
    | with_reducible apply addWatch_keeps
    | with_reducible apply Keeps.ite

theorem applyUnwatchPk_keeps {s : State} {a0 : State} (a1 : Packet) (a2 : Nat) (h0 : Keeps s a0) :
    Keeps s (applyUnwatchPk a0 a1 a2) := by
  unfold applyUnwatchPk
  repeat' first
    | with_reducible assumption
    | with_reducible apply dropWatch_keeps
    | with_reducible apply Keeps.ite
    | (split)

theorem applySync_keeps {s : State} {a0 : State} (a1 : Nat) (a2 : Packet) (h0 : Keeps s a0) :
    Keeps s (applySync a0 a1 a2) := by
  unfold applySync
  repeat' first
    | with_reducible assumption
    | simp only [Keeps.upd_iff]
    | with_reducible apply applyWatchPk_keeps
    | with_reducible apply applyUnwatchPk_keeps
    | with_reducible apply applySignalPk_keeps
    | with_reducible apply Keeps.ite

theorem applyMessage_keeps {s : State} {a0 : State} (a1 : Packet) (h0 : Keeps s a0) :
    Keeps s (applyMessage a0 a1) := by
  unfold applyMessage
  repeat' first
    | with_reducible assumption
    | simp only [Keeps.upd_iff]
    | with_reducible apply bump_keeps
    | with_reducible apply postMsg_keeps
    | with_reducible apply Keeps.ite

theorem applyLate_keeps {s : State} {a0 : State} (a1 : Nat) (a2 : Packet) (h0 : Keeps s a0) :
    Keeps s (applyLate a0 a1 a2) := by
  unfold applyLate
  repeat' first
    | with_reducible assumption
    | simp only [Keeps.upd_iff]
    | with_reducible apply bump_keeps
    | with_reducible apply takeLate_keeps
    | with_reducible apply sendPk_keeps
    | with_reducible apply Keeps.ite
    | (split)

theorem sendAtomic_keeps {s : State} {a0 : State} (a1 : Nat) (a2 : Op) (a3 : Nat) (h0 : Keeps s a0) :
    Keeps s (sendAtomic a0 a1 a2 a3) := by
  unfold sendAtomic
  repeat' first
    | with_reducible assumption
    | simp only [Keeps.upd_iff]
    | with_reducible apply sendPk_keeps

theorem issueAtomics_keeps {s : State} (a0 : Nat) (a1 : Nat) {a2 : State} (h0 : Keeps s a2) :
    Keeps s (issueAtomics a0 a1 a2) := by
  induction a1 generalizing a2 with
  | zero =>
    unfold issueAtomics
    repeat' first
      | with_reducible assumption
  | succ n ih =>
    unfold issueAtomics
    repeat' first
      | with_reducible assumption
      | simp only [Keeps.upd_iff]
      | with_reducible apply ih
      | with_reducible apply sendAtomic_keeps
      | (split)

theorem freeSlots_keeps {s : State} {a0 : State} (a1 : Nat) (a2 : Nat → AtomSlot → Bool) (h0 : Keeps s a0) :
    Keeps s (freeSlots a0 a1 a2) := by
  unfold freeSlots
  repeat' first
    | with_reducible assumption
    | simp only [Keeps.upd_iff]
    | with_reducible apply issueAtomics_keeps

theorem applyResult_keeps {s : State} {a0 : State} (a1 : Nat) (a2 : Packet) (h0 : Keeps s a0) :
    Keeps s (applyResult a0 a1 a2) := by
  unfold applyResult
  repeat' first
    | with_reducible assumption
    | simp only [Keeps.upd_iff]
    | with_reducible apply bump_keeps
    | with_reducible apply wr_keeps
    | with_reducible apply endOp_keeps
    | with_reducible apply poisonS_keeps
    | with_reducible apply sendPk_keeps
    | with_reducible apply freeSlots_keeps
    | with_reducible apply Keeps.ite
    | (split)

theorem applyNotice_keeps {s : State} {a0 : State} (a1 : Packet) (h0 : Keeps s a0) :
    Keeps s (applyNotice a0 a1) := by
  unfold applyNotice
  repeat' first
    | with_reducible assumption
    | simp only [Keeps.upd_iff]
    | with_reducible apply homeForget_keeps

theorem applyClose_keeps {s : State} {a0 : State} (a1 : Nat) (a2 : Packet) (h0 : Keeps s a0) :
    Keeps s (applyClose a0 a1 a2) := by
  unfold applyClose
  repeat' first
    | with_reducible assumption
    | simp only [Keeps.upd_iff]
    | with_reducible apply sendPk_keeps

theorem applyClosed_keeps {s : State} {a0 : State} (a1 : Packet) (h0 : Keeps s a0) :
    Keeps s (applyClosed a0 a1) := by
  unfold applyClosed
  repeat' first
    | with_reducible assumption
    | simp only [Keeps.upd_iff]
    | with_reducible apply modOwner_keeps
    | with_reducible apply freeSlots_keeps

theorem applyRemoteSource_keeps {s : State} {a0 : State} (a1 : Nat) (a2 : Packet) (h0 : Keeps s a0) :
    Keeps s (applyRemoteSource a0 a1 a2) := by
  unfold applyRemoteSource
  repeat' first
    | (intro _)
    | with_reducible assumption
    | simp only [Keeps.upd_iff]
    | with_reducible apply sendLate_keeps
    | with_reducible apply farFault_keeps
    | with_reducible apply raiseOwner_keeps
    | with_reducible apply countPoison_keeps
    | with_reducible apply sendPk_keeps
    | with_reducible apply copyCount_keeps
    | with_reducible apply putRows_keeps
    | with_reducible apply sendCopy_keeps
    | with_reducible apply Keeps.ite
    | with_reducible apply Keeps.fold
    | (split)

theorem dropLines_keeps {s : State} {a0 : State} (a1 : Line → Bool) (h0 : Keeps s a0) :
    Keeps s (dropLines a0 a1) := by
  unfold dropLines
  repeat' first
    | with_reducible assumption
    | simp only [Keeps.upd_iff]

theorem writeBack_keeps {s : State} {a0 : State} (a1 : Line) (h0 : Keeps s a0) :
    Keeps s (writeBack a0 a1) := by
  unfold writeBack
  repeat' first
    | with_reducible assumption
    | with_reducible apply sendPk_keeps
    | with_reducible apply Keeps.ite

theorem allocLine_keeps {s : State} {a0 : State} (a1 : Line) (h0 : Keeps s a0) :
    Keeps s (allocLine a0 a1) := by
  unfold allocLine
  repeat' first
    | with_reducible assumption
    | simp only [Keeps.upd_iff]
    | with_reducible apply dropLines_keeps
    | with_reducible apply writeBack_keeps
    | (split)

theorem modRequest_keeps {s : State} {a0 : State} (a1 : Request → Bool) (a2 : Request → Request) (h0 : Keeps s a0) :
    Keeps s (modRequest a0 a1 a2) := by
  unfold modRequest
  repeat' first
    | with_reducible assumption
    | simp only [Keeps.upd_iff]
    | (split)

theorem applyLoadData_keeps {s : State} {a0 : State} (a1 : Packet) (h0 : Keeps s a0) :
    Keeps s (applyLoadData a0 a1) := by
  unfold applyLoadData
  repeat' first
    | with_reducible assumption
    | simp only [Keeps.upd_iff]
    | with_reducible apply bump_keeps
    | with_reducible apply allocLine_keeps
    | with_reducible apply modRequest_keeps
    | with_reducible apply Keeps.ite
    | (split)

theorem applyData_keeps {s : State} {a0 : State} (a1 : Packet) (h0 : Keeps s a0) :
    Keeps s (applyData a0 a1) := by
  unfold applyData
  repeat' first
    | with_reducible assumption
    | simp only [Keeps.upd_iff]
    | with_reducible apply bump_keeps
    | with_reducible apply allocLine_keeps
    | with_reducible apply modRequest_keeps
    | with_reducible apply Keeps.ite
    | (split)

theorem answerHome_keeps {s : State} {a0 : State} (a1 : Packet) (a2 : Nat) (a3 : List Nat) (a4 : Bool) (h0 : Keeps s a0) :
    Keeps s (answerHome a0 a1 a2 a3 a4) := by
  unfold answerHome
  repeat' first
    | with_reducible assumption
    | with_reducible apply sendPk_keeps

theorem applyInv_keeps {s : State} {a0 : State} (a1 : Packet) (h0 : Keeps s a0) :
    Keeps s (applyInv a0 a1) := by
  unfold applyInv
  repeat' first
    | with_reducible assumption
    | with_reducible apply answerHome_keeps
    | with_reducible apply dropLines_keeps

theorem applyRecall_keeps {s : State} {a0 : State} (a1 : Packet) (h0 : Keeps s a0) :
    Keeps s (applyRecall a0 a1) := by
  unfold applyRecall
  repeat' first
    | with_reducible assumption
    | with_reducible apply answerHome_keeps
    | with_reducible apply dropLines_keeps
    | (split)

theorem applyRetryAfter_keeps {s : State} {a0 : State} (a1 : Packet) (h0 : Keeps s a0) :
    Keeps s (applyRetryAfter a0 a1) := by
  unfold applyRetryAfter
  repeat' first
    | with_reducible assumption
    | with_reducible apply modRequest_keeps

theorem sendRequest_keeps {s : State} {a0 : State} (a1 : Request) (h0 : Keeps s a0) :
    Keeps s (sendRequest a0 a1) := by
  unfold sendRequest
  repeat' first
    | with_reducible assumption
    | with_reducible apply sendPk_keeps

theorem refuseRequests_keeps {s : State} {a0 : State} (a1 : Nat) (a2 : Nat) (h0 : Keeps s a0) :
    Keeps s (refuseRequests a0 a1 a2) := by
  unfold refuseRequests
  repeat' first
    | with_reducible assumption
    | with_reducible apply modRequest_keeps

theorem sendRetries_keeps {s : State} {a0 : State} (a1 : Nat) (a2 : List (Nat × Packet)) (h0 : Keeps s a0) :
    Keeps s (sendRetries a0 a1 a2) := by
  induction a2 generalizing a0 a1 with
  | nil =>
    unfold sendRetries
    repeat' first
      | with_reducible assumption
  | cons hd tl ih =>
    unfold sendRetries
    repeat' first
      | with_reducible assumption
      | simp only [Keeps.upd_iff]
      | with_reducible apply ih
      | with_reducible apply bump_keeps
      | with_reducible apply sendPk_keeps

theorem homeGets_keeps {s : State} {a0 : State} (a1 : Nat) (a2 : List (Nat × Packet)) (h0 : Keeps s a0) :
    Keeps s (homeGets a0 a1 a2) := by
  unfold homeGets
  repeat' first
    | (intro _)
    | with_reducible assumption
    | simp only [Keeps.upd_iff]
    | with_reducible apply sendRetries_keeps
    | with_reducible apply homeStart_keeps
    | with_reducible apply Keeps.ite
    | with_reducible apply Keeps.fold
    | (split)

theorem refuseRange_keeps {s : State} {a0 : State} (a1 : Nat × Packet) (h0 : Keeps s a0) :
    Keeps s (refuseRange a0 a1) := by
  unfold refuseRange
  repeat' first
    | with_reducible assumption
    | with_reducible apply lateOnly_keeps
    | with_reducible apply raiseOwner_keeps

theorem homeCycle_keeps {s : State} {a0 : State} (a1 : List (Nat × Packet)) (h0 : Keeps s a0) :
    Keeps s (homeCycle a0 a1) := by
  unfold homeCycle
  repeat' first
    | (intro _)
    | with_reducible assumption
    | simp only [Keeps.upd_iff]
    | with_reducible apply homePut_keeps
    | with_reducible apply refuseRange_keeps
    | with_reducible apply homeGets_keeps
    | with_reducible apply Keeps.fold

theorem evictLines_keeps {s : State} {a0 : State} (a1 : Line → Bool) (h0 : Keeps s a0) :
    Keeps s (evictLines a0 a1) := by
  unfold evictLines
  repeat' first
    | (intro _)
    | with_reducible assumption
    | simp only [Keeps.upd_iff]
    | with_reducible apply writeBack_keeps
    | with_reducible apply dropLines_keeps
    | with_reducible apply Keeps.fold

theorem flcDrop_keeps {s : State} (a0 : Nat) {a1 : State} (a2 : Queue) (a3 : Op) (a4 : Head) (h0 : Keeps s a1) :
    Keeps s (flcDrop a0 a1 a2 a3 a4) := by
  unfold flcDrop
  repeat' first
    | with_reducible assumption
    | simp only [Keeps.upd_iff]
    | with_reducible apply endOp_keeps
    | with_reducible apply evictLines_keeps

theorem amRefuse_keeps {s : State} {a0 : State} (a1 : Nat) (a2 : Op) (h0 : Keeps s a0) :
    Keeps s (amRefuse a0 a1 a2) := by
  unfold amRefuse
  repeat' first
    | with_reducible assumption
    | with_reducible apply refuseOp_keeps

theorem amLocal_keeps {s : State} {a0 : State} (a1 : Nat) (a2 : Op) (h0 : Keeps s a0) :
    Keeps s (amLocal a0 a1 a2) := by
  unfold amLocal
  repeat' first
    | with_reducible assumption
    | simp only [Keeps.upd_iff]
    | with_reducible apply refuseOp_keeps
    | with_reducible apply bump_keeps
    | with_reducible apply countPoison_keeps
    | with_reducible apply wr_keeps
    | with_reducible apply endOp_keeps
    | with_reducible apply poisonS_keeps
    | with_reducible apply Keeps.ite

theorem amRun_keeps {s : State} (a0 : Nat) {a1 : State} (a2 : Queue) (a3 : Op) (a4 : Head) (h0 : Keeps s a1) :
    Keeps s (amRun a0 a1 a2 a3 a4) := by
  unfold amRun
  repeat' first
    | with_reducible assumption
    | simp only [Keeps.upd_iff]
    | with_reducible apply badPtr_keeps
    | with_reducible apply amRefuse_keeps
    | with_reducible apply amLocal_keeps
    | with_reducible apply sendAtomic_keeps
    | with_reducible apply Keeps.ite
    | (split)

theorem amExec_keeps {s : State} (a0 : Nat) (a1 : Nat) {a2 : State} (h0 : Keeps s a2) :
    Keeps s (amExec a0 a1 a2) := by
  unfold amExec
  repeat' first
    | (intro _)
    | with_reducible assumption
    | with_reducible apply runHead_keeps
    | with_reducible apply amRun_keeps
    | with_reducible apply Keeps.ite

theorem bindMap_keeps {s : State} {a0 : State} (a1 : Nat) (a2 : Nat) (a3 : Nat) (a4 : Nat) (a5 : Nat) (h0 : Keeps s a0) :
    Keeps s (bindMap a0 a1 a2 a3 a4 a5) := by
  unfold bindMap
  repeat' first
    | with_reducible assumption
    | simp only [Keeps.upd_iff]
    | with_reducible apply wr_keeps

theorem countLanded_keeps {s : State} {a0 : State} (a1 : Geom) (a2 : Nat) (a3 : Bool) (h0 : Keeps s a0) :
    Keeps s (countLanded a0 a1 a2 a3) := by
  unfold countLanded
  repeat' first
    | with_reducible assumption
    | simp only [Keeps.upd_iff]
    | with_reducible apply bump_keeps

theorem landWrite_keeps {s : State} {a0 : State} (a1 : Nat) (a2 : Nat) (a3 : List Nat) (a4 : State → Landed) (h0 : Keeps s a0) (hf : ∀ t, Keeps s t → Keeps s (a4 t).s) :
    Keeps s (landWrite a0 a1 a2 a3 a4).s := by
  unfold landWrite
  repeat' first
    | with_reducible assumption
    | simp only [Keeps.upd_iff]
    | with_reducible apply hf
    | (with_reducible apply farWrite_keeps_eq; case e => with_reducible assumption)
    | (split)

theorem landBind_keeps {s : State} {a0 : State} (a1 : Nat) (a2 : Nat) (a3 : Geom) (a4 : State → Landed) (h0 : Keeps s a0) (hf : ∀ t, Keeps s t → Keeps s (a4 t).s) :
    Keeps s (landBind a0 a1 a2 a3 a4).s := by
  unfold landBind
  repeat' first
    | with_reducible assumption
    | with_reducible apply hf
    | with_reducible apply bindMap_keeps
    | (split)

theorem landForward_keeps {s : State} {a0 : State} (a1 : Nat) (a2 : Nat) (a3 : Nat) (a4 : Nat) (a5 : Nat) (a6 : Geom) (a7 : List Nat) (h0 : Keeps s a0) :
    Keeps s (landForward a0 a1 a2 a3 a4 a5 a6 a7).s := by
  unfold landForward
  repeat' first
    | (intro _)
    | with_reducible assumption
    | simp only [Keeps.upd_iff]
    | with_reducible apply landBind_keeps
    | with_reducible apply landWrite_keeps
    | with_reducible apply countLanded_keeps
    | (split)

theorem landBackward_keeps {s : State} {a0 : State} (a1 : Nat) (a2 : Nat) (a3 : Nat) (a4 : Nat) (a5 : Geom) (a6 : List Nat) (h0 : Keeps s a0) :
    Keeps s (landBackward a0 a1 a2 a3 a4 a5 a6).s := by
  unfold landBackward
  repeat' first
    | (intro _)
    | with_reducible assumption
    | simp only [Keeps.upd_iff]
    | with_reducible apply landWrite_keeps
    | with_reducible apply countLanded_keeps
    | (split)

theorem landCount_keeps {s : State} {a0 : State} (a1 : Bool) (a2 : Nat) (h0 : Keeps s a0) :
    Keeps s (landCount a0 a1 a2).s := by
  unfold landCount
  repeat' first
    | with_reducible assumption
    | simp only [Keeps.upd_iff]
    | with_reducible apply bump_keeps
    | with_reducible apply engineAdd_keeps
    | (split)

theorem landReturn_keeps {s : State} {a0 : State} (a1 : Bool) (a2 : Nat) (a3 : Nat) (a4 : Nat) (a5 : Nat) (a6 : Nat) (a7 : Geom) (a8 : List Nat) (h0 : Keeps s a0) :
    Keeps s (landReturn a0 a1 a2 a3 a4 a5 a6 a7 a8).s := by
  unfold landReturn
  repeat' first
    | (intro _)
    | with_reducible assumption
    | simp only [Keeps.upd_iff]
    | with_reducible apply landWrite_keeps
    | with_reducible apply bump_keeps
    | with_reducible apply landCount_keeps
    | (split)

theorem writeFills_keeps {s : State} {a0 : State} (a1 : Nat) (a2 : Nat) (a3 : Geom) (a4 : List Nat) (h0 : Keeps s a0) :
    Keeps s (writeFills a0 a1 a2 a3 a4) := by
  unfold writeFills
  repeat' first
    | (intro _)
    | with_reducible assumption
    | simp only [Keeps.upd_iff]
    | with_reducible apply wr_keeps
    | with_reducible apply Keeps.fold

theorem landAbort_keeps {s : State} {a0 : State} (a1 : Nat) (a2 : Nat) (h0 : Keeps s a0) :
    Keeps s (landAbort a0 a1 a2) := by
  unfold landAbort
  repeat' first
    | with_reducible assumption
    | with_reducible apply peerPoison_keeps

theorem landFill_keeps {s : State} {a0 : State} (a1 : Bool) (a2 : Nat) (a3 : Nat) (a4 : Geom) (a5 : Nat) (a6 : List Nat) (h0 : Keeps s a0) :
    Keeps s (landFill a0 a1 a2 a3 a4 a5 a6).s := by
  unfold landFill
  repeat' first
    | (intro _)
    | with_reducible assumption
    | simp only [Keeps.upd_iff]
    | with_reducible apply landBind_keeps
    | with_reducible apply bump_keeps
    | with_reducible apply landAbort_keeps
    | with_reducible apply landWrite_keeps
    | with_reducible apply landCount_keeps
    | with_reducible apply writeFills_keeps
    | (split)

theorem landFillBack_keeps {s : State} {a0 : State} (a1 : Bool) (a2 : Nat) (a3 : Nat) (a4 : Geom) (a5 : Nat) (a6 : List Nat) (h0 : Keeps s a0) :
    Keeps s (landFillBack a0 a1 a2 a3 a4 a5 a6).s := by
  unfold landFillBack
  repeat' first
    | with_reducible assumption
    | simp only [Keeps.upd_iff]
    | with_reducible apply bump_keeps
    | with_reducible apply landAbort_keeps
    | with_reducible apply landCount_keeps
    | (split)

theorem landRowPk_keeps {s : State} {a0 : State} (a1 : Bool) (a2 : Packet) (a3 : Geom) (h0 : Keeps s a0) :
    Keeps s (landRowPk a0 a1 a2 a3).s := by
  unfold landRowPk
  repeat' first
    | with_reducible assumption
    | simp only [Keeps.upd_iff]
    | with_reducible apply landForward_keeps
    | with_reducible apply landBackward_keeps
    | with_reducible apply landReturn_keeps
    | (split)

theorem landFillPk_keeps {s : State} {a0 : State} (a1 : Bool) (a2 : Packet) (a3 : Geom) (h0 : Keeps s a0) :
    Keeps s (landFillPk a0 a1 a2 a3).s := by
  unfold landFillPk
  repeat' first
    | with_reducible assumption
    | simp only [Keeps.upd_iff]
    | with_reducible apply landFill_keeps
    | with_reducible apply landFillBack_keeps
    | (split)

theorem landPk_keeps {s : State} {a0 : State} (a1 : Bool) (a2 : Packet) (h0 : Keeps s a0) :
    Keeps s (landPk a0 a1 a2).s := by
  unfold landPk
  repeat' first
    | with_reducible assumption
    | with_reducible apply landFillPk_keeps
    | with_reducible apply landRowPk_keeps
    | (split)

theorem applyCard_keeps {s : State} {a0 : State} (a1 : Nat) (a2 : Packet) (h0 : Keeps s a0) :
    Keeps s (applyCard a0 a1 a2) := by
  unfold applyCard
  repeat' first
    | with_reducible assumption
    | simp only [Keeps.upd_iff]
    | with_reducible apply landPk_keeps
    | with_reducible apply raiseOwner_keeps
    | with_reducible apply lateOnly_keeps
    | with_reducible apply peerPoison_keeps
    | with_reducible apply Keeps.ite
    | (split)

theorem vcWrite_keeps {s : State} {a0 : State} (a1 : Nat) (a2 : Nat) (a3 : Nat) (a4 : Nat) (a5 : List Fp) (h0 : Keeps s a0) :
    Keeps s (vcWrite a0 a1 a2 a3 a4 a5).1 := by
  unfold vcWrite
  repeat' first
    | with_reducible assumption
    | simp only [KeepsO_none, KeepsO_some, KeepsStart_no, KeepsStart_ends, KeepsStart_go, KeepsSyn_done, KeepsSyn_discarded, KeepsSyn_refused, KeepsCollEnd_waits, KeepsCollEnd_stopped, KeepsCollEnd_done, KeepsGatherEnd_waits, KeepsGatherEnd_stopped, KeepsGatherEnd_done, id]
    | with_reducible apply wr_keeps
    | with_reducible apply writePacked_keeps
    | with_reducible apply Keeps.ite
    | with_reducible apply Keeps.ite1
theorem vcWrite_keeps_eq {s : State} {a0 : State} {a1 : Nat} {a2 : Nat} {a3 : Nat} {a4 : Nat} {a5 : List Fp} {u x} (e : vcWrite a0 a1 a2 a3 a4 a5 = (u, x)) (h0 : Keeps s a0) : Keeps s u := by
  have k := vcWrite_keeps (s := s) a1 a2 a3 a4 a5 h0
  rw [e] at k; exact k

theorem vcRunRow_keeps {s : State} (a0 : Bool) (a1 : Nat) (a2 : Nat) (a3 : Nat) (a4 : Nat) {a5 : VcAcc} (h0 : Keeps s a5.s) :
    Keeps s (vcRunRow a0 a1 a2 a3 a4 a5).s := by
  unfold vcRunRow
  repeat' first
    | with_reducible assumption
    | simp only [Keeps.upd_iff]
    | with_reducible apply writePacked_keeps
    | with_reducible apply wr_keeps
    | with_reducible apply vcWrite_keeps
    | (split)

theorem vcRunRows_keeps {s : State} (a0 : Bool) (a1 : Nat) (a2 : Nat) (a3 : Nat) (a4 : Nat) (a5 : Nat) {a6 : VcAcc} (h0 : Keeps s a6.s) :
    Keeps s (vcRunRows a0 a1 a2 a3 a4 a5 a6).s := by
  induction a4 generalizing a5 a6 with
  | zero =>
    unfold vcRunRows
    repeat' first
      | with_reducible assumption
  | succ n ih =>
    unfold vcRunRows
    repeat' first
      | with_reducible assumption
      | simp only [Keeps.upd_iff]
      | with_reducible apply ih
      | with_reducible apply vcRunRow_keeps
      | (split)

theorem vcCounters_keeps {s : State} {a0 : State} (a1 : Nat) (a2 : Nat) {a3 : VcAcc} (h0 : Keeps s a0) (h1 : Keeps s a3.s) :
    Keeps s (vcCounters a0 a1 a2 a3) := by
  unfold vcCounters
  repeat' first
    | (intro _)
    | with_reducible assumption
    | simp only [Keeps.upd_iff]
    | with_reducible apply bump_keeps
    | with_reducible apply Keeps.ite
    | with_reducible apply Keeps.fold

theorem vcRun_keeps {s : State} (a0 : Nat) {a1 : State} (a2 : Queue) (a3 : Op) (a4 : Head) (h0 : Keeps s a1) :
    Keeps s (vcRun a0 a1 a2 a3 a4) := by
  unfold vcRun
  repeat' first
    | with_reducible assumption
    | simp only [Keeps.upd_iff]
    | with_reducible apply refuseOp_keeps
    | with_reducible apply badPtr_keeps
    | with_reducible apply vcRunRows_keeps
    | with_reducible apply vcCounters_keeps
    | with_reducible apply modOp_keeps
    | with_reducible apply stopOp_keeps
    | with_reducible apply countPoison_keeps
    | with_reducible apply doneOp_keeps
    | with_reducible apply Keeps.ite
    | (split)

theorem vcExec_keeps {s : State} (a0 : Nat) (a1 : Nat) {a2 : State} (h0 : Keeps s a2) :
    Keeps s (vcExec a0 a1 a2) := by
  unfold vcExec
  repeat' first
    | (intro _)
    | with_reducible assumption
    | simp only [Keeps.upd_iff]
    | with_reducible apply runHead_keeps
    | with_reducible apply vcRun_keeps
    | with_reducible apply Keeps.ite
    | (split)

theorem vcLose_keeps {s : State} {a0 : State} (a1 : Nat) (a2 : Nat) (a3 : List (Nat × Nat)) (h0 : Keeps s a0) :
    Keeps s (vcLose a0 a1 a2 a3) := by
  unfold vcLose
  repeat' first
    | with_reducible assumption
    | simp only [Keeps.upd_iff]
    | with_reducible apply rerunOp_keeps
    | with_reducible apply Keeps.ite
    | (split)

theorem setCard_keeps {s : State} {a0 : State} (a1 : Nat) (a2 : Card) (h0 : Keeps s a0) :
    Keeps s (setCard a0 a1 a2) := by
  unfold setCard
  repeat' first
    | with_reducible assumption
    | simp only [Keeps.upd_iff]

theorem dropCard_keeps {s : State} {a0 : State} (a1 : Nat) (h0 : Keeps s a0) :
    Keeps s (dropCard a0 a1) := by
  unfold dropCard
  repeat' first
    | with_reducible assumption
    | simp only [Keeps.upd_iff]

theorem sendCard_keeps {s : State} {a0 : State} (a1 : Nat) (a2 : Op) (a3 : Card) (a4 : Nat) (a5 : Nat) (a6 : Nat) (a7 : Nat) (a8 : Geom) (a9 : List Nat) (h0 : Keeps s a0) :
    Keeps s (sendCard a0 a1 a2 a3 a4 a5 a6 a7 a8 a9) := by
  unfold sendCard
  repeat' first
    | with_reducible assumption
    | simp only [Keeps.upd_iff]
    | with_reducible apply sendPk_keeps
    | with_reducible apply Keeps.ite

theorem landHere_keeps {s : State} (a0 : Card) (a1 : Nat) {a2 : Landed} (h0 : Keeps s a2.s) :
    Keeps s (landHere a0 a1 a2).s := by
  unfold landHere
  repeat' first
    | with_reducible assumption
    | simp only [Keeps.upd_iff]
    | with_reducible apply peerPoison_keeps
    | (split)

theorem sendRow_keeps {s : State} (a0 : Nat) (a1 : Op) (a2 : Nat) (a3 : Nat) (a4 : Nat) (a5 : Nat) (a6 : Geom) (a7 : List Nat) {a8 : CardRun} (h0 : Keeps s a8.s) :
    Keeps s (sendRow a0 a1 a2 a3 a4 a5 a6 a7 a8).s := by
  unfold sendRow
  repeat' first
    | (intro _)
    | with_reducible assumption
    | simp only [Keeps.upd_iff]
    | with_reducible apply bump_keeps
    | with_reducible apply landHere_keeps
    | with_reducible apply landForward_keeps
    | with_reducible apply landBackward_keeps
    | with_reducible apply landReturn_keeps
    | with_reducible apply sendCard_keeps
    | with_reducible apply Keeps.fold
    | (split)

theorem sendFill_keeps {s : State} (a0 : Nat) (a1 : Op) (a2 : Nat) (a3 : Bool) {a4 : CardRun} (a5 : Nat) (h0 : Keeps s a4.s) :
    Keeps s (sendFill a0 a1 a2 a3 a4 a5).s := by
  unfold sendFill
  repeat' first
    | with_reducible assumption
    | simp only [Keeps.upd_iff]
    | with_reducible apply landHere_keeps
    | with_reducible apply landFillBack_keeps
    | with_reducible apply landFill_keeps
    | with_reducible apply sendCard_keeps
    | (split)

theorem sendAbort_keeps {s : State} (a0 : Nat) (a1 : Op) (a2 : Card) (a3 : Bool) {a4 : State} (a5 : Nat × Nat) (h0 : Keeps s a4) :
    Keeps s (sendAbort a0 a1 a2 a3 a4 a5) := by
  unfold sendAbort
  repeat' first
    | with_reducible assumption
    | simp only [Keeps.upd_iff]
    | with_reducible apply bump_keeps
    | with_reducible apply landFillBack_keeps
    | with_reducible apply landFill_keeps
    | with_reducible apply sendCard_keeps
    | with_reducible apply Keeps.ite
    | (split)

theorem abortCard_keeps {s : State} {a0 : State} (a1 : Nat) (a2 : Op) (a3 : Card) (h0 : Keeps s a0) :
    Keeps s (abortCard a0 a1 a2 a3) := by
  unfold abortCard
  repeat' first
    | (intro _)
    | with_reducible assumption
    | with_reducible apply sendAbort_keeps
    | with_reducible apply Keeps.ite
    | with_reducible apply Keeps.fold

theorem stopCard_keeps {s : State} {a0 : State} (a1 : Nat) (a2 : Op) (a3 : Card) (a4 : CardBad) (h0 : Keeps s a0) :
    Keeps s (stopCard a0 a1 a2 a3 a4) := by
  unfold stopCard
  repeat' first
    | with_reducible assumption
    | simp only [Keeps.upd_iff]
    | with_reducible apply stopOp_keeps
    | with_reducible apply stopFar_keeps
    | with_reducible apply abortCard_keeps
    | with_reducible apply dropWaits_keeps
    | with_reducible apply dropCard_keeps
    | with_reducible apply Keeps.ite

theorem noteRows_keeps {s : State} {a0 : State} (a1 : Nat) (a2 : Nat) (a3 : DrainStats) (h0 : Keeps s a0) :
    Keeps s (noteRows a0 a1 a2 a3) := by
  unfold noteRows
  repeat' first
    | with_reducible assumption
    | with_reducible apply modOp_keeps

theorem placeChoice_keeps {s : State} (a0 : Nat) (a1 : Nat) (a2 : Bool) {a3 : CardRun} (a4 : Nat × Nat × Fp) (h0 : Keeps s a3.s) :
    Keeps s (placeChoice a0 a1 a2 a3 a4).s := by
  unfold placeChoice
  repeat' first
    | with_reducible assumption
    | simp only [Keeps.upd_iff]
    | with_reducible apply wr_keeps

theorem routeOne_keeps {s : State} (a0 : Nat) (a1 : Nat) (a2 : Option (List Fp)) {a3 : CardRun} (a4 : Nat) (h0 : Keeps s a3.s) :
    Keeps s (routeOne a0 a1 a2 a3 a4).s := by
  unfold routeOne
  repeat' first
    | (intro _)
    | with_reducible assumption
    | simp only [Keeps.upd_iff]
    | with_reducible apply countPoison_keeps
    | with_reducible apply bump_keeps
    | with_reducible apply placeChoice_keeps
    | with_reducible apply Keeps.ite
    | with_reducible apply Keeps.foldCardRun
    | (split)

theorem sendToken_keeps {s : State} (a0 : Nat) (a1 : Op) (a2 : Nat) {a3 : CardRun} (a4 : Nat) (h0 : Keeps s a3.s) :
    Keeps s (sendToken a0 a1 a2 a3 a4).s := by
  unfold sendToken
  repeat' first
    | (intro _)
    | with_reducible assumption
    | simp only [Keeps.upd_iff]
    | with_reducible apply countPoison_keeps
    | with_reducible apply sendRow_keeps
    | with_reducible apply Keeps.foldCardRun
    | (split)

theorem dispatchChunk_keeps {s : State} (a0 : Nat) (a1 : Op) {a2 : CardRun} (h0 : Keeps s a2.s) :
    Keeps s (dispatchChunk a0 a1 a2).s := by
  unfold dispatchChunk
  repeat' first
    | (intro _)
    | with_reducible assumption
    | simp only [Keeps.upd_iff]
    | with_reducible apply routeOne_keeps
    | with_reducible apply sendToken_keeps
    | with_reducible apply sendFill_keeps
    | with_reducible apply Keeps.foldCardRun

theorem writeSummary_keeps {s : State} {a0 : State} (a1 : Nat) (a2 : Card) (h0 : Keeps s a0) :
    Keeps s (writeSummary a0 a1 a2) := by
  unfold writeSummary
  repeat' first
    | with_reducible assumption
    | simp only [Keeps.upd_iff]
    | with_reducible apply wr_keeps
    | with_reducible apply Keeps.ite

theorem returnRow_keeps {s : State} (a0 : Nat) (a1 : Op) (a2 : Nat) {a3 : CardRun} (a4 : Nat) (h0 : Keeps s a3.s) :
    Keeps s (returnRow a0 a1 a2 a3 a4).s := by
  unfold returnRow
  repeat' first
    | with_reducible assumption
    | simp only [Keeps.upd_iff]
    | with_reducible apply countPoison_keeps
    | with_reducible apply sendRow_keeps
    | (split)

theorem returnChunk_keeps {s : State} (a0 : Nat) (a1 : Op) {a2 : CardRun} (h0 : Keeps s a2.s) :
    Keeps s (returnChunk a0 a1 a2).s := by
  unfold returnChunk
  repeat' first
    | (intro _)
    | with_reducible assumption
    | simp only [Keeps.upd_iff]
    | with_reducible apply countPoison_keeps
    | with_reducible apply returnRow_keeps
    | with_reducible apply Keeps.foldCardRun
    | (split)

theorem combineOne_keeps {s : State} (a0 : Nat) (a1 : Op) {a2 : CardRun} (a3 : Nat) (h0 : Keeps s a2.s) :
    Keeps s (combineOne a0 a1 a2 a3).s := by
  unfold combineOne
  repeat' first
    | with_reducible assumption
    | simp only [Keeps.upd_iff]
    | with_reducible apply bump_keeps
    | with_reducible apply noteRows_keeps
    | with_reducible apply wr_keeps
    | (split)

theorem clearReceipts_keeps {s : State} {a0 : State} (a1 : Nat) (a2 : Nat) (a3 : Nat) (a4 : Nat) (h0 : Keeps s a0) :
    Keeps s (clearReceipts a0 a1 a2 a3 a4) := by
  unfold clearReceipts
  repeat' first
    | with_reducible assumption
    | simp only [Keeps.upd_iff]
    | with_reducible apply wr_keeps
    | with_reducible apply Keeps.ite

theorem combineChunk_keeps {s : State} (a0 : Nat) (a1 : Op) {a2 : CardRun} (h0 : Keeps s a2.s) :
    Keeps s (combineChunk a0 a1 a2).s := by
  unfold combineChunk
  repeat' first
    | (intro _)
    | with_reducible assumption
    | simp only [Keeps.upd_iff]
    | with_reducible apply combineOne_keeps
    | with_reducible apply clearReceipts_keeps
    | with_reducible apply Keeps.foldCardRun
    | (split)

theorem scatterChoice_keeps {s : State} (a0 : Nat) (a1 : Op) (a2 : Nat) (a3 : List Fp) {a4 : CardRun} (a5 : Nat) (h0 : Keeps s a4.s) :
    Keeps s (scatterChoice a0 a1 a2 a3 a4 a5).s := by
  unfold scatterChoice
  repeat' first
    | with_reducible assumption
    | simp only [Keeps.upd_iff]
    | with_reducible apply bump_keeps
    | with_reducible apply wr_keeps
    | with_reducible apply noteRows_keeps
    | with_reducible apply sendRow_keeps
    | (split)

theorem scatterOne_keeps {s : State} (a0 : Nat) (a1 : Op) {a2 : CardRun} (a3 : Nat) (h0 : Keeps s a2.s) :
    Keeps s (scatterOne a0 a1 a2 a3).s := by
  unfold scatterOne
  repeat' first
    | (intro _)
    | with_reducible assumption
    | simp only [Keeps.upd_iff]
    | with_reducible apply countPoison_keeps
    | with_reducible apply scatterChoice_keeps
    | with_reducible apply bump_keeps
    | with_reducible apply Keeps.foldCardRun
    | (split)

theorem scatterChunk_keeps {s : State} (a0 : Nat) (a1 : Op) {a2 : CardRun} (h0 : Keeps s a2.s) :
    Keeps s (scatterChunk a0 a1 a2).s := by
  unfold scatterChunk
  repeat' first
    | (intro _)
    | with_reducible assumption
    | simp only [Keeps.upd_iff]
    | with_reducible apply scatterOne_keeps
    | with_reducible apply sendFill_keeps
    | with_reducible apply Keeps.foldCardRun

theorem cardChunk_keeps {s : State} (a0 : Nat) (a1 : Op) {a2 : CardRun} (h0 : Keeps s a2.s) :
    Keeps s (cardChunk a0 a1 a2).s := by
  unfold cardChunk
  repeat' first
    | with_reducible assumption
    | simp only [Keeps.upd_iff]
    | with_reducible apply dispatchChunk_keeps
    | with_reducible apply returnChunk_keeps
    | with_reducible apply scatterChunk_keeps
    | with_reducible apply combineChunk_keeps
    | (split)

theorem chunkWait_keeps {s : State} {a0 : State} (a1 : Nat) (a2 : Card) (h0 : Keeps s a0) :
    Keeps s (chunkWait a0 a1 a2).1 := by
  unfold chunkWait
  repeat' first
    | with_reducible assumption
    | simp only [KeepsO_none, KeepsO_some, KeepsStart_no, KeepsStart_ends, KeepsStart_go, KeepsSyn_done, KeepsSyn_discarded, KeepsSyn_refused, KeepsCollEnd_waits, KeepsCollEnd_stopped, KeepsCollEnd_done, KeepsGatherEnd_waits, KeepsGatherEnd_stopped, KeepsGatherEnd_done, id]
    | with_reducible apply engineWatch_keeps
    | with_reducible apply setCard_keeps
    | with_reducible apply dropWaits_keeps
    | with_reducible apply Keeps.ite
    | with_reducible apply Keeps.ite1
    | (split)
theorem chunkWait_keeps_eq {s : State} {a0 : State} {a1 : Nat} {a2 : Card} {u x} (e : chunkWait a0 a1 a2 = (u, x)) (h0 : Keeps s a0) : Keeps s u := by
  have k := chunkWait_keeps (s := s) a1 a2 h0
  rw [e] at k; exact k

theorem finishCard_keeps {s : State} {a0 : State} (a1 : Nat) (a2 : Op) (a3 : Card) (h0 : Keeps s a0) :
    Keeps s (finishCard a0 a1 a2 a3) := by
  unfold finishCard
  repeat' first
    | with_reducible assumption
    | simp only [Keeps.upd_iff]
    | with_reducible apply countDispatch_keeps
    | with_reducible apply writeSummary_keeps
    | with_reducible apply modOp_keeps
    | with_reducible apply doneOp_keeps
    | with_reducible apply dropCard_keeps
    | with_reducible apply Keeps.ite

theorem cardLoop_keeps {s : State} (a0 : Nat) (a1 : Op) (a2 : Nat) {a3 : State} (h0 : Keeps s a3) :
    Keeps s (cardLoop a0 a1 a2 a3) := by
  induction a2 generalizing a3 with
  | zero =>
    unfold cardLoop
    repeat' first
      | with_reducible assumption
  | succ n ih =>
    unfold cardLoop
    repeat' first
      | with_reducible assumption
      | simp only [Keeps.upd_iff]
      | with_reducible apply ih
      | with_reducible apply abortCard_keeps
      | with_reducible apply dropWaits_keeps
      | with_reducible apply dropCard_keeps
      | with_reducible apply finishCard_keeps
      | (with_reducible apply chunkWait_keeps_eq; case e => with_reducible assumption)
      | with_reducible apply cardChunk_keeps
      | with_reducible apply stopCard_keeps
      | with_reducible apply setCard_keeps
      | with_reducible apply Keeps.ite
      | (split)

theorem startBinding_keeps {s : State} {a0 : State} (a1 : Op) (a2 : Card) (h0 : Keeps s a0) :
    Keeps s (startBinding a0 a1 a2) := by
  unfold startBinding
  repeat' first
    | with_reducible assumption
    | simp only [Keeps.upd_iff]
    | with_reducible apply bindMap_keeps
    | with_reducible apply Keeps.ite

theorem startIndex_keeps {s : State} {a0 : State} (a1 : Op) (a2 : Nat) (h0 : Keeps s a0) :
    Keeps s (startIndex a0 a1 a2) := by
  unfold startIndex
  repeat' first
    | with_reducible assumption
    | simp only [Keeps.upd_iff]
    | with_reducible apply Keeps.ite

theorem unbindMap_keeps {s : State} {a0 : State} (a1 : Nat) (a2 : Nat) (h0 : Keeps s a0) :
    Keeps s (unbindMap a0 a1 a2) := by
  unfold unbindMap
  repeat' first
    | with_reducible assumption
    | simp only [Keeps.upd_iff]
    | with_reducible apply wr_keeps

theorem releaseMap_keeps {s : State} {a0 : State} (a1 : Nat) (a2 : Card) (h0 : Keeps s a0) :
    Keeps s (releaseMap a0 a1 a2) := by
  unfold releaseMap
  repeat' first
    | with_reducible assumption
    | with_reducible apply unbindMap_keeps
    | with_reducible apply Keeps.ite

theorem cardRun_keeps {s : State} (a0 : Nat) {a1 : State} (a2 : Queue) (a3 : Op) (a4 : Head) (h0 : Keeps s a1) :
    Keeps s (cardRun a0 a1 a2 a3 a4) := by
  unfold cardRun
  repeat' first
    | with_reducible assumption
    | simp only [Keeps.upd_iff]
    | with_reducible apply badPtr_keeps
    | with_reducible apply refuseOp_keeps
    | with_reducible apply doneOp_keeps
    | with_reducible apply releaseMap_keeps
    | with_reducible apply startIndex_keeps
    | with_reducible apply startBinding_keeps
    | with_reducible apply cardLoop_keeps
    | with_reducible apply setCard_keeps
    | with_reducible apply Keeps.ite
    | (split)

theorem cardUnwoken_keeps {s : State} {a0 : State} (a1 : Nat) (a2 : Op) (a3 : Nat) (h0 : Keeps s a0) :
    Keeps s (cardUnwoken a0 a1 a2 a3) := by
  unfold cardUnwoken
  repeat' first
    | (intro _)
    | with_reducible assumption
    | with_reducible apply sendAbort_keeps
    | with_reducible apply abortCard_keeps
    | with_reducible apply Keeps.ite
    | with_reducible apply Keeps.fold
    | (split)

theorem cardExec_keeps {s : State} (a0 : Nat) (a1 : Nat) {a2 : State} (h0 : Keeps s a2) :
    Keeps s (cardExec a0 a1 a2) := by
  unfold cardExec
  repeat' first
    | (intro _)
    | with_reducible assumption
    | simp only [Keeps.upd_iff]
    | with_reducible apply runHead_keeps
    | with_reducible apply cardRun_keeps
    | with_reducible apply cardUnwoken_keeps
    | with_reducible apply Keeps.ite
    | (split)

theorem cardGoOn_keeps {s : State} (a0 : List Nat) (a1 : Nat) {a2 : State} (h0 : Keeps s a2) :
    Keeps s (cardGoOn a0 a1 a2) := by
  unfold cardGoOn
  repeat' first
    | with_reducible assumption
    | with_reducible apply cardLoop_keeps
    | with_reducible apply Keeps.ite
    | (split)

theorem settleCards_keeps {s : State} {a0 : State} (h0 : Keeps s a0) :
    Keeps s (settleCards a0) := by
  unfold settleCards
  repeat' first
    | (intro _)
    | with_reducible assumption
    | with_reducible apply abortCard_keeps
    | with_reducible apply dropWaits_keeps
    | with_reducible apply dropCard_keeps
    | with_reducible apply Keeps.ite
    | with_reducible apply Keeps.fold
    | (split)

theorem sendAck_keeps {s : State} {a0 : State} (a1 : Nat) (h0 : Keeps s a0) :
    Keeps s (sendAck a0 a1) := by
  unfold sendAck
  repeat' first
    | with_reducible assumption
    | simp only [Keeps.upd_iff]
    | with_reducible apply sendLoose_keeps
    | with_reducible apply setFlow_keeps

theorem ackIfDue_keeps {s : State} {a0 : State} (a1 : Nat) (h0 : Keeps s a0) :
    Keeps s (ackIfDue a0 a1) := by
  unfold ackIfDue
  repeat' first
    | with_reducible assumption
    | with_reducible apply sendAck_keeps
    | with_reducible apply Keeps.ite

theorem dropRelay_keeps {s : State} {a0 : State} (a1 : Nat) (a2 : Packet) (a3 : Nat) (h0 : Keeps s a0) :
    Keeps s (dropRelay a0 a1 a2 a3) := by
  unfold dropRelay
  repeat' first
    | with_reducible assumption
    | with_reducible apply lateOnly_keeps

theorem relayTake_keeps {s : State} {a0 : State} (a1 : Nat) (a2 : Packet) (h0 : Keeps s a0) :
    KeepsO id s (relayTake a0 a1 a2) := by
  unfold relayTake
  repeat' first
    | with_reducible assumption
    | exact trivial
    | simp only [KeepsO_none, KeepsO_some, KeepsStart_no, KeepsStart_ends, KeepsStart_go, KeepsSyn_done, KeepsSyn_discarded, KeepsSyn_refused, KeepsCollEnd_waits, KeepsCollEnd_stopped, KeepsCollEnd_done, KeepsGatherEnd_waits, KeepsGatherEnd_stopped, KeepsGatherEnd_done, id]
    | simp only [Keeps.upd_iff]
    | with_reducible apply dropRelay_keeps
    | with_reducible apply raiseDev_keeps
    | (with_reducible apply deviceBuf_keeps_eq; case e => with_reducible assumption)
    | with_reducible apply KeepsO.ite
    | (split)
theorem relayTake_keeps_eq {s : State} {a0 : State} {a1 : Nat} {a2 : Packet} {u} (e : relayTake a0 a1 a2 = some u) (h0 : Keeps s a0) : Keeps s u := by
  have k := relayTake_keeps (s := s) a1 a2 h0
  rw [e] at k; exact k

theorem sendSpdm_keeps {s : State} {a0 : State} (a1 : Nat) (a2 : Nat) (h0 : Keeps s a0) :
    Keeps s (sendSpdm a0 a1 a2) := by
  unfold sendSpdm
  repeat' first
    | with_reducible assumption
    | simp only [Keeps.upd_iff]
    | with_reducible apply sendPk_keeps

theorem failAttest_keeps {s : State} {a0 : State} (a1 : Nat) (a2 : Nat) (h0 : Keeps s a0) :
    Keeps s (failAttest a0 a1 a2) := by
  unfold failAttest
  repeat' first
    | with_reducible assumption
    | simp only [Keeps.upd_iff]
    | with_reducible apply raiseDev_keeps

theorem takeSpdm_keeps {s : State} {a0 : State} (a1 : Packet) (a2 : Spdm) (h0 : Keeps s a0) :
    Keeps s (takeSpdm a0 a1 a2) := by
  unfold takeSpdm
  repeat' first
    | with_reducible assumption
    | simp only [Keeps.upd_iff]
    | with_reducible apply failAttest_keeps
    | with_reducible apply sendSpdm_keeps
    | with_reducible apply pumpFlow_keeps
    | with_reducible apply Keeps.ite

theorem applyLateAll_keeps {s : State} {a0 : State} (a1 : Nat) (a2 : Packet) (h0 : Keeps s a0) :
    Keeps s (applyLateAll a0 a1 a2) := by
  unfold applyLateAll
  repeat' first
    | with_reducible assumption
    | simp only [Keeps.upd_iff]
    | with_reducible apply settleCards_keeps
    | with_reducible apply applyLate_keeps
    | with_reducible apply refuseRequests_keeps
    | with_reducible apply Keeps.ite

theorem applyPk_keeps {s : State} {a0 : State} (a1 : Nat) (a2 : Packet) (a3 : List EccEvent) (h0 : Keeps s a0) :
    Keeps s (applyPk a0 a1 a2 a3) := by
  unfold applyPk
  repeat' first
    | with_reducible assumption
    | with_reducible apply applyLoad_keeps
    | with_reducible apply applyLoadData_keeps
    | with_reducible apply applyStore_keeps
    | with_reducible apply applyAtomic_keeps
    | with_reducible apply applyResult_keeps
    | with_reducible apply applyRelease_keeps
    | with_reducible apply applyRemoteSource_keeps
    | with_reducible apply applyCopy_keeps
    | with_reducible apply applySync_keeps
    | with_reducible apply applyMessage_keeps
    | with_reducible apply applyCard_keeps
    | with_reducible apply applyLateAll_keeps
    | with_reducible apply applyNotice_keeps
    | with_reducible apply applyClose_keeps
    | with_reducible apply applyClosed_keeps
    | with_reducible apply applyData_keeps
    | with_reducible apply applyInv_keeps
    | with_reducible apply homeAnswer_keeps
    | with_reducible apply applyRecall_keeps
    | with_reducible apply applyRetryAfter_keeps
    | with_reducible apply takeSpdm_keeps
    | with_reducible apply Keeps.ite
    | (split)

theorem applyReady_keeps {s : State} {a0 : State} (a1 : List (Nat × Packet)) (a2 : List EccEvent) (h0 : Keeps s a0) :
    Keeps s (applyReady a0 a1 a2) := by
  unfold applyReady
  repeat' first
    | (intro _)
    | with_reducible assumption
    | simp only [Keeps.upd_iff]
    | with_reducible apply applyPk_keeps
    | with_reducible apply homeCycle_keeps
    | with_reducible apply Keeps.ite
    | with_reducible apply Keeps.fold

theorem countApplied_keeps {s : State} {a0 : State} (a1 : Nat) (a2 : Packet) (h0 : Keeps s a0) :
    Keeps s (countApplied a0 a1 a2) := by
  unfold countApplied
  repeat' first
    | with_reducible assumption
    | simp only [Keeps.upd_iff]
    | with_reducible apply bump_keeps
    | with_reducible apply modFlow_keeps
    | with_reducible apply Keeps.ite

theorem heldNext_keeps {s : State} {a0 : State} (a1 : Nat) (h0 : Keeps s a0) :
    KeepsO Prod.snd s (heldNext a0 a1) := by
  unfold heldNext
  repeat' first
    | with_reducible assumption
    | exact trivial
    | simp only [KeepsO_none, KeepsO_some, KeepsStart_no, KeepsStart_ends, KeepsStart_go, KeepsSyn_done, KeepsSyn_discarded, KeepsSyn_refused, KeepsCollEnd_waits, KeepsCollEnd_stopped, KeepsCollEnd_done, KeepsGatherEnd_waits, KeepsGatherEnd_stopped, KeepsGatherEnd_done, id]
    | with_reducible apply deviceRelease_keeps
    | with_reducible apply setFlow_keeps
    | (split)
theorem heldNext_keeps_eq {s : State} {a0 : State} {a1 : Nat} {u x} (e : heldNext a0 a1 = some (x, u)) (h0 : Keeps s a0) : Keeps s u := by
  have k := heldNext_keeps (s := s) a1 h0
  rw [e] at k; exact k

theorem release_keeps {s : State} {a0 : State} (a1 : Nat) (a2 : Packet) (h0 : Keeps s a0) :
    KeepsO Prod.fst s (release a0 a1 a2) := by
  unfold release
  split
  · have k := relayTake_keeps a1 a2 h0
    cases hr : relayTake a0 a1 a2 with
    | none => trivial
    | some t => rw [hr] at k; exact countApplied_keeps _ _ k
  · exact countApplied_keeps _ _ h0
theorem release_keeps_eq {s : State} {a0 : State} {a1 : Nat} {a2 : Packet} {u x} (e : release a0 a1 a2 = some (u, x)) (h0 : Keeps s a0) : Keeps s u := by
  have k := release_keeps (s := s) a1 a2 h0
  rw [e] at k; exact k

theorem releaseAll_keeps {s : State} (a0 : Nat) (a1 : Nat) {a2 : State} (a3 : Packet) (a4 : List (Nat × Packet)) (h0 : Keeps s a2) :
    Keeps s (releaseAll a0 a1 a2 a3 a4).1 := by
  induction a1 generalizing a2 a3 a4 with
  | zero =>
    unfold releaseAll
    repeat' first
      | with_reducible assumption
  | succ n ih =>
    unfold releaseAll
    repeat' first
      | with_reducible assumption
      | simp only [KeepsO_none, KeepsO_some, KeepsStart_no, KeepsStart_ends, KeepsStart_go, KeepsSyn_done, KeepsSyn_discarded, KeepsSyn_refused, KeepsCollEnd_waits, KeepsCollEnd_stopped, KeepsCollEnd_done, KeepsGatherEnd_waits, KeepsGatherEnd_stopped, KeepsGatherEnd_done, id]
      | simp only [Keeps.upd_iff]
      | with_reducible apply ih
      | (with_reducible apply release_keeps_eq; case e => with_reducible assumption)
      | (with_reducible apply heldNext_keeps_eq; case e => with_reducible assumption)
      | (split)
theorem releaseAll_keeps_eq {s : State} {a0 : Nat} {a1 : Nat} {a2 : State} {a3 : Packet} {a4 : List (Nat × Packet)} {u x} (e : releaseAll a0 a1 a2 a3 a4 = (u, x)) (h0 : Keeps s a2) : Keeps s u := by
  have k := releaseAll_keeps (s := s) a0 a1 a3 a4 h0
  rw [e] at k; exact k

theorem takeSeq_keeps {s : State} {a0 : State} (a1 : Nat) (a2 : Packet) (h0 : Keeps s a0) :
    Keeps s (takeSeq a0 a1 a2).1 := by
  suffices h : ∀ z, takeSeq a0 a1 a2 = z → Keeps s z.1 from h _ rfl
  intro z hz
  have k : Keeps s (bump a0 0x2B0704 1) := bump_keeps _ _ h0
  have d := deviceBuf_keeps (ent a0 0x290401) false h0
  have ak := sendAck_keeps a1 k
  have b6 : Keeps s (bump a0 0x2B0706 1) := bump_keeps _ _ h0
  rw [takeSeq.eq_1] at hz
  generalize (4097 : Nat) = n at hz
  have r := releaseAll_keeps a1 n a2 [] h0
  generalize releaseAll a1 n a0 a2 [] = w at r hz
  generalize deviceBuf a0 (ent a0 0x290401) false = y at d hz
  obtain ⟨t, b⟩ := y
  replace d : Keeps s t := d
  subst hz
  cases b
  all_goals
    repeat' first
      | with_reducible assumption
      | with_reducible apply Keeps.ite1
      | with_reducible apply modFlow_keeps
      | dsimp only
      | split
theorem takeSeq_keeps_eq {s : State} {a0 : State} {a1 : Nat} {a2 : Packet} {u x} (e : takeSeq a0 a1 a2 = (u, x)) (h0 : Keeps s a0) : Keeps s u := by
  have k := takeSeq_keeps (s := s) a1 a2 h0
  rw [e] at k; exact k

theorem badPacket_keeps {s : State} {a0 : State} (a1 : Packet) (h0 : Keeps s a0) :
    Keeps s (badPacket a0 a1) := by
  unfold badPacket
  repeat' first
    | with_reducible assumption
    | with_reducible apply raiseDev_keeps

theorem untrustedPk_keeps {s : State} {a0 : State} (a1 : Nat) (h0 : Keeps s a0) :
    Keeps s (untrustedPk a0 a1) := by
  unfold untrustedPk
  repeat' first
    | with_reducible assumption
    | simp only [Keeps.upd_iff]
    | with_reducible apply bump_keeps
    | with_reducible apply raiseDev_keeps
    | with_reducible apply Keeps.ite

theorem arrive_keeps {s : State} {a0 : State} (a1 : Nat) (a2 : Packet) (h0 : Keeps s a0) :
    Keeps s (arrive a0 a1 a2).1 := by
  unfold arrive
  repeat' first
    | with_reducible assumption
    | simp only [KeepsO_none, KeepsO_some, KeepsStart_no, KeepsStart_ends, KeepsStart_go, KeepsSyn_done, KeepsSyn_discarded, KeepsSyn_refused, KeepsCollEnd_waits, KeepsCollEnd_stopped, KeepsCollEnd_done, KeepsGatherEnd_waits, KeepsGatherEnd_stopped, KeepsGatherEnd_done, id]
    | with_reducible apply badPacket_keeps
    | with_reducible apply untrustedPk_keeps
    | with_reducible apply takeSeq_keeps
    | with_reducible apply Keeps.ite1
theorem arrive_keeps_eq {s : State} {a0 : State} {a1 : Nat} {a2 : Packet} {u x} (e : arrive a0 a1 a2 = (u, x)) (h0 : Keeps s a0) : Keeps s u := by
  have k := arrive_keeps (s := s) a1 a2 h0
  rw [e] at k; exact k

theorem receive_keeps {s : State} {a0 : State} (a1 : List (Nat × Packet)) (a2 : List EccEvent) (h0 : Keeps s a0) :
    Keeps s (receive a0 a1 a2) := by
  unfold receive
  repeat' first
    | (intro _)
    | with_reducible assumption
    | simp only [Keeps.upd_iff]
    | with_reducible apply arrive_keeps
    | with_reducible apply applyReady_keeps
    | with_reducible apply ackIfDue_keeps
    | with_reducible apply Keeps.fold
    | with_reducible apply Keeps.fold1

theorem rxRow_keeps {s : State} {a0 : State} (a1 : Nat) (a2 : Packet) (a3 : Bool) (a4 : List EccEvent) (h0 : Keeps s a0) :
    Keeps s (rxRow a0 a1 a2 a3 a4) := by
  unfold rxRow
  repeat' first
    | with_reducible assumption
    | with_reducible apply receive_keeps
    | with_reducible apply Keeps.ite

theorem retryHeld_keeps {s : State} {a0 : State} (a1 : Nat × Packet) (h0 : Keeps s a0) :
    Keeps s (retryHeld a0 a1) := by
  unfold retryHeld
  repeat' first
    | with_reducible assumption
    | simp only [Keeps.upd_iff]
    | with_reducible apply bump_keeps
    | with_reducible apply releaseAll_keeps
    | with_reducible apply ackIfDue_keeps
    | with_reducible apply applyReady_keeps
    | (split)

theorem settleFences_keeps {s : State} {a0 : State} (h0 : Keeps s a0) :
    Keeps s (settleFences a0) := by
  unfold settleFences
  repeat' first
    | (intro _)
    | with_reducible assumption
    | with_reducible apply settleFence_keeps
    | with_reducible apply Keeps.fold
    | (split)

theorem noteAcked_keeps {s : State} (a0 : Nat) {a1 : State} (a2 : Sent) (h0 : Keeps s a1) :
    Keeps s (noteAcked a0 a1 a2) := by
  unfold noteAcked
  repeat' first
    | with_reducible assumption
    | with_reducible apply modOwner_keeps
    | with_reducible apply Keeps.ite

theorem takeAck_keeps {s : State} {a0 : State} (a1 : Nat) (a2 : Nat) (a3 : Bool) (h0 : Keeps s a0) :
    Keeps s (takeAck a0 a1 a2 a3) := by
  unfold takeAck
  repeat' first
    | (intro _)
    | with_reducible assumption
    | simp only [Keeps.upd_iff]
    | with_reducible apply noteAcked_keeps
    | with_reducible apply setFlow_keeps
    | with_reducible apply pumpFlow_keeps
    | with_reducible apply settleFences_keeps
    | with_reducible apply Keeps.fold

theorem resend_keeps {s : State} {a0 : State} (a1 : Nat) (h0 : Keeps s a0) :
    Keeps s (resend a0 a1) := by
  unfold resend
  repeat' first
    | (intro _)
    | with_reducible assumption
    | with_reducible apply bump_keeps
    | with_reducible apply transmit_keeps
    | with_reducible apply Keeps.fold

theorem sendReset_keeps {s : State} {a0 : State} (a1 : Nat) (a2 : Nat) (a3 : Nat) (h0 : Keeps s a0) :
    Keeps s (sendReset a0 a1 a2 a3) := by
  unfold sendReset
  repeat' first
    | with_reducible assumption
    | with_reducible apply sendLoose_keeps

theorem restartFlow_keeps {s : State} {a0 : State} (a1 : Nat) (a2 : Nat) (h0 : Keeps s a0) :
    Keeps s (restartFlow a0 a1 a2) := by
  unfold restartFlow
  repeat' first
    | (intro _)
    | with_reducible assumption
    | simp only [Keeps.upd_iff]
    | with_reducible apply deviceRelease_keeps
    | with_reducible apply setFlow_keeps
    | with_reducible apply Keeps.fold

theorem takeReset_keeps {s : State} {a0 : State} (a1 : Nat) (a2 : Packet) (h0 : Keeps s a0) :
    Keeps s (takeReset a0 a1 a2) := by
  unfold takeReset
  repeat' first
    | with_reducible assumption
    | simp only [Keeps.upd_iff]
    | with_reducible apply restartFlow_keeps
    | with_reducible apply sendReset_keeps
    | with_reducible apply pumpFlow_keeps
    | with_reducible apply dropLines_keeps
    | with_reducible apply freeSlots_keeps
    | with_reducible apply sendSpdm_keeps
    | with_reducible apply Keeps.ite

theorem followTime_keeps {s : State} {a0 : State} (a1 : Nat) (h0 : Keeps s a0) :
    Keeps s (followTime a0 a1) := by
  unfold followTime
  repeat' first
    | with_reducible assumption
    | simp only [Keeps.upd_iff]
    | with_reducible apply Keeps.ite

end Sys2Proof.Machine
end

