-- ==== Sys2Proof/Laws/KeepsJobs.lean ====
section
/-!
SUPPORT. Laws/KeepsJobs.lean: every function of collectives, completion and placement
passes on the commands that wait and the canonical form of memory.
-/
namespace Sys2Proof.Machine
set_option Elab.async false

theorem clSend_keeps {s : State} {a0 : State} (a1 : CollRun) (a2 : Coll) (a3 : Nat) (a4 : List Nat) (a5 : List Nat) (h0 : Keeps s a0) :
    Keeps s (clSend a0 a1 a2 a3 a4 a5) := by
  unfold clSend
  repeat' first
    | (intro _)
    | with_reducible assumption
    | simp only [Keeps.upd_iff]
    | with_reducible apply sendPk_keeps
    | with_reducible apply Keeps.fold

theorem clAbort_keeps {s : State} {a0 : State} (a1 : CollRun) (a2 : Coll) (a3 : Nat) (h0 : Keeps s a0) :
    Keeps s (clAbort a0 a1 a2 a3) := by
  unfold clAbort
  repeat' first
    | (intro _)
    | with_reducible assumption
    | with_reducible apply clSend_keeps
    | with_reducible apply Keeps.fold

theorem clTouched_keeps {s : State} {a0 : State} (a1 : CollRun) (a2 : Coll) (a3 : Nat) (h0 : Keeps s a0) :
    Keeps s (clTouched a0 a1 a2 a3).2 := by
  unfold clTouched
  repeat' first
    | with_reducible assumption
    | simp only [KeepsO_none, KeepsO_some, KeepsStart_no, KeepsStart_ends, KeepsStart_go, KeepsSyn_done, KeepsSyn_discarded, KeepsSyn_refused, KeepsCollEnd_waits, KeepsCollEnd_stopped, KeepsCollEnd_done, KeepsGatherEnd_waits, KeepsGatherEnd_stopped, KeepsGatherEnd_done, id]
    | with_reducible apply clearLocalFinite_keeps
    | with_reducible apply raise_keeps
    | with_reducible apply Keeps.ite2
    | (split)
theorem clTouched_keeps_eq {s : State} {a0 : State} {a1 : CollRun} {a2 : Coll} {a3 : Nat} {u x} (e : clTouched a0 a1 a2 a3 = (x, u)) (h0 : Keeps s a0) : Keeps s u := by
  have k := clTouched_keeps (s := s) a1 a2 a3 h0
  rw [e] at k; exact k

theorem setDecision_keeps {s : State} {a0 : State} (a1 : Nat) (a2 : Nat) (a3 : Bool) (h0 : Keeps s a0) :
    Keeps s (setDecision a0 a1 a2 a3) := by
  unfold setDecision
  repeat' first
    | with_reducible assumption
    | with_reducible apply modPart_keeps
    | with_reducible apply Keeps.ite

theorem clDecide_keeps {s : State} {a0 : State} (a1 : CollRun) (a2 : Coll) (a3 : Bool) (a4 : Bool × List Nat) (h0 : Keeps s a0) :
    Keeps s (clDecide a0 a1 a2 a3 a4) := by
  unfold clDecide
  repeat' first
    | (intro _)
    | with_reducible assumption
    | simp only [Keeps.upd_iff]
    | with_reducible apply raise_keeps
    | with_reducible apply setDecision_keeps
    | with_reducible apply Keeps.fold

theorem clSpoil_keeps {s : State} {a0 : State} (a1 : Nat) (a2 : Coll) (h0 : Keeps s a0) :
    Keeps s (clSpoil a0 a1 a2) := by
  unfold clSpoil
  repeat' first
    | with_reducible assumption
    | simp only [Keeps.upd_iff]
    | with_reducible apply wr_keeps
    | (split)

theorem clCount_keeps {s : State} {a0 : State} (h0 : Keeps s a0) :
    Keeps s (clCount a0) := by
  unfold clCount
  repeat' first
    | with_reducible assumption
    | with_reducible apply bump_keeps

theorem clStop_keeps {s : State} {a0 : State} (a1 : CollRun) (a2 : Coll) (a3 : Nat) (a4 : Nat) (a5 : List (Nat × Nat)) (h0 : Keeps s a0) :
    KeepsCollEnd s (clStop a0 a1 a2 a3 a4 a5) := by
  unfold clStop
  repeat' first
    | with_reducible assumption
    | simp only [KeepsO_none, KeepsO_some, KeepsStart_no, KeepsStart_ends, KeepsStart_go, KeepsSyn_done, KeepsSyn_discarded, KeepsSyn_refused, KeepsCollEnd_waits, KeepsCollEnd_stopped, KeepsCollEnd_done, KeepsGatherEnd_waits, KeepsGatherEnd_stopped, KeepsGatherEnd_done, id]
    | with_reducible apply clCount_keeps
    | with_reducible apply clAbort_keeps
theorem clStop_keeps_stopped {s : State} {a0 : State} {a1 : CollRun} {a2 : Coll} {a3 : Nat} {a4 : Nat} {a5 : List (Nat × Nat)} {u x y} (e : clStop a0 a1 a2 a3 a4 a5 = .stopped u x y) (h0 : Keeps s a0) : Keeps s u := by
  have k := clStop_keeps (s := s) a1 a2 a3 a4 a5 h0
  rw [e] at k; exact k

theorem clStop_keeps_done {s : State} {a0 : State} {a1 : CollRun} {a2 : Coll} {a3 : Nat} {a4 : Nat} {a5 : List (Nat × Nat)} {u x y} (e : clStop a0 a1 a2 a3 a4 a5 = .done u x y) (h0 : Keeps s a0) : Keeps s u := by
  have k := clStop_keeps (s := s) a1 a2 a3 a4 a5 h0
  rw [e] at k; exact k

theorem clFinish_keeps {s : State} {a0 : State} (a1 : CollRun) (a2 : Coll) (a3 : Nat) (a4 : List Contrib) (a5 : Bool) (a6 : Option (List Nat)) (h0 : Keeps s a0) :
    KeepsCollEnd s (clFinish a0 a1 a2 a3 a4 a5 a6) := by
  unfold clFinish
  repeat' first
    | (intro _)
    | with_reducible assumption
    | exact trivial
    | simp only [KeepsO_none, KeepsO_some, KeepsStart_no, KeepsStart_ends, KeepsStart_go, KeepsSyn_done, KeepsSyn_discarded, KeepsSyn_refused, KeepsCollEnd_waits, KeepsCollEnd_stopped, KeepsCollEnd_done, KeepsGatherEnd_waits, KeepsGatherEnd_stopped, KeepsGatherEnd_done, id]
    | simp only [Keeps.upd_iff]
    | with_reducible apply clSend_keeps
    | with_reducible apply engineAdd_keeps
    | with_reducible apply wr_keeps
    | with_reducible apply clSpoil_keeps
    | with_reducible apply clDecide_keeps
    | with_reducible apply clearLocalFinite_keeps
    | with_reducible apply clCount_keeps
    | with_reducible apply Keeps.ite
    | with_reducible apply Keeps.fold
    | (split)
theorem clFinish_keeps_stopped {s : State} {a0 : State} {a1 : CollRun} {a2 : Coll} {a3 : Nat} {a4 : List Contrib} {a5 : Bool} {a6 : Option (List Nat)} {u x y} (e : clFinish a0 a1 a2 a3 a4 a5 a6 = .stopped u x y) (h0 : Keeps s a0) : Keeps s u := by
  have k := clFinish_keeps (s := s) a1 a2 a3 a4 a5 a6 h0
  rw [e] at k; exact k

theorem clFinish_keeps_done {s : State} {a0 : State} {a1 : CollRun} {a2 : Coll} {a3 : Nat} {a4 : List Contrib} {a5 : Bool} {a6 : Option (List Nat)} {u x y} (e : clFinish a0 a1 a2 a3 a4 a5 a6 = .done u x y) (h0 : Keeps s a0) : Keeps s u := by
  have k := clFinish_keeps (s := s) a1 a2 a3 a4 a5 a6 h0
  rw [e] at k; exact k

theorem clRun_keeps {s : State} {a0 : State} (a1 : CollRun) (a2 : Coll) (a3 : List Contrib) (h0 : Keeps s a0) :
    KeepsCollEnd s (clRun a0 a1 a2 a3) := by
  unfold clRun
  repeat' first
    | with_reducible assumption
    | exact trivial
    | simp only [KeepsO_none, KeepsO_some, KeepsStart_no, KeepsStart_ends, KeepsStart_go, KeepsSyn_done, KeepsSyn_discarded, KeepsSyn_refused, KeepsCollEnd_waits, KeepsCollEnd_stopped, KeepsCollEnd_done, KeepsGatherEnd_waits, KeepsGatherEnd_stopped, KeepsGatherEnd_done, id]
    | with_reducible apply clTouched_keeps
    | with_reducible apply clStop_keeps
    | with_reducible apply countPoison_keeps
    | with_reducible apply clFinish_keeps
    | (split)
theorem clRun_keeps_stopped {s : State} {a0 : State} {a1 : CollRun} {a2 : Coll} {a3 : List Contrib} {u x y} (e : clRun a0 a1 a2 a3 = .stopped u x y) (h0 : Keeps s a0) : Keeps s u := by
  have k := clRun_keeps (s := s) a1 a2 a3 h0
  rw [e] at k; exact k

theorem clRun_keeps_done {s : State} {a0 : State} {a1 : CollRun} {a2 : Coll} {a3 : List Contrib} {u x y} (e : clRun a0 a1 a2 a3 = .done u x y) (h0 : Keeps s a0) : Keeps s u := by
  have k := clRun_keeps (s := s) a1 a2 a3 h0
  rw [e] at k; exact k

theorem clOp_keeps {s : State} (a0 : Nat) (a1 : List Contrib) (a2 : Nat) {a3 : State} {a4 : State} (a5 : Queue) (a6 : Op) (h0 : Keeps s a3) (h1 : Keeps s a4) :
    Keeps s (clOp a0 a1 a2 a3 a4 a5 a6) := by
  unfold clOp
  repeat' first
    | with_reducible assumption
    | with_reducible apply refuseOp_keeps
    | (with_reducible apply clRun_keeps_stopped; case e => with_reducible assumption)
    | (with_reducible apply clRun_keeps_done; case e => with_reducible assumption)
    | with_reducible apply modOp_keeps
    | with_reducible apply stopOp_keeps
    | with_reducible apply doneOp_keeps
    | with_reducible apply noteRows_keeps
    | with_reducible apply Keeps.ite
    | (split)

theorem clExec_keeps {s : State} (a0 : Nat) (a1 : List Contrib) (a2 : Nat) {a3 : State} (h0 : Keeps s a3) :
    Keeps s (clExec a0 a1 a2 a3) := by
  unfold clExec
  repeat' first
    | with_reducible assumption
    | (with_reducible apply startHead_keeps_go; case e => with_reducible assumption)
    | (with_reducible apply startHead_keeps_ends; case e => with_reducible assumption)
    | with_reducible apply clOp_keeps
    | (split)

theorem recordOp_keeps {s : State} {a0 : State} (a1 : Queue) (a2 : Op) (a3 : Head) (h0 : Keeps s a0) :
    Keeps s (recordOp a0 a1 a2 a3) := by
  unfold recordOp
  repeat' first
    | (intro _)
    | with_reducible assumption
    | simp only [Keeps.upd_iff]
    | with_reducible apply modLayer_keeps
    | with_reducible apply Keeps.ite
    | with_reducible apply Keeps.fold
    | (split)

theorem writeMap_keeps {s : State} {a0 : State} (a1 : Job) (a2 : Layer) (h0 : Keeps s a0) :
    Keeps s (writeMap a0 a1 a2) := by
  unfold writeMap
  repeat' first
    | with_reducible assumption
    | with_reducible apply wr_keeps

theorem placeJob_keeps {s : State} {a0 : State} (a1 : Nat) (a2 : Job) (h0 : Keeps s a0) :
    Keeps s (placeJob a0 a1 a2) := by
  unfold placeJob
  repeat' first
    | (intro _)
    | with_reducible assumption
    | simp only [Keeps.upd_iff]
    | with_reducible apply modPart_keeps
    | with_reducible apply writeMap_keeps
    | with_reducible apply writeImage_keeps
    | with_reducible apply Keeps.fold

theorem refusePlace_keeps {s : State} {a0 : State} (a1 : Nat) (a2 : Op) (a3 : Nat) (a4 : Nat × List (Nat × Nat)) (h0 : Keeps s a0) :
    Keeps s (refusePlace a0 a1 a2 a3 a4) := by
  unfold refusePlace
  repeat' first
    | with_reducible assumption
    | with_reducible apply refuseOp_keeps
    | with_reducible apply modPart_keeps

theorem sendJoin_keeps {s : State} {a0 : State} (a1 : Op) (a2 : JobDesc) (a3 : Nat) (h0 : Keeps s a0) :
    Keeps s (sendJoin a0 a1 a2 a3) := by
  unfold sendJoin
  repeat' first
    | (intro _)
    | with_reducible assumption
    | simp only [Keeps.upd_iff]
    | with_reducible apply takeGroup_keeps
    | with_reducible apply pleSend_keeps
    | with_reducible apply Keeps.fold

theorem placeJoin_keeps {s : State} {a0 : State} (a1 : Nat) (a2 : Op) (a3 : Nat) (a4 : JobDesc) (a5 : List Join) (h0 : Keeps s a0) :
    Keeps s (placeJoin a0 a1 a2 a3 a4 a5) := by
  unfold placeJoin
  repeat' first
    | with_reducible assumption
    | simp only [Keeps.upd_iff]
    | with_reducible apply modOp_keeps
    | with_reducible apply modPart_keeps
    | with_reducible apply sendJoin_keeps
    | with_reducible apply refusePlace_keeps
    | with_reducible apply doneOp_keeps
    | with_reducible apply placeJob_keeps
    | with_reducible apply Keeps.ite
    | (split)

theorem placeInit_keeps {s : State} (a0 : List Join) (a1 : Nat) {a2 : State} (a3 : Queue) (a4 : Op) (a5 : Head) (h0 : Keeps s a2) :
    Keeps s (placeInit a0 a1 a2 a3 a4 a5) := by
  unfold placeInit
  repeat' first
    | with_reducible assumption
    | simp only [Keeps.upd_iff]
    | with_reducible apply badPtr_keeps
    | with_reducible apply refuseOp_keeps
    | with_reducible apply refusePlace_keeps
    | with_reducible apply placeJoin_keeps
    | with_reducible apply Keeps.ite
    | (split)

theorem pleColl_keeps {s : State} {a0 : State} (a1 : Nat) (a2 : Job) (a3 : Nat) (a4 : Op) (a5 : Coll) (a6 : List Contrib) (h0 : Keeps s a0) :
    KeepsCollEnd s (pleColl a0 a1 a2 a3 a4 a5 a6) := by
  unfold pleColl
  repeat' first
    | with_reducible assumption
    | simp only [KeepsO_none, KeepsO_some, KeepsStart_no, KeepsStart_ends, KeepsStart_go, KeepsSyn_done, KeepsSyn_discarded, KeepsSyn_refused, KeepsCollEnd_waits, KeepsCollEnd_stopped, KeepsCollEnd_done, KeepsGatherEnd_waits, KeepsGatherEnd_stopped, KeepsGatherEnd_done, id]
    | with_reducible apply clRun_keeps
    | (split)
theorem pleColl_keeps_stopped {s : State} {a0 : State} {a1 : Nat} {a2 : Job} {a3 : Nat} {a4 : Op} {a5 : Coll} {a6 : List Contrib} {u x y} (e : pleColl a0 a1 a2 a3 a4 a5 a6 = .stopped u x y) (h0 : Keeps s a0) : Keeps s u := by
  have k := pleColl_keeps (s := s) a1 a2 a3 a4 a5 a6 h0
  rw [e] at k; exact k

theorem pleColl_keeps_done {s : State} {a0 : State} {a1 : Nat} {a2 : Job} {a3 : Nat} {a4 : Op} {a5 : Coll} {a6 : List Contrib} {u x y} (e : pleColl a0 a1 a2 a3 a4 a5 a6 = .done u x y) (h0 : Keeps s a0) : Keeps s u := by
  have k := pleColl_keeps (s := s) a1 a2 a3 a4 a5 a6 h0
  rw [e] at k; exact k

theorem gatherAll_keeps {s : State} (a0 : Nat) (a1 : Nat) (a2 : Op) (a3 : Job) (a4 : Nat) (a5 : List (Nat × Nat)) {a6 : State} (a7 : List (List Contrib)) (h0 : Keeps s a6) :
    KeepsGatherEnd s (gatherAll a0 a1 a2 a3 a4 a5 a6 a7) := by
  induction a5 generalizing a6 a7 with
  | nil =>
    unfold gatherAll
    repeat' first
      | with_reducible assumption
      | simp only [KeepsO_none, KeepsO_some, KeepsStart_no, KeepsStart_ends, KeepsStart_go, KeepsSyn_done, KeepsSyn_discarded, KeepsSyn_refused, KeepsCollEnd_waits, KeepsCollEnd_stopped, KeepsCollEnd_done, KeepsGatherEnd_waits, KeepsGatherEnd_stopped, KeepsGatherEnd_done, id]
      | with_reducible apply bump_keeps
      | with_reducible apply modLayer_keeps
  | cons hd tl ih =>
    unfold gatherAll
    repeat' first
      | with_reducible assumption
      | exact trivial
      | simp only [KeepsO_none, KeepsO_some, KeepsStart_no, KeepsStart_ends, KeepsStart_go, KeepsSyn_done, KeepsSyn_discarded, KeepsSyn_refused, KeepsCollEnd_waits, KeepsCollEnd_stopped, KeepsCollEnd_done, KeepsGatherEnd_waits, KeepsGatherEnd_stopped, KeepsGatherEnd_done, id]
      | with_reducible apply ih
      | (with_reducible apply pleColl_keeps_stopped; case e => with_reducible assumption)
      | (with_reducible apply pleColl_keeps_done; case e => with_reducible assumption)
      | (split)
theorem gatherAll_keeps_stopped {s : State} {a0 : Nat} {a1 : Nat} {a2 : Op} {a3 : Job} {a4 : Nat} {a5 : List (Nat × Nat)} {a6 : State} {a7 : List (List Contrib)} {u x y} (e : gatherAll a0 a1 a2 a3 a4 a5 a6 a7 = .stopped u x y) (h0 : Keeps s a6) : Keeps s u := by
  have k := gatherAll_keeps (s := s) a0 a1 a2 a3 a4 a5 a7 h0
  rw [e] at k; exact k

theorem gatherAll_keeps_done {s : State} {a0 : Nat} {a1 : Nat} {a2 : Op} {a3 : Job} {a4 : Nat} {a5 : List (Nat × Nat)} {a6 : State} {a7 : List (List Contrib)} {u x} (e : gatherAll a0 a1 a2 a3 a4 a5 a6 a7 = .done u x) (h0 : Keeps s a6) : Keeps s u := by
  have k := gatherAll_keeps (s := s) a0 a1 a2 a3 a4 a5 a7 h0
  rw [e] at k; exact k

theorem gatherLayer_keeps {s : State} {a0 : State} (a1 : Nat) (a2 : Nat) (a3 : Op) (a4 : Nat) (a5 : Bool) (a6 : List (List Contrib)) (h0 : Keeps s a0) :
    KeepsGatherEnd s (gatherLayer a0 a1 a2 a3 a4 a5 a6) := by
  unfold gatherLayer
  repeat' first
    | with_reducible assumption
    | exact trivial
    | simp only [KeepsO_none, KeepsO_some, KeepsStart_no, KeepsStart_ends, KeepsStart_go, KeepsSyn_done, KeepsSyn_discarded, KeepsSyn_refused, KeepsCollEnd_waits, KeepsCollEnd_stopped, KeepsCollEnd_done, KeepsGatherEnd_waits, KeepsGatherEnd_stopped, KeepsGatherEnd_done, id]
    | with_reducible apply gatherAll_keeps
    | (split)
theorem gatherLayer_keeps_stopped {s : State} {a0 : State} {a1 : Nat} {a2 : Nat} {a3 : Op} {a4 : Nat} {a5 : Bool} {a6 : List (List Contrib)} {u x y} (e : gatherLayer a0 a1 a2 a3 a4 a5 a6 = .stopped u x y) (h0 : Keeps s a0) : Keeps s u := by
  have k := gatherLayer_keeps (s := s) a1 a2 a3 a4 a5 a6 h0
  rw [e] at k; exact k

theorem gatherLayer_keeps_done {s : State} {a0 : State} {a1 : Nat} {a2 : Nat} {a3 : Op} {a4 : Nat} {a5 : Bool} {a6 : List (List Contrib)} {u x} (e : gatherLayer a0 a1 a2 a3 a4 a5 a6 = .done u x) (h0 : Keeps s a0) : Keeps s u := by
  have k := gatherLayer_keeps (s := s) a1 a2 a3 a4 a5 a6 h0
  rw [e] at k; exact k

theorem gatherAhead_keeps {s : State} (a0 : Nat) (a1 : Nat) (a2 : Op) (a3 : Bool) (a4 : List Nat) {a5 : State} (a6 : List (List Contrib)) (h0 : Keeps s a5) :
    Keeps s (gatherAhead a0 a1 a2 a3 a4 a5 a6) := by
  induction a4 generalizing a5 a6 with
  | nil =>
    unfold gatherAhead
    repeat' first
      | with_reducible assumption
  | cons hd tl ih =>
    unfold gatherAhead
    repeat' first
      | with_reducible assumption
      | with_reducible apply ih
      | (with_reducible apply gatherLayer_keeps_stopped; case e => with_reducible assumption)
      | (with_reducible apply gatherLayer_keeps_done; case e => with_reducible assumption)
      | with_reducible apply raise_keeps
      | (split)

theorem loseClass_keeps {s : State} {a0 : State} (a1 : Nat) (a2 : Job) (a3 : Nat) (a4 : Nat) (h0 : Keeps s a0) :
    Keeps s (loseClass a0 a1 a2 a3 a4) := by
  unfold loseClass
  repeat' first
    | with_reducible assumption
    | with_reducible apply clearLocalFinite_keeps
    | with_reducible apply pleFault_keeps

theorem offloadClass_keeps {s : State} (a0 : Nat) (a1 : Nat) (a2 : Nat) {a3 : State} (a4 : Nat) (h0 : Keeps s a3) :
    Keeps s (offloadClass a0 a1 a2 a3 a4) := by
  unfold offloadClass
  repeat' first
    | with_reducible assumption
    | simp only [Keeps.upd_iff]
    | with_reducible apply loseClass_keeps
    | with_reducible apply raiseOwner_keeps
    | with_reducible apply bump_keeps
    | with_reducible apply pleSend_keeps
    | (split)

theorem returnClass_keeps {s : State} (a0 : Nat) (a1 : Nat) (a2 : Nat) {a3 : State} (a4 : Nat) (h0 : Keeps s a3) :
    Keeps s (returnClass a0 a1 a2 a3 a4) := by
  unfold returnClass
  repeat' first
    | with_reducible assumption
    | simp only [Keeps.upd_iff]
    | with_reducible apply sendPk_keeps
    | (split)

theorem markerWaits_keeps {s : State} {a0 : State} (a1 : Nat) (a2 : Op) (h0 : Keeps s a0) :
    Keeps s (markerWaits a0 a1 a2) := by
  unfold markerWaits
  repeat' first
    | with_reducible assumption
    | with_reducible apply modOp_keeps

theorem refuseMarker_keeps {s : State} {a0 : State} (a1 : Nat) (a2 : Op) (a3 : Nat × List (Nat × Nat)) (h0 : Keeps s a0) :
    Keeps s (refuseMarker a0 a1 a2 a3) := by
  unfold refuseMarker
  repeat' first
    | with_reducible assumption
    | with_reducible apply refuseOp_keeps
    | with_reducible apply Keeps.ite

theorem enterForward_keeps {s : State} (a0 : List (List Contrib)) (a1 : Nat) {a2 : State} (a3 : Queue) (a4 : Op) (a5 : Head) (h0 : Keeps s a2) :
    Keeps s (enterForward a0 a1 a2 a3 a4 a5) := by
  unfold enterForward
  repeat' first
    | with_reducible assumption
    | simp only [Keeps.upd_iff]
    | with_reducible apply refuseMarker_keeps
    | with_reducible apply markerWaits_keeps
    | (with_reducible apply gatherLayer_keeps_stopped; case e => with_reducible assumption)
    | (with_reducible apply gatherLayer_keeps_done; case e => with_reducible assumption)
    | with_reducible apply stopOp_keeps
    | with_reducible apply modLayer_keeps
    | with_reducible apply gatherAhead_keeps
    | with_reducible apply doneOp_keeps
    | with_reducible apply Keeps.ite
    | (split)

theorem noRecompute_keeps {s : State} {a0 : State} (a1 : Nat) (a2 : Job) (a3 : Nat) (a4 : Nat) (h0 : Keeps s a0) :
    Keeps s (noRecompute a0 a1 a2 a3 a4) := by
  unfold noRecompute
  repeat' first
    | with_reducible assumption
    | with_reducible apply clearLocalFinite_keeps
    | with_reducible apply modLayer_keeps
    | with_reducible apply pleFault_keeps

theorem exitForward_keeps {s : State} (a0 : Nat) {a1 : State} (a2 : Queue) (a3 : Op) (a4 : Head) (h0 : Keeps s a1) :
    Keeps s (exitForward a0 a1 a2 a3 a4) := by
  unfold exitForward
  repeat' first
    | (intro _)
    | with_reducible assumption
    | simp only [Keeps.upd_iff]
    | with_reducible apply refuseMarker_keeps
    | with_reducible apply noRecompute_keeps
    | with_reducible apply takeGroup_keeps
    | with_reducible apply modLayer_keeps
    | with_reducible apply doneOp_keeps
    | with_reducible apply offloadClass_keeps
    | with_reducible apply Keeps.fold
    | (split)

theorem returnsDone_keeps {s : State} {a0 : State} (a1 : Nat) (a2 : Nat) (h0 : Keeps s a0) :
    KeepsO id s (returnsDone a0 a1 a2) := by
  unfold returnsDone
  repeat' first
    | (intro _)
    | with_reducible assumption
    | exact trivial
    | simp only [KeepsO_none, KeepsO_some, KeepsStart_no, KeepsStart_ends, KeepsStart_go, KeepsSyn_done, KeepsSyn_discarded, KeepsSyn_refused, KeepsCollEnd_waits, KeepsCollEnd_stopped, KeepsCollEnd_done, KeepsGatherEnd_waits, KeepsGatherEnd_stopped, KeepsGatherEnd_done, id]
    | simp only [Option.bind_some]
    | with_reducible apply modLayer_keeps
    | with_reducible apply bump_keeps
    | with_reducible apply loseClass_keeps
    | with_reducible apply Keeps.ite
    | with_reducible apply KeepsO.ite
    | with_reducible apply Keeps.fold
    | (split)
theorem returnsDone_keeps_eq {s : State} {a0 : State} {a1 : Nat} {a2 : Nat} {u} (e : returnsDone a0 a1 a2 = some u) (h0 : Keeps s a0) : Keeps s u := by
  have k := returnsDone_keeps (s := s) a1 a2 h0
  rw [e] at k; exact k

theorem askReturns_keeps {s : State} {a0 : State} (a1 : Nat) (a2 : Nat) (h0 : Keeps s a0) :
    Keeps s (askReturns a0 a1 a2) := by
  unfold askReturns
  repeat' first
    | (intro _)
    | with_reducible assumption
    | simp only [Keeps.upd_iff]
    | with_reducible apply loseClass_keeps
    | with_reducible apply takeGroup_keeps
    | with_reducible apply modLayer_keeps
    | with_reducible apply returnClass_keeps
    | with_reducible apply Keeps.ite
    | with_reducible apply Keeps.fold
    | (split)

theorem startRerun_keeps {s : State} {a0 : State} (a1 : Nat) (a2 : Nat) (a3 : Job) (a4 : Layer) (h0 : Keeps s a0) :
    Keeps s (startRerun a0 a1 a2 a3 a4) := by
  unfold startRerun
  repeat' first
    | with_reducible assumption
    | simp only [Keeps.upd_iff]
    | with_reducible apply modLayer_keeps

theorem reapRerun_keeps {s : State} {a0 : State} (a1 : Nat) (h0 : Keeps s a0) :
    Keeps s (reapRerun a0 a1) := by
  unfold reapRerun
  repeat' first
    | with_reducible assumption
    | with_reducible apply modQueue_keeps

theorem rerunState_keeps {s : State} {a0 : State} (a1 : Nat) (a2 : Nat) (h0 : Keeps s a0) :
    KeepsO id s (rerunState a0 a1 a2) := by
  unfold rerunState
  repeat' first
    | with_reducible assumption
    | exact trivial
    | simp only [KeepsO_none, KeepsO_some, KeepsStart_no, KeepsStart_ends, KeepsStart_go, KeepsSyn_done, KeepsSyn_discarded, KeepsSyn_refused, KeepsCollEnd_waits, KeepsCollEnd_stopped, KeepsCollEnd_done, KeepsGatherEnd_waits, KeepsGatherEnd_stopped, KeepsGatherEnd_done, id]
    | simp only [Keeps.upd_iff]
    | with_reducible apply noRecompute_keeps
    | with_reducible apply reapRerun_keeps
    | with_reducible apply freeUnits_keeps
    | with_reducible apply modLayer_keeps
    | with_reducible apply bump_keeps
    | with_reducible apply KeepsO.ite
    | (split)
theorem rerunState_keeps_eq {s : State} {a0 : State} {a1 : Nat} {a2 : Nat} {u} (e : rerunState a0 a1 a2 = some u) (h0 : Keeps s a0) : Keeps s u := by
  have k := rerunState_keeps (s := s) a1 a2 h0
  rw [e] at k; exact k

theorem beginRerun_keeps {s : State} {a0 : State} (a1 : Nat) (a2 : Nat) (h0 : Keeps s a0) :
    Keeps s (beginRerun a0 a1 a2) := by
  unfold beginRerun
  repeat' first
    | with_reducible assumption
    | simp only [Keeps.upd_iff]
    | with_reducible apply reapRerun_keeps
    | with_reducible apply freeUnits_keeps
    | with_reducible apply startRerun_keeps
    | with_reducible apply Keeps.ite
    | (split)

theorem enterBackward_keeps {s : State} (a0 : List (List Contrib)) (a1 : Nat) {a2 : State} (a3 : Queue) (a4 : Op) (a5 : Head) (h0 : Keeps s a2) :
    Keeps s (enterBackward a0 a1 a2 a3 a4 a5) := by
  unfold enterBackward
  repeat' first
    | (intro _)
    | with_reducible assumption
    | simp only [Keeps.upd_iff]
    | with_reducible apply refuseMarker_keeps
    | with_reducible apply markerWaits_keeps
    | (with_reducible apply returnsDone_keeps_eq; case e => with_reducible assumption)
    | with_reducible apply askReturns_keeps
    | (with_reducible apply rerunState_keeps_eq; case e => with_reducible assumption)
    | with_reducible apply beginRerun_keeps
    | (with_reducible apply gatherLayer_keeps_stopped; case e => with_reducible assumption)
    | (with_reducible apply gatherLayer_keeps_done; case e => with_reducible assumption)
    | with_reducible apply stopOp_keeps
    | with_reducible apply modLayer_keeps
    | with_reducible apply gatherAhead_keeps
    | with_reducible apply doneOp_keeps
    | with_reducible apply Keeps.ite
    | with_reducible apply Keeps.fold
    | (split)

theorem exitBackward_keeps {s : State} (a0 : Nat) {a1 : State} (a2 : Queue) (a3 : Op) (a4 : Head) (h0 : Keeps s a1) :
    Keeps s (exitBackward a0 a1 a2 a3 a4) := by
  unfold exitBackward
  repeat' first
    | with_reducible assumption
    | simp only [Keeps.upd_iff]
    | with_reducible apply refuseMarker_keeps
    | with_reducible apply doneOp_keeps
    | with_reducible apply modJob_keeps
    | with_reducible apply modLayer_keeps
    | (split)

theorem markerExec_keeps {s : State} (a0 : Nat) (a1 : Bool) (a2 : Nat) {a3 : State} (a4 : State →   Queue → Op → Head → State) (h0 : Keeps s a3) (hf : ∀ t x o h, Keeps s t → Keeps s (a4 t x o h)) :
    Keeps s (markerExec a0 a1 a2 a3 a4) := by
  unfold markerExec
  repeat' first
    | with_reducible assumption
    | with_reducible apply hf
    | (with_reducible apply startHead_keeps_go; case e => with_reducible assumption)
    | (with_reducible apply startHead_keeps_ends; case e => with_reducible assumption)
    | with_reducible apply Keeps.ite
    | (split)

theorem sendParts_keeps {s : State} {a0 : State} (a1 : Nat) (a2 : Job) (a3 : Coll) (a4 : List Nat) (a5 : List Nat) (h0 : Keeps s a0) :
    Keeps s (sendParts a0 a1 a2 a3 a4 a5) := by
  unfold sendParts
  repeat' first
    | (intro _)
    | with_reducible assumption
    | simp only [Keeps.upd_iff]
    | with_reducible apply clSend_keeps
    | with_reducible apply clCount_keeps
    | with_reducible apply Keeps.fold

theorem decidePlacement_keeps {s : State} (a0 : Nat) (a1 : Nat) (a2 : List (List Nat)) {a3 : State} (h0 : Keeps s a3) :
    Keeps s (decidePlacement a0 a1 a2 a3) := by
  unfold decidePlacement
  repeat' first
    | with_reducible assumption
    | simp only [Keeps.upd_iff]
    | with_reducible apply sendParts_keeps
    | with_reducible apply bump_keeps
    | with_reducible apply modLayer_keeps
    | with_reducible apply Keeps.ite
    | (split)

theorem copyMarked_keeps {s : State} {a0 : State} (a1 : Nat) (a2 : Nat) (a3 : Nat) (a4 : Nat) (h0 : Keeps s a0) :
    Keeps s (copyMarked a0 a1 a2 a3 a4) := by
  unfold copyMarked
  repeat' first
    | (intro _)
    | with_reducible assumption
    | with_reducible apply poisonS_keeps
    | with_reducible apply wr_keeps
    | with_reducible apply Keeps.ite
    | with_reducible apply Keeps.fold

theorem takeSlots_keeps {s : State} (a0 : Nat) (a1 : Nat) (a2 : List ((Nat × Nat) × Nat × Nat)) {a3 : State} (h0 : Keeps s a3) :
    Keeps s (takeSlots a0 a1 a2 a3) := by
  unfold takeSlots
  repeat' first
    | (intro _)
    | with_reducible assumption
    | simp only [Keeps.upd_iff]
    | with_reducible apply modJob_keeps
    | with_reducible apply copyMarked_keeps
    | with_reducible apply Keeps.fold
    | (split)

theorem releaseBarrier_keeps {s : State} {a0 : State} (a1 : Nat) (h0 : Keeps s a0) :
    Keeps s (releaseBarrier a0 a1) := by
  unfold releaseBarrier
  repeat' first
    | with_reducible assumption
    | with_reducible apply evalWatches_keeps

theorem secondRound_keeps {s : State} (a0 : Nat) (a1 : List Nat) {a2 : State} (h0 : Keeps s a2) :
    Keeps s (secondRound a0 a1 a2) := by
  unfold secondRound
  repeat' first
    | with_reducible assumption
    | simp only [Keeps.upd_iff]
    | with_reducible apply bump_keeps
    | with_reducible apply sendParts_keeps
    | with_reducible apply takeMap_keeps
    | with_reducible apply takeSlots_keeps
    | with_reducible apply writeMap_keeps
    | with_reducible apply pleFault_keeps
    | with_reducible apply modJob_keeps
    | with_reducible apply releaseBarrier_keeps
    | with_reducible apply endAdoption_keeps
    | with_reducible apply roundOne_keeps
    | with_reducible apply Keeps.ite
    | (split)

theorem runGrads_keeps {s : State} (a0 : Nat) (a1 : Nat) (a2 : Op) (a3 : List Coll) {a4 : State} (a5 : List (List Contrib)) (h0 : Keeps s a4) :
    KeepsO id s (runGrads a0 a1 a2 a3 a4 a5) := by
  induction a3 generalizing a4 a5 with
  | nil =>
    unfold runGrads
    repeat' first
      | with_reducible assumption
      | simp only [KeepsO_none, KeepsO_some, KeepsStart_no, KeepsStart_ends, KeepsStart_go, KeepsSyn_done, KeepsSyn_discarded, KeepsSyn_refused, KeepsCollEnd_waits, KeepsCollEnd_stopped, KeepsCollEnd_done, KeepsGatherEnd_waits, KeepsGatherEnd_stopped, KeepsGatherEnd_done, id]
  | cons hd tl ih =>
    unfold runGrads
    repeat' first
      | with_reducible assumption
      | exact trivial
      | with_reducible apply ih
      | (with_reducible apply pleColl_keeps_stopped; case e => with_reducible assumption)
      | (with_reducible apply pleColl_keeps_done; case e => with_reducible assumption)
      | with_reducible apply pleFault_keeps
      | (split)
theorem runGrads_keeps_eq {s : State} {a0 : Nat} {a1 : Nat} {a2 : Op} {a3 : List Coll} {a4 : State} {a5 : List (List Contrib)} {u} (e : runGrads a0 a1 a2 a3 a4 a5 = some u) (h0 : Keeps s a4) : Keeps s u := by
  have k := runGrads_keeps (s := s) a0 a1 a2 a3 a5 h0
  rw [e] at k; exact k

theorem sendArrivals_keeps {s : State} {a0 : State} (a1 : Nat) (a2 : Job) (a3 : Op) (h0 : Keeps s a0) :
    Keeps s (sendArrivals a0 a1 a2 a3) := by
  unfold sendArrivals
  repeat' first
    | (intro _)
    | with_reducible assumption
    | simp only [Keeps.upd_iff]
    | with_reducible apply sendPk_keeps
    | with_reducible apply Keeps.fold

theorem agreeRound_raiseDevPart_keeps {s : State} (a0 : Nat) {a1 : State} (h0 : Keeps s a1) :
    Keeps s (agreeRound.raiseDevPart a0 a1) := by
  unfold agreeRound.raiseDevPart
  repeat' first
    | with_reducible assumption
    | with_reducible apply raiseDev_keeps

theorem agreeRound_keeps {s : State} {a0 : State} (a1 : Nat) (a2 : Job) (a3 : Nat) (a4 : List Contrib) (h0 : Keeps s a0) :
    KeepsO id s (agreeRound a0 a1 a2 a3 a4) := by
  unfold agreeRound
  repeat' first
    | (intro _)
    | with_reducible assumption
    | exact trivial
    | simp only [KeepsO_none, KeepsO_some, KeepsStart_no, KeepsStart_ends, KeepsStart_go, KeepsSyn_done, KeepsSyn_discarded, KeepsSyn_refused, KeepsCollEnd_waits, KeepsCollEnd_stopped, KeepsCollEnd_done, KeepsGatherEnd_waits, KeepsGatherEnd_stopped, KeepsGatherEnd_done, id]
    | with_reducible apply raiseOwner_keeps
    | with_reducible apply sendParts_keeps
    | with_reducible apply modPart_keeps
    | with_reducible apply bump_keeps
    | with_reducible apply agreeRound_raiseDevPart_keeps
    | with_reducible apply Keeps.ite
    | with_reducible apply Keeps.fold
    | (split)
theorem agreeRound_keeps_eq {s : State} {a0 : State} {a1 : Nat} {a2 : Job} {a3 : Nat} {a4 : List Contrib} {u} (e : agreeRound a0 a1 a2 a3 a4 = some u) (h0 : Keeps s a0) : Keeps s u := by
  have k := agreeRound_keeps (s := s) a1 a2 a3 a4 h0
  rw [e] at k; exact k

theorem arriveAll_keeps {s : State} {a0 : State} (a1 : Nat) (a2 : Nat) (a3 : Queue) (a4 : Op) (a5 : Job) (h0 : Keeps s a0) :
    Keeps s (arriveAll a0 a1 a2 a3 a4 a5) := by
  unfold arriveAll
  repeat' first
    | with_reducible assumption
    | simp only [Keeps.upd_iff]
    | with_reducible apply modPart_keeps
    | with_reducible apply sendArrivals_keeps
    | with_reducible apply syObject_keeps

theorem sendArrival_keeps {s : State} (a0 : Nat) (a1 : List Contrib) (a2 : List (List Contrib)) {a3 : State} (h0 : Keeps s a3) :
    Keeps s (sendArrival a0 a1 a2 a3) := by
  unfold sendArrival
  repeat' first
    | with_reducible assumption
    | simp only [Keeps.upd_iff]
    | with_reducible apply modPart_keeps
    | (with_reducible apply runGrads_keeps_eq; case e => with_reducible assumption)
    | with_reducible apply modJob_keeps
    | (with_reducible apply agreeRound_keeps_eq; case e => with_reducible assumption)
    | with_reducible apply arriveAll_keeps
    | with_reducible apply Keeps.ite
    | (split)

end Sys2Proof.Machine
end

