-- ==== Sys2Proof/Laws/KeepsDevice.lean ====
section
/-!
SUPPORT. Laws/KeepsDevice.lean: every function of the fault log, recovery, bring-up, the module, the dictionary, the Thallus and an idle step
passes on the commands that wait and the canonical form of memory.
-/
namespace Sys2Proof.Machine
set_option Elab.async false

theorem dropOldest_keeps {s : State} {a0 : State} (h0 : Keeps s a0) :
    Keeps s (dropOldest a0) := by
  unfold dropOldest
  repeat' first
    | with_reducible assumption
    | simp only [Keeps.upd_iff]
    | with_reducible apply deviceRelease_keeps
    | (split)

theorem fillPage_keeps {s : State} {a0 : State} (a1 : Nat) (a2 : Nat) (h0 : Keeps s a0) :
    Keeps s (fillPage a0 a1 a2) := by
  unfold fillPage
  repeat' first
    | with_reducible assumption
    | simp only [Keeps.upd_iff]
    | with_reducible apply wr_keeps
    | with_reducible apply storeRecord_keeps
    | with_reducible apply Keeps.ite

theorem noPage_keeps {s : State} {a0 : State} (a1 : Nat) (h0 : Keeps s a0) :
    Keeps s (noPage a0 a1) := by
  unfold noPage
  repeat' first
    | with_reducible assumption
    | simp only [Keeps.upd_iff]
    | with_reducible apply raiseDev_keeps
    | with_reducible apply Keeps.ite

theorem takePage_keeps {s : State} {a0 : State} (h0 : Keeps s a0) :
    Keeps s (takePage a0) := by
  unfold takePage
  repeat' first
    | with_reducible assumption
    | simp only [Keeps.upd_iff]
    | with_reducible apply dropOldest_keeps
    | (with_reducible apply deviceBuf_keeps_eq; case e => with_reducible assumption)
    | with_reducible apply fillPage_keeps
    | with_reducible apply noPage_keeps
    | with_reducible apply Keeps.ite
    | (split)

theorem stopHead_keeps {s : State} {a0 : State} (a1 : Nat) (h0 : Keeps s a0) :
    Keeps s (stopHead a0 a1) := by
  unfold stopHead
  repeat' first
    | with_reducible assumption
    | simp only [Keeps.upd_iff]
    | with_reducible apply abortCard_keeps
    | with_reducible apply modPart_keeps
    | with_reducible apply dropWaits_keeps
    | with_reducible apply dropHead_keeps
    | with_reducible apply Keeps.ite
    | (split)

theorem noticeTo_keeps {s : State} {a0 : State} (a1 : Nat) (a2 : Nat) (a3 : Nat) (h0 : Keeps s a0) :
    Keeps s (noticeTo a0 a1 a2 a3) := by
  unfold noticeTo
  repeat' first
    | with_reducible assumption
    | with_reducible apply sendPk_keeps

theorem closeTo_keeps {s : State} (a0 : Nat) (a1 : Nat) (a2 : Nat) {a3 : State} (a4 : Nat) (h0 : Keeps s a3) :
    Keeps s (closeTo a0 a1 a2 a3 a4) := by
  unfold closeTo
  repeat' first
    | with_reducible assumption
    | with_reducible apply sendPk_keeps

theorem revokeNow_keeps {s : State} {a0 : State} (a1 : Nat) (h0 : Keeps s a0) :
    Keeps s (revokeNow a0 a1) := by
  unfold revokeNow
  repeat' first
    | with_reducible assumption
    | simp only [Keeps.upd_iff]
    | with_reducible apply homeForget_keeps
    | with_reducible apply dropLines_keeps

theorem ownerResetBegin_keeps {s : State} {a0 : State} (a1 : Nat) (a2 : Nat) (h0 : Keeps s a0) :
    Keeps s (ownerResetBegin a0 a1 a2) := by
  unfold ownerResetBegin
  repeat' first
    | (intro _)
    | with_reducible assumption
    | simp only [Keeps.upd_iff]
    | with_reducible apply addReset_keeps
    | with_reducible apply modOwner_keeps
    | with_reducible apply noticeTo_keeps
    | with_reducible apply abandonOwner_keeps
    | with_reducible apply closeTo_keeps
    | with_reducible apply stopHead_keeps
    | with_reducible apply revokeNow_keeps
    | with_reducible apply Keeps.fold

theorem ownerReset_keeps {s : State} {a0 : State} (a1 : Nat) (a2 : Nat) (h0 : Keeps s a0) :
    Keeps s (ownerReset a0 a1 a2) := by
  unfold ownerReset
  repeat' first
    | with_reducible assumption
    | with_reducible apply ownerResetBegin_keeps
    | with_reducible apply Keeps.ite

theorem queueGoesOn_keeps {s : State} {a0 : State} (a1 : Nat) (h0 : Keeps s a0) :
    Keeps s (queueGoesOn a0 a1) := by
  unfold queueGoesOn
  repeat' first
    | with_reducible assumption
    | with_reducible apply issueRead_keeps
    | with_reducible apply modQueue_keeps

theorem ownerResetEnd_keeps {s : State} {a0 : State} (a1 : Nat) (a2 : OwnerReset) (h0 : Keeps s a0) :
    Keeps s (ownerResetEnd a0 a1 a2) := by
  unfold ownerResetEnd
  repeat' first
    | (intro _)
    | with_reducible assumption
    | simp only [Keeps.upd_iff]
    | with_reducible apply loseQueues_keeps
    | with_reducible apply modOwner_keeps
    | with_reducible apply completeReset_keeps
    | with_reducible apply queueGoesOn_keeps
    | with_reducible apply Keeps.fold
    | (split)

theorem postAllHeld_keeps {s : State} (a0 : Nat) (a1 : Nat) {a2 : State} (h0 : Keeps s a2) :
    Keeps s (postAllHeld a0 a1 a2) := by
  induction a1 generalizing a2 with
  | zero =>
    unfold postAllHeld
    repeat' first
      | with_reducible assumption
  | succ n ih =>
    unfold postAllHeld
    repeat' first
      | with_reducible assumption
      | with_reducible apply ih
      | with_reducible apply postHeld_keeps

theorem activateOwner_keeps {s : State} {a0 : State} (a1 : Nat) (h0 : Keeps s a0) :
    Keeps s (activateOwner a0 a1) := by
  unfold activateOwner
  repeat' first
    | with_reducible assumption
    | with_reducible apply modOwner_keeps
    | with_reducible apply makeQueue_keeps
    | (split)

theorem preemptOwner_keeps {s : State} {a0 : State} (a1 : Nat) (h0 : Keeps s a0) :
    Keeps s (preemptOwner a0 a1) := by
  unfold preemptOwner
  repeat' first
    | with_reducible assumption
    | with_reducible apply settlePreempt_keeps
    | with_reducible apply freezeObjs_keeps
    | with_reducible apply modOwner_keeps

theorem resumeOwner_keeps {s : State} {a0 : State} (a1 : Nat) (h0 : Keeps s a0) :
    Keeps s (resumeOwner a0 a1) := by
  unfold resumeOwner
  repeat' first
    | (intro _)
    | with_reducible assumption
    | simp only [Keeps.upd_iff]
    | with_reducible apply freezeObjs_keeps
    | with_reducible apply modOwner_keeps
    | with_reducible apply postAllHeld_keeps
    | with_reducible apply Keeps.fold

theorem freeOwner_keeps {s : State} {a0 : State} (a1 : Nat) (h0 : Keeps s a0) :
    Keeps s (freeOwner a0 a1) := by
  unfold freeOwner
  repeat' first
    | with_reducible assumption
    | simp only [Keeps.upd_iff]
    | with_reducible apply modOwner_keeps

theorem ownerCmd_keeps {s : State} {a0 : State} (a1 : Nat) (a2 : Nat) (h0 : Keeps s a0) :
    Keeps s (ownerCmd a0 a1 a2) := by
  unfold ownerCmd
  repeat' first
    | with_reducible assumption
    | with_reducible apply activateOwner_keeps
    | with_reducible apply preemptOwner_keeps
    | with_reducible apply resumeOwner_keeps
    | with_reducible apply ownerReset_keeps
    | with_reducible apply freeOwner_keeps
    | with_reducible apply Keeps.ite

theorem clearBand_keeps {s : State} {a0 : State} (a1 : Nat) (h0 : Keeps s a0) :
    Keeps s (clearBand a0 a1) := by
  unfold clearBand
  repeat' first
    | with_reducible assumption
    | simp only [Keeps.upd_iff]

theorem againCopy_keeps {s : State} {a0 : State} (a1 : Nat) (a2 : Op) (a3 : Head) (h0 : Keeps s a0) :
    Keeps s (againCopy a0 a1 a2 a3) := by
  unfold againCopy
  repeat' first
    | with_reducible assumption
    | with_reducible apply notRerun_keeps
    | with_reducible apply againOp_keeps
    | with_reducible apply Keeps.ite

theorem againCard_keeps {s : State} {a0 : State} (a1 : Nat) (a2 : Card) (a3 : Nat) (h0 : Keeps s a0) :
    Keeps s (againCard a0 a1 a2 a3) := by
  unfold againCard
  repeat' first
    | with_reducible assumption
    | simp only [Keeps.upd_iff]
    | with_reducible apply againOp_keeps
    | with_reducible apply dropWaits_keeps
    | with_reducible apply dropCard_keeps
    | with_reducible apply abortCard_keeps
    | with_reducible apply Keeps.ite
    | (split)

theorem againWalk_keeps {s : State} {a0 : State} (a1 : Nat) (a2 : Op) (a3 : Head) (a4 : Walk) (a5 : Nat) (h0 : Keeps s a0) :
    Keeps s (againWalk a0 a1 a2 a3 a4 a5) := by
  unfold againWalk
  repeat' first
    | with_reducible assumption
    | with_reducible apply againOp_keeps
    | with_reducible apply quitWalk_keeps

theorem unplan_keeps {s : State} {a0 : State} (h0 : Keeps s a0) :
    Keeps s (unplan a0) := by
  unfold unplan
  repeat' first
    | (intro _)
    | with_reducible assumption
    | with_reducible apply modOp_keeps
    | with_reducible apply dropWalk_keeps
    | with_reducible apply Keeps.ite
    | with_reducible apply Keeps.fold

theorem stopEngine_keeps {s : State} {a0 : State} (a1 : Nat) (a2 : Nat) (h0 : Keeps s a0) :
    Keeps s (stopEngine a0 a1 a2) := by
  unfold stopEngine
  repeat' first
    | (intro _)
    | with_reducible assumption
    | simp only [Keeps.upd_iff]
    | with_reducible apply clearBand_keeps
    | with_reducible apply againWalk_keeps
    | with_reducible apply unplan_keeps
    | with_reducible apply againCopy_keeps
    | with_reducible apply againOp_keeps
    | with_reducible apply freeUnits_keeps
    | with_reducible apply againCard_keeps
    | with_reducible apply startRebuild_keeps
    | with_reducible apply Keeps.ite
    | with_reducible apply Keeps.fold
    | (split)

theorem engineReset_keeps {s : State} {a0 : State} (a1 : Nat) (a2 : Nat) (a3 : Nat) (h0 : Keeps s a0) :
    Keeps s (engineReset a0 a1 a2 a3) := by
  unfold engineReset
  repeat' first
    | with_reducible assumption
    | simp only [Keeps.upd_iff]
    | with_reducible apply stopEngine_keeps
    | with_reducible apply addReset_keeps
    | with_reducible apply Keeps.ite

theorem freeQueues_keeps {s : State} {a0 : State} (a1 : List Nat) (h0 : Keeps s a0) :
    Keeps s (freeQueues a0 a1) := by
  unfold freeQueues
  repeat' first
    | (intro _)
    | with_reducible assumption
    | simp only [Keeps.upd_iff]
    | with_reducible apply dropWatch_keeps
    | with_reducible apply Keeps.fold

theorem freshPools_keeps {s : State} {a0 : State} (a1 : Nat) (h0 : Keeps s a0) :
    Keeps s (freshPools a0 a1) := by
  unfold freshPools
  repeat' first
    | (intro _)
    | with_reducible assumption
    | with_reducible apply enablePool_keeps
    | with_reducible apply Keeps.ite
    | with_reducible apply Keeps.fold

theorem zeroPartTile_keeps {s : State} {a0 : State} (a1 : Nat) (h0 : Keeps s a0) :
    Keeps s (zeroPartTile a0 a1) := by
  unfold zeroPartTile
  repeat' first
    | with_reducible assumption
    | simp only [Keeps.upd_iff]
    | with_reducible apply zeroTileS_keeps

theorem partitionStop_keeps {s : State} {a0 : State} (a1 : Nat) (h0 : Keeps s a0) :
    Keeps s (partitionStop a0 a1) := by
  unfold partitionStop
  repeat' first
    | (intro _)
    | with_reducible assumption
    | simp only [Keeps.upd_iff]
    | with_reducible apply loseQueues_keeps
    | with_reducible apply stopHead_keeps
    | with_reducible apply freeQueues_keeps
    | with_reducible apply zeroPartTile_keeps
    | with_reducible apply unsetRange_keeps
    | with_reducible apply freshPools_keeps
    | with_reducible apply settleReset_keeps
    | with_reducible apply Keeps.fold

theorem partitionReset_keeps {s : State} {a0 : State} (a1 : Nat) (a2 : Nat) (h0 : Keeps s a0) :
    Keeps s (partitionReset a0 a1 a2) := by
  unfold partitionReset
  repeat' first
    | with_reducible assumption
    | simp only [Keeps.upd_iff]
    | with_reducible apply partitionStop_keeps
    | with_reducible apply addReset_keeps
    | with_reducible apply Keeps.ite

theorem laneReset_keeps {s : State} {a0 : State} (a1 : Nat) (a2 : Nat) (h0 : Keeps s a0) :
    Keeps s (laneReset a0 a1 a2) := by
  unfold laneReset
  repeat' first
    | with_reducible assumption
    | simp only [Keeps.upd_iff]
    | with_reducible apply portDown_keeps
    | with_reducible apply modPort_keeps
    | with_reducible apply addReset_keeps
    | with_reducible apply Keeps.ite

theorem portReset_keeps {s : State} {a0 : State} (a1 : Nat) (a2 : Nat) (h0 : Keeps s a0) :
    Keeps s (portReset a0 a1 a2) := by
  unfold portReset
  repeat' first
    | with_reducible assumption
    | simp only [Keeps.upd_iff]
    | with_reducible apply failUnreached_keeps
    | with_reducible apply modPort_keeps
    | with_reducible apply addReset_keeps
    | with_reducible apply Keeps.ite

theorem portEnabled_keeps {s : State} {a0 : State} (a1 : Nat) (h0 : Keeps s a0) :
    Keeps s (portEnabled a0 a1) := by
  unfold portEnabled
  repeat' first
    | with_reducible assumption
    | simp only [Keeps.upd_iff]
    | with_reducible apply enablePort_keeps
    | with_reducible apply noteReset_keeps
    | with_reducible apply Keeps.ite

theorem setFrond_keeps {s : State} {a0 : State} (a1 : Nat) (a2 : Frond) (h0 : Keeps s a0) :
    Keeps s (setFrond a0 a1 a2) := by
  unfold setFrond
  repeat' first
    | with_reducible assumption
    | simp only [Keeps.upd_iff]

theorem loseBand_keeps {s : State} {a0 : State} (a1 : Nat) (h0 : Keeps s a0) :
    Keeps s (loseBand a0 a1) := by
  unfold loseBand
  repeat' first
    | with_reducible assumption
    | with_reducible apply clearBand_keeps
    | with_reducible apply lostWalk_keeps
    | (split)

theorem loseCore_keeps {s : State} {a0 : State} (a1 : Nat) (h0 : Keeps s a0) :
    Keeps s (loseCore a0 a1) := by
  unfold loseCore
  repeat' first
    | with_reducible assumption
    | with_reducible apply rerunOp_keeps
    | with_reducible apply freeUnits_keeps
    | with_reducible apply Keeps.ite
    | (split)

theorem loseFrond_keeps {s : State} {a0 : State} (a1 : Nat) (h0 : Keeps s a0) :
    Keeps s (loseFrond a0 a1) := by
  unfold loseFrond
  repeat' first
    | with_reducible assumption
    | simp only [Keeps.upd_iff]
    | with_reducible apply loseBand_keeps
    | with_reducible apply loseCore_keeps
    | with_reducible apply setFrond_keeps
    | with_reducible apply stopEngine_keeps
    | with_reducible apply dropLines_keeps
    | with_reducible apply failStack_keeps
    | with_reducible apply portDown_keeps
    | with_reducible apply failUnreached_keeps
    | with_reducible apply modPort_keeps
    | with_reducible apply Keeps.ite
    | (split)

theorem frondFails_keeps {s : State} {a0 : State} (a1 : Nat) (h0 : Keeps s a0) :
    Keeps s (frondFails a0 a1) := by
  unfold frondFails
  repeat' first
    | with_reducible assumption
    | with_reducible apply raiseDev_keeps
    | with_reducible apply loseFrond_keeps

theorem mainLoss_keeps {s : State} {a0 : State} (h0 : Keeps s a0) :
    Keeps s (mainLoss a0) := by
  exact Keeps.updMem h0 (fun _ => rfl)

theorem railsOff_keeps {s : State} {a0 : State} (a1 : Nat) (h0 : Keeps s a0) :
    Keeps s (railsOff a0 a1) := by
  unfold railsOff
  repeat' first
    | with_reducible assumption
    | simp only [Keeps.upd_iff]
    | with_reducible apply mainLoss_keeps

theorem coldBegin_keeps {s : State} {a0 : State} (a1 : Nat) (a2 : Nat) (h0 : Keeps s a0) :
    Keeps s (coldBegin a0 a1 a2) := by
  unfold coldBegin
  repeat' first
    | with_reducible assumption
    | simp only [Keeps.upd_iff]
    | with_reducible apply railsOff_keeps

theorem coldReset_keeps {s : State} {a0 : State} (a1 : Nat) (h0 : Keeps s a0) :
    Keeps s (coldReset a0 a1) := by
  unfold coldReset
  repeat' first
    | with_reducible assumption
    | with_reducible apply coldBegin_keeps
    | with_reducible apply Keeps.ite

theorem warmBegin_keeps {s : State} {a0 : State} (a1 : Nat) (h0 : Keeps s a0) :
    Keeps s (warmBegin a0 a1) := by
  unfold warmBegin
  repeat' first
    | with_reducible assumption
    | simp only [Keeps.upd_iff]
    | with_reducible apply addReset_keeps
    | with_reducible apply settleReset_keeps

theorem warmReset_keeps {s : State} {a0 : State} (a1 : Nat) (h0 : Keeps s a0) :
    Keeps s (warmReset a0 a1) := by
  unfold warmReset
  repeat' first
    | with_reducible assumption
    | with_reducible apply warmBegin_keeps
    | with_reducible apply Keeps.ite

theorem runImage_keeps {s : State} {a0 : State} (a1 : List Bool) (h0 : Keeps s a0) :
    Keeps s (runImage a0 a1) := by
  unfold runImage
  repeat' first
    | (intro _)
    | with_reducible assumption
    | simp only [Keeps.upd_iff]
    | with_reducible apply raiseDev_keeps
    | with_reducible apply Keeps.fold
    | (split)

theorem loadRecords_keeps {s : State} {a0 : State} (a1 : Tbl Val) (h0 : Keeps s a0) :
    Keeps s (loadRecords a0 a1) := by
  unfold loadRecords
  repeat' first
    | (intro _)
    | with_reducible assumption
    | simp only [Keeps.upd_iff]
    | with_reducible apply setEntV_keeps
    | with_reducible apply raiseDev_keeps
    | with_reducible apply Keeps.fold
    | (split)

theorem loadConfig_keeps {s : State} {a0 : State} (a1 : List Bool) (h0 : Keeps s a0) :
    Keeps s (loadConfig a0 a1) := by
  unfold loadConfig
  repeat' first
    | with_reducible assumption
    | simp only [Keeps.upd_iff]
    | with_reducible apply raiseDev_keeps
    | with_reducible apply loadRecords_keeps
    | with_reducible apply Keeps.ite
    | (split)

theorem beginRails_keeps {s : State} {a0 : State} (h0 : Keeps s a0) :
    Keeps s (beginRails a0) := by
  unfold beginRails
  repeat' first
    | with_reducible assumption
    | simp only [Keeps.upd_iff]

theorem releaseRails_keeps {s : State} {a0 : State} (h0 : Keeps s a0) :
    Keeps s (releaseRails a0) := by
  unfold releaseRails
  repeat' first
    | with_reducible assumption
    | with_reducible apply beginRails_keeps
    | with_reducible apply Keeps.ite

theorem writeKept_keeps {s : State} {a0 : State} (h0 : Keeps s a0) :
    Keeps s (writeKept a0) := by
  unfold writeKept
  repeat' first
    | (intro _)
    | with_reducible assumption
    | simp only [Keeps.upd_iff]
    | with_reducible apply takeRecord_keeps
    | with_reducible apply Keeps.fold

theorem applySoft_keeps {s : State} {a0 : State} (a1 : List Nat) (h0 : Keeps s a0) :
    Keeps s (applySoft a0 a1) := by
  unfold applySoft
  repeat' first
    | (intro _)
    | with_reducible assumption
    | with_reducible apply setMc_keeps
    | with_reducible apply Keeps.ite
    | with_reducible apply Keeps.fold

theorem applyLanes_keeps {s : State} {a0 : State} (h0 : Keeps s a0) :
    Keeps s (applyLanes a0) := by
  unfold applyLanes
  repeat' first
    | with_reducible assumption
    | with_reducible apply setMc_keeps

theorem wakeHeld_keeps {s : State} {a0 : State} (a1 : List Nat) (h0 : Keeps s a0) :
    Keeps s (wakeHeld a0 a1) := by
  unfold wakeHeld
  repeat' first
    | (intro _)
    | with_reducible assumption
    | simp only [Keeps.upd_iff]
    | with_reducible apply bump_keeps
    | with_reducible apply setFrond_keeps
    | with_reducible apply frondFails_keeps
    | with_reducible apply Keeps.fold

theorem startPorts_keeps {s : State} {a0 : State} (h0 : Keeps s a0) :
    Keeps s (startPorts a0) := by
  unfold startPorts
  repeat' first
    | (intro _)
    | with_reducible assumption
    | with_reducible apply modPort_keeps
    | with_reducible apply Keeps.ite
    | with_reducible apply Keeps.fold

theorem startPools_keeps {s : State} {a0 : State} (h0 : Keeps s a0) :
    Keeps s (startPools a0) := by
  unfold startPools
  repeat' first
    | (intro _)
    | with_reducible assumption
    | with_reducible apply startRebuild_keeps
    | with_reducible apply enablePool_keeps
    | with_reducible apply setPool_keeps
    | with_reducible apply Keeps.ite
    | with_reducible apply Keeps.fold

theorem coresMismatch_keeps {s : State} {a0 : State} (a1 : List Nat) (h0 : Keeps s a0) :
    Keeps s (coresMismatch a0 a1) := by
  unfold coresMismatch
  repeat' first
    | (intro _)
    | with_reducible assumption
    | simp only [Keeps.upd_iff]
    | with_reducible apply takeFree_keeps
    | with_reducible apply raiseDev_keeps
    | with_reducible apply Keeps.fold

theorem hostReady_keeps {s : State} {a0 : State} (h0 : Keeps s a0) :
    Keeps s (hostReady a0) := by
  unfold hostReady
  repeat' first
    | (intro _)
    | with_reducible assumption
    | simp only [Keeps.upd_iff]
    | with_reducible apply startPools_keeps
    | with_reducible apply loseQueues_keeps
    | with_reducible apply queueGoesOn_keeps
    | with_reducible apply Keeps.ite
    | with_reducible apply Keeps.fold

theorem noteTime_keeps {s : State} {a0 : State} (a1 : Nat) (a2 : Nat) (h0 : Keeps s a0) :
    Keeps s (noteTime a0 a1 a2) := by
  unfold noteTime
  repeat' first
    | with_reducible assumption
    | simp only [Keeps.upd_iff]

theorem setMain_keeps {s : State} {a0 : State} (a1 : Option Nat) (h0 : Keeps s a0) :
    Keeps s (setMain a0 a1) := by
  unfold setMain
  repeat' first
    | with_reducible assumption
    | simp only [Keeps.upd_iff]

theorem setBack_keeps {s : State} {a0 : State} (a1 : Option Nat) (h0 : Keeps s a0) :
    Keeps s (setBack a0 a1) := by
  unfold setBack
  repeat' first
    | with_reducible assumption
    | simp only [Keeps.upd_iff]

theorem stopStart_keeps {s : State} {a0 : State} (h0 : Keeps s a0) :
    Keeps s (stopStart a0) := by
  unfold stopStart
  repeat' first
    | with_reducible assumption
    | simp only [Keeps.upd_iff]

theorem mainPhaseEnd_keeps {s : State} {a0 : State} (a1 : Nat) (a2 : PhaseEnd) (h0 : Keeps s a0) :
    Keeps s (mainPhaseEnd a0 a1 a2) := by
  unfold mainPhaseEnd
  repeat' first
    | (intro _)
    | with_reducible assumption
    | simp only [Keeps.upd_iff]
    | with_reducible apply setMain_keeps
    | with_reducible apply runImage_keeps
    | with_reducible apply stopStart_keeps
    | with_reducible apply beginRails_keeps
    | with_reducible apply loadConfig_keeps
    | with_reducible apply writeKept_keeps
    | with_reducible apply wakeHeld_keeps
    | with_reducible apply setBack_keeps
    | with_reducible apply startPorts_keeps
    | with_reducible apply failPc_keeps
    | with_reducible apply applyLanes_keeps
    | with_reducible apply applySoft_keeps
    | with_reducible apply zeroTileS_keeps
    | with_reducible apply setMc_keeps
    | with_reducible apply coresMismatch_keeps
    | with_reducible apply hostReady_keeps
    | with_reducible apply Keeps.ite
    | with_reducible apply Keeps.fold
    | (split)

theorem setPower_keeps {s : State} {a0 : State} (a1 : Module → Module) (h0 : Keeps s a0) :
    Keeps s (setPower a0 a1) := by
  unfold setPower
  repeat' first
    | with_reducible assumption
    | simp only [Keeps.upd_iff]

theorem railsDown_keeps {s : State} {a0 : State} (a1 : Nat) (h0 : Keeps s a0) :
    Keeps s (railsDown a0 a1) := by
  unfold railsDown
  repeat' first
    | with_reducible assumption
    | with_reducible apply railsOff_keeps
    | with_reducible apply Keeps.ite

theorem raiseModule_keeps {s : State} {a0 : State} (a1 : Nat) (a2 : List (Nat × Nat)) (h0 : Keeps s a0) :
    Keeps s (raiseModule a0 a1 a2) := by
  unfold raiseModule
  repeat' first
    | with_reducible assumption
    | with_reducible apply raiseDev_keeps

theorem inputGone_keeps {s : State} {a0 : State} (h0 : Keeps s a0) :
    Keeps s (inputGone a0) := by
  unfold inputGone
  repeat' first
    | with_reducible assumption
    | simp only [Keeps.upd_iff]
    | with_reducible apply railsOff_keeps

theorem inputFault_keeps {s : State} {a0 : State} (a1 : Nat) (a2 : Nat) (h0 : Keeps s a0) :
    Keeps s (inputFault a0 a1 a2) := by
  unfold inputFault
  repeat' first
    | with_reducible assumption
    | simp only [Keeps.upd_iff]
    | with_reducible apply setPower_keeps
    | with_reducible apply railsOff_keeps
    | with_reducible apply raiseModule_keeps
    | with_reducible apply Keeps.ite

theorem requestRemoval_keeps {s : State} {a0 : State} (a1 : Nat) (h0 : Keeps s a0) :
    Keeps s (requestRemoval a0 a1) := by
  unfold requestRemoval
  repeat' first
    | with_reducible assumption
    | with_reducible apply raiseModule_keeps
    | with_reducible apply setPower_keeps

theorem removalCmd_keeps {s : State} {a0 : State} (a1 : Nat) (h0 : Keeps s a0) :
    Keeps s (removalCmd a0 a1) := by
  unfold removalCmd
  repeat' first
    | (intro _)
    | with_reducible assumption
    | with_reducible apply requestRemoval_keeps
    | with_reducible apply setPower_keeps
    | with_reducible apply railsDown_keeps
    | with_reducible apply disablePort_keeps
    | with_reducible apply Keeps.ite
    | with_reducible apply Keeps.fold

theorem sensorFails_keeps {s : State} {a0 : State} (a1 : Nat) (h0 : Keeps s a0) :
    Keeps s (sensorFails a0 a1) := by
  unfold sensorFails
  repeat' first
    | with_reducible assumption
    | with_reducible apply raiseModule_keeps
    | with_reducible apply setPower_keeps
    | with_reducible apply Keeps.ite

theorem takeReadings_keeps {s : State} {a0 : State} (a1 : Sample) (h0 : Keeps s a0) :
    Keeps s (takeReadings a0 a1) := by
  unfold takeReadings
  repeat' first
    | (intro _)
    | with_reducible assumption
    | simp only [Keeps.upd_iff]
    | with_reducible apply sensorFails_keeps
    | with_reducible apply setPower_keeps
    | with_reducible apply Keeps.ite
    | with_reducible apply Keeps.fold

theorem absentStack_keeps {s : State} {a0 : State} (a1 : Sample) (a2 : Nat) (h0 : Keeps s a0) :
    Keeps s (absentStack a0 a1 a2) := by
  unfold absentStack
  repeat' first
    | with_reducible assumption
    | simp only [Keeps.upd_iff]
    | with_reducible apply setMc_keeps
    | with_reducible apply failStack_keeps
    | with_reducible apply Keeps.ite

theorem judgeLevels_keeps {s : State} {a0 : State} (h0 : Keeps s a0) :
    Keeps s (judgeLevels a0) := by
  unfold judgeLevels
  repeat' first
    | (intro _)
    | with_reducible assumption
    | simp only [Keeps.upd_iff]
    | with_reducible apply raiseModule_keeps
    | with_reducible apply setPower_keeps
    | with_reducible apply Keeps.ite
    | with_reducible apply Keeps.fold

theorem judgeCritical_keeps {s : State} {a0 : State} (h0 : Keeps s a0) :
    Keeps s (judgeCritical a0) := by
  unfold judgeCritical
  repeat' first
    | with_reducible assumption
    | simp only [Keeps.upd_iff]
    | with_reducible apply setPower_keeps
    | with_reducible apply raiseModule_keeps
    | with_reducible apply railsOff_keeps
    | with_reducible apply Keeps.ite
    | (split)

theorem governClocks_keeps {s : State} {a0 : State} (a1 : Sample) (h0 : Keeps s a0) :
    Keeps s (governClocks a0 a1) := by
  unfold governClocks
  repeat' first
    | with_reducible assumption
    | simp only [Keeps.upd_iff]
    | with_reducible apply setPower_keeps
    | with_reducible apply bump_keeps
    | with_reducible apply Keeps.ite

theorem pcieDown_keeps {s : State} {a0 : State} (h0 : Keeps s a0) :
    Keeps s (pcieDown a0) := by
  unfold pcieDown
  repeat' first
    | with_reducible assumption
    | simp only [Keeps.upd_iff]
    | with_reducible apply raiseDev_keeps
    | with_reducible apply Keeps.ite

theorem clearCounters_keeps {s : State} {a0 : State} (a1 : Nat) (h0 : Keeps s a0) :
    Keeps s (clearCounters a0 a1) := by
  unfold clearCounters
  repeat' first
    | (intro _)
    | with_reducible assumption
    | simp only [Keeps.upd_iff]
    | with_reducible apply Keeps.ite
    | with_reducible apply Keeps.fold

theorem modSpare_keeps {s : State} {a0 : State} (a1 : FwSlot → FwSlot) (h0 : Keeps s a0) :
    Keeps s (modSpare a0 a1) := by
  unfold modSpare
  repeat' first
    | with_reducible assumption
    | simp only [Keeps.upd_iff]

theorem writeRing_keeps {s : State} {a0 : State} (a1 : Nat) (a2 : Nat) (h0 : Keeps s a0) :
    Keeps s (writeRing a0 a1 a2) := by
  unfold writeRing
  repeat' first
    | with_reducible assumption
    | simp only [Keeps.upd_iff]
    | with_reducible apply modOwner_keeps
    | with_reducible apply hostWr_keeps
    | with_reducible apply Keeps.ite

theorem resetRequest_keeps {s : State} {a0 : State} (a1 : Nat) (h0 : Keeps s a0) :
    Keeps s (resetRequest a0 a1) := by
  unfold resetRequest
  repeat' first
    | with_reducible assumption
    | simp only [Keeps.upd_iff]
    | with_reducible apply laneReset_keeps
    | with_reducible apply portReset_keeps
    | with_reducible apply engineReset_keeps
    | with_reducible apply partitionReset_keeps
    | with_reducible apply Keeps.ite

theorem noteLate_keeps {s : State} {a0 : State} (a1 : Nat) (h0 : Keeps s a0) :
    Keeps s (noteLate a0 a1) := by
  unfold noteLate
  repeat' first
    | (intro _)
    | with_reducible assumption
    | with_reducible apply modPart_keeps
    | with_reducible apply Keeps.ite
    | with_reducible apply Keeps.fold

theorem putPending_keeps {s : State} {a0 : State} (a1 : Nat) (a2 : Val) (h0 : Keeps s a0) :
    Keeps s (putPending a0 a1 a2) := by
  unfold putPending
  repeat' first
    | with_reducible assumption
    | with_reducible apply putEntry_keeps
    | with_reducible apply noteLate_keeps
    | with_reducible apply Keeps.ite
    | (split)

theorem applyWrite_keeps {s : State} {a0 : State} (a1 : Bool) (a2 : Nat) (a3 : Val) (h0 : Keeps s a0) :
    Keeps s (applyWrite a0 a1 a2 a3) := by
  unfold applyWrite
  repeat' first
    | with_reducible assumption
    | simp only [Keeps.upd_iff]
    | with_reducible apply clearCounters_keeps
    | with_reducible apply modSpare_keeps
    | with_reducible apply setEnt_keeps
    | with_reducible apply putPending_keeps
    | with_reducible apply removalCmd_keeps
    | with_reducible apply modOwner_keeps
    | with_reducible apply ownerCmd_keeps
    | with_reducible apply writeLocalWin_keeps
    | with_reducible apply keyCmd_keeps
    | with_reducible apply setMaint_keeps
    | with_reducible apply beginRepair_keeps
    | with_reducible apply setPool_keeps
    | with_reducible apply poolCmd_keeps
    | with_reducible apply portEnabled_keeps
    | with_reducible apply disablePort_keeps
    | with_reducible apply writeRemoteWin_keeps
    | with_reducible apply evictLines_keeps
    | with_reducible apply writeRing_keeps
    | with_reducible apply resetRequest_keeps
    | with_reducible apply Keeps.ite

theorem sendSegments_keeps {s : State} (a0 : Nat) (a1 : Nat) (a2 : Nat) (a3 : Nat) (a4 : List Nat) {a5 : State} (h0 : Keeps s a5) :
    Keeps s (sendSegments a0 a1 a2 a3 a4 a5) := by
  induction a2 generalizing a3 a4 a5 with
  | zero =>
    unfold sendSegments
    repeat' first
      | with_reducible assumption
  | succ n ih =>
    unfold sendSegments
    repeat' first
      | with_reducible assumption
      | with_reducible apply ih
      | with_reducible apply sendFrame_keeps
      | with_reducible apply Keeps.ite

theorem answerField_keeps {s : State} {a0 : State} (a1 : Nat) (a2 : Nat) (a3 : Pdu) (a4 : Reply) (h0 : Keeps s a0) :
    Keeps s (answerField a0 a1 a2 a3 a4) := by
  unfold answerField
  repeat' first
    | with_reducible assumption
    | simp only [Keeps.upd_iff]
    | with_reducible apply sendSegments_keeps
    | with_reducible apply sendFrame_keeps

theorem answerHost_keeps {s : State} {a0 : State} (a1 : List Nat) (h0 : Keeps s a0) :
    Keeps s (answerHost a0 a1) := by
  unfold answerHost
  repeat' first
    | with_reducible assumption
    | simp only [Keeps.upd_iff]
    | with_reducible apply toHost_keeps

theorem afterReply_keeps {s : State} {a0 : State} (a1 : Nat) (h0 : Keeps s a0) :
    Keeps s (afterReply a0 a1) := by
  unfold afterReply
  repeat' first
    | with_reducible assumption
    | with_reducible apply warmReset_keeps
    | with_reducible apply coldReset_keeps
    | with_reducible apply removalCmd_keeps
    | with_reducible apply Keeps.ite

theorem reply_keeps {s : State} {a0 : State} (a1 : Path) (a2 : Pdu) (a3 : Reply) (h0 : Keeps s a0) :
    Keeps s (reply a0 a1 a2 a3) := by
  unfold reply
  repeat' first
    | with_reducible assumption
    | simp only [Keeps.upd_iff]
    | with_reducible apply afterReply_keeps
    | with_reducible apply answerHost_keeps
    | with_reducible apply answerField_keeps
    | with_reducible apply Keeps.ite
    | (split)

theorem doWrite_keeps {s : State} {a0 : State} (a1 : Path) (a2 : Pdu) (h0 : Keeps s a0) :
    Keeps s (doWrite a0 a1 a2).1 := by
  unfold doWrite
  repeat' first
    | with_reducible assumption
    | simp only [KeepsO_none, KeepsO_some, KeepsStart_no, KeepsStart_ends, KeepsStart_go, KeepsSyn_done, KeepsSyn_discarded, KeepsSyn_refused, KeepsCollEnd_waits, KeepsCollEnd_stopped, KeepsCollEnd_done, KeepsGatherEnd_waits, KeepsGatherEnd_stopped, KeepsGatherEnd_done, id]
    | simp only [Keeps.upd_iff]
    | with_reducible apply applyWrite_keeps
    | with_reducible apply Keeps.ite1
    | (split)
theorem doWrite_keeps_eq {s : State} {a0 : State} {a1 : Path} {a2 : Pdu} {u x} (e : doWrite a0 a1 a2 = (u, x)) (h0 : Keeps s a0) : Keeps s u := by
  have k := doWrite_keeps (s := s) a1 a2 h0
  rw [e] at k; exact k

theorem setNonce_keeps {s : State} {a0 : State} (a1 : Path) (a2 : Option Nat) (h0 : Keeps s a0) :
    Keeps s (setNonce a0 a1 a2) := by
  unfold setNonce
  repeat' first
    | with_reducible assumption
    | simp only [Keeps.upd_iff]

theorem doOpen_keeps {s : State} {a0 : State} (a1 : Path) (h0 : Keeps s a0) :
    Keeps s (doOpen a0 a1).1 := by
  unfold doOpen
  repeat' first
    | with_reducible assumption
    | simp only [KeepsO_none, KeepsO_some, KeepsStart_no, KeepsStart_ends, KeepsStart_go, KeepsSyn_done, KeepsSyn_discarded, KeepsSyn_refused, KeepsCollEnd_waits, KeepsCollEnd_stopped, KeepsCollEnd_done, KeepsGatherEnd_waits, KeepsGatherEnd_stopped, KeepsGatherEnd_done, id]
    | simp only [Keeps.upd_iff]
    | with_reducible apply setNonce_keeps
    | with_reducible apply Keeps.ite1
theorem doOpen_keeps_eq {s : State} {a0 : State} {a1 : Path} {u x} (e : doOpen a0 a1 = (u, x)) (h0 : Keeps s a0) : Keeps s u := by
  have k := doOpen_keeps (s := s) a1 h0
  rw [e] at k; exact k

theorem doProof_keeps {s : State} {a0 : State} (a1 : Path) (a2 : Proof) (h0 : Keeps s a0) :
    Keeps s (doProof a0 a1 a2).1 := by
  unfold doProof
  repeat' first
    | with_reducible assumption
    | simp only [KeepsO_none, KeepsO_some, KeepsStart_no, KeepsStart_ends, KeepsStart_go, KeepsSyn_done, KeepsSyn_discarded, KeepsSyn_refused, KeepsCollEnd_waits, KeepsCollEnd_stopped, KeepsCollEnd_done, KeepsGatherEnd_waits, KeepsGatherEnd_stopped, KeepsGatherEnd_done, id]
    | simp only [Keeps.upd_iff]
    | with_reducible apply setNonce_keeps
    | with_reducible apply raiseDev_keeps
    | with_reducible apply Keeps.ite1
theorem doProof_keeps_eq {s : State} {a0 : State} {a1 : Path} {a2 : Proof} {u x} (e : doProof a0 a1 a2 = (u, x)) (h0 : Keeps s a0) : Keeps s u := by
  have k := doProof_keeps (s := s) a1 a2 h0
  rw [e] at k; exact k

theorem doClose_keeps {s : State} {a0 : State} (a1 : Path) (h0 : Keeps s a0) :
    Keeps s (doClose a0 a1).1 := by
  unfold doClose
  repeat' first
    | with_reducible assumption
    | simp only [KeepsO_none, KeepsO_some, KeepsStart_no, KeepsStart_ends, KeepsStart_go, KeepsSyn_done, KeepsSyn_discarded, KeepsSyn_refused, KeepsCollEnd_waits, KeepsCollEnd_stopped, KeepsCollEnd_done, KeepsGatherEnd_waits, KeepsGatherEnd_stopped, KeepsGatherEnd_done, id]
    | simp only [Keeps.upd_iff]
    | with_reducible apply Keeps.ite1
theorem doClose_keeps_eq {s : State} {a0 : State} {a1 : Path} {u x} (e : doClose a0 a1 = (u, x)) (h0 : Keeps s a0) : Keeps s u := by
  have k := doClose_keeps (s := s) a1 h0
  rw [e] at k; exact k

theorem mailboxRow_keeps {s : State} {a0 : State} (a1 : Nat) (a2 : List Nat) (a3 : Pdu → Bool) (a4 : State →   Path → Pdu → State × Reply) (h0 : Keeps s a0) (hf : ∀ t x p, Keeps s t → Keeps s (a4 t x p).1) :
    Keeps s (mailboxRow a0 a1 a2 a3 a4) := by
  unfold mailboxRow
  repeat' first
    | with_reducible assumption
    | simp only [Keeps.upd_iff]
    | with_reducible apply hf
    | with_reducible apply bump_keeps
    | with_reducible apply reply_keeps
    | with_reducible apply Keeps.ite
    | with_reducible apply Keeps.ite1

theorem filterDrop_keeps {s : State} {a0 : State} (a1 : Nat) (a2 : Nat) (h0 : Keeps s a0) :
    Keeps s (filterDrop a0 a1 a2) := by
  unfold filterDrop
  repeat' first
    | with_reducible assumption
    | simp only [Keeps.upd_iff]
    | with_reducible apply bump_keeps
    | with_reducible apply raiseDev_keeps
    | with_reducible apply Keeps.ite

theorem countFrame_keeps {s : State} {a0 : State} (a1 : Nat) (h0 : Keeps s a0) :
    Keeps s (countFrame a0 a1) := by
  unfold countFrame
  repeat' first
    | with_reducible assumption
    | simp only [Keeps.upd_iff]

theorem authFails_keeps {s : State} {a0 : State} (a1 : Nat) (a2 : Nat) (h0 : Keeps s a0) :
    Keeps s (authFails a0 a1 a2) := by
  unfold authFails
  repeat' first
    | with_reducible assumption
    | simp only [Keeps.upd_iff]
    | with_reducible apply bump_keeps
    | with_reducible apply raiseDev_keeps
    | with_reducible apply Keeps.ite

theorem acceptCounter_keeps {s : State} {a0 : State} (a1 : Nat) (a2 : Pdu) (h0 : Keeps s a0) :
    Keeps s (acceptCounter a0 a1 a2) := by
  unfold acceptCounter
  repeat' first
    | with_reducible assumption
    | simp only [Keeps.upd_iff]
    | with_reducible apply storeCopies_keeps
    | with_reducible apply Keeps.ite

theorem fieldRequest_keeps {s : State} {a0 : State} (a1 : Nat) (a2 : Nat) (a3 : Pdu) (a4 : State →   Path → Pdu → State × Reply) (h0 : Keeps s a0) (hf : ∀ t x p, Keeps s t → Keeps s (a4 t x p).1) :
    Keeps s (fieldRequest a0 a1 a2 a3 a4) := by
  unfold fieldRequest
  repeat' first
    | with_reducible assumption
    | simp only [Keeps.upd_iff]
    | with_reducible apply hf
    | with_reducible apply answerField_keeps
    | with_reducible apply authFails_keeps
    | with_reducible apply acceptCounter_keeps
    | with_reducible apply reply_keeps
    | with_reducible apply Keeps.ite
    | (split)

theorem beginTransfer_keeps {s : State} {a0 : State} (a1 : Frame) (a2 : Pdu) (h0 : Keeps s a0) :
    Keeps s (beginTransfer a0 a1 a2) := by
  unfold beginTransfer
  repeat' first
    | with_reducible assumption
    | simp only [Keeps.upd_iff]
    | with_reducible apply answerField_keeps
    | with_reducible apply Keeps.ite

theorem fieldRow_keeps {s : State} {a0 : State} (a1 : Frame) (a2 : Pdu → Bool) (a3 : State →   Path → Pdu → State × Reply) (h0 : Keeps s a0) (hf : ∀ t x p, Keeps s t → Keeps s (a3 t x p).1) :
    Keeps s (fieldRow a0 a1 a2 a3) := by
  unfold fieldRow
  repeat' first
    | (intro _)
    | with_reducible assumption
    | simp only [Keeps.upd_iff]
    | with_reducible apply hf
    | with_reducible apply bump_keeps
    | with_reducible apply filterDrop_keeps
    | with_reducible apply countFrame_keeps
    | with_reducible apply beginTransfer_keeps
    | with_reducible apply fieldRequest_keeps
    | with_reducible apply Keeps.ite
    | (split)

theorem assembledRow_keeps {s : State} {a0 : State} (a1 : Nat) (a2 : Pdu → Bool) (a3 : State →   Path → Pdu → State × Reply) (h0 : Keeps s a0) (hf : ∀ t x p, Keeps s t → Keeps s (a3 t x p).1) :
    Keeps s (assembledRow a0 a1 a2 a3) := by
  unfold assembledRow
  repeat' first
    | (intro _)
    | with_reducible assumption
    | simp only [Keeps.upd_iff]
    | with_reducible apply hf
    | with_reducible apply fieldRequest_keeps
    | with_reducible apply Keeps.ite
    | (split)

theorem agmirRow_keeps {s : State} {a0 : State} (a1 : Req) (a2 : Pdu → Bool) (a3 : State →   Path → Pdu → State × Reply) (h0 : Keeps s a0) (hf : ∀ t x p, Keeps s t → Keeps s (a3 t x p).1) :
    Keeps s (agmirRow a0 a1 a2 a3) := by
  unfold agmirRow
  repeat' first
    | (intro _)
    | with_reducible assumption
    | with_reducible apply hf
    | with_reducible apply mailboxRow_keeps
    | with_reducible apply fieldRow_keeps
    | with_reducible apply assembledRow_keeps
    | (split)

theorem endTransfer_keeps {s : State} {a0 : State} (a1 : Nat) (a2 : Nat) (h0 : Keeps s a0) :
    Keeps s (endTransfer a0 a1 a2) := by
  unfold endTransfer
  repeat' first
    | with_reducible assumption
    | simp only [Keeps.upd_iff]
    | with_reducible apply answerField_keeps
    | (split)

theorem takeSegment_keeps {s : State} {a0 : State} (a1 : Frame) (a2 : Transfer) (h0 : Keeps s a0) :
    Keeps s (takeSegment a0 a1 a2) := by
  unfold takeSegment
  repeat' first
    | with_reducible assumption
    | simp only [Keeps.upd_iff]
    | with_reducible apply Keeps.ite

theorem dictRow_keeps {s : State} (a0 : Nat) (a1 : Req) {a2 : State} (h0 : Keeps s a2) :
    Keeps s (dictRow a0 a1 a2) := by
  unfold dictRow
  repeat' first
    | (intro _)
    | with_reducible assumption
    | with_reducible apply agmirRow_keeps
    | with_reducible apply doWrite_keeps

theorem verifyImage_keeps {s : State} {a0 : State} (a1 : Option Nat) (h0 : Keeps s a0) :
    Keeps s (verifyImage a0 a1) := by
  unfold verifyImage
  repeat' first
    | with_reducible assumption
    | simp only [Keeps.upd_iff]
    | with_reducible apply modSpare_keeps
    | with_reducible apply raiseDev_keeps
    | (split)

theorem putSlot_keeps {s : State} {a0 : State} (a1 : Nat) (a2 : Copy × Bool × List Bool) (h0 : Keeps s a0) :
    Keeps s (putSlot a0 a1 a2) := by
  unfold putSlot
  repeat' first
    | with_reducible assumption
    | simp only [Keeps.upd_iff]
    | with_reducible apply raiseDev_keeps
    | with_reducible apply Keeps.ite

theorem storeBatch_keeps {s : State} {a0 : State} (a1 : List Bool) (h0 : Keeps s a0) :
    Keeps s (storeBatch a0 a1) := by
  unfold storeBatch
  repeat' first
    | with_reducible assumption
    | simp only [Keeps.upd_iff]
    | with_reducible apply putSlot_keeps

theorem sendReplies_keeps {s : State} (a0 : List (Path × List Nat)) {a1 : State} (h0 : Keeps s a1) :
    Keeps s (sendReplies a0 a1) := by
  induction a0 generalizing a1 with
  | nil =>
    unfold sendReplies
    repeat' first
      | with_reducible assumption
  | cons hd tl ih =>
    unfold sendReplies
    repeat' first
      | with_reducible assumption
      | with_reducible apply ih
      | with_reducible apply answerHost_keeps
      | with_reducible apply sendFrame_keeps
      | (split)

theorem portTick_keeps {s : State} {a0 : State} (a1 : Nat) (h0 : Keeps s a0) :
    Keeps s (portTick a0 a1) := by
  unfold portTick
  repeat' first
    | with_reducible assumption
    | simp only [Keeps.upd_iff]
    | with_reducible apply modPort_keeps
    | with_reducible apply endPause_keeps
    | with_reducible apply Keeps.ite

theorem secondTick_keeps {s : State} {a0 : State} (h0 : Keeps s a0) :
    Keeps s (secondTick a0) := by
  unfold secondTick
  repeat' first
    | with_reducible assumption
    | simp only [Keeps.upd_iff]

theorem idleTick_keeps {s : State} {a0 : State} (h0 : Keeps s a0) :
    Keeps s (idleTick a0) := by
  unfold idleTick
  repeat' first
    | (intro _)
    | with_reducible assumption
    | simp only [Keeps.upd_iff]
    | with_reducible apply portTick_keeps
    | with_reducible apply secondTick_keeps
    | with_reducible apply Keeps.ite
    | with_reducible apply Keeps.fold

end Sys2Proof.Machine
end

