-- ==== Sys2Proof/WellFormed.lean ====
section
/-!
DEFINITION. WellFormed.lean: the commands that can occur: every operand within the width or the count the manual gives it.
-/
namespace Sys2Proof
open Sys2Proof.Machine

/-- Bytes below 256. -/
def bytesWf (l : List Nat) : Bool := l.all (fun b => decide (b < 256))

/-- A field frame: an identifier of 29 bits and at most 64 data bytes (R440, R441). -/
def frameWf (f : Frame) : Bool := decide (f.id < 2 ^ 29) && decide (f.data.length ≤ 64) && bytesWf f.data

/-- A request: a doorbell value of 32 bits with at most 1,024 bytes of PDU (R449), a frame, or a node's transfer. -/
def reqWf : Req → Bool
  | .mailbox d p => decide (d < 2 ^ 32) && decide (p.length ≤ 1024) && bytesWf p
  | .field f => frameWf f
  | .assembled n => decide (n < 128)

/-- The exchange of a Carding packet: every number within its field. -/
def geomWf (g : Geom) : Bool :=
  decide (g.kind < 3) && decide (g.mapOff < 2 ^ 39) && decide (g.plane < 2 ^ 42) && decide (g.members ≤ 1024) &&
  decide (g.sliver ≤ 4096) && decide (g.chunks ≤ 16) && decide (g.hosted ≤ 4096) && decide (g.tokens ≤ 65536) &&
  decide (g.choices ≤ 16) && decide (g.rowBytes < 2 ^ 20) && decide (g.step < 2 ^ 64) && decide (g.digest < 2 ^ 32) &&
  decide (g.source < 1024) && decide (g.slot < 2 ^ 32) && decide (g.segs ≤ 16) && decide (g.expert < 4096) && decide (g.arrival < 65536)

/-- A packet: every header field within its width (Table 11-4) and at most 16,384 bytes of payload. -/
def packetWf (p : Packet) : Bool :=
  decide (p.ty < 256) && decide (p.version < 16) && decide (p.reserved < 16) && decide (p.src < 4096) &&
  decide (p.dst < 4096) && decide (p.owner < 4096) && decide (p.epoch < 2 ^ 16) && decide (p.seq < 2 ^ 32) &&
  decide (p.addr < 2 ^ 52) && decide (p.length < 2 ^ 15) && decide (p.counter < 2 ^ 16) && decide (p.cmode < 4) &&
  decide (p.slot < 256) && decide (p.op < 256) && decide (p.group < 2 ^ 16) && decide (p.flags < 128) &&
  decide (p.crc < 2 ^ 32) && (p.geom.all geomWf) && decide (p.via < 4096 ∧ p.srcRack < 256 ∧ p.dstRack < 256) && decide (p.payload.length ≤ 16384) && bytesWf p.payload

/-- Packets of one cycle. -/
def packetsWf (l : List Packet) : Bool := l.all packetWf

/-- A descriptor slot of 128 bytes, or a failed read (R416). -/
def slotWf : SlotRead → Bool
  | .bytes b => decide (b.length = 128) && bytesWf b
  | .failed => true

/-- Numbers of a list, of 64 bits each. -/
def natsWf (l : List Nat) : Bool := l.all (fun n => decide (n < 2 ^ 64))

/-- Rows of numbers. -/
def rowsWf (l : List (List Nat)) : Bool := l.all natsWf

/-- What a participant sends: its position (for the flags of a closing round and the second words of an agreement, the participants' number and its rank), its step and id, and its bytes. -/
def contribWf (c : Contrib) : Bool := decide (c.member < 32768) && decide (c.step < 2 ^ 64) && decide (c.id < 2 ^ 32) && bytesWf c.data
def contribsWf (l : List Contrib) : Bool := l.all contribWf
def contribsAllWf (l : List (List Contrib)) : Bool := l.all contribsWf

/-- Join records of 64 bytes. -/
def joinsWf (l : List Join) : Bool := l.all (fun j => decide (j.rank < 16384) && decide (j.record < 2 ^ 512))

/-- Errors at offsets of HBM. -/
def eccWf (l : List EccEvent) : Bool := l.all (fun e => decide (e.offset < hbmBytes))

/-- A proof's root of bytes. -/
def proofWf (p : Proof) : Bool := bytesWf p.root

/-- A link flit with its bytes. -/
def flitWf (f : Flit) : Bool := bytesWf f.body

/-- Readings: 16 die and 8 stack temperatures and 2 cages (R466). -/
def sampleWf (x : Sample) : Bool := decide (x.die.length = 16) && decide (x.hbm.length = 8) && decide (x.cages.length = 2)

/-- What a phase finds: two images and two copies. -/
def phaseWf (x : PhaseEnd) : Bool := decide (x.fwOk.length = 2) && decide (x.copyOk.length = 2)

/-- A domain and a rack of the fabric. -/
def spdmWf (m : Spdm) : Bool := decide (m.exchange < 256) && decide (m.domain < 2 ^ 16) && decide (m.rack < 256)

/-- An IEEE 1588 domain and message type. -/
def ptpWf (m : Ptp) : Bool := decide (m.domain < 256) && decide (m.ty < 16)

/-- Whether a command can occur. -/
def WellFormed (i : Instr) : Bool :=
  match i with
  | .agmirRead r => reqWf r
  | .agmirWrite r => reqWf r
  | .serviceOpen r => reqWf r
  | .serviceProof r proof => reqWf r && proofWf proof
  | .serviceClose r => reqWf r
  | .agmirSegment f => frameWf f
  | .agmirTransferTimeout node => decide (node < 128)
  | .mbStatusRead => true
  | .serviceSessionTimeout => true
  | .heartbeatSend => true
  | .heartbeatReceive f => frameWf f
  | .canBusOff => true
  | .ckThIdleStop => true
  | .thallusWatchdog => true
  | .fwUpdateBegin r => reqWf r
  | .fwUpdateData r => reqWf r
  | .fwUpdateVerify r _ => reqWf r
  | .configBatchStore _ => true
  | .sensorSample x => sampleWf x
  | .telemetryFrameSend => true
  | .pllLockLoss domain => decide (domain < 112)
  | .frondWakeDone frond => decide (frond < 96)
  | .frondWakeFail frond => decide (frond < 96)
  | .frondIdlePowerdown frond => decide (frond < 96)
  | .inputValid mv => decide (mv < 2 ^ 17)
  | .inputLoss => true
  | .startupPhaseEnd phase x => decide (phase < 11) && phaseWf x
  | .startupPhaseTimeout phase => decide (phase < 11)
  | .railSequenceStep rail => decide (rail < 3)
  | .railFault rail mv => decide (rail < 3) && decide (mv < 2 ^ 17)
  | .inputUndervoltage mv => decide (mv < 2 ^ 17)
  | .inputOvervoltage mv => decide (mv < 2 ^ 17)
  | .inputOvercurrent ma => decide (ma < 2 ^ 24)
  | .inputRecoveryRestart => true
  | .seatedOpen => true
  | .seatedClose => true
  | .buttonPress ms => decide (ms < 2 ^ 32)
  | .buttonHold => true
  | .removalRequest r => reqWf r
  | .removalCommit r => reqWf r
  | .removalWithdraw r => reqWf r
  | .portSignalDetect port => decide (port < 21)
  | .pluggableInsert cage mw => decide (cage < 2) && decide (mw < 2 ^ 16)
  | .perstAssert => true
  | .perstDeassert => true
  | .pcieHotReset => true
  | .flrPf => true
  | .flrVf vf => decide (vf < 1025)
  | .pcieLinkChange _ gen width => decide (gen < 16) && decide (width < 32)
  | .vfEnable count => decide (count < 1025)
  | .deviceResetNoAction r => reqWf r
  | .deviceResetWarm r => reqWf r
  | .deviceResetCold r => reqWf r
  | .resetRequestLane r => reqWf r
  | .resetRequestPort r => reqWf r
  | .resetRequestEngine r => reqWf r
  | .resetRequestPartition r => reqWf r
  | .resetComplete => true
  | .resetBoundExpired => true
  | .engineWatchdog unit inst => decide (unit < 128) && decide (inst < 256)
  | .maintenanceHoldSet r => reqWf r
  | .maintenanceHoldRelease r => reqWf r
  | .submitDoorbell fn size value => decide (fn < 1025) && decide (size < 2 ^ 16) && decide (value < 2 ^ 64)
  | .consumedDoorbell fn size value => decide (fn < 1025) && decide (size < 2 ^ 16) && decide (value < 2 ^ 64)
  | .descriptorReadReturn q slot => decide (q < 2 ^ 26) && slotWf slot
  | .descriptorAccept q => decide (q < 2 ^ 26)
  | .watermarkWrite q => decide (q < 2 ^ 26)
  | .operationComplete q => decide (q < 2 ^ 26)
  | .messagePost q => decide (q < 2 ^ 26)
  | .msixHoldoffExpiry q => decide (q < 2 ^ 26)
  | .journalRetire q => decide (q < 2 ^ 26)
  | .journalRemirrorDone => true
  | .ownerActivate r => reqWf r
  | .ownerPreempt r => reqWf r
  | .ownerResume r => reqWf r
  | .ownerReset r => reqWf r
  | .ownerFree r => reqWf r
  | .drainCensusComplete owner => decide (owner < 4096)
  | .censusTimeout owner => decide (owner < 4096)
  | .revocationWalkDone owner => decide (owner < 4096)
  | .faultLogPageTaken => true
  | .faultRingWrite r => reqWf r
  | .countersClear r => reqWf r
  | .localWindowWrite r => reqWf r
  | .remoteWindowWrite r => reqWf r
  | .keyGenerate r => reqWf r
  | .keyZeroise r => reqWf r
  | .repairSoftRow r => reqWf r
  | .repairHardRow r => reqWf r
  | .repairLane r => reqWf r
  | .repairDone result => decide (result < 2 ^ 32)
  | .maintStackEnter r => reqWf r
  | .maintStackEnd r => reqWf r
  | .ieee1500Execute r => reqWf r
  | .ieee1500ShiftDone data => bytesWf data
  | .patrolScrub found _ => eccWf found
  | .pcRetrainFailure pc => decide (pc < 512)
  | .poolEnable r => reqWf r
  | .poolDisable r => reqWf r
  | .poolRebuild r => reqWf r
  | .poolBuildDone pool => decide (pool < 256)
  | .headCacheRefill pool => decide (pool < 256)
  | .poolAuditScan => true
  | .deadlockSample => true
  | .stepArrivalSend p peers grads => decide (p < 32) && contribsWf peers && contribsAllWf grads
  | .gatedOpStart q => decide (q < 2 ^ 26)
  | .placementDecision p layer peers => decide (p < 32) && decide (layer < 1024) && rowsWf peers
  | .reshardRound2 p votes => decide (p < 32) && natsWf votes
  | .grouped q => decide (q < 2 ^ 26)
  | .matrix q => decide (q < 2 ^ 26)
  | .walkerStartCondition q => decide (q < 2 ^ 26)
  | .chainStart q chain => decide (q < 2 ^ 26) && decide (chain < 65536)
  | .chainComplete q chain => decide (q < 2 ^ 26) && decide (chain < 65536)
  | .earlyStart q => decide (q < 2 ^ 26)
  | .arrayRegParity band => decide (band < 8)
  | .arrayFrontCheck band counts => decide (band < 8) && natsWf counts
  | .bistStart r => reqWf r
  | .bistDone result => decide (result < 2 ^ 32)
  | .vectorRegParity vcore => decide (vcore < 32)
  | .sfuTableParity vcore => decide (vcore < 32)
  | .tileStoreDoubleError offset => decide (offset < tileBytes)
  | .vectorAdd q => decide (q < 2 ^ 26)
  | .vectorMul q => decide (q < 2 ^ 26)
  | .vectorFma q => decide (q < 2 ^ 26)
  | .vectorMin q => decide (q < 2 ^ 26)
  | .vectorMax q => decide (q < 2 ^ 26)
  | .vectorConvert q => decide (q < 2 ^ 26)
  | .vectorExp q => decide (q < 2 ^ 26)
  | .vectorExp2 q => decide (q < 2 ^ 26)
  | .vectorLn q => decide (q < 2 ^ 26)
  | .vectorLog2 q => decide (q < 2 ^ 26)
  | .vectorRecip q => decide (q < 2 ^ 26)
  | .vectorRsqrt q => decide (q < 2 ^ 26)
  | .rowSum q => decide (q < 2 ^ 26)
  | .rowMax q => decide (q < 2 ^ 26)
  | .mean q => decide (q < 2 ^ 26)
  | .variance q => decide (q < 2 ^ 26)
  | .rms q => decide (q < 2 ^ 26)
  | .normApply q => decide (q < 2 ^ 26)
  | .rmsApply q => decide (q < 2 ^ 26)
  | .gatedUnit q => decide (q < 2 ^ 26)
  | .softmaxNormalise q => decide (q < 2 ^ 26)
  | .softmaxTileD1 q => decide (q < 2 ^ 26)
  | .maskedMul q => decide (q < 2 ^ 26)
  | .dmaPlainCopy q => decide (q < 2 ^ 26)
  | .dmaCompressStrict q => decide (q < 2 ^ 26)
  | .dmaCompressPrune q => decide (q < 2 ^ 26)
  | .dmaCompressRle q => decide (q < 2 ^ 26)
  | .dmaExpand24 q => decide (q < 2 ^ 26)
  | .dmaExpandRle q => decide (q < 2 ^ 26)
  | .groupFence q => decide (q < 2 ^ 26)
  | .syncInit q => decide (q < 2 ^ 26)
  | .syncFree q => decide (q < 2 ^ 26)
  | .barrierArrive q => decide (q < 2 ^ 26)
  | .flagSet q => decide (q < 2 ^ 26)
  | .flagClear q => decide (q < 2 ^ 26)
  | .counterAdd q => decide (q < 2 ^ 26)
  | .counterWrite q => decide (q < 2 ^ 26)
  | .watch q => decide (q < 2 ^ 26)
  | .unwatch q => decide (q < 2 ^ 26)
  | .syncRead q => decide (q < 2 ^ 26)
  | .taskBegin q => decide (q < 2 ^ 26)
  | .taskEnd q => decide (q < 2 ^ 26)
  | .wait q => decide (q < 2 ^ 26)
  | .poolAllocate q => decide (q < 2 ^ 26)
  | .poolAcquire q => decide (q < 2 ^ 26)
  | .poolRelease q => decide (q < 2 ^ 26)
  | .dispatch q => decide (q < 2 ^ 26)
  | .dispatchChunkStart q => decide (q < 2 ^ 26)
  | .cardReturn q => decide (q < 2 ^ 26)
  | .returnChunkStart q => decide (q < 2 ^ 26)
  | .combine q => decide (q < 2 ^ 26)
  | .combineChunkStart q => decide (q < 2 ^ 26)
  | .scatter q => decide (q < 2 ^ 26)
  | .scatterChunkStart q => decide (q < 2 ^ 26)
  | .gradCombine q => decide (q < 2 ^ 26)
  | .release q => decide (q < 2 ^ 26)
  | .allReduce q peers => decide (q < 2 ^ 26) && contribsWf peers
  | .reduceScatter q peers => decide (q < 2 ^ 26) && contribsWf peers
  | .allGather q peers => decide (q < 2 ^ 26) && contribsWf peers
  | .broadcast q peers => decide (q < 2 ^ 26) && contribsWf peers
  | .closing q peers => decide (q < 2 ^ 26) && contribsWf peers
  | .placeInit q peers => decide (q < 2 ^ 26) && joinsWf peers
  | .layerEnterForward q peers => decide (q < 2 ^ 26) && contribsAllWf peers
  | .layerExitForward q peers => decide (q < 2 ^ 26) && contribsAllWf peers
  | .layerEnterBackward q peers => decide (q < 2 ^ 26) && contribsAllWf peers
  | .layerExitBackward q peers => decide (q < 2 ^ 26) && contribsAllWf peers
  | .atomicAdd q => decide (q < 2 ^ 26)
  | .atomicFadd q => decide (q < 2 ^ 26)
  | .atomicSwap q => decide (q < 2 ^ 26)
  | .atomicCas q => decide (q < 2 ^ 26)
  | .atomicAnd q => decide (q < 2 ^ 26)
  | .atomicOr q => decide (q < 2 ^ 26)
  | .atomicXor q => decide (q < 2 ^ 26)
  | .atomicSmin q => decide (q < 2 ^ 26)
  | .atomicSmax q => decide (q < 2 ^ 26)
  | .atomicUmin q => decide (q < 2 ^ 26)
  | .atomicUmax q => decide (q < 2 ^ 26)
  | .flcInvalidate q => decide (q < 2 ^ 26)
  | .nop q => decide (q < 2 ^ 26)
  | .queueCreate q => decide (q < 2 ^ 26)
  | .queueDestroy q => decide (q < 2 ^ 26)
  | .queueQuery q => decide (q < 2 ^ 26)
  | .portEnable r => reqWf r
  | .portDisable r => reqWf r
  | .portTrainingComplete port rate lanes => decide (port < 21) && decide (rate < 2) && decide (lanes < 33)
  | .portTrainingFailed port => decide (port < 21)
  | .identityRecordReceive port record => decide (port < 21) && decide (record < 2 ^ 512)
  | .linkFlitReceive port flit => decide (port < 21) && flitWf flit
  | .replayRequest port seq => decide (port < 21) && decide (seq < 4096)
  | .laneLossOfLock port lane => decide (port < 21) && decide (lane < 32)
  | .laneRetrained port lane => decide (port < 21) && decide (lane < 32)
  | .peerSilentTimeout port => decide (port < 21)
  | .load port k ecc => decide (port < 21) && packetWf k && eccWf ecc
  | .loadData port k => decide (port < 21) && packetWf k
  | .store port k => decide (port < 21) && packetWf k
  | .atomicPacket port k => decide (port < 21) && packetWf k
  | .atomicResult port k => decide (port < 21) && packetWf k
  | .atomicRelease port k => decide (port < 21) && packetWf k
  | .copyData port k => decide (port < 21) && packetWf k
  | .syncPacket port k => decide (port < 21) && packetWf k
  | .watchMessage port k => decide (port < 21) && packetWf k
  | .cardRowForward port k => decide (port < 21) && packetWf k
  | .cardRowBackward port k => decide (port < 21) && packetWf k
  | .cardRowReturn port k => decide (port < 21) && packetWf k
  | .cardFillForward port k => decide (port < 21) && packetWf k
  | .cardFillBackward port k => decide (port < 21) && packetWf k
  | .relayPacketReceive port k => decide (port < 21) && packetWf k
  | .relayForward held => decide (held < 2 ^ 32)
  | .lateFault port k => decide (port < 21) && packetWf k
  | .flowAck port k => decide (port < 21) && packetWf k
  | .flowAckTimer flow => decide (flow < 2 ^ 25)
  | .e2eTimeout flow => decide (flow < 2 ^ 25)
  | .flowResetRetry flow => decide (flow < 2 ^ 25)
  | .flowReset port k => decide (port < 21) && packetWf k
  | .creditWithholdExpiry flow => decide (flow < 2 ^ 25)
  | .epochNotice port k => decide (port < 21) && packetWf k
  | .epochClose port k => decide (port < 21) && packetWf k
  | .epochClosed port k => decide (port < 21) && packetWf k
  | .getS port k rivals => decide (port < 21) && packetWf k && packetsWf rivals
  | .getM port k rivals => decide (port < 21) && packetWf k && packetsWf rivals
  | .data port k => decide (port < 21) && packetWf k
  | .inv port k => decide (port < 21) && packetWf k
  | .invAck port k => decide (port < 21) && packetWf k
  | .recall port k => decide (port < 21) && packetWf k
  | .putM port k => decide (port < 21) && packetWf k
  | .retryAfter port k => decide (port < 21) && packetWf k
  | .retryAfterExpiry request => decide (request < 2 ^ 32)
  | .timeSyncSend => true
  | .timeSync port k => decide (port < 21) && packetWf k
  | .ptpMessage port m => decide (port < 21) && ptpWf m
  | .ptpLockLost => true
  | .attest port k m => decide (port < 21) && packetWf k && spdmWf m
  | .attestRetry device => decide (device < 4096)
  | .canBusOffRecovery => true
  | .mainRailsMayStart mv => decide (mv < 2 ^ 17)
  | .configurationRequest => true
  | .priorityFlowControl port priority quanta => decide (port < 21) && decide (priority < 8) && decide (quanta < 2 ^ 16)
  | .remoteSourceCopy port k => decide (port < 21) && packetWf k

end Sys2Proof
end

