-- ==== Sys2Proof/Tests/Slice0.lean ====
section
/-!
SUPPORT. Tests/Slice0.lean: small tests. For every statement with hypotheses, one theorem shows states and operands that meet them, a
clause at a time; the other tests compare an operation with a value of the manual, or show that an ill-formed command is refused.
-/
namespace Sys2Proof.Tests
open Sys2Proof Sys2Proof.Machine
set_option Elab.async false

/-- The head of a queue starts, as an operation of which something holds. -/
def goes (r : Start) (p : Queue → Op → Head → State → Bool) : Bool :=
  match r with
  | .go x o h t => p x o h t
  | _ => false

/-- What a head that starts shows: the queue, operation, header and state that a statement speaks of. -/
theorem goes_go {r : Start} {p : Queue → Op → Head → State → Bool} (hr : goes r p = true) :
    ∃ x o h t, r = .go x o h t ∧ p x o h t = true := by
  cases r with
  | go x o h t => exact ⟨x, o, h, t, rfl, hr⟩
  | no => exact absurd hr (by simp [goes])
  | ends t => exact absurd hr (by simp [goes])

/-- A small state: owner 1 of function 0 and partition 0 active, with admin queue 16, PASID 7, a window of all of HBM and one of all of
the Tile Store, and an active key; partition 0 has 1,024 queues, 64 objects of each kind and 64 watches; every frond is on. -/
def tS : State :=
  { State.reset with
    owners := [(1, { state := .active, entry := fld 16 40 20 + fld 7 60 20 })]
    mc := {
      keys := [(0, { active := true, gen := 1, fresh := 0 }), (1, { active := true, gen := 1, fresh := 1 })]
      keyDraws := 2
      windows := [(8, fld 1 95 1 + fld 7 91 3 + fld (2 ^ 38) 39 39), (9, fld 3 94 2 + fld 7 91 3 + fld (2 ^ 28) 39 39)] }
    dict := [(0x300002, .num 1024), (0x302802, .num 64), (0x302804, .num 64), (0x302806, .num 64), (0x302807, .num 64)]
    resets := []
    fronds := { st := (List.range 96).map (fun f => (f, Frond.on)) } }

/-- An operation of version 2 of owner 1, and queue 16 of owner 1 with operations. -/
def tOp (opcode body : Nat) : Op := { seq := 0, hdr := fld opcode 272 8 + 2, body := body, owner := 1, epoch := 0 }
def tQ (l : List Op) : Queue := { ctx := fld 2 272 2 + fld 1 288 12, partition := 0, ops := l, nextSeq := 1 }

/-- A state with queue 16 holding one operation. -/
def withOp (s : State) (opcode body : Nat) : State := { s with queues := [(16, tQ [tOp opcode body])] }

/-- A state with bytes written by owner 1. -/
def tMem (s : State) (a : Nat) (b : List Nat) : State := { s with mem := (wrMem s.mem 1 1 a b) }

/-- A SYNC body on an object, with an argument; and a state with objects, by kind and index. -/
def sy (kind index arg : Nat) : Nat := fld kind 502 2 + fld index 484 18 + fld 0xFFF 472 12 + fld arg 408 64
def tObj (s : State) (kind index : Nat) (o : SyncObj) : State :=
  { s with syu := { s.syu with objs := tput s.syu.objs (objKey kind index) o } }
def tReady : SyncObj := { state := 1, owner := 1, value := 5 }

/-- A watch specification: condition, kind, index and operand, for queue 16 of this device. -/
def ws (cond kind index operand : Nat) : Nat :=
  fld operand 128 64 + fld 0xFFF 64 12 + fld 16 32 20 + fld cond 20 3 + fld kind 18 2 + fld index 0 18

/-- A request through the mailbox: its opcode, entry key and value; its PDU; and the state that has taken it in. -/
def hostBytes (op key : Nat) (v : List Nat) : List Nat :=
  natLe 8 (fld op 56 8 + fld (key / 256) 32 16 + fld key 24 8 + fld v.length 0 16) ++ v
def hostReq (op key : Nat) (v : List Nat) : Req := .mailbox 1 (hostBytes op key v)
def hostPdu (op key : Nat) (v : List Nat) : Pdu := parsePdu (padTo 8192 (hostBytes op key v))
def tookIn (s : State) (op key : Nat) (v : List Nat) : State :=
  { s with th := { s.th with
      mbRequest := hostBytes op key v
      ckRuns := true } }

/-- A mailbox request reaches its row. -/
def hostReaches (s : State) (op key : Nat) (v : List Nat) : Bool :=
  mailboxServes s && s.th.mbStatus != 1 && !mbBad (hostPdu op key v) && pdOp (hostPdu op key v) == op &&
  pdKey (hostPdu op key v) == key && (hostPdu op key v).value == v

theorem hostReaches_delivers {s : State} {op key : Nat} {v : List Nat} (h : hostReaches s op key v = true) :
    Delivers s (hostReq op key v) .host (hostPdu op key v) (tookIn s op key v) := by
  simp only [hostReaches, Bool.and_eq_true, bne_iff_ne, ne_eq, Bool.not_eq_true', beq_iff_eq] at h
  exact ⟨rfl, rfl, rfl, h.1.1.1.1.1, h.1.1.1.1.2, h.1.1.1.2, rfl⟩

/-- A write through the mailbox passes every check. -/
def hostWrites (s : State) (key : Nat) (v : List Nat) : Bool :=
  hostReaches s 2 key v && indexKnown (pdIndex (hostPdu 2 key v)) &&
  (specOf key).any (fun e => writeStatus (tookIn s 2 key v) .host key e v == 0)

theorem hostWrites_writes {s : State} {key : Nat} {v : List Nat} (h : hostWrites s key v = true) :
    Writes s (hostReq 2 key v) .host (hostPdu 2 key v) (tookIn s 2 key v) ∧ pdKey (hostPdu 2 key v) = key ∧
      leNat (hostPdu 2 key v).value = leNat v := by
  simp only [hostWrites, Bool.and_eq_true] at h
  have d := h.1.1
  simp only [hostReaches, Bool.and_eq_true, beq_iff_eq] at d
  refine ⟨⟨hostReaches_delivers h.1.1, d.1.1.2, h.1.2, ?_⟩, d.1.2, by rw [d.2]⟩
  cases hs : specOf key with
  | none => rw [hs] at h; exact absurd h.2 (by simp)
  | some e =>
    rw [hs] at h
    exact ⟨e, by rw [d.1.2, hs], by rw [d.1.2, d.2]; simpa using h.2⟩

/-- The small state in a service session of the host. -/
def tSvc : State := { tS with th := { tS.th with session := some .host } }

/-- A READ frame of the field port from node 3, tag 5, with its PDU and the state that has counted it. -/
def fieldFrame (key : Nat) : Frame :=
  { id := fld 2 26 3 + fld 127 19 7 + fld 3 12 7 + fld 5 0 12, data := natLe 8 (fld 1 56 8 + fld (key / 256) 32 16 + fld key 24 8) }

/-- A segmented transfer of node 3 that still needs bytes, and its next segment. -/
def tTransfer (need : Nat) : Transfer := { tag := 5, hdr := 0, ctr := none, nextSeg := 2, need := need, data := [1] }
def tSegment (n : Nat) : Frame := { id := fld 3 26 3 + fld 127 19 7 + fld 3 12 7 + 5, data := 2 :: List.replicate n 7 }

/-- FP32 bits of 1.5, -2.0, 0.25 and 3.0, and the small state with rows of them at 4,096, 8,192 and 12,288. -/
def tFloats : List Nat := natLe 4 0x3FC00000 ++ natLe 4 0xC0000000 ++ natLe 4 0x3E800000 ++ natLe 4 0x40400000
def tRows (s : State) : State := tMem (tMem (tMem s 4096 tFloats) 8192 tFloats) 12288 tFloats

/-- A VECTOR body of one FP32 row of two columns for a function, with the operands it takes. -/
def tVec (f : Nat) : Nat :=
  fld f 504 8 + fld 4096 464 40 + fld (if (vcKinds f).1 = 0 then 0 else 8192) 424 40 +
  fld (if (vcKinds f).2 = 0 then 0 else 12288) 384 40 + fld 16384 344 40 + fld 2 320 24 + fld 2 296 24 + fld 1 264 32 +
  fld 0xE 200 8 + fld 0xE 192 8
def tVecState (f : Nat) : State := tRows (withOp tS 3 (tVec f))
/-- A VECTOR head that the schedule takes starts with a sound body and operands that it may use. -/
def vecGoes (s : State) (f : Nat) : Bool :=
  (vcReadyQueues s).contains 16 && (match drrQueue s 4 s.units.vector (vcReadyQueues s) with
    | some (p, d) => p == 16 && goes (startHead { s with units := { s.units with vector := d } } 16 0x03 f (needAll s (coreFronds s)))
        (fun _ o h t => decide (vcBadField o.body = none ∧ coresOut t ≠ 2 ^ 32 - 1 ∧
          (∀ p ∈ vcOperands o.body, ptrOk t o.owner p.1 p.2.1 p.2.2.2 = true) ∧ (h.twoPhase && vcInPlace o.body) = false ∧
          vcRows o.body = 1 ∧ vcIn o.body = 0xE ∧ vcOutFmt o.body = 0xE ∧ vcRound o.body = 0 ∧ vcPoison t o.body 0 = none))
    | none => false)

/-- One BF16 problem of two tokens, two columns and depth two; its entry, profile and control block. -/
def tEntry : Nat :=
  fld 0xC 8 8 + fld 0xC 0 8 + fld 2 32 24 + fld 2 56 24 + fld 2 80 24 + fld 1 104 16 + fld 0xFFFF 120 16 + fld 16384 160 40 +
  fld 20480 200 40 + fld 24576 240 40 + fld 2 400 24 + fld 2 424 24 + fld 2 448 24
def tProfile : Nat := fld 0x3F800000 224 32 + fld 0xE 8 4 + 2
def tGcb : Nat := fld (2 ^ 23) 240 32 + fld 12288 128 40 + fld 8192 48 40 + fld 1 32 16 + fld 1 8 16 + 2
def tBf : List Nat := natLe 2 0x3F80 ++ natLe 2 0x4000 ++ natLe 2 0xBF80 ++ natLe 2 0x3F00
def tGrouped (s : State) : State :=
  tMem (tMem (tMem (tMem (tMem s 4096 (natLe 64 tGcb)) 8192 (natLe 64 tEntry)) 12288 (natLe 64 tProfile)) 16384 tBf) 20480 tBf

/-- A plan of dense entries with sound fill counts exists. -/
def planGoes (s : State) (q : Nat) (o : Op) (h : Head) (w : Walk) : Bool :=
  (indexed 0 w.table).all (fun x => (fillCheck (detailIdx w x.1) x.2 (readFills s o.owner w.gcb x.2)).isNone) &&
  w.table.all (fun e => !enSparse e) &&
  (match planOf s w.single (gcbStagingSize w.gcb) (walkEntries (walkRead s q o h w)) with
    | .ok cs => !cs.isEmpty
    | _ => false)

/-- The small state with an operation of the array in progress, its walk, and the band or counter that it waits for. -/
def tWalk (stage state : Nat) : Walk :=
  { stage := stage, seq := 0, gcb := tGcb, gcbAt := 4096, table := [tEntry], profiles := [(0, tProfile)], fills := [[2]]
    chains := [{ entry := 0, tile := 0, b0 := 7, depth := 1, cost := 128, state := state }], mask := 8, started := true }
def tArray (s : State) (w : Walk) : State :=
  tGrouped { s with
    queues := [(16, tQ [{ tOp 1 (fld 4096 472 40) with progress := .started }])]
    units := { s.units with
      walks := [(16, w)]
      running := if w.stage = 3 then some 16 else none } }

/-- An entry whose streaming operand is what the small entry writes. -/
def tMeets : Nat := setBits tEntry 200 40 24576

/-- A copy of local HBM, 8 rows of one BF16 element from 4,096 to 65,536, in a mode; its source: 4 non-zero elements. -/
def tCopy (mode ldDst : Nat) : Nat :=
  fld 4096 460 52 + fld 65536 395 52 + fld 8 350 32 + fld 1 318 32 + fld 1 286 32 + fld ldDst 254 32 + fld (fld 0xC 20 4 + fld mode 16 3) 222 32
def tElems : List Nat := [0x3F80, 0, 0x4000, 0, 0, 0, 0xBF80, 0x3F00]
def tCopyState (mode ldDst : Nat) (b : List Nat) : State := tMem (withOp tS 4 (tCopy mode ldDst)) 4096 b

/-- A control block of a kind with one token, one choice, one expert and one member, its rows 64 E4M3 elements. -/
def tCcb (kind more : Nat) : Nat :=
  let at_ (a l : Nat) : Nat := fld (2 ^ 39 + a) l 40
  clearFields
    (at_ 12288 744 + at_ 10240 704 + at_ 11264 664 + at_ 10240 624 + at_ 9728 544 + at_ 10240 504 + at_ 9216 424 + at_ 8704 384 +
     at_ 8192 344 + fld 131072 304 39 + fld 16 272 32 + fld 65536 232 39 + fld 1 216 16 + fld 0x3F800000 136 32 +
     fld 6 128 8 + fld 6 120 8 + fld 6 112 8 + fld 6 104 8 + fld 6 96 8 + fld 64 40 15 + fld kind 8 4 + 2 + more)
    ((cardFields.filter (fun f => !f.2.2.contains kind)).map (fun f => (f.1, f.2.1)))
/-- What its operation reads. In the Tile Store: the control block, a list of one member, this device, a map of one expert at it, logits, an
index entry of gate 1, and a row of elements. In HBM: a slot map header, bound where asked, one filled row, receipts and a home row. -/
def tCardMem (s : State) (b : Nat) (bound : Bool) : State :=
  let kind := ccKind b
  let at_ (l : List Nat) (a : Nat) (x : List Nat) : List (Nat × List Nat) := if l.contains kind then [(a, x)] else []
  let row : List Nat := natLe 64 0x0123456789ABCDEF
  let s1 := (at_ [1, 2, 4, 6] 65536 (natLe 65 (if bound then mapHeader 0 (stepNumber s 0) 0 else 0)) ++ at_ [1, 2, 4] 73728 (natLe 64 1) ++
    at_ [2, 4] 77824 (natLe 8 0) ++ at_ [2] 81920 row ++ at_ [2, 3, 5] 131072 [0] ++ at_ [3, 4, 5] 135168 row ++
    [(tilePtr 4096, natLe 128 b), (tilePtr 8192, natLe 4 (fld (ownRack s) 12 12 + ownDev s)), (tilePtr 9216, [0, 0, 0xC0, 0x3F]),
      (tilePtr 9728, natLe 16 (fld 0x3F800000 96 32)), (tilePtr 10240, row)]).foldr (fun x t => tMem t x.1 x.2) s
  { s1 with card := { s1.card with indexes := [(layerKey 1 0, (1, tilePtr 9728))] } }
def tCard (kind more : Nat) (bound : Bool) : State := tCardMem (withOp tS 8 (fld (tilePtr 4096) 472 40)) (tCcb kind more) bound
/-- A head of an operation of the Carding Engine or Ply Unit starts with a sound control block of which something holds. -/
def cardGoes (s : State) (kind : Nat) (p : Op → State → Card → Bool) : Bool :=
  goes (startHead s 16 0x08 0 .ready) (fun x o h t => match cardCheck t o x.partition (bits o.body 472 40) with
    | .ok c => decide (headKind s 16 = some kind ∧ frondState s (kindFrond kind) = .on ∧
        ptrOk t o.owner (bits o.body 472 40) 128 .read = true ∧ ccKind c.ccb = kind ∧ h.twoPhase = false ∧ cardD1Bad t c = none) && p o t c
    | .bad _ => false)
/-- A chunk runs through and its operation goes on. -/
def chunkGoes (v : State) (o : Op) (c : Card) : Bool :=
  let r := cardChunk 16 o { s := v, c := { c with waiting := false } }
  r.stop.isNone && (goingHead r.s 16 0x08).any (fun y => y.2.1.seq == o.seq)
/-- The small state with an operation in progress and its record. -/
def tGoing (kind more ended : Nat) : State :=
  let s := tCardMem { tS with queues := [(16, tQ [{ tOp 8 (fld (tilePtr 4096) 472 40) with progress := .started }])] } (tCcb kind more) true
  { s with
    syu := { ended := [(16, ended)] }
    card := { s.card with
      ops := [(16, { seq := 0, ccb := tCcb kind more, members := [fld (ownRack s) 12 12 + ownDev s], experts := [0], digest := 0,
                             step := 0, group := 0xF000, waiting := true })] } }

/-- A collective of a kind among this device and others of its rack: four BF16 elements from and to the Tile Store, staging in HBM. -/
def tColl (kind others : Nat) : Nat :=
  fld (tilePtr 4096) 392 40 + fld (tilePtr 2048) 352 40 + fld (tilePtr 1024) 312 40 +
  (if kind = 3 ∨ kind = 4 then 0 else fld 65536 272 40) + fld 9 160 32 + fld 4 128 32 + fld 0xC 120 8 + fld 0xC 112 8 + fld others 104 8 + fld 1 100 4 + fld kind 96 4 +
  fld 8192 32 32 + 2
/-- The small state with a collective at the head of queue 16, and a remote window to all of this rack's devices. -/
def tCollState (kind others : Nat) : State :=
  let s := withOp tS 9 (fld 4096 472 40)
  let me := fld (ownRack s) 12 12 + ownDev s
  let s1 := [(4096, natLe 64 (tColl kind others)), (tilePtr 1024, natLe 4 me ++ natLe 4 (me + 1)), (tilePtr 2048, natLe 8 0x40003F80BF803F00)].foldr
    (fun x t => tMem t x.1 x.2) s
  { s1 with fab := { s1.fab with rwins := [(16, fld (ownRack s) 200 8 + fld 63 194 6 + fld 29 180 5 + fld (2 ^ 38) 39 39)] } }
/-- A collective starts with a sound control block, of which something holds. -/
def collGoes (s : State) (kind : Nat) (p : Op → State → Coll → Bool) : Bool :=
  goes (startHead s 16 0x09 0 .ready) (fun x o _ t => match clCheck t o x.partition with
    | .ok c => decide (c.kind = kind) && p o t c
    | .error _ => false)

/-- A job description header: four members of one rack, one stage, one layer, no budgets. -/
def tJobHdr : Nat := fld 3 162 14 + fld 4 155 7 + fld 1 146 9 + fld 1 141 5 + fld (tilePtr 2048) 216 40 + fld (tilePtr 1024) 176 40 + 2
/-- A layer record, dense with one region, or routed with as many experts and slots as given and adaptive. -/
def tDense : Nat := fld (tilePtr 3072) 320 40 + fld 1 220 4 + 2
def tRouted (experts slots : Nat) : Nat := fld slots 268 12 + fld (experts - 1) 256 12 + fld 2 220 4 + fld 1 214 1 + 2
def tRegion : Nat := fld (tilePtr 8192) 136 40 + fld 64 56 40 + 4
def tMembers (s : State) : List Nat := (List.range 4).map (fun i => fld (ownRack s) 12 12 + ownDev s / 4 * 4 + i)
/-- The small state with a PLACE_INIT at the head of queue 16, its description in memory, its clock locked, and firmware 5.0. -/
def tPlace : State :=
  let s := withOp tS 10 (fld 1 504 8 + fld 4096 432 40)
  let s1 := [(4096, natLe 64 tJobHdr), (tilePtr 1024, (tMembers s).flatMap (natLe 4)), (tilePtr 2048, natLe 64 tDense), (tilePtr 3072, natLe 32 tRegion)].foldr
    (fun x t => tMem t x.1 x.2) s
  { s1 with
    clock := { s1.clock with locked := true }
    th := { s1.th with fw0 := { s1.th.fw0 with version := 5 * 65536 } } }
/-- A placed job of four members, with layers. -/
def tJob (s : State) (l : List Layer) : Job :=
  { owner := 1, hdr := tJobHdr, members := tMembers s, rank := ownDev s % 4, digest := 0, layers := l }
def tPlaced (s : State) (j : Job) (p : Part) : State := { s with parts := [(0, { p with job := some j, jobState := 2, joinState := 1 })] }
/-- A PLACE_INIT starts with a sound job description, of which something holds. -/
def placeGoes (s : State) (p : State → JobDesc → Nat → Bool) : Bool :=
  goes (startHead s 16 0x0A 1 .ready) (fun x o _ t =>
    decide (isTile (bits o.body 432 40) = false ∧ ptrOk t o.owner (bits o.body 432 40) 64 .read = true ∧ (partOf t x.partition).jobState = 0) &&
    (match placeCheck t o.owner (bits o.body 432 40) with
     | .ok d => p t d (joinRecord t x.partition (jobDigest d.hdr d.members d.recs d.regions))
     | .error _ => false))

/-- The small state with port 0 up, device 5 trusted, and bytes of owner 1 at 4,096. -/
def tFab (s : State) : State :=
  tMem { s with fab := { s.fab with
    ports := tput s.fab.ports 0 { portOf s 0 with state := 3, lanes := 255 }
    trusted := [5] } } 4096 (natLe 64 7)
/-- An ATOMIC body of a kind, of 4 or 8 bytes at offset 4,096 of a device of this rack. -/
def tAtomic (s : State) (dev kind wide result : Nat) : Nat :=
  fld (fld dev 39 6 + 4096) 460 52 + fld (ownRack s) 448 12 + fld kind 440 8 + fld wide 439 1 + fld 9 374 64 + fld 3 310 64 + fld result 270 40
/-- A packet of a type from device 5 for this device, with its end-to-end check right. -/
def tPk (s : State) (k : Packet) : Packet :=
  let p := { k with src := 5, dst := ownDev s, owner := 1 }
  { p with crc := pkCrc p }
/-- Whether a packet passes as PacketPasses says, and is next as PacketNext says. -/
def tPasses (s : State) (port : Nat) (k : Packet) (key : Nat) : Bool :=
  decide (portHears s port = true ∧ k.eth = decide (19 ≤ port) ∧ (k.eth = true → k.dstRack = ownRack s ∧ k.srcRack ≠ ownRack s) ∧
    pkHeaderOk k = true ∧ pkCrcOk k = true ∧ key = keyOfPk k ∧ (k.ty = 0x19 ∨ trustedKey s key = true) ∧
    k.seq = (flowOf s key).rxNext ∧ k.seq < 2 ^ 32 ∧ flowHeld s key = false)
theorem tPasses_passes {s : State} {port : Nat} {k : Packet} {key : Nat} (h : tPasses s port k key = true) : PacketPasses s port k key := by
  unfold tPasses at h
  have g := of_decide_eq_true h
  exact g
def tNext (s : State) (port : Nat) (k : Packet) (key : Nat) : Bool :=
  tPasses s port k key && decide (toRelay s k = false ∧ heldNext (countApplied s key k) key = none ∧
    stalePk (countApplied s key k) k = false)
theorem tNext_next {s : State} {port : Nat} {k : Packet} {key : Nat} (h : tNext s port k key = true) :
    PacketNext s port k key (countApplied s key k) := by
  simp only [tNext, Bool.and_eq_true, decide_eq_true_eq] at h
  exact ⟨tPasses_passes h.1, h.2.1, rfl, h.2.2.1, h.2.2.2⟩

/-- The identity record that a port of a Skein link expects of its peer. -/
def tIdentity (s : State) (port : Nat) : Nat :=
  let r := ((expectedId s port).map (fun c => fld c.2.2 c.1 c.2.1)).foldl (· + ·) 0
  r + crc32c (natLe 60 (r / 2 ^ 32))
/-- The small state with a port in a given form. -/
def tPort (port : Nat) (f : Port → Port) : State := { tS with fab := { tS.fab with ports := tput tS.fab.ports port (f (portOf tS port)) } }

/-- Small packets of every type that is taken in the order of its flow, a Carding packet of each exchange among them. -/
def tPackets (s : State) : List Packet :=
  let g (n : Nat) : Option Geom := some { kind := n, mapOff := 65536, plane := 0, members := 1, sliver := 1, chunks := 1, hosted := 1, tokens := 1, choices := 1, rowBytes := 64, step := 0, digest := 0, source := 0, arrival := 1 }
  let l : List Packet := [{ ty := 1, src := 0, dst := 0 },
    { ty := 2, src := 0, dst := 0 },
    { ty := 3, src := 0, dst := 0, addr := 4096, payload := [1, 2] },
    { ty := 4, src := 0, dst := 0, addr := 4096, op := 1, payload := natLe 8 3 },
    { ty := 5, src := 0, dst := 0 },
    { ty := 6, src := 0, dst := 0 },
    { ty := 7, src := 0, dst := 0, op := 0, addr := 4096, payload := [1] },
    { ty := 7, src := 0, dst := 0, op := 4 },
    { ty := 8, src := 0, dst := 0 },
    { ty := 9, src := 0, dst := 0 },
    { ty := 10, src := 0, dst := 0, geom := g 0 },
    { ty := 10, src := 0, dst := 0, geom := g 1 },
    { ty := 10, src := 0, dst := 0, geom := g 2 },
    { ty := 11, src := 0, dst := 0, geom := g 0 },
    { ty := 11, src := 0, dst := 0, geom := g 1 },
    { ty := 12, src := 0, dst := 0 },
    { ty := 14, src := 0, dst := 0 },
    { ty := 15, src := 0, dst := 0, payload := [1, 0, 0, 0] },
    { ty := 15, src := 0, dst := 0, payload := [1, 0, 0, 0, 0] },
    { ty := 16, src := 0, dst := 0, addr := 4096 },
    { ty := 17, src := 0, dst := 0, addr := 4096 },
    { ty := 18, src := 0, dst := 0 },
    { ty := 19, src := 0, dst := 0 },
    { ty := 20, src := 0, dst := 0 },
    { ty := 21, src := 0, dst := 0 },
    { ty := 22, src := 0, dst := 0 },
    { ty := 23, src := 0, dst := 0 },
    { ty := 25, src := 0, dst := 0, spdm := some { exchange := 0, valid := true, domain := 0, rack := 0 } }]
  l.map (tPk s)

/-- The small state with port 20 up, and pool 9 of the device the relay pool. -/
def tRelay : State :=
  let s := setEnt (tFab tS) 0x270101 9
  { s with
    fab := { s.fab with ports := tput s.fab.ports 20 { portOf s 20 with state := 3, lanes := 255 } }
    pools := { pools := [(9, { desc := fld 1 166 1 + fld 4 176 24 + fld 10 156 5 + fld (2 ^ 38) 0 39, state := 1, free := 4, cache := [0, 1] })] } }
def tRelayed (s : State) : Packet :=
  let p : Packet := { ty := 0x0A, src := 5, dst := ownDev s + 1, owner := 1, flags := 4, eth := true, srcRack := ownRack s + 1, dstRack := ownRack s }
  { p with crc := pkCrc p }

theorem test_hyps_DoorbellsMoveTheQueue :
    (let x : Queue := ({ tQ [] with consumed := 2, posted := 4 } : Queue); let s : State := { tS with queues := [(16, x)] }; let v := 16 * 2 ^ 32 + 3; deviceServes s = true ∧ bits v 52 11 = 0 ∧ doorbellOwner s 0 (bits v 32 20) = true ∧ queueOf s (bits v 32 20) = some x ∧ bit v 63 = false) ∧
    (let x : Queue := ({ tQ [] with consumed := 2, posted := 4 } : Queue); let s : State := { tS with queues := [(16, x)] }; let v := 2 ^ 63 + 16 * 2 ^ 32 + 3; deviceServes s = true ∧ bits v 52 11 = 0 ∧ doorbellOwner s 0 (bits v 32 20) = true ∧ queueOf s (bits v 32 20) = some x ∧ bit v 63 = true ∧ extend32 x.consumed (bits v 0 32) + 1 ≤ x.posted) := by decide +kernel

theorem test_hyps_DoorbellsDiscarded :
    (deviceServes tS = true ∧ (4 ≠ 8)) ∧
    (deviceServes tS = true ∧ bits (2 ^ 52) 52 11 ≠ 0 ∧ bit (2 ^ 52) 63 = false) ∧
    (deviceServes tS = true ∧ bits (2 ^ 63 + 2 ^ 62) 52 11 ≠ 0 ∧ bit (2 ^ 63 + 2 ^ 62) 63 = true) ∧
    (let v := 16 * 2 ^ 32; deviceServes tS = true ∧ bits v 52 11 = 0 ∧ doorbellOwner tS 3 (bits v 32 20) = false ∧ bit v 63 = false) := by decide +kernel

theorem test_hyps_DescriptorsAreReadAndAccepted :
    (let x : Queue := ({ tQ [] with nextSeq := 3, reading := true, target := 3 } : Queue); let s : State := { tS with queues := [(16, x)] }; let b := natLe 128 (fld 3 448 64 + 2); queueOf s 16 = some x ∧ x.reading = true ∧ nextSlot x ≤ x.target ∧ deviceServes s = true ∧ journalRoom s x.partition = true ∧ bit x.ctx 277 = false ∧ b.length = 128 ∧ slotSeqOk x (leNat (b.take 64)) (nextSlot x) = true) ∧
    (let x : Queue := ({ tQ [] with nextSeq := 0, journalled := [tOp 0xD 0] } : Queue); let s : State := { tS with queues := [(16, x)] }; queueOf s 16 = some x ∧ x.journalled = [tOp 0xD 0] ∧ journalAccepts s = true ∧ deviceServes s = true ∧ ownerState s (qOwner x) ≠ .resetting) ∧
    (let x : Queue := ({ tQ [] with watermarkDue := true } : Queue); let s : State := { tS with queues := [(16, x)] }; queueOf s 16 = some x ∧ x.watermarkDue = true ∧ s.host.up = true) := by decide +kernel

theorem test_hyps_HeldMessagesAndVectors :
    (let x : Queue := ({ tQ [] with ctx := fld 2 272 2 + fld 1 288 12 + fld 6 278 5, held := [⟨5, true⟩] } : Queue); let s : State := { tS with queues := [(16, x)] }; queueOf s 16 = some x ∧ x.held = [⟨5, true⟩] ∧ ringSpace x = true ∧ (true && msgFrozen s x) = false) ∧
    (let x : Queue := ({ tQ [] with holdoff := true } : Queue); let s : State := { tS with queues := [(16, x)] }; queueOf s 16 = some x ∧ (ownerRec s (qOwner x)).ringHoldoff = false ∧ x.signalDue = false) ∧
    (let x : Queue := ({ tQ [] with ctx := fld 2 272 2 + fld 1 288 12 + fld 1 260 1, holdoff := true, signalDue := true } : Queue); let s : State := { tS with queues := [(16, x)] }; queueOf s 16 = some x ∧ (ownerRec s (qOwner x)).ringHoldoff = false ∧ x.signalDue = true ∧ queueVector s x = true ∧ s.host.up = true) := by decide +kernel

theorem test_hyps_JournalRetiresAndIsMirrored :
    (let x : Queue := ({ tQ [] with ops := [{ tOp 0xD 0 with progress := .completed }, { tOp 0xD 0 with seq := 1 }] } : Queue); let s : State := { tS with queues := [(16, x)] }; queueOf s 16 = some x ∧ s.host.up = true ∧ x.ops.any (fun o => o.progress == .completed && !recordHeld x o) = true) ∧
    (({ tS with host := { journalCopyTo := some 2, journalState := 2 } } : State).host.journalCopyTo = some 2) := by decide +kernel

theorem test_hyps_HeadStartsWhen :
    (let o := tOp 6 (fld 4 504 8 + sy 1 3 0); let x := tQ [o]; let s : State := { tS with queues := [(16, x)] }; queueOf s 16 = some x ∧ qHead x = some o ∧ o.progress = .accepted ∧ o.rerun = false ∧ deviceServes s = true ∧ ownerState s (qOwner x) = .active ∧ ent s 0x200703 = 0 ∧ partResetting s x.partition = false ∧ descCheck (qVersion x) o.hdr o.body = none ∧ (headOf x o).gated = false ∧ (headOf x o).twoPhase = false ∧ (headOf x o).touched = false ∧ subopOf o.body = 4 ∧ (∀ f ∈ heldNeeds (headOf x o).opcode, frondState s f ≠ .failed) ∧ memoryOp (headOf x o).opcode = false) ∧
    (let o := tOp 2 0; let x := tQ [o]; let s : State := { tS with queues := [(16, x)] }; queueOf s 16 = some x ∧ qHead x = some o ∧ o.progress = .accepted ∧ o.rerun = false ∧ deviceServes s = true ∧ ownerState s (qOwner x) = .active ∧ ent s 0x200703 = 0 ∧ partResetting s x.partition = false ∧ descCheck (qVersion x) o.hdr o.body = none ∧ (headOf x o).gated = false ∧ (headOf x o).twoPhase = false ∧ (headOf x o).touched = false ∧ (∀ f ∈ heldNeeds (headOf x o).opcode, frondState s f ≠ .failed) ∧ memoryOp (headOf x o).opcode = true ∧ homeHeld s o.owner = false) := by decide +kernel

theorem test_hyps_QueueAdministration :
    (goes (startHead (withOp tS 0x0D 0) 16 0x0D 0 .ready) (fun _ _ h _ => decide (h.opcode = 13)) = true) ∧
    (goes (startHead (withOp tS 0x0E (fld 17 300 20 + fld 1 288 12 + fld 6 283 5 + fld 6 278 5 + fld 3 272 2 + fld 64 320 64)) 16 0x0E 0 .ready) (fun _ o _ t => decide (onAdmin t 16 o = true ∧ contextBad t o.owner o.body = none ∧ bits o.body 300 20 ≠ 16)) = true) ∧
    (goes (startHead ({ tS with queues := [(16, tQ [tOp 0x0F (fld 17 492 20)]), (17, tQ [])] }) 16 0x0F 0 .ready) (fun _ o _ t => decide (onAdmin t 16 o = true ∧ bits o.body 492 20 ≠ 16 ∧ queueOf { tS with queues := [(16, tQ [tOp 0x0F (fld 17 492 20)]), (17, tQ [])] } (bits o.body 492 20) = some (tQ []) ∧ qOwner (tQ []) = o.owner ∧ qHead (tQ []) = none ∧ tsorted [(16, tQ [tOp 0x0F (fld 17 492 20)]), (17, tQ [])] = true)) = true) ∧
    (goes (startHead (withOp tS 0x10 (fld 17 492 20 + fld 4096 452 40)) 16 0x10 0 .ready) (fun _ o _ t => decide (ptrOk t o.owner (bits o.body 452 40) 64 .write = true)) = true) := by decide +kernel

theorem test_hyps_FlagAndCounterOperations :
    (goes (startHead (withOp (tObj tS 1 63 tReady) 6 (fld 4 504 8 + sy 1 63 (0))) 16 6 4 .ready) (fun x o _ t => decide (syLocal t (syDevice o.body) = true ∧ objIn t x.partition (syKind o.body) (syIndex o.body) = true ∧ t.syu.watches.all (fun w => wsKey w.2.spec != syKey o.body) = true ∧ (objOf t (syKey o.body)).state = 1 ∧ syBad 4 o.body = none)) = true) ∧
    (goes (startHead (withOp (tObj tS 1 0 tReady) 6 (fld 5 504 8 + sy 1 0 (0))) 16 6 5 .ready) (fun x o _ t => decide (syLocal t (syDevice o.body) = true ∧ objIn t x.partition (syKind o.body) (syIndex o.body) = true ∧ t.syu.watches.all (fun w => wsKey w.2.spec != syKey o.body) = true ∧ (objOf t (syKey o.body)).state = 1 ∧ syBad 5 o.body = none)) = true) ∧
    (goes (startHead (withOp (tObj tS 2 3 tReady) 6 (fld 6 504 8 + sy 2 3 (2 ^ 64 - 5))) 16 6 6 .ready) (fun x o _ t => decide (syLocal t (syDevice o.body) = true ∧ objIn t x.partition (syKind o.body) (syIndex o.body) = true ∧ t.syu.watches.all (fun w => wsKey w.2.spec != syKey o.body) = true ∧ (objOf t (syKey o.body)).state = 1 ∧ syBad 6 o.body = none ∧ ((objOf t (syKey o.body)).value : Int) + toSigned 64 (syArg o.body) = 0)) = true) ∧
    (goes (startHead (withOp (tObj tS 2 3 { tReady with value := 2 ^ 63 }) 6 (fld 6 504 8 + sy 2 3 (2 ^ 63 - 1))) 16 6 6 .ready) (fun x o _ t => decide (syLocal t (syDevice o.body) = true ∧ objIn t x.partition (syKind o.body) (syIndex o.body) = true ∧ t.syu.watches.all (fun w => wsKey w.2.spec != syKey o.body) = true ∧ (objOf t (syKey o.body)).state = 1 ∧ syBad 6 o.body = none ∧ ((objOf t (syKey o.body)).value : Int) + toSigned 64 (syArg o.body) = (2 ^ 64 - 1 : Nat))) = true) ∧
    (goes (startHead (withOp (tObj tS 2 3 tReady) 6 (fld 7 504 8 + sy 2 3 (2 ^ 64 - 1))) 16 6 7 .ready) (fun x o _ t => decide (syLocal t (syDevice o.body) = true ∧ objIn t x.partition (syKind o.body) (syIndex o.body) = true ∧ t.syu.watches.all (fun w => wsKey w.2.spec != syKey o.body) = true ∧ (objOf t (syKey o.body)).state = 1 ∧ syBad 7 o.body = none)) = true) ∧
    (goes (startHead (withOp (tObj tS 1 3 { tReady with state := 2 }) 6 (fld 4 504 8 + sy 1 3 (7))) 16 6 4 .ready) (fun x o _ t => decide (syLocal t (syDevice o.body) = true ∧ objIn t x.partition (syKind o.body) (syIndex o.body) = true ∧ t.syu.watches.all (fun w => wsKey w.2.spec != syKey o.body) = true ∧ (objOf t (syKey o.body)).state = 2 ∧ syBad 4 o.body = none)) = true) ∧
    (goes (startHead (withOp (tObj tS 1 3 { tReady with state := 3 }) 6 (fld 5 504 8 + sy 1 3 (7))) 16 6 5 .ready) (fun x o _ t => decide (syLocal t (syDevice o.body) = true ∧ objIn t x.partition (syKind o.body) (syIndex o.body) = true ∧ t.syu.watches.all (fun w => wsKey w.2.spec != syKey o.body) = true ∧ (objOf t (syKey o.body)).state = 3 ∧ syBad 5 o.body = none)) = true) ∧
    (goes (startHead (withOp (tObj tS 2 3 { tReady with state := 2 }) 6 (fld 6 504 8 + sy 2 3 (7))) 16 6 6 .ready) (fun x o _ t => decide (syLocal t (syDevice o.body) = true ∧ objIn t x.partition (syKind o.body) (syIndex o.body) = true ∧ t.syu.watches.all (fun w => wsKey w.2.spec != syKey o.body) = true ∧ (objOf t (syKey o.body)).state = 2 ∧ syBad 6 o.body = none)) = true) ∧
    (goes (startHead (withOp (tObj tS 2 3 { tReady with state := 3 }) 6 (fld 7 504 8 + sy 2 3 (7))) 16 6 7 .ready) (fun x o _ t => decide (syLocal t (syDevice o.body) = true ∧ objIn t x.partition (syKind o.body) (syIndex o.body) = true ∧ t.syu.watches.all (fun w => wsKey w.2.spec != syKey o.body) = true ∧ (objOf t (syKey o.body)).state = 3 ∧ syBad 7 o.body = none)) = true) := by decide +kernel

theorem test_hyps_ObjectsInitialisedAndFreed :
    (goes (startHead (withOp (tObj tS 0 5 {}) 6 (fld 1 504 8 + sy 0 5 (0x10003))) 16 6 1 .ready) (fun x o _ t => decide (syLocal t (syDevice o.body) = true ∧ objIn t x.partition (syKind o.body) (syIndex o.body) = true ∧ t.syu.watches.all (fun w => wsKey w.2.spec != syKey o.body) = true ∧ (objOf t (syKey o.body)).frozen = false ∧ syBad 1 o.body = none ∧ stepPart t (syKey o.body) = none ∧ (objOf t (syKey o.body)).state = 0)) = true) ∧
    (goes (startHead (withOp (tObj tS 1 5 { tReady with owner := 9, state := 3 }) 6 (fld 1 504 8 + sy 1 5 (3))) 16 6 1 .ready) (fun x o _ t => decide (syLocal t (syDevice o.body) = true ∧ objIn t x.partition (syKind o.body) (syIndex o.body) = true ∧ t.syu.watches.all (fun w => wsKey w.2.spec != syKey o.body) = true ∧ (objOf t (syKey o.body)).frozen = false ∧ syBad 1 o.body = none ∧ stepPart t (syKey o.body) = none ∧ (objOf t (syKey o.body)).state = 3)) = true) ∧
    (goes (startHead (withOp (tObj tS 2 5 tReady) 6 (fld 1 504 8 + sy 2 5 (2^64-1))) 16 6 1 .ready) (fun x o _ t => decide (syLocal t (syDevice o.body) = true ∧ objIn t x.partition (syKind o.body) (syIndex o.body) = true ∧ t.syu.watches.all (fun w => wsKey w.2.spec != syKey o.body) = true ∧ (objOf t (syKey o.body)).frozen = false ∧ syBad 1 o.body = none ∧ stepPart t (syKey o.body) = none ∧ (objOf t (syKey o.body)).owner = o.owner ∧ (objOf t (syKey o.body)).epoch = o.epoch)) = true) ∧
    (goes (startHead (withOp (tObj tS 2 5 tReady) 6 (fld 2 504 8 + sy 2 5 (0))) 16 6 2 .ready) (fun x o _ t => decide (syLocal t (syDevice o.body) = true ∧ objIn t x.partition (syKind o.body) (syIndex o.body) = true ∧ t.syu.watches.all (fun w => wsKey w.2.spec != syKey o.body) = true ∧ (objOf t (syKey o.body)).frozen = false ∧ syBad 2 o.body = none ∧ tsorted t.syu.objs = true ∧ (objOf t (syKey o.body)).state ≠ 0 ∧ (objOf t (syKey o.body)).owner = o.owner ∧ (objOf t (syKey o.body)).epoch = o.epoch ∧ watchCount t (syKey o.body) = 0 ∧ pendingSignals t (syKey o.body) = 0)) = true) := by decide +kernel

theorem test_hyps_BarrierArrivals :
    (goes (startHead (withOp (tObj tS 0 5 { state := 1, owner := 1, participants := 3, arrived := 1, phase := 65535, reduce := true }) 6 (fld 3 504 8 + sy 0 5 (0xFFFF0001))) 16 6 3 .ready) (fun x o _ t => decide (syLocal t (syDevice o.body) = true ∧ objIn t x.partition (syKind o.body) (syIndex o.body) = true ∧ t.syu.watches.all (fun w => wsKey w.2.spec != syKey o.body) = true ∧ syBad 3 o.body = none ∧ stepPart t (syKey o.body) = none ∧ (objOf t (syKey o.body)).state = 1 ∧ bits (syArg o.body) 16 16 = (objOf t (syKey o.body)).phase ∧ (objOf t (syKey o.body)).arrived + bits (syArg o.body) 0 16 < (objOf t (syKey o.body)).participants)) = true) ∧
    (goes (startHead (withOp (tObj tS 0 5 { state := 1, owner := 1, participants := 3, arrived := 1, phase := 65535, reduce := true }) 6 (fld 3 504 8 + sy 0 5 (0x1FFFF0002))) 16 6 3 .ready) (fun x o _ t => decide (syLocal t (syDevice o.body) = true ∧ objIn t x.partition (syKind o.body) (syIndex o.body) = true ∧ t.syu.watches.all (fun w => wsKey w.2.spec != syKey o.body) = true ∧ syBad 3 o.body = none ∧ stepPart t (syKey o.body) = none ∧ (objOf t (syKey o.body)).state = 1 ∧ bits (syArg o.body) 16 16 = (objOf t (syKey o.body)).phase ∧ (objOf t (syKey o.body)).arrived + bits (syArg o.body) 0 16 = (objOf t (syKey o.body)).participants)) = true) := by decide +kernel

theorem test_hyps_WatchesRegisteredAndRemoved :
    (goes (startHead (tMem (withOp (tObj tS 2 3 tReady) 6 (fld 8 504 8 + fld 4096 368 40)) 4096 (natLe 32 (ws 3 2 3 9))) 16 6 8 .ready) (fun x o _ t => decide ((sySpec t o).any (fun w => wsBad w == none && syLocal t (wsDevice w) && objIn t x.partition (wsKind w) (wsIndex w) && decide (queueInstance t (wsQueue w) = some (o.owner, o.epoch) ∧ quotaUsed t x.partition < pEnt t 0x3028 7 x.partition ∧ wsReason w (objOf t (wsKey w)) = 0)) = true)) = true) ∧
    (goes (startHead ({ withOp tS 6 (fld 9 504 8 + sy 0 0 4) with syu := { watches := [(3, ⟨ws 3 2 3 9, .queue 16 1 0, 0⟩), (4, ⟨ws 3 2 3 9, .queue 16 1 0, 0⟩)] } }) 16 6 9 .ready) (fun _ o _ t => decide (syLocal t (syDevice o.body) = true ∧ tsorted t.syu.watches = true ∧ tget? t.syu.watches (syArg o.body % 2 ^ 20) = some (Watch.mk (ws 3 2 3 9) (.queue 16 o.owner 0) 0))) = true) := by decide +kernel

theorem test_hyps_ReadsTasksAndWaits :
    (goes (startHead (withOp (tObj tS 1 3 tReady) 6 (fld 10 504 8 + sy 1 3 0 + fld 4096 368 40)) 16 6 10 .ready) (fun x o _ t => decide (ptrOk t o.owner (syPtr o.body) (objWordBytes (syKey o.body)) .write = true ∧ syKind o.body ≠ 3 ∧ syLocal t (syDevice o.body) = true ∧ objIn t x.partition (syKind o.body) (syIndex o.body) = true)) = true) ∧
    (goes (startHead (withOp (tObj tS 2 3 tReady) 6 (fld 10 504 8 + sy 2 3 0 + fld 4096 368 40)) 16 6 10 .ready) (fun x o _ t => decide (ptrOk t o.owner (syPtr o.body) (objWordBytes (syKey o.body)) .write = true ∧ syKind o.body ≠ 3 ∧ syLocal t (syDevice o.body) = true ∧ objIn t x.partition (syKind o.body) (syIndex o.body) = true)) = true) ∧
    (goes (startHead (tMem (withOp (tObj tS 2 3 tReady) 6 (fld 11 504 8 + fld 4096 368 40 + fld 1 356 12)) 4096 (natLe 4 (objKey 2 3) ++ natLe 4 (objKey 0 4))) 16 6 11 .ready) (fun x o _ t => decide (syCount o.body ≤ 1024 ∧ ptrOk t o.owner (syPtr o.body) (4 * syCount o.body) .read = true ∧ poisonAt t (syPtr o.body) (4 * syCount o.body) = false ∧ taskBad t x.partition (taskList t o (syCount o.body)) = none ∧ thas t.syu.tasks 16 = false ∧ t.syu.tasks.length < 4096)) = true) ∧
    (goes (startHead ({ withOp tS 6 (fld 12 504 8) with syu := { tasks := [(16, ⟨1, 0, [(objKey 2 3, 0)]⟩)] } }) 16 6 12 .ready) (fun _ _ _ t => decide (tsorted t.syu.tasks = true ∧ tget? t.syu.tasks 16 = some (Machine.Task.mk 1 0 [(objKey 2 3, 0)]) ∧ taskState t (objKey 2 3) = 0)) = true) ∧
    (goes (startHead (tMem (withOp (tObj tS 2 3 tReady) 6 (fld 13 504 8 + fld 4096 368 40)) 4096 (natLe 32 (ws 3 2 3 5))) 16 6 13 .ready) (fun x o _ t => decide ((sySpec t o).any (fun w => wsBad w == none && syLocal t (wsDevice w) && objIn t x.partition (wsKind w) (wsIndex w) && wsReason w (objOf t (wsKey w)) == 1 && !watchesHeld t (wsKey w) && tsorted t.syu.ended && goingHead (withOp tS 6 0) 16 6 == none) = true)) = true) := by decide +kernel

theorem test_hyps_DeadlockDetectorSamples :
    (ent (setEnt tS 0x2A0101 0) 0x2A0101 = 0) ∧
    (let s : State := setEnt tS 0x2A0101 1; ent s 0x2A0101 ≠ 0 ∧ stalledHeads s 1 = none ∧ tsorted s.syu.stalls = true) := by decide +kernel

theorem test_hyps_OwnerCommands :
    (let s : State := { tS with
      owners := tput tS.owners 2 { entry := fld 2 96 12 + fld 18 40 20 + fld 9 60 20 }
      mc := { tS.mc with keys := tput tS.mc.keys 2 ⟨true, 1, 2⟩ }
      host := { adminCtxs := [(18, fld 18 300 20 + fld 2 288 12 + fld 6 283 5 + fld 6 278 5 + fld 3 272 2)] }
      dict := (setEnt (setEnt tS 0x210201 2) 0x210301 18).dict }; let v : List Nat := [1]; hostWrites s 0x210203 v = true ∧ (adminContext s).isSome = true) ∧
    (let s : State := { setEnt tS 0x210201 1 with queues := [(16, tQ [])], syu := { objs := [(objKey 1 3, tReady), (objKey 2 3, { tReady with owner := 9 })] } }; let v : List Nat := [2]; hostWrites s 0x210203 v = true) ∧
    (let s : State := { setEnt tS 0x210201 1 with queues := [(16, tQ [])], syu := { objs := [(objKey 1 3, tReady), (objKey 2 3, { tReady with owner := 9 })] }, owners := [(1, { state := .preempted })] }; let v : List Nat := [3]; hostWrites s 0x210203 v = true ∧ (∀ x ∈ s.queues, qOwner x.2 = selOwner s → x.2.held = []) ∧ tsorted s.queues = true) ∧
    (let s : State := { setEnt tS 0x210201 1 with syu := { objs := [(objKey 1 3, tReady), (objKey 2 3, { tReady with owner := 9 })] } }; let v : List Nat := [4]; hostWrites s 0x210203 v = true ∧ ownerState s (selOwner s) ≠ .resetting ∧ s.resets = [] ∧ (∀ x ∈ s.queues, qOwner x.2 ≠ selOwner s) ∧ s.fab.trusted = [] ∧ s.fab.slots = [] ∧ s.fab.lines = [] ∧ s.fab.dir = [] ∧ s.syu.watches = [] ∧ s.syu.tasks = [] ∧ tsorted s.syu.objs = true) ∧
    (let s : State := { setEnt tS 0x210201 1 with queues := [(16, tQ [])], syu := { objs := [(objKey 1 3, tReady), (objKey 2 3, { tReady with owner := 9 })] }, mc := {} }; let v : List Nat := [5]; hostWrites s 0x210203 v = true) := by decide +kernel

theorem test_hyps_WindowsKeysAndRings :
    (let s : State := { setEnt (setEnt tS 0x280401 10) 0x300802 64 with owners := [(1, { state := .active, entry := fld 1 96 12 })] }; let v : List Nat := natLe 16 (fld 1 96 12 + fld 1 95 1 + fld 7 91 3 + fld (2 ^ 36) 39 39); hostWrites s 0x280402 v = true ∧ (lwValid (tgetD s.mc.windows (selWindow s) 0) && lwTile (tgetD s.mc.windows (selWindow s) 0)) = false) ∧
    (let s : State := setEnt tS 0x2B0401 3; let v : List Nat := natLe 32 (fld 1 184 1 + fld 8192 39 39 + fld 1 182 1); hostWrites s 0x2B0402 v = true) ∧
    (let s : State := setEnt tS 0x280501 5; let v : List Nat := [1]; hostWrites s 0x280502 v = true) ∧
    (let s : State := setEnt tS 0x280501 5; let v : List Nat := [2]; hostWrites s 0x280502 v = true) ∧
    (let s : State := setEnt tS 0x2D0201 1; let v : List Nat := natLe 32 (1 + fld 6 10 5 + fld 4096 128 64); hostWrites s 0x2D0202 v = true ∧ bit (leNat v) 0 = true ∧ s.host.up = true) := by decide +kernel

theorem test_hyps_RepairsAndMaintenanceOfStacks :
    (let s : State := tSvc; let v : List Nat := natLe 8 (fld 1 56 8 + fld 3 27 14); hostWrites s 0x280606 v = true ∧ rqKind (leNat v) = 1) ∧
    (let s : State := (setEnt (setEnt tSvc 0x200703 1) 0x280601 2); let v : List Nat := natLe 8 (fld 2 56 8 + fld 2 53 3); hostWrites s 0x280606 v = true ∧ rqKind (leNat v) = 2) ∧
    (let s : State := (setEnt (setEnt tSvc 0x200703 1) 0x280601 7); let v : List Nat := natLe 8 (fld 3 56 8 + fld 7 53 3 + fld 31 21 6); hostWrites s 0x280606 v = true ∧ rqKind (leNat v) = 3) ∧
    (let s : State := (setEnt (setEnt tSvc 0x200703 1) 0x280601 255); let v : List Nat := [7]; hostWrites s 0x280601 v = true ∧ leNat v ≤ 7 ∧ ent s 0x280601 = 0xFF) ∧
    (let s : State := (setEnt (setEnt tSvc 0x200703 1) 0x280601 7); let v : List Nat := [0xFF]; hostWrites s 0x280601 v = true ∧ leNat v = 0xFF ∧ ent s 0x280601 ≠ 0xFF) ∧
    (let s : State := (setEnt (setEnt tSvc 0x200703 1) 0x280601 7); let v : List Nat := [1]; hostWrites s 0x280604 v = true) := by decide +kernel

theorem test_hyps_PoolPortAndSelfTestCommands :
    (let s : State := { tS with pools := { pools := [(0, { desc := fld 64 176 24 + fld 8 156 5 + fld 4 200 24, state := 0, gen := 65535, held := 0 })] } }; let v : List Nat := [1]; hostWrites s 0x290103 v = true) ∧
    (let s : State := { tS with pools := { pools := [(0, { desc := fld 64 176 24 + fld 8 156 5 + fld 4 200 24, state := 2, gen := 65535, held := 0 })] } }; let v : List Nat := [2]; hostWrites s 0x290103 v = true) ∧
    (let s : State := { tS with pools := { pools := [(0, { desc := fld 64 176 24 + fld 8 156 5 + fld 4 200 24, state := 1, gen := 65535, held := 3 })] } }; let v : List Nat := [3]; hostWrites s 0x290103 v = true) ∧
    (let s : State := { setEnt tSvc 0x220501 6 with units := { bandFaults := 64 } }; let v : List Nat := [1]; hostWrites s 0x220502 v = true) ∧
    (let s : State := setEnt tS 0x2B0101 18; let v : List Nat := [0]; hostWrites s 0x2B0108 v = true ∧ s.fab.flows = [] ∧ tsorted s.fronds.st = true) ∧
    (let s : State := { setEnt tS 0x2B0101 0 with fab := { ports := [(0, { enable := false })] } }; let v : List Nat := [1]; hostWrites s 0x2B0108 v = true ∧ s.resets = [] ∧ (portOf s (selPort s)).state ∈ [0, 2, 6] ∧ (∀ f ∈ portFronds (selPort s), frondState s f = .on)) := by decide +kernel

theorem test_hyps_ServiceSessions :
    (let s : State := tS; let v : List Nat := []; hostReaches s 3 0 v = true ∧ s.th.session = none) ∧
    (let s : State := tSvc; let v : List Nat := []; hostReaches s 3 0 v = true ∧ s.th.session.isSome = true) ∧
    (let s : State := tSvc; let v : List Nat := []; hostReaches s 4 0 v = true ∧ s.th.session.isSome = true) ∧
    (let s : State := { tS with th := { tS.th with nonceHost := some 5 }, dict := [(0x200201, .bytes [1])] }; let v : List Nat := []; hostReaches s 4 0 v = true ∧ s.th.session = none ∧ (nonceOf s .host).isSome = true ∧ (Proof.mk [1] (some 5)).nonce = nonceOf s .host ∧ (Proof.mk [1] (some 5)).root = serviceRoot s) ∧
    (let s : State := { tS with th := { tS.th with nonceHost := some 5 }, dict := [(0x200201, .bytes [1])] }; let v : List Nat := []; hostReaches s 4 0 v = true ∧ s.th.session = none ∧ (Proof.mk [1] (some 6)).nonce ≠ nonceOf s .host) ∧
    (let s : State := tSvc; let v : List Nat := []; hostReaches s 5 0 v = true ∧ inService s .host = true) ∧
    (let s : State := { tS with th := { tS.th with session := some (.field 3 4) } }; let v : List Nat := []; hostReaches s 5 0 v = true ∧ inService s .host = false) := by decide +kernel

theorem test_hyps_FirmwareUpdate :
    (let s : State := tSvc; let v : List Nat := [1]; hostWrites s 0x200006 v = true) ∧
    (let s : State := { tSvc with th := { tSvc.th with fw1 := { erased := true, bytes := [9] } } }; let v : List Nat := [1, 2, 3]; hostWrites s 0x200005 v = true) ∧
    (let s : State := { tSvc with th := { tSvc.th with fw1 := { erased := true, bytes := [9] } } }; let v : List Nat := [2]; hostWrites s 0x200006 v = true) := by decide +kernel

theorem test_hyps_ResetRequestsAndHolds :
    (let s : State := { tS with fab := { ports := [(18, { state := 3, lanes := 2 ^ 32 - 1 })] } }; let v : List Nat := natLe 4 (fld 1 28 4 + 18 * 32 + 31); hostWrites s 0x2D0401 v = true ∧ rrLevel (leNat v) = 1 ∧ s.resets = [] ∧ portUp s (rrTarget (leNat v) / 32) = true ∧ bit (portOf s (rrTarget (leNat v) / 32)).lanes (rrTarget (leNat v) % 32) = true ∧ portMinLanes s (rrTarget (leNat v) / 32) < popCount (portOf s (rrTarget (leNat v) / 32)).lanes 32) ∧
    (let s : State := tS; let v : List Nat := natLe 4 (fld 2 28 4 + 20); hostWrites s 0x2D0401 v = true ∧ rrLevel (leNat v) = 2 ∧ s.resets = [] ∧ s.fab.flows = [] ∧ (portOf s (rrTarget (leNat v))).enable = true) ∧
    (let s : State := tSvc; let v : List Nat := natLe 4 (fld 3 28 4 + 775); hostWrites s 0x2D0401 v = true ∧ rrLevel (leNat v) = 3 ∧ s.resets = [] ∧ rrTarget (leNat v) / 256 = 3 ∧ rrTarget (leNat v) % 256 = 7 ∧ copyOf s 7 = none) ∧
    (let s : State := tSvc; let v : List Nat := natLe 4 (fld 3 28 4 + 1055); hostWrites s 0x2D0401 v = true ∧ rrLevel (leNat v) = 3 ∧ s.resets = [] ∧ rrTarget (leNat v) / 256 = 4 ∧ rrTarget (leNat v) % 256 = 31 ∧ vcHolder s = none) ∧
    (let s : State := tSvc; let v : List Nat := natLe 4 (fld 3 28 4 + 2048); hostWrites s 0x2D0401 v = true ∧ rrLevel (leNat v) = 3 ∧ s.resets = [] ∧ rrTarget (leNat v) / 256 = 8 ∧ rrTarget (leNat v) % 256 = 0 ∧ cardsOf s false = []) ∧
    (let s : State := tSvc; let v : List Nat := natLe 4 (fld 3 28 4 + 2304); hostWrites s 0x2D0401 v = true ∧ rrLevel (leNat v) = 3 ∧ s.resets = [] ∧ rrTarget (leNat v) / 256 = 9 ∧ rrTarget (leNat v) % 256 = 0 ∧ cardsOf s true = []) ∧
    (let s : State := setEnt tS 0x300804 2; let v : List Nat := natLe 4 (fld 5 28 4 + 0); hostWrites s 0x2D0401 v = true ∧ rrLevel (leNat v) = 5 ∧ s.resets = [] ∧ s.queues = [] ∧ s.pools.pools = [] ∧ s.syu = {} ∧ s.shadow = [] ∧ Memory.wf s.mem = true ∧ (partRange s (rrTarget (leNat v)) true).2 ≤ 2 ^ 39) ∧
    (let s : State := tSvc; let v : List Nat := [0]; hostWrites s 0x2D0402 v = true) ∧
    (let s : State := tSvc; let v : List Nat := [1]; hostWrites s 0x200703 v = true) ∧
    (let s : State := tSvc; let v : List Nat := [0]; hostWrites s 0x200703 v = true) ∧
    (let s : State := tS; let v : List Nat := [1]; hostWrites s 0x200A02 v = true) ∧
    (let s : State := { tS with power := { removal := 1 } }; let v : List Nat := [3]; hostWrites s 0x200A02 v = true) := by decide +kernel

theorem test_hyps_DeviceResetsAndRemoval :
    (let s : State := tSvc; let v : List Nat := [1]; hostWrites s 0x2D0402 v = true ∧ s.power.railState = 2 ∧ s.startup.main = none ∧ (∀ x ∈ s.resets, x.level < 6)) ∧
    (let s : State := tSvc; let v : List Nat := [2]; hostWrites s 0x2D0402 v = true ∧ s.power.domain = true ∧ (s.startup.main = none)) ∧
    (let s : State := { tS with power := { removal := 1 }, owners := [] }; let v : List Nat := [2]; hostWrites s 0x200A02 v = true ∧ railsOn s = true) := by decide +kernel

theorem test_hyps_ReadsAndWritesAreAnswered :
    (let s : State := tS; hostReaches s 1 0x210103 [] = true ∧ indexKnown 0x2101 = true ∧ (specOf 0x210103).any (fun e => decide (e.acc ≠ .wo) && (readBytes (tookIn s 1 0x210103 []) 0x210103 e false).isSome) = true) ∧
    (let s : State := tS; let f := fieldFrame 0x200701; let p := parsePdu f.data; fieldHears s = true ∧ f.fd = true ∧ f.ext = true ∧ filterCheck s f p = none ∧ servesPdu s p = true ∧
      pdSegmented p = false ∧ authBad (countFrame s 3) 3 p = none ∧ frSrc f = 3 ∧ inTransfer (countFrame s 3) 3 = false ∧ pdOp p = 1 ∧
      indexKnown (pdIndex p) = true ∧ pdKey p = 0x200701 ∧ hostOnly 0x200701 = false ∧
      (specOf 0x200701).any (fun e => decide (e.acc ≠ .wo) && (readBytes (countFrame s 3) 0x200701 e false).isSome) = true) ∧
    (let s : State := tS; let v : List Nat := [9, 0, 0, 0]; hostWrites s 0x300007 v = true ∧ (specOf 0x300007).any (fun e => decide (rowId 0x300007 (leNat v) = 0 ∧ e.eff = .immediate ∧ e.stored = false)) = true) ∧
    (let s : State := tSvc; let v : List Nat := [0x30, 1, 0]; hostWrites s 0x200201 v = true ∧ (specOf 0x200201).any (fun e => decide (rowId 0x200201 (leNat v) = 0 ∧ e.eff = .immediate ∧ e.stored = true)) = true) := by decide +kernel

theorem test_hyps_WriteChecksInOrder :
    (let s : State := tS; let v : List Nat := [0]; hostReaches s 2 0x7FFF01 v = true ∧ rowId 0x7FFF01 (leNat v) = 0 ∧ indexKnown 0x7FFF = false) ∧
    (let s : State := tS; let v : List Nat := [0]; hostReaches s 2 0x2101FF v = true ∧ rowId 0x2101FF (leNat v) = 0 ∧ indexKnown 0x2101 = true ∧ specOf 0x2101FF = none) ∧
    (let s : State := tS; let v : List Nat := [0]; hostReaches s 2 0x200701 v = true ∧ rowId 0x200701 (leNat v) = 0 ∧ indexKnown (0x200701 / 256) = true ∧ (specOf 0x200701).any (fun e => writeStatus (tookIn s 2 0x200701 v) .host 0x200701 e v == 3) = true) ∧
    (let s : State := tS; let v : List Nat := [0]; hostReaches s 2 0x220201 v = true ∧ rowId 0x220201 (leNat v) = 0 ∧ indexKnown (0x220201 / 256) = true ∧ (specOf 0x220201).any (fun e => writeStatus (tookIn s 2 0x220201 v) .host 0x220201 e v == 6) = true) ∧
    (let s : State := tS; let v : List Nat := [0]; hostReaches s 2 0x2D0301 v = true ∧ rowId 0x2D0301 (leNat v) = 0 ∧ indexKnown (0x2D0301 / 256) = true ∧ (specOf 0x2D0301).any (fun e => writeStatus (tookIn s 2 0x2D0301 v) .host 0x2D0301 e v == 4) = true) ∧
    (let s : State := tS; let v : List Nat := [0, 0, 0, 0, 0]; hostReaches s 2 0x200401 v = true ∧ rowId 0x200401 (leNat v) = 0 ∧ indexKnown (0x200401 / 256) = true ∧ (specOf 0x200401).any (fun e => writeStatus (tookIn s 2 0x200401 v) .host 0x200401 e v == 4) = true) ∧
    (let s : State := tS; let v : List Nat := natLe 4 (3 * 2 ^ 18); hostReaches s 2 0x2A0301 v = true ∧ rowId 0x2A0301 (leNat v) = 0 ∧ indexKnown (0x2A0301 / 256) = true ∧ (specOf 0x2A0301).any (fun e => writeStatus (tookIn s 2 0x2A0301 v) .host 0x2A0301 e v == 5) = true) ∧
    (let s : State := setEnt tS 0x300805 100; let v : List Nat := [0, 0]; hostReaches s 2 0x300806 v = true ∧ rowId 0x300806 (leNat v) = 0 ∧ indexKnown (0x300806 / 256) = true ∧ (specOf 0x300806).any (fun e => writeStatus (tookIn s 2 0x300806 v) .host 0x300806 e v == 9) = true) := by decide +kernel

theorem test_hyps_SegmentsAndMailboxStatus :
    (let s : State := { tS with th := { tS.th with transfers := [(3, tTransfer 64)] } }; let f := tSegment 63; fieldHears s = true ∧ f.fd = true ∧ f.ext = true ∧ bits f.id 26 3 = 3 ∧ bits f.id 19 7 = nodeId s ∧ tget? s.th.transfers (bits f.id 12 7) = some (tTransfer 64) ∧ bits f.id 0 12 = 5 ∧ f.data.headD 0 = 2 ∧ f.data.length = 1 + min 63 64 ∧ rateOk s (bits f.id 12 7) = true ∧ 63 < 64) ∧
    (let s : State := { tS with th := { tS.th with transfers := [(3, tTransfer 63)] } }; let f := tSegment 63; fieldHears s = true ∧ f.fd = true ∧ f.ext = true ∧ bits f.id 26 3 = 3 ∧ bits f.id 19 7 = nodeId s ∧ tget? s.th.transfers (bits f.id 12 7) = some (tTransfer 63) ∧ bits f.id 0 12 = 5 ∧ f.data.headD 0 = 2 ∧ f.data.length = 1 + min 63 63 ∧ rateOk s (bits f.id 12 7) = true ∧ 63 ≤ 63) ∧
    (let s : State := { tS with th := { tS.th with transfers := [(3, tTransfer 1)] } }; let f := tSegment 1; fieldHears s = true ∧ f.fd = true ∧ f.ext = true ∧ bits f.id 26 3 = 3 ∧ bits f.id 19 7 = nodeId s ∧ tget? s.th.transfers (bits f.id 12 7) = some (tTransfer 1) ∧ bits f.id 0 12 = 5 ∧ f.data.headD 0 = 2 ∧ f.data.length = 1 + min 63 1 ∧ rateOk s (bits f.id 12 7) = true ∧ 1 ≤ 63) ∧
    (let s : State := { tS with th := { tS.th with mbStatus := 2 } }; mailboxServes s = true ∧ s.th.mbStatus = 2) ∧
    (let s : State := tS; s.th.mbStatus ≠ 2) ∧
    (let s : State := setEnt (setEnt tS 0x210401 5) 0x210407 9; hostWrites s 0x210408 [1] = true ∧ clearsOf 0x210408 ≠ []) ∧
    (let s : State := setEnt tS 0x2B0709 5; hostWrites s 0x2B070A [1] = true ∧ clearsOf 0x2B070A ≠ []) := by decide +kernel

theorem test_hyps_ThallusOnItsOwn :
    (let s : State := tS; firmwareRuns s = true ∧ s.th.busOff = false ∧ thallusIdle s = true) ∧
    (let s : State := { tS with host := { tS.host with up := true }, th := { tS.th with fw0 := { version := 3, valid := true }, batch := [(0x200201, .bytes [1])], batchReplies := [(.host, [9])], copyA := { seq := 3 }, copyB := { seq := 4 } } }; firmwareRuns s = true ∧ thallusIdle s = false ∧ pickImage s [true, true] = some 0 ∧ s.th.batch ≠ [] ∧ s.th.batchReplies = [(.host, [9])] ∧ s.host.up = true ∧ slotAFirst s = true) ∧
    (let s : State := { tS with host := { tS.host with up := true }, th := { tS.th with fw0 := { version := 3, valid := true }, batch := [(0x200201, .bytes [1])], batchReplies := [(.host, [9])], copyA := { seq := 5 }, copyB := { seq := 4 } } }; firmwareRuns s = true ∧ s.th.batch ≠ [] ∧ s.th.batchReplies = [(.host, [9])] ∧ s.host.up = true ∧ slotAFirst s = false) ∧
    (let s : State := setEnt tS 0x2D0801 100; firmwareRuns s = true ∧ s.th.serving = true ∧ ent s 0x2D0801 ≠ 0 ∧ s.th.busOff = false ∧ s.th.conflict = false) := by decide +kernel

theorem test_hyps_InputPowerAndRails :
    (let s : State := { tS with power := { domain := false } }; s.power.domain = false ∧ 40000 < 40001) ∧
    (let s : State := tS; s.power.domain = true ∧ railsOn s = true ∧ 0 < 7 ∧ 7 ≤ s.power.railsUp) ∧
    (let s : State := { tS with startup := { main := some 3, p3Waits := true }, power := { railState := 0, railsUp := 0 } }; s.power.domain = true ∧ 46000 ≤ 56000 ∧ s.power.seated = true ∧ s.startup.main = some 3 ∧ s.startup.p3Waits = true) ∧
    (let s : State := { tS with startup := { main := some 3 }, power := { railState := 1, railsUp := 6 } }; s.startup.main = some 3 ∧ s.startup.p3Waits = false ∧ s.startup.stopped = false ∧ s.power.railsUp = 6) ∧
    (let s : State := { tS with power := { railState := 3, inputFaulted := true, inputMv := 56000 } }; s.power.inputFaulted = true ∧ 46000 ≤ s.power.inputMv ∧ s.power.inputMv ≤ 56000 ∧ s.power.domain = true ∧ s.startup.main = none) := by decide +kernel

theorem test_hyps_ModuleButtonsCagesAndSensors :
    (let s : State := tS; s.power.seated = true ∧ railsOn s = true ∧ s.power.domain = true ∧ s.power.removal = 0) ∧
    (let s : State := { tS with startup := { main := some 3, p3Waits := true }, power := { seated := false, railState := 0, inputMv := 46000 } }; 46000 ≤ s.power.inputMv ∧ s.power.inputMv ≤ 56000 ∧ s.startup.main = some 3 ∧ s.startup.p3Waits = true) ∧
    (let s : State := { tS with power := { removal := 1 } }; s.power.domain = true ∧ s.power.removal = 1) ∧
    (let s : State := { tS with fab := { ports := [(20, { state := 6, trainFails := 2 })] } }; (portOf s 20).enable = true ∧ (portOf s 20).plugged = true ∧ portPowered s 20 = true ∧ (portOf s 20).state = 6 ∧ (portOf s 20).trainFails < 3) ∧
    (let s : State := tS; let x : Sample := ⟨50000, 1, 3000, 62500, List.replicate 16 (some 8999), List.replicate 8 (some (-4000)), some 3999, some 5498, [1, 2]⟩; s.power.domain = true ∧ s.th.serving = true ∧ s.startup.main = none ∧ x.die = (List.replicate 16 (8999 : Int)).map some ∧
      x.hbm = (List.replicate 8 (-4000 : Int)).map some ∧ x.inlet = some 3999 ∧ x.outlet = some 5498 ∧ (3999 : Int) < 100 * (ent s 0x200903 : Int) ∧
      (5498 - 3999 : Int) < 100 * (ent s 0x200904 : Int) ∧ s.power.levels = 0 ∧ x.avgW ≤ ent s 0x200601 ∧ x.avgMa ≤ 62500) := by decide +kernel

theorem test_hyps_ClockLossStopsItsUnits :
    (let s : State := tS; s.power.domain = true ∧ s.power.railState = 2 ∧ 13 ≤ 44 ∧ 44 ≤ 44 ∧ vcHolder s = none) := by decide +kernel

theorem test_hyps_FrondsWakeAndPowerDown :
    (let s : State := { tS with fronds := { st := [(8, .waking), (39, .on), (50, .on)], queue := [8, 9] } }; 8 ∈ s.fronds.queue.take 4 ∧ 8 ≤ 8 ∧ 8 < 40 ∧ vcHolder s = none) ∧
    (let s : State := { tS with fronds := { st := [(8, .waking), (39, .on), (50, .on)], queue := [8, 9] } }; 39 ∉ s.fronds.queue.take 4 ∧ s.units.vecQueue = none ∧ frondState s 39 = .on) ∧
    (let s : State := { tS with fronds := { st := [(8, .waking), (39, .on), (50, .on)], queue := [8, 9] } }; copyOf s 7 = none ∧ frondState s 50 = .on) := by decide +kernel

theorem test_hyps_StartUpPhases :
    (let s : State := { tS with startup := { main := some 0 }, power := { railsUp := 7, railState := 1 } }; s.startup.stopped = false ∧ s.power.domain = true ∧ s.startup.main = some 0 ∧ s.startup.p3Waits = false ∧ s.power.railsUp = 7 ∧ s.power.kept = []) ∧
    (let s : State := { tS with startup := { main := some 2 }, power := { railsUp := 7, railState := 1 } }; s.startup.stopped = false ∧ s.power.domain = true ∧ s.startup.main = some 2 ∧ s.startup.p3Waits = false ∧ s.power.railsUp = 7 ∧ s.power.kept = []) ∧
    (let s : State := { tS with startup := { main := some 3 }, power := { railsUp := 7, railState := 1 } }; s.startup.stopped = false ∧ s.power.domain = true ∧ s.startup.main = some 3 ∧ s.startup.p3Waits = false ∧ s.power.railsUp = 7 ∧ s.power.kept = []) ∧
    (let s : State := { tS with startup := { back := some 8 }, clock := { locked := true } }; s.startup.stopped = false ∧ s.power.domain = true ∧ s.startup.back = some 8 ∧ s.clock.locked = true ∧ s.startup.main ≠ some 5 ∧ s.startup.back ≠ some 5) ∧
    (let s : State := { tS with startup := { back := some 10 }, clock := { locked := true } }; s.startup.stopped = false ∧ s.power.domain = true ∧ s.startup.back = some 10 ∧ s.clock.locked = true ∧ s.startup.main ≠ some 5 ∧ s.startup.back ≠ some 5) := by decide +kernel

theorem test_hyps_DeviceResetSources :
    (let s : State := { tS with resets := [⟨5, 31, 1⟩] }; s.power.railState = 2 ∧ s.startup.main = none ∧ (∀ x ∈ s.resets, x.level < 6) ∧ s.host.up = true ∧ (∀ r ∈ s.resets, r.level = 3 ∨ r.level = 5)) ∧
    (let s : State := { tS with host := { numVfs := 4 } }; 4 ≤ s.host.numVfs ∧ deviceServes s = true ∧ (∀ x ∈ s.owners, ownerFn s x.1 ≠ 4)) ∧
    (let s : State := { tS with host := { numVfs := 4 }, owners := [(1, { state := .active, entry := fld 4 80 11 })] }; 4 ≤ s.host.numVfs ∧ deviceServes s = true ∧ s.owners = [(1, { state := .active, entry := fld 4 80 11 })] ∧ ownerFn s 1 = 4 ∧ resetAbsorbed s ⟨4, 1, causeFlr⟩ = false) ∧
    (let s : State := { tS with resets := [⟨4, 1, 1⟩, ⟨3, 0x407, 2⟩] }; (s.resets.find? (resetRun s)).isSome = true) ∧
    (let s : State := tS; s.resets.find? (resetRun s) = none) := by decide +kernel

theorem test_hyps_LinkFunctionsAndConfiguration :
    (let s : State := { tS with host := { up := false, held := [.msix 0 0] } }; s.host.perst = false ∧ s.power.railState = 2 ∧ s.host.up = false) ∧
    (let s : State := { tS with host := { gen := 4, width := 8 } }; s.host.perst = false ∧ s.power.railState = 2 ∧ s.host.up = true ∧ s.host.gen ≤ 6 ∧ s.host.width ≤ 16 ∧ 1024 * 1 ≤ 2016) ∧
    (let s : State := setEnt tS 0x210005 32; s.host.up = true ∧ 63 * ent s 0x210005 ≤ 2016 ∧ 2016 < 64 * ent s 0x210005) := by decide +kernel

theorem test_hyps_MemoryErrorsAndRepairsEnd :
    (let s : State := { tS with mc := { tS.mc with retrainFails := [(511, 2)] } }; s.power.railState = 2 ∧ tgetD s.mc.retrainFails 0 0 < 2 ∧ tgetD s.mc.retrainFails 511 0 = 2 ∧ 511 ∉ s.mem.failedPc ∧ (s.mem.failedPc.filter (fun x => x / 64 == 511 / 64)).length < 15 ∧ s.mc.repairing = none ∧ ent s 0x280101 ≠ 0 ∧ poisonAt s (2 ^ 39 - 1) 1 = false ∧ s.mc.badRows = []) ∧
    (let s : State := { setEnt tS 0x280103 0 with mc := { tS.mc with repairing := some (fld 2 56 8) } }; s.mc.repairing = some (fld 2 56 8) ∧ ent s 0x280103 = 0 ∧ rqKind (fld 2 56 8) = 2) ∧
    (let s : State := { setEnt tS 0x280103 0 with mc := { tS.mc with repairing := some (fld 3 56 8) } }; s.mc.repairing = some (fld 3 56 8) ∧ ent s 0x280103 = 0 ∧ rqKind (fld 3 56 8) = 3) ∧
    (let s : State := setEnt (setEnt tS 0x280604 1) 0x280101 0; ent s 0x280101 = 0 ∧ ent s 0x280604 = 1) := by decide +kernel

theorem test_hyps_OwnerResetsDrainAndEnd :
    (let s : State := tS; (ownerRec s 1).reset = none ∧ engineHolder s 4 31 = none) ∧
    (let s : State := { tS with owners := [(1, { state := .resetting, epoch := 1, reset := some { startedAt := 0, oldEpoch := 0, walking := false } })], resets := [⟨4, 1, 2⟩], clock := { ns := 77 } }; (ownerRec s 1).reset = some { startedAt := 0, oldEpoch := 0 } ∧ censusOpen s 1 { startedAt := 0, oldEpoch := 0 } = 0 ∧ s.card.leases = [] ∧ resetAbsorbed s ⟨5, ownerPart s 1, causeCensus⟩ = false) ∧
    (let s : State := { tS with owners := [(1, { state := .resetting, epoch := 1, reset := some { startedAt := 0, oldEpoch := 0, walking := true } })], resets := [⟨4, 1, 2⟩], clock := { ns := 77 } }; (ownerRec s 1).reset = some { startedAt := 0, oldEpoch := 0, walking := true } ∧ poolsOfPart s (ownerPart s 1) = [] ∧ s.queues = [] ∧ s.resets = [⟨4, 1, 2⟩]) ∧
    (let s : State := { withOp tS 3 0 with queues := [(16, tQ [{ tOp 3 0 with progress := .finished, status := 1 }])], units := { vecQueue := some 16 } }; engineHolder s 4 31 = some 16 ∧ engineNamed 4 31 = true ∧ s.resets = []) := by decide +kernel

theorem test_hyps_FaultsAreRecordedInOrder :
    (let s : State := { tS with log := { onDie := 4095 } }; recorderOn s = true ∧ s.log.onDie < 4096 ∧ s.log.lostSince = 0 ∧ pageRoom s.log.pages = none) ∧
    (let s : State := tS; s.log.onDie = 0) ∧
    (let s : State := { setEnt (setEnt tS 0x2D0101 4) 0x290402 9 with log := { records := [(0, 5), (1, 6)], next := 2, onDie := 2 }, pools := { pools := [(9, { desc := fld 1 166 1 + fld 64 176 24 + fld 10 156 5 + fld (2 ^ 38) 0 39, state := 1, free := 64, cache := [0, 1] })] } }; s.log.onDie ≠ 0 ∧ s.power.railState = 2 ∧ s.log.pages.length < ent s 0x2D0101 ∧ (match deviceBuf s (ent s 0x290402) false with | (t, some _) => decide (t.log.lostSince = 0) | _ => false) = true) := by decide +kernel

theorem test_hyps_BuffersAreTakenAndReleased :
    (goes (startHead ({ withOp tS 7 (fld 1 504 8 + fld 3 496 8 + fld 1 488 8 + fld 4096 448 40) with pools := { pools := [(3, { desc := fld 64 176 24 + fld 10 156 5 + fld 4 200 24 + fld 65536 0 39, state := 1, cache := [63, 2], free := 2, held := 0, gen := 7 })], recs := [] } }) 16 7 1 .ready) (fun x o _ t => decide (o.epoch = ownerEpoch t o.owner ∧ pdDev (poolOf t 3).desc = false ∧ pdPart (poolOf t 3).desc = x.partition ∧ plPool o.body = 3 ∧ plCount o.body = 1 ∧ ptrOk t o.owner (plPtr o.body) 16 .write = true ∧ (poolOf t 3).state = 1 ∧ (poolOf t 3).cache = 63 :: [2] ∧ 63 < pdCount (poolOf t 3).desc ∧ (recAt t 67).state = 0 ∧ recPoisoned t 67 = false ∧ 1 + ceilDiv (pdCount (poolOf t 3).desc) 64 ≤ (poolOf t 3).free)) = true) ∧
    (goes (startHead ({ withOp tS 7 (fld 1 504 8 + fld 3 496 8 + fld 1 488 8 + fld 4096 448 40) with pools := { pools := [(3, { desc := fld 64 176 24 + fld 10 156 5 + fld 4 200 24 + fld 65536 0 39, state := 1, cache := [63], free := 1, held := 0, gen := 7 })], recs := [] } }) 16 7 1 .ready) (fun x o _ t => decide (o.epoch = ownerEpoch t o.owner ∧ pdDev (poolOf t 3).desc = false ∧ pdPart (poolOf t 3).desc = x.partition ∧ plPool o.body = 3 ∧ plCount o.body = 1 ∧ ptrOk t o.owner (plPtr o.body) 16 .write = true ∧ (poolOf t 3).state = 1 ∧ pdChained (poolOf t 3).desc = false ∧ (poolOf t 3).free < 1 + ceilDiv (pdCount (poolOf t 3).desc) 64)) = true) ∧
    (goes (startHead ({ withOp tS 7 (fld 2 504 8 + fld (fld 3 56 8 + fld 9 40 16 + fld 1 16 24) 384 64) with pools := { pools := [(3, { desc := fld 64 176 24 + fld 10 156 5 + fld 4 200 24 + fld 65536 0 39, state := 1, cache := [], free := 1, held := 2, gen := 7 })], recs := [(5, { state := 1, refs := 65534, gen := 9, owner := 1 })] } }) 16 7 2 .ready) (fun x o _ t => decide (o.epoch = ownerEpoch t o.owner ∧ pdDev (poolOf t 3).desc = false ∧ pdPart (poolOf t 3).desc = x.partition ∧ hdPool (plHandle o.body) = 3 ∧ pdFirst (poolOf t 3).desc + hdIndex (plHandle o.body) = 5 ∧ recPoisoned t 5 = false ∧ handleOk t (plHandle o.body) = true ∧ (recAt t 5).state = 1 ∧ (recAt t 5).refs < 65535)) = true) ∧
    (goes (startHead ({ withOp tS 7 (fld 3 504 8 + fld (fld 3 56 8 + fld 9 40 16 + fld 1 16 24) 384 64) with pools := { pools := [(3, { desc := fld 64 176 24 + fld 10 156 5 + fld 4 200 24 + fld 65536 0 39, state := 1, cache := [], free := 1, held := 2, gen := 7 })], recs := [(5, { state := 1, refs := 2, gen := 9, owner := 1 })] } }) 16 7 3 .ready) (fun x o _ t => decide (o.epoch = ownerEpoch t o.owner ∧ pdDev (poolOf t 3).desc = false ∧ pdPart (poolOf t 3).desc = x.partition ∧ hdPool (plHandle o.body) = 3 ∧ pdFirst (poolOf t 3).desc + hdIndex (plHandle o.body) = 5 ∧ recPoisoned t 5 = false ∧ handleOk t (plHandle o.body) = true ∧ 1 < (recAt t 5).refs)) = true) ∧
    (goes (startHead ({ withOp tS 7 (fld 3 504 8 + fld (fld 3 56 8 + fld 9 40 16 + fld 1 16 24) 384 64) with pools := { pools := [(3, { desc := fld 64 176 24 + fld 10 156 5 + fld 4 200 24 + fld 65536 0 39, state := 3, cache := [], free := 1, held := 2, gen := 7 })], recs := [(5, { state := 1, refs := 1, gen := 9, owner := 1 })] } }) 16 7 3 .ready) (fun x o _ t => decide (o.epoch = ownerEpoch t o.owner ∧ pdDev (poolOf t 3).desc = false ∧ pdPart (poolOf t 3).desc = x.partition ∧ hdPool (plHandle o.body) = 3 ∧ pdFirst (poolOf t 3).desc + hdIndex (plHandle o.body) = 5 ∧ recPoisoned t 5 = false ∧ handleOk t (plHandle o.body) = true ∧ (recAt t 5).refs = 1 ∧ (poolOf t 3).state = 3)) = true) := by decide +kernel

theorem test_hyps_PoolsBuildRefillAndAudit :
    (let s : State := { tS with pools := { pools := [(3, { desc := fld 64 176 24 + fld 10 156 5 + fld 4 200 24 + fld 65536 0 39, state := 2, cache := [], free := 0, held := 0, gen := 7 })], recs := [] } }; (poolOf s 3).state = 2 ∧ pdCount (poolOf s 3).desc = 63 + 1 ∧ (List.range 64).all (fun i => (recAt s (pdFirst (poolOf s 3).desc + i)).state == 0) = true ∧ ent s 0x290201 ≠ 0 ∧ (∀ x ∈ s.pools.pools, x.2.state ≠ 1)) ∧
    (let s : State := { { tS with pools := { pools := [(3, { desc := fld 64 176 24 + fld 10 156 5 + fld 4 200 24 + fld 65536 0 39, state := 1, cache := [], head := 5, free := 1, held := 0, gen := 7 })], recs := [] } } with mem := wrMem {} 0 0 (65536 + 5 * 1024) (natLe 12 (fld 0xFFFFFF 0 24 + fld 0 24 24 + fld 5 48 24 + fld 3 72 8 + fld 7 80 16) ++ natLe 4 (crc32c (natLe 12 (fld 0xFFFFFF 0 24 + fld 0 24 24 + fld 5 48 24 + fld 3 72 8 + fld 7 80 16)))) }; (poolOf s 3).state = 1 ∧ (poolOf s 3).cache = [] ∧ (poolOf s 3).head ≠ 0xFFFFFF ∧ linkBad s 3 (poolOf s 3) = none ∧ recPoisoned s (pdFirst (poolOf s 3).desc + (poolOf s 3).head) = false ∧ rdNat s 0 (bufPtr (poolOf s 3).desc (poolOf s 3).head) 3 = 0xFFFFFF) ∧
    (let s : State := setEnt tS 0x290201 0; (poolOf s 3).state ≠ 2 ∧ (poolOf s 3).state ≠ 3 ∧ (poolOf s 3).state ≠ 1 ∧ ent s 0x290201 = 0) := by decide +kernel

theorem test_hyps_CompletionsArePosted :
    (let o : Op := { tOp 0x0D 0 with progress := .finished, status := 1 }; let x : Queue := { tQ [o] with ctx := fld 2 272 2 + fld 1 288 12 + fld 6 278 5 + fld 4096 384 64, msgSeq := 2 ^ 32 - 1 }; let s : State := { tS with queues := [(16, x)] }; queueOf s 16 = some x ∧ qHead x = some o ∧ o.progress = .finished ∧ x.ops.find? (fun y => y.seq == o.seq) = some o ∧ opAcked s 16 o.seq = true ∧ deviceServes s = true ∧ ownerState s (qOwner x) ≠ .resetting ∧ ownerState s (qOwner x) ≠ .preempting ∧ s.card.ops = [] ∧ s.shadow = [] ∧ (partOf s x.partition).job = none ∧ sigKey (headOf x o) = none ∧ (headOf x o).twoPhase = false ∧ (headOf x o).check = false ∧ bit x.ctx 276 = false ∧ x.held = [] ∧ ringSpace x = true ∧ s.host.up = true) ∧
    (let o : Op := { tOp 0x0D 0 with progress := .finished, status := 1 }; let x : Queue := { tQ [o] with ctx := fld 2 272 2 + fld 1 288 12 + fld 6 278 5 + fld 4096 384 64, msgSeq := 2 ^ 32 - 1, posted := 64 }; let s : State := { tS with queues := [(16, x)] }; queueOf s 16 = some x ∧ qHead x = some o ∧ o.progress = .finished ∧ x.ops.find? (fun y => y.seq == o.seq) = some o ∧ opAcked s 16 o.seq = true ∧ deviceServes s = true ∧ ownerState s (qOwner x) ≠ .resetting ∧ ownerState s (qOwner x) ≠ .preempting ∧ s.card.ops = [] ∧ s.shadow = [] ∧ (partOf s x.partition).job = none ∧ sigKey (headOf x o) = none ∧ (headOf x o).twoPhase = false ∧ (headOf x o).check = false ∧ bit x.ctx 276 = false ∧ ringSpace x = false) := by decide +kernel

theorem test_hyps_VectorFunctionsOfARow :
    ([0x01, 0x02, 0x03, 0x04, 0x05, 0x06, 0x10, 0x11, 0x12, 0x13, 0x14, 0x15, 0x20, 0x21, 0x22, 0x23, 0x24, 0x25, 0x26, 0x27, 0x28, 0x30].all (fun f => vecGoes (tVecState f) f) = true) := by decide +kernel

theorem test_hyps_SoftmaxTileAndVectorFaults :
    (vecGoes (tVecState 0x29) 0x29 = true) ∧
    (let o : Op := { tOp 3 (tVec 0x10) with progress := .finished, status := 1 }; let s : State := { tS with queues := [(16, tQ [o])], units := { vecQueue := some 16 } }; vcHolder s = some (16, o, headOf (tQ [o]) o) ∧ bit (coresOut s) 31 = false ∧ (vcInPlace o.body && !(headOf (tQ [o]) o).twoPhase) = false ∧ o.runs < 8 ∧ (queueOf s 16).any (fun x => (x.ops.find? (fun y => y.seq == o.seq)) == some o) = true) ∧
    (vcHolder tS = none) ∧
    (let o : Op := { tOp 0x0D 0 with hdr := fld 0x0D 272 8 + fld 1 270 1 + fld 7 280 16 + 2 }; let s : State := { setEnt (setEnt tS 0x302809 5) 0x302002 7 with queues := [(16, tQ [o])], parts := [(0, { decision := 2 })] }; queueOf s 16 = some (tQ [o]) ∧ qHead (tQ [o]) = some o ∧ (tQ [o]).ops.find? (fun y => y.seq == o.seq) = some o ∧ mayStart s (tQ [o]) = true ∧ o.progress = .accepted ∧ descCheck (qVersion (tQ [o])) o.hdr o.body = none ∧ (headOf (tQ [o]) o).gated = true ∧ gateOf s 0 o (headOf (tQ [o]) o) = .skip) ∧
    (let o : Op := { tOp 0x0D 0 with hdr := fld 0x0D 272 8 + fld 1 270 1 + fld 7 280 16 + 2 }; let s : State := { setEnt (setEnt tS 0x302809 5) 0x302002 7 with queues := [(16, tQ [o])], parts := [(0, { decision := 0 })] }; queueOf s 16 = some (tQ [o]) ∧ qHead (tQ [o]) = some o ∧ (tQ [o]).ops.find? (fun y => y.seq == o.seq) = some o ∧ mayStart s (tQ [o]) = true ∧ o.progress = .accepted ∧ descCheck (qVersion (tQ [o])) o.hdr o.body = none ∧ (headOf (tQ [o]) o).gated = true ∧ gateOf s 0 o (headOf (tQ [o]) o) = .wait) ∧
    (let o : Op := { tOp 0x0D 0 with hdr := fld 0x0D 272 8 + fld 1 270 1 + fld 32774 280 16 + 2 }; let s : State := { setEnt (setEnt tS 0x302809 5) 0x302002 7 with queues := [(16, tQ [o])], parts := [(0, { decision := 1 })] }; queueOf s 16 = some (tQ [o]) ∧ qHead (tQ [o]) = some o ∧ (tQ [o]).ops.find? (fun y => y.seq == o.seq) = some o ∧ mayStart s (tQ [o]) = true ∧ o.progress = .accepted ∧ descCheck (qVersion (tQ [o])) o.hdr o.body = none ∧ (headOf (tQ [o]) o).gated = true ∧ gateOf s 0 o (headOf (tQ [o]) o) = .wait) := by decide +kernel

theorem test_hyps_GroupedOperationsArePlanned :
    (let s : State := tGrouped (withOp tS 1 (fld 4096 472 40)); walkerTakes s 16 = true ∧ clearOfRunning s (controlExts s 16) = true ∧ goes (startHead s 16 0x01 0 .ready) (fun _ o h t =>
      decide (ptrOk t o.owner (bits o.body 472 40) 64 .read = true ∧ gcbCheck t o.owner (some tGcb) = none ∧
        readStruct t o.owner (bits o.body 472 40) 64 = some tGcb ∧ (readTable t o.owner tGcb).map (·.getD 0) = [tEntry] ∧
        entriesCheck t o.owner tGcb (fun i => readStruct t o.owner (gcbProfile tGcb + 64 * i) 64) 0 (readTable t o.owner tGcb) = none ∧
        readProfiles t o.owner tGcb [tEntry] = [(0, tProfile)] ∧
        overlapCheck (groupExts (bits o.body 472 40) tGcb) tGcb [(0, tEntry, tProfile)] = none ∧ gcbWait tGcb = false ∧
        planGoes t 16 o h (newWalk o 4096 tGcb false [tEntry] [(0, tProfile)]) = true)) = true) ∧
    (let s : State := tGrouped { setEnt tS 0x300006 (2 ^ 23) with queues := [(16, tQ [{ tOp 2 tEntry with hdr := fld 2 272 8 + fld 12288 328 40 + 2 }])] }; walkerTakes s 16 = true ∧ clearOfRunning s (controlExts s 16) = true ∧ goes (startHead s 16 0x02 0 .ready) (fun x o h t =>
      let g := matrixGcb h.auxPtr (pEnt t 0x3000 5 x.partition) (pEnt t 0x3000 6 x.partition)
      decide (ptrOk t o.owner h.auxPtr 64 .read = true ∧ stagingOk t o.owner (pEnt t 0x3000 5 x.partition) (pEnt t 0x3000 6 x.partition) = true ∧
        entryCheck t o.owner 0xFFFF g (some o.body) (fun i => readStruct t o.owner (h.auxPtr + 64 * i) 64) = none ∧ enSegs o.body = 1 ∧
        overlapCheck [(h.auxPtr, 64, 128)] g [(0xFFFF, o.body, rdNat t o.owner h.auxPtr 64)] = none ∧ gcbWait g = false ∧
        planGoes t 16 o h (newWalk o 0 g true [o.body] [(0, rdNat t o.owner h.auxPtr 64)]) = true)) = true) ∧
    (let s : State := { tArray tS { tWalk 0 0 with gcb := tGcb + fld 1 26 1 + fld 5 272 16 + fld 3 288 32, chains := [] } with syu := { ended := [(16, 1)] } }; (arrayHead s 16).any (fun x => decide (x.2.2.stage = 0 ∧ (plannedWalks s).length < 2 ∧ gcbWait x.2.2.gcb = true ∧
      objIn s (queuePart s 16) 2 (gcbCounter x.2.2.gcb) = true ∧ tget? s.syu.ended 16 = some 1 ∧ planGoes s 16 x.1 x.2.1 x.2.2 = true)) = true) ∧
    (let s : State := { tArray tS { tWalk 0 0 with gcb := tGcb + fld 1 26 1 + fld 5 272 16 + fld 3 288 32, chains := [] } with syu := { ended := [(16, 2)] } }; (arrayHead s 16).any (fun x => decide (x.2.2.stage = 0 ∧ (plannedWalks s).length < 2 ∧ gcbWait x.2.2.gcb = true ∧
      objIn s (queuePart s 16) 2 (gcbCounter x.2.2.gcb) = true ∧ tget? s.syu.ended 16 = some 2 ∧ gcbStatus x.2.2.gcb = false ∧ tsorted s.units.walks = true ∧ (queueOf s 16).any (fun y => (y.ops.find? (fun z => z.seq == x.1.seq)).isSome) = true)) = true) := by decide +kernel

theorem test_hyps_ChainsStreamAndComplete :
    (let c : Chain := { entry := 0, tile := 0, b0 := 7, depth := 1, cost := 128, state := 0 }; let s : State := tArray tS (tWalk 3 0); (arrayHead s 16).any (fun x => decide (x.2.2.stage = 3 ∧ x.2.2.chains[0]? = some c ∧ s.units.running = some 16 ∧ x.2.2.started = true ∧ c.state = 0 ∧ groupReady x.2.2 0 c = true ∧ (∀ b ∈ chainBands c, bandIn s b = true) ∧ (∀ b ∈ chainBands c, frondState s b = .on) ∧ enSparse (walkProb x.1.owner x.2.2 c.entry).e = false ∧ (runChain s x.2.2 x.1.owner c false).stop = none)) = true) ∧
    (let c : Chain := { entry := 0, tile := 0, b0 := 7, depth := 1, cost := 128, state := 1 }; let s : State := tArray tS (tWalk 3 1); (arrayHead s 16).any (fun x => decide (x.2.2.stage = 3 ∧ x.2.2.chains[0]? = some c ∧ c.state = 1 ∧ c.flagged = 0 ∧ (chainDone x.2.2 0).chains.all (fun d => d.state == 2) = true ∧ tsorted s.units.walks = true)) = true) ∧
    (let c : Chain := { entry := 0, tile := 0, b0 := 7, depth := 1, cost := 128, state := 1 }; let s : State := tArray tS { tWalk 3 1 with chains := [c, { c with b0 := 3, tile := 1 }] }; (arrayHead s 16).any (fun x => decide (x.2.2.stage = 3 ∧ x.2.2.chains[0]? = some c ∧ c.state = 1 ∧ c.flagged = 0 ∧ (chainDone x.2.2 0).chains.all (fun d => d.state == 2) = false)) = true) ∧
    (let v : Walk := tWalk 3 1; let w : Walk := { tWalk 1 0 with gcb := tGcb + fld 1 24 1 + fld (2 ^ 23) 208 32, started := false }; let s : State := { setEnt tS 0x230101 1 with queues := [(16, tQ [{ tOp 1 0 with progress := .started }]), (17, tQ [{ tOp 1 0 with progress := .started }])], units := { walks := [(16, w), (17, v)], running := some 17 } }; (arrayHead s 16).any (fun x => decide (x.2.2 = w ∧ s.units.running = some 17 ∧ tget? s.units.walks 17 = some v ∧ w.stage = 1 ∧ s.units.ahead = none ∧ gcbEarly w.gcb = true ∧ ent s 0x230101 = 1 ∧ earlyOverlap w v = false ∧ w.declined = false)) = true) ∧
    (let v : Walk := tWalk 3 1; let w : Walk := { tWalk 1 0 with gcb := tGcb + fld 1 24 1 + fld (2 ^ 23) 208 32, table := [tMeets], started := false }; let s : State := { setEnt tS 0x230101 1 with queues := [(16, tQ [{ tOp 1 0 with progress := .started }]), (17, tQ [{ tOp 1 0 with progress := .started }])], units := { walks := [(16, w), (17, v)], running := some 17 } }; (arrayHead s 16).any (fun x => decide (x.2.2 = w ∧ s.units.running = some 17 ∧ tget? s.units.walks 17 = some v ∧ w.stage = 1 ∧ s.units.ahead = none ∧ gcbEarly w.gcb = true ∧ ent s 0x230101 = 1 ∧ earlyOverlap w v = true ∧ w.declined = false)) = true) ∧
    (let s : State := tArray tS (tWalk 3 1); (bandUser s 7).any (fun x => decide (x.1 = 16 ∧ walkInPlace x.2.2.2 = false ∧ x.2.1.runs < 8 ∧ s.units.walks = [(16, x.2.2.2)] ∧ (queueOf s 16).any (fun y => (y.ops.find? (fun z => z.seq == x.2.1.seq)) == some x.2.1) = true)) = true ∧ [1, 0].any (· != 1) = true) ∧
    (({ tS with units := { bist := some 7 } } : State).units.bist.isSome = true ∧ tS.units.bist = none) := by decide +kernel

theorem test_hyps_CopiesOfEveryForm :
    (let s : State := tCopyState 0 1 (tElems.flatMap (natLe 2)); dmaEngine s = some (0, .ready) ∧ goes (startHead s 16 0x04 0 .ready) (fun _ o h t => decide (dmWordBad o.body (entAt t 0x240101 2 == 1) = false ∧ dmBad o.body = none ∧
      dmEnd t (dmSrc o.body) (dmSrcRack o.body) (dmSrcTile o.body) = .here 4096 ∧ dmEnd t (dmDst o.body) (dmDstRack o.body) (dmDstTile o.body) = .here 65536 ∧
      dmSmall o.body = false ∧ winOk t o.owner 4096 (if dmMode o.body = 5 then 32 else dmSrcBytes o.body 4096) .read = true ∧
      winOk t o.owner 65536 (dmDstBytes o.body 65536) .write = true ∧ dmCmode o.body = 0 ∧ h.twoPhase = false ∧
      firstPoison t 4096 (if dmMode o.body = 5 then 32 else dmSrcBytes o.body 4096) = none ∧ dmMode o.body = 0)) = true) ∧
    (let s : State := tCopyState 1 1 (tElems.flatMap (natLe 2)); dmaEngine s = some (0, .ready) ∧ goes (startHead s 16 0x04 0 .ready) (fun _ o h t => decide (dmWordBad o.body (entAt t 0x240101 2 == 1) = false ∧ dmBad o.body = none ∧
      dmEnd t (dmSrc o.body) (dmSrcRack o.body) (dmSrcTile o.body) = .here 4096 ∧ dmEnd t (dmDst o.body) (dmDstRack o.body) (dmDstTile o.body) = .here 65536 ∧
      dmSmall o.body = false ∧ winOk t o.owner 4096 (if dmMode o.body = 5 then 32 else dmSrcBytes o.body 4096) .read = true ∧
      winOk t o.owner 65536 (dmDstBytes o.body 65536) .write = true ∧ dmCmode o.body = 0 ∧ h.twoPhase = false ∧
      firstPoison t 4096 (if dmMode o.body = 5 then 32 else dmSrcBytes o.body 4096) = none ∧ dmMode o.body = 1 ∧ firstCrowded (dmFmt o.body) (linesOf o.body (srcRows t o.owner o.body 4096)) = none)) = true) ∧
    (let s : State := tCopyState 2 1 (tElems.flatMap (natLe 2)); dmaEngine s = some (0, .ready) ∧ goes (startHead s 16 0x04 0 .ready) (fun _ o h t => decide (dmWordBad o.body (entAt t 0x240101 2 == 1) = false ∧ dmBad o.body = none ∧
      dmEnd t (dmSrc o.body) (dmSrcRack o.body) (dmSrcTile o.body) = .here 4096 ∧ dmEnd t (dmDst o.body) (dmDstRack o.body) (dmDstTile o.body) = .here 65536 ∧
      dmSmall o.body = false ∧ winOk t o.owner 4096 (if dmMode o.body = 5 then 32 else dmSrcBytes o.body 4096) .read = true ∧
      winOk t o.owner 65536 (dmDstBytes o.body 65536) .write = true ∧ dmCmode o.body = 0 ∧ h.twoPhase = false ∧
      firstPoison t 4096 (if dmMode o.body = 5 then 32 else dmSrcBytes o.body 4096) = none ∧ dmMode o.body = 2)) = true) ∧
    (let s : State := tCopyState 3 8 (tElems.flatMap (natLe 2)); dmaEngine s = some (0, .ready) ∧ goes (startHead s 16 0x04 0 .ready) (fun _ o h t => decide (dmWordBad o.body (entAt t 0x240101 2 == 1) = false ∧ dmBad o.body = none ∧
      dmEnd t (dmSrc o.body) (dmSrcRack o.body) (dmSrcTile o.body) = .here 4096 ∧ dmEnd t (dmDst o.body) (dmDstRack o.body) (dmDstTile o.body) = .here 65536 ∧
      dmSmall o.body = false ∧ winOk t o.owner 4096 (if dmMode o.body = 5 then 32 else dmSrcBytes o.body 4096) .read = true ∧
      winOk t o.owner 65536 (dmDstBytes o.body 65536) .write = true ∧ dmCmode o.body = 0 ∧ h.twoPhase = false ∧
      firstPoison t 4096 (if dmMode o.body = 5 then 32 else dmSrcBytes o.body 4096) = none ∧ dmMode o.body = 3)) = true) ∧
    (let s : State := tCopyState 4 1 ((tElems.take 4).flatMap (natLe 2) ++ List.replicate 248 0 ++ [0x44]); dmaEngine s = some (0, .ready) ∧ goes (startHead s 16 0x04 0 .ready) (fun _ o h t => decide (dmWordBad o.body (entAt t 0x240101 2 == 1) = false ∧ dmBad o.body = none ∧
      dmEnd t (dmSrc o.body) (dmSrcRack o.body) (dmSrcTile o.body) = .here 4096 ∧ dmEnd t (dmDst o.body) (dmDstRack o.body) (dmDstTile o.body) = .here 65536 ∧
      dmSmall o.body = false ∧ winOk t o.owner 4096 (if dmMode o.body = 5 then 32 else dmSrcBytes o.body 4096) .read = true ∧
      winOk t o.owner 65536 (dmDstBytes o.body 65536) .write = true ∧ dmCmode o.body = 0 ∧ h.twoPhase = false ∧
      firstPoison t 4096 (if dmMode o.body = 5 then 32 else dmSrcBytes o.body 4096) = none ∧ dmMode o.body = 4 ∧ keptBad o.body 4096 (keptLines t o.owner o.body 4096) = [])) = true) ∧
    (let s : State := tCopyState 5 1 (rleEncode 0xC 8 1 tElems); dmaEngine s = some (0, .ready) ∧ goes (startHead s 16 0x04 0 .ready) (fun _ o h t => decide (dmWordBad o.body (entAt t 0x240101 2 == 1) = false ∧ dmBad o.body = none ∧
      dmEnd t (dmSrc o.body) (dmSrcRack o.body) (dmSrcTile o.body) = .here 4096 ∧ dmEnd t (dmDst o.body) (dmDstRack o.body) (dmDstTile o.body) = .here 65536 ∧
      dmSmall o.body = false ∧ winOk t o.owner 4096 (if dmMode o.body = 5 then 32 else dmSrcBytes o.body 4096) .read = true ∧
      winOk t o.owner 65536 (dmDstBytes o.body 65536) .write = true ∧ dmCmode o.body = 0 ∧ h.twoPhase = false ∧
      firstPoison t 4096 (if dmMode o.body = 5 then 32 else dmSrcBytes o.body 4096) = none ∧ dmMode o.body = 5 ∧ rleHeaderBad o.body (rdNat t o.owner 4096 32) = none ∧ ptrOk t o.owner 4096 (32 + bits (rdNat t o.owner 4096 32) 128 32) .read = true ∧ firstPoison t 4096 (32 + bits (rdNat t o.owner 4096 32) 128 32) = none ∧ (match rleDecode (dmW o.body) (dmRows o.body * dmCols o.body) (32 + bits (rdNat t o.owner 4096 32) 128 32) 32 (rd t o.owner (4096 + 32) (bits (rdNat t o.owner 4096 32) 128 32)) 0 [] with | .ok _ => true | .bad _ => false) = true)) = true) ∧
    (goes (startHead ({ withOp (setEnt tS 0x303002 64) 5 (fld 63 496 16) with fab := { groups := [(63, { err := true, first := 0xA00B })] } }) 16 5 0 .ready) (fun x o _ t => decide (groupIn t x.partition (bits o.body 496 16) = true ∧ t.fab.flows = [] ∧ (opAt t 16 o.seq).any (fun (y : Op) => y.faults == 0) = true ∧ goingHead { withOp (setEnt tS 0x303002 64) 5 (fld 63 496 16) with fab := { groups := [(63, { err := true, first := 0xA00B })] } } 16 5 = none)) = true) ∧
    (goes (startHead ({ withOp (setEnt tS 0x303002 64) 5 (fld 63 496 16) with fab := { groups := [] } }) 16 5 0 .ready) (fun x o _ t => decide (groupIn t x.partition (bits o.body 496 16) = true ∧ t.fab.flows = [] ∧ (opAt t 16 o.seq).any (fun (y : Op) => y.faults == 0) = true ∧ goingHead { withOp (setEnt tS 0x303002 64) 5 (fld 63 496 16) with fab := { groups := [] } } 16 5 = none)) = true) := by decide +kernel

theorem test_hyps_CardingOperationsRunByChunks_1 :
    (let s : State := tObj (tCard 3 (0) false) 2 1 { tReady with value := 1 }; cardGoes s 3 (fun o t c => decide (ccTokens c.ccb = 1 ∧ ccChunks c.ccb = 1 ∧ (chunkWait (cardBegun t 16 o c) 16 c).2 = some 1) && (match combineToken (chunkWait (cardBegun t 16 o c) 16 c).1 o.owner c.ccb 0 with | .ok _ => true | .error _ => false) && chunkGoes (chunkWait (cardBegun t 16 o c) 16 c).1 o c) = true) := by decide +kernel

theorem test_hyps_CardingOperationsRunByChunks_2 :
    (let s : State := tCard 1 (0) false; cardGoes s 1 (fun o t c => decide (ccChunks c.ccb = 1 ∧ (chunkWait (cardBegun t 16 o c) 16 c).2 = some 1) && chunkGoes (chunkWait (cardBegun t 16 o c) 16 c).1 o c) = true) := by decide +kernel

theorem test_hyps_CardingOperationsRunByChunks_3 :
    (let s : State := tCard 2 (0) true; cardGoes s 2 (fun o t c => decide (ccChunks c.ccb = 1 ∧ (chunkWait (cardBegun t 16 o c) 16 c).2 = some 1) && chunkGoes (chunkWait (cardBegun t 16 o c) 16 c).1 o c) = true) := by decide +kernel

theorem test_hyps_CardingOperationsRunByChunks_4 :
    (let s : State := tCard 4 (0) true; cardGoes s 4 (fun o t c => decide (ccChunks c.ccb = 1 ∧ (chunkWait (cardBegun t 16 o c) 16 c).2 = some 1) && chunkGoes (chunkWait (cardBegun t 16 o c) 16 c).1 o c) = true) := by decide +kernel

theorem test_hyps_CardingOperationsRunByChunks_5 :
    (let s : State := tObj (tCard 5 (0) false) 2 1 { tReady with value := 1 }; cardGoes s 5 (fun o t c => decide (ccChunks c.ccb = 1 ∧ (chunkWait (cardBegun t 16 o c) 16 c).2 = some 1) && chunkGoes (chunkWait (cardBegun t 16 o c) 16 c).1 o c) = true) := by decide +kernel

theorem test_hyps_CardingOperationsRunByChunks_6 :
    (let s : State := tObj (tCard 3 (0) false) 2 1 { tReady with value := 0 }; cardGoes s 3 (fun o t c => decide (ccChunks c.ccb = 1 ∧ (chunkWait (cardBegun t 16 o c) 16 c).2 = none)) = true) := by decide +kernel

theorem test_hyps_CardingOperationsRunByChunks_7 :
    (let s : State := tGoing 1 (fld 9 184 32) 1; (goingHead s 16 0x08).any (fun y => (tget? s.card.ops 16).any (fun c => decide ((ccKind c.ccb = 1 ∧ (chunkWaits c).2 ≠ 0 ∧ tget? s.syu.ended 16 = some 1 ∧ c.chunk + 1 = ccChunks c.ccb) ∧ chunkGoes (dropWaits s 16) y.2.1 c = true))) = true) := by decide +kernel

theorem test_hyps_CardingOperationsRunByChunks_8 :
    (let s : State := tGoing 2 (fld 9 184 32) 1; (goingHead s 16 0x08).any (fun y => (tget? s.card.ops 16).any (fun c => decide ((ccKind c.ccb = 2 ∧ (chunkWaits c).2 ≠ 0 ∧ tget? s.syu.ended 16 = some 1 ∧ c.chunk + 1 = ccChunks c.ccb) ∧ chunkGoes (dropWaits s 16) y.2.1 c = true))) = true) := by decide +kernel

theorem test_hyps_CardingOperationsRunByChunks_9 :
    (let s : State := tGoing 3 (0) 1; (goingHead s 16 0x08).any (fun y => (tget? s.card.ops 16).any (fun c => decide ((ccKind c.ccb = 3 ∧ (chunkWaits c).2 ≠ 0 ∧ tget? s.syu.ended 16 = some 1 ∧ c.chunk + 1 = ccChunks c.ccb) ∧ chunkGoes (dropWaits s 16) y.2.1 c = true))) = true) := by decide +kernel

theorem test_hyps_CardingOperationsRunByChunks_10 :
    (let s : State := tGoing 4 (fld 9 184 32) 1; (goingHead s 16 0x08).any (fun y => (tget? s.card.ops 16).any (fun c => decide ((ccKind c.ccb = 4 ∧ (chunkWaits c).2 ≠ 0 ∧ tget? s.syu.ended 16 = some 1 ∧ c.chunk + 1 = ccChunks c.ccb) ∧ chunkGoes (dropWaits s 16) y.2.1 c = true))) = true) := by decide +kernel

theorem test_hyps_CardingOperationsRunByChunks_11 :
    (let s : State := tGoing 5 (0) 1; (goingHead s 16 0x08).any (fun y => (tget? s.card.ops 16).any (fun c => decide ((ccKind c.ccb = 5 ∧ (chunkWaits c).2 ≠ 0 ∧ tget? s.syu.ended 16 = some 1 ∧ c.chunk + 1 = ccChunks c.ccb) ∧ chunkGoes (dropWaits s 16) y.2.1 c = true))) = true) := by decide +kernel

theorem test_hyps_CardingOperationsRunByChunks_12 :
    (let s : State := tGoing 2 (fld 9 184 32) 2; (goingHead s 16 0x08).isSome = true ∧ (tget? s.card.ops 16).any (fun c => decide (ccKind c.ccb = 2 ∧ (chunkWaits c).2 ≠ 0 ∧ tget? s.syu.ended 16 = some 2 ∧ c.chunk < ccChunks c.ccb ∧ ccKind c.ccb ∈ [2, 3, 5])) = true) := by decide +kernel

theorem test_hyps_CardingOperationsRunByChunks_13 :
    (let s : State := tGoing 3 (0) 2; (goingHead s 16 0x08).isSome = true ∧ (tget? s.card.ops 16).any (fun c => decide (ccKind c.ccb = 3 ∧ (chunkWaits c).2 ≠ 0 ∧ tget? s.syu.ended 16 = some 2 ∧ c.chunk < ccChunks c.ccb ∧ ccKind c.ccb ∈ [2, 3, 5])) = true) := by decide +kernel

theorem test_hyps_CardingOperationsRunByChunks_14 :
    (let s : State := tGoing 5 (0) 2; (goingHead s 16 0x08).isSome = true ∧ (tget? s.card.ops 16).any (fun c => decide (ccKind c.ccb = 5 ∧ (chunkWaits c).2 ≠ 0 ∧ tget? s.syu.ended 16 = some 2 ∧ c.chunk < ccChunks c.ccb ∧ ccKind c.ccb ∈ [2, 3, 5])) = true) := by decide +kernel

theorem test_hyps_CardingOperationsRunByChunks_15 :
    (let s : State := tCard 6 (0) true; cardGoes s 6 (fun o t c => decide (bits (rdNat t o.owner (ccSlotMap c.ccb) 64) 232 8 ≠ 0)) = true) := by decide +kernel

theorem test_hyps_CardingOperationsRunByChunks_16 :
    (let s : State := tCard 6 (0) false; cardGoes s 6 (fun o t c => decide (bits (rdNat t o.owner (ccSlotMap c.ccb) 64) 232 8 = 0)) = true) := by decide +kernel

theorem test_hyps_RoutingTakesTheHighestRanks :
    (let b := tCcb 1 0; let s : State := tCard 1 0 false; 4 = (if ccBf16 b then 2 else 4) ∧ 0 < ccExperts b) ∧
    (let b := tCcb 1 (2 ^ 17); let s : State := tCard 1 (2 ^ 17) false; 2 = (if ccBf16 b then 2 else 4) ∧ 0 < ccExperts b) ∧
    (let b := tCcb 1 0; let s : State := tCard 1 0 false; 0 < ccExperts b ∧ ccHasBias b = false) ∧
    (let b := tCcb 1 (2 ^ 18); let s : State := tCard 1 (2 ^ 18) false; 0 < ccExperts b ∧ ccHasBias b = true) ∧
    (let x : Fp := .inf true; let l : List (Bool × Nat × Int) := [(false, 0, 0), (true, 0, 5), (true, 3, -2), (false, 3, 4), (false, 1, 4), (false, 8, 1), (true, 7, 9)]; x ≠ .nan) ∧
    (let x : Fp := .inf false; let l : List (Bool × Nat × Int) := [(false, 0, 0), (true, 0, 5), (true, 3, -2), (false, 3, 4), (false, 1, 4), (false, 8, 1), (true, 7, 9)]; x ≠ .nan) ∧
    (let x : Fp := .num true 0 0; let l : List (Bool × Nat × Int) := [(false, 0, 0), (true, 0, 5), (true, 3, -2), (false, 3, 4), (false, 1, 4), (false, 8, 1), (true, 7, 9)]; x ≠ .nan) ∧
    (let z : List Fp := [.inf true, .nan, dec32 0x3F800000, dec32 0x3F800000]; let bias : Option (List Fp) := none; let key : Nat → Fp := fun e => match bias with | none => (z[e]?).getD .nan | some b => rne32 (fpAdd ((z[e]?).getD .nan) ((b[e]?).getD .nan)); (∀ b, bias = some b → b.length = z.length) ∧ 2 ≤ z.length ∧ ∀ e, e < z.length → key e = (match bias with | none => (z[e]?).getD .nan | some b => rne32 (fpAdd ((z[e]?).getD .nan) ((b[e]?).getD .nan)))) ∧
    (let z : List Fp := [.inf true, .nan, dec32 0x3F800000, dec32 0x3F800000]; let bias : Option (List Fp) := some [dec32 0, dec32 0, dec32 0, dec32 0x40000000]; let key : Nat → Fp := fun e => match bias with | none => (z[e]?).getD .nan | some b => rne32 (fpAdd ((z[e]?).getD .nan) ((b[e]?).getD .nan)); (∀ b, bias = some b → b.length = z.length) ∧ 2 ≤ z.length ∧ ∀ e, e < z.length → key e = (match bias with | none => (z[e]?).getD .nan | some b => rne32 (fpAdd ((z[e]?).getD .nan) ((b[e]?).getD .nan)))) ∧
    (let a : CardRun := { s := tCard 1 0 false, c := { seq := 0, ccb := tCcb 1 0, members := [0], experts := [0], digest := 0, step := 0, group := 0 } }; a.stop = none ∧ poisonAt a.s (logitAt a.c.ccb 0).1 (logitAt a.c.ccb 0).2 = false) := by decide +kernel

theorem test_hyps_CollectivesEnd :
    (let s : State := tCollState 1 0; let peers : List Contrib := []; collGoes s 1 (fun o t c => match clRun t ⟨16, o, 0, false⟩ c peers with | .done u _ _ => (opAt u 16 o.seq).isSome | _ => false) = true) ∧
    (let s : State := tCollState 2 0; let peers : List Contrib := []; collGoes s 2 (fun o t c => match clRun t ⟨16, o, 0, false⟩ c peers with | .done u _ _ => (opAt u 16 o.seq).isSome | _ => false) = true) ∧
    (let s : State := tCollState 3 0; let peers : List Contrib := []; collGoes s 3 (fun o t c => match clRun t ⟨16, o, 0, false⟩ c peers with | .done u _ _ => (opAt u 16 o.seq).isSome | _ => false) = true) ∧
    (let s : State := tCollState 4 0; let peers : List Contrib := []; collGoes s 4 (fun o t c => match clRun t ⟨16, o, 0, false⟩ c peers with | .done u _ _ => (opAt u 16 o.seq).isSome | _ => false) = true) ∧
    (let s : State := tCollState 5 0; let peers : List Contrib := []; collGoes s 5 (fun o t c => match clRun t ⟨16, o, 0, false⟩ c peers with | .done u _ _ => (opAt u 16 o.seq).isSome | _ => false) = true) ∧
    (let s : State := tCollState 1 1; let peers : List Contrib := []; collGoes s 1 (fun o t c => match clRun t ⟨16, o, 0, false⟩ c peers with | .waits => decide (o.seq = 0) | _ => false) = true) ∧
    (let s : State := tCollState 1 1; let peers : List Contrib := [{ member := 0, step := 0, id := 9, abort := true }, { member := 1, step := 0, id := 9, abort := true }]; collGoes s 1 (fun o t c => match clRun t ⟨16, o, 0, false⟩ c peers with | .stopped u _ _ => (opAt u 16 o.seq).isSome | _ => false) = true) ∧
    (let c : Coll := { kind := 1, inFmt := 0xC, outFmt := 0xC, count := 4, step := 7, id := 9, members := [0, 1, 2], inPtr := 0, outPtr := 0 }; let y : Contrib := ⟨1, 7, 9, false, true, true, false, []⟩; let x : Contrib := ⟨2, 7, 9, true, true, true, false, []⟩; 2 ∈ clOthers c 0 ∧ x.member = 2 ∧ ((clOthers c 0).filter (fun k => decide (k < 2))).all (fun k => decide (y ∈ [y] ∧ y.member = k ∧ y.abort = false ∧ y.step = c.step ∧ y.id = c.id ∧ y.poisoned = false)) = true ∧ x.abort = true) ∧
    (let c : Coll := { kind := 1, inFmt := 0xC, outFmt := 0xC, count := 4, step := 7, id := 9, members := [0, 1, 2], inPtr := 0, outPtr := 0 }; let y : Contrib := ⟨1, 7, 9, false, true, true, false, []⟩; let x : Contrib := ⟨2, 8, 9, false, true, true, true, []⟩; 2 ∈ clOthers c 0 ∧ x.member = 2 ∧ ((clOthers c 0).filter (fun k => decide (k < 2))).all (fun k => decide (y ∈ [y] ∧ y.member = k ∧ y.abort = false ∧ y.step = c.step ∧ y.id = c.id ∧ y.poisoned = false)) = true ∧ x.abort = false ∧ (x.step ≠ c.step ∨ x.id ≠ c.id)) ∧
    (let c : Coll := { kind := 1, inFmt := 0xC, outFmt := 0xC, count := 4, step := 7, id := 9, members := [0, 1, 2], inPtr := 0, outPtr := 0 }; let y : Contrib := ⟨1, 7, 9, false, true, true, false, []⟩; let x : Contrib := ⟨2, 7, 8, false, true, true, true, []⟩; 2 ∈ clOthers c 0 ∧ x.member = 2 ∧ ((clOthers c 0).filter (fun k => decide (k < 2))).all (fun k => decide (y ∈ [y] ∧ y.member = k ∧ y.abort = false ∧ y.step = c.step ∧ y.id = c.id ∧ y.poisoned = false)) = true ∧ x.abort = false ∧ (x.step ≠ c.step ∨ x.id ≠ c.id)) ∧
    (let c : Coll := { kind := 1, inFmt := 0xC, outFmt := 0xC, count := 4, step := 7, id := 9, members := [0, 1, 2], inPtr := 0, outPtr := 0 }; let y : Contrib := ⟨1, 7, 9, false, true, true, false, []⟩; let x : Contrib := ⟨2, 7, 9, false, true, true, true, []⟩; 2 ∈ clOthers c 0 ∧ x.member = 2 ∧ ((clOthers c 0).filter (fun k => decide (k < 2))).all (fun k => decide (y ∈ [y] ∧ y.member = k ∧ y.abort = false ∧ y.step = c.step ∧ y.id = c.id ∧ y.poisoned = false)) = true ∧ x.abort = false ∧ x.step = c.step ∧ x.id = c.id ∧ x.poisoned = true) ∧
    (3 ≤ 3 ∧ [[3, 5], [6, 1]].length < 3) ∧
    (3 ≤ 5 ∧ ([] : List (List Nat)).length < 1) := by decide +kernel

theorem test_hyps_PlacementIsAgreedAndMade_1 :
    (let s : State := tPlace;let peers : List Join := []; placeGoes s (fun t d own => (List.range d.members.length).any (fun r => decide (r ≠ jobRank t d ∧ peers.any (fun y => y.rank == r) = false)) && decide (own = own)) = true) := by decide +kernel

theorem test_hyps_PlacementIsAgreedAndMade_2 :
    (let s : State := tPlace; placeGoes s (fun t d own => let peers : List Join := (List.range 4).map (fun r => Join.mk r own); let l := List.replicate 4 own; decide ((List.range d.members.length).map (fun r => if r = jobRank t d then some own else ((peers).find? (fun y => y.rank == r)).map (·.record)) = (l.map some) ∧ joinBad 0 own l = none) && (jobOf t 1 d).isSome) = true) := by decide +kernel

theorem test_hyps_PlacementIsAgreedAndMade_3 :
    (let s : State := tPlace; placeGoes s (fun t d own => let peers : List Join := (List.range 4).map (fun r => Join.mk r (own + 2 ^ 352)); let l := (List.range 4).map (fun r => if r = jobRank t d then own else own + 2 ^ 352); decide ((List.range d.members.length).map (fun r => if r = jobRank t d then some own else ((peers).find? (fun y => y.rank == r)).map (·.record)) = (l.map some)) && (joinBad 0 own l).isSome) = true) := by decide +kernel

theorem test_hyps_PlacementIsAgreedAndMade_4 :
    ((2 ^ 331 + 2 < 2 ^ 512) ∧ ∀ r ∈ [2 ^ 331 + 2, 2 ^ 331 + 2], r < 2 ^ 512) := by decide +kernel

theorem test_hyps_PlacementIsAgreedAndMade_5 :
    ((2 < 2 ^ 512) ∧ ∀ r ∈ [2, 2], r < 2 ^ 512) := by decide +kernel

theorem test_hyps_PlacementIsAgreedAndMade_6 :
    (let j := tJob tS [{ rec_ := tDense, regions := [tRegion] }]; let o : Op := { tOp 6 (fld 3 504 8 + sy 0 5 0xFFFF0001) with progress := .waiting }; let s : State := tPlaced { setEnt tS 0x302809 5 with queues := [(16, tQ [o])] } j { frozen := some 7 }; let peers : List Contrib := ((List.range 4).flatMap (fun r => [{ member := r, step := 0, id := 0, data := natLe 4 7 }, { member := 4 + r, step := 0, id := 0, data := natLe 4 (0xFFFFFFFF - 7) }])); let u : State := modJob (modPart s 0 (fun y => { y with frozen := some (((partOf s 0).frozen).getD (stepDigest s 0)) })) 0 (fun y => { y with gradDue := [] }); waitingArrival s 0 = some (16, tQ [o], o) ∧ (partOf s 0).job = some j ∧ 1 < groupSize s 0 ∧ j.gradDue = [] ∧ pleWorks u j = false ∧ (agreeRound u 0 j (((partOf s 0).frozen).getD (stepDigest s 0)) peers).isSome = true) := by decide +kernel

theorem test_hyps_PlacementIsAgreedAndMade_7 :
    (let j := tJob tS [{ rec_ := tDense, regions := [tRegion] }]; let o : Op := { tOp 6 (fld 3 504 8 + sy 0 5 0xFFFF0001) with progress := .waiting }; let s : State := tPlaced { setEnt tS 0x302809 5 with queues := [(16, tQ [o])] } j { frozen := some 7 }; let peers : List Contrib := ((List.range 4).flatMap (fun r => [{ member := r, step := 0, id := 0, data := natLe 4 7 }, { member := 4 + r, step := 0, id := 0, data := natLe 4 (0xFFFFFFFF - 6) }])); let u : State := modJob (modPart s 0 (fun y => { y with frozen := some (((partOf s 0).frozen).getD (stepDigest s 0)) })) 0 (fun y => { y with gradDue := [] }); waitingArrival s 0 = some (16, tQ [o], o) ∧ (partOf s 0).job = some j ∧ 1 < groupSize s 0 ∧ j.gradDue = [] ∧ pleWorks u j = false ∧ (agreeRound u 0 j (((partOf s 0).frozen).getD (stepDigest s 0)) peers).isSome = true) := by decide +kernel

theorem test_hyps_PlacementIsAgreedAndMade_8 :
    (let j := tJob tS [{ rec_ := tDense, regions := [tRegion] }]; let o : Op := { tOp 6 (fld 3 504 8 + sy 0 5 0xFFFF0001) with progress := .waiting }; let s : State := tPlaced { setEnt tS 0x302809 5 with queues := [(16, tQ [o])] } j { frozen := some 7 }; let peers : List Contrib := []; let u : State := modJob (modPart s 0 (fun y => { y with frozen := some (((partOf s 0).frozen).getD (stepDigest s 0)) })) 0 (fun y => { y with gradDue := [] }); waitingArrival s 0 = some (16, tQ [o], o) ∧ (partOf s 0).job = some j ∧ 1 < groupSize s 0 ∧ j.gradDue = [] ∧ pleWorks u j = false ∧ (agreeRound u 0 j (((partOf s 0).frozen).getD (stepDigest s 0)) peers).isSome = false) := by decide +kernel

theorem test_hyps_PlacementIsAgreedAndMade_9 :
    (let j := tJob tS [{ rec_ := tDense, regions := [tRegion] }]; let o : Op := { tOp 6 (fld 3 504 8 + sy 0 5 0xFFFF0001) with progress := .waiting }; let s : State := tPlaced { setEnt tS 0x302809 5 with queues := [(16, tQ [o])] } j { frozen := some 7 }; let peers : List Contrib := ((List.range 4).flatMap (fun r => [{ member := r, step := 0, id := 0, data := natLe 4 7 }, { member := 4 + r, step := 0, id := 0, data := natLe 4 (0xFFFFFFFF - 7) }])); let u : State := modJob (modPart s 0 (fun y => { y with frozen := some (((partOf s 0).frozen).getD (stepDigest s 0)) })) 0 (fun y => { y with gradDue := [] }); 7 < 2 ^ 32 ∧ peers.all (fun y => !y.poisoned && !y.abort) = true ∧ ((List.range j.members.length).filter (fun r => decide (r ≠ j.rank))).all (fun r => decide ((peers.find? (fun y => y.member == r)).map (fun y => leNat (y.data.take 4)) = some 7 ∧ (peers.find? (fun y => y.member == j.members.length + r)).map (fun y => leNat (y.data.take 4)) = some (0xFFFFFFFF - 7))) = true) := by decide +kernel

theorem test_hyps_PlacementIsAgreedAndMade_10 :
    (5 ≤ 4 * 2) := by decide +kernel

theorem test_hyps_PlacementIsAgreedAndMade_11 :
    (0 ≤ 0 * 3) := by decide +kernel

theorem test_hyps_PlacementIsAgreedAndMade_12 :
    (8 ≤ 4 * 2) := by decide +kernel

theorem test_hyps_LayersAreEnteredAndLeft :
    (let l : Layer := { rec_ := tDense, regions := [tRegion], choices := [1] }; let j := tJob tS [l, l, { l with inForward := true }]; let s : State := tPlaced (withOp tS 10 (fld 2 504 8 + fld 0 503 1)) j {}; goes (startHead s 16 0x0A 2 .ready) (fun x o _ t => (match markerOf t x.partition o with | .ok y => decide (y = (j, 0)) | .error _ => false) && decide ((partOf t x.partition).job = some j ∧ bit o.body 503 = false) && bufferBusy t j 0) = true) ∧
    (let l : Layer := { rec_ := tDense, regions := [tRegion], choices := [0, 2] }; let j := tJob tS [l]; let s : State := tPlaced (withOp tS 10 (fld 2 504 8 + fld 0 503 1)) j {}; goes (startHead s 16 0x0A 2 .ready) (fun x o _ t => (match markerOf t x.partition o with | .ok y => decide (y = (j, 0)) | .error _ => false) && decide ((partOf t x.partition).job = some j ∧ bit o.body 503 = false) && decide (bufferBusy t j 0 = false) && (match gatherLayer t x.partition 16 o 0 false [] with | .done v _ => decide (nextLayers j 0 (pEnt v 0x3038 8 x.partition) false = []) | _ => false)) = true) ∧
    (let l : Layer := { rec_ := tDense, regions := [tRegion], recording := true, recorded := [⟨fld 3 272 8 + 2, 0, 1, 2⟩] }; let j := tJob tS [l]; let s : State := tPlaced (withOp tS 10 (fld 3 504 8 + fld 0 503 1)) j {}; goes (startHead s 16 0x0A 3 .ready) (fun x o _ t => (match markerOf t x.partition o with | .ok y => decide (y = (j, 0)) | .error _ => false) && decide ((partOf t x.partition).job = some j ∧ bit o.body 503 = false) && decide (offClasses (layerAt j 0) = [] ∧ recordedBad (layerAt j 0) = none)) = true) ∧
    (let l : Layer := { rec_ := tDense, regions := [tRegion], recording := true, recorded := [⟨fld 4 272 8 + 2, 0, 1, 2⟩] }; let j := tJob tS [l]; let s : State := tPlaced (withOp tS 10 (fld 3 504 8 + fld 0 503 1)) j {}; goes (startHead s 16 0x0A 3 .ready) (fun x o _ t => (match markerOf t x.partition o with | .ok y => decide (y = (j, 0)) | .error _ => false) && decide ((partOf t x.partition).job = some j ∧ bit o.body 503 = false) && decide (offClasses (layerAt j 0) = [] ∧ (layerAt j 0).recording = true) && (recordedBad (layerAt j 0)).isSome) = true) ∧
    (let l : Layer := { rec_ := tDense, regions := [tRegion], choices := [1], offloaded := [0] }; let j := tJob tS [l]; let s : State := tPlaced (withOp tS 10 (fld 2 504 8 + fld 1 503 1)) j {}; goes (startHead s 16 0x0A 2 .ready) (fun x o _ t => (match markerOf t x.partition o with | .ok y => decide (y = (j, 0)) | .error _ => false) && decide ((partOf t x.partition).job = some j ∧ bit o.body 503 = true) && decide (bufferBusy t j 0 = false ∧ (layerAt j 0).offloaded ≠ [] ∧ (layerAt j 0).returning = false)) = true) ∧
    (let l : Layer := { rec_ := tDense, regions := [tRegion], choices := [0, 0] }; let j := tJob tS [l]; let s : State := tPlaced (withOp tS 10 (fld 2 504 8 + fld 1 503 1)) j {}; goes (startHead s 16 0x0A 2 .ready) (fun x o _ t => (match markerOf t x.partition o with | .ok y => decide (y = (j, 0)) | .error _ => false) && decide ((partOf t x.partition).job = some j ∧ bit o.body 503 = true) && decide (bufferBusy t j 0 = false ∧ (layerAt j 0).offloaded = [] ∧ (layerAt j 0).choices[1]? ≠ some 2) && (match gatherLayer t x.partition 16 o 0 true [] with | .done v _ => decide (nextLayers j 0 (pEnt v 0x3038 8 x.partition) true = []) | _ => false)) = true) ∧
    (let l : Layer := { rec_ := tDense, regions := [tRegion], inBackward := true }; let j := tJob tS [{ l with regions := [tRegion - 1] }]; let s : State := tPlaced (withOp tS 10 (fld 3 504 8 + fld 1 503 1)) j {}; goes (startHead s 16 0x0A 3 .ready) (fun x o _ t => (match markerOf t x.partition o with | .ok y => decide (y = (j, 0)) | .error _ => false) && decide ((partOf t x.partition).job = some j ∧ bit o.body 503 = true) && true) = true) := by decide +kernel

theorem test_hyps_DecisionsAndReshards_1 :
    ((placeExperts [9, 0, 1] 2 2).isSome = true) := by decide +kernel

theorem test_hyps_DecisionsAndReshards_2 :
    (let l : Layer := { rec_ := tRouted 4 2, regions := [], map := [[(0, 0)], [(1, 0)], [(2, 0)], [(3, 0)]], snap := some [900, 0, 0, 0] }; let j : Job := { tJob tS [l] with vote := true }; let s : State := tPlaced tS j {}; let own : List Nat := [900, 0, 0, 0]; let peers : List (List Nat) := [own, own, own]; (partOf s 0).job = some j ∧ (adaptiveLayers j).contains 0 = true ∧ (layerAt j 0).snap = some own ∧ peers.length + 1 = (jobGroup j).length ∧ peers.all (fun y => decide (y.length = own.length)) = true ∧ (placeExperts (sumLoads own peers) (jobGroup j).length (lySlots (layerAt j 0).rec_)).any (fun r => gainEnough r.2 (mapLoad (sumLoads own peers) (jobGroup j).length (layerAt j 0).map) (pEnt s 0x3038 3 0)) = true) := by decide +kernel

theorem test_hyps_DecisionsAndReshards_3 :
    (let l : Layer := { rec_ := tRouted 4 1, regions := [], map := [[(0, 0)], [(1, 0)], [(2, 0)], [(3, 0)]], snap := some [1, 1, 1, 1] }; let j : Job := { tJob tS [l] with vote := true }; let s : State := tPlaced tS j {}; let own : List Nat := [1, 1, 1, 1]; let peers : List (List Nat) := [own, own, own]; (partOf s 0).job = some j ∧ (adaptiveLayers j).contains 0 = true ∧ (layerAt j 0).snap = some own ∧ peers.length + 1 = (jobGroup j).length ∧ peers.all (fun y => decide (y.length = own.length)) = true ∧ (placeExperts (sumLoads own peers) (jobGroup j).length (lySlots (layerAt j 0).rec_)).any (fun r => !gainEnough r.2 (mapLoad (sumLoads own peers) (jobGroup j).length (layerAt j 0).map) (pEnt s 0x3038 3 0)) = true) := by decide +kernel

theorem test_hyps_DecisionsAndReshards_4 :
    (let l : Layer := { rec_ := tRouted 4 0, regions := [], map := [[(0, 0)], [(1, 0)], [(2, 0)], [(3, 0)]], snap := some [1, 1, 1, 1] }; let j : Job := { tJob tS [l] with vote := true }; let s : State := tPlaced tS j {}; let own : List Nat := [1, 1, 1, 1]; let peers : List (List Nat) := [own, own, own]; (partOf s 0).job = some j ∧ (adaptiveLayers j).contains 0 = true ∧ (layerAt j 0).snap = some own ∧ peers.length + 1 = (jobGroup j).length ∧ peers.all (fun y => decide (y.length = own.length)) = true ∧ placeExperts (sumLoads own peers) (jobGroup j).length (lySlots (layerAt j 0).rec_) = none) := by decide +kernel

theorem test_hyps_DecisionsAndReshards_5 :
    (let l : Layer := { rec_ := tRouted 4 1, regions := [], map := [[(0, 0)], [(1, 0)], [(2, 0)], [(3, 0)]] }; let j : Job := { tJob tS [l] with vote := true }; let s : State := tPlaced tS j {}; (partOf s 0).job = some j ∧ (layerAt j 0).snap = none ∧ j.adopting = []) := by decide +kernel

theorem test_hyps_DecisionsAndReshards_6 :
    (let l : Layer := { rec_ := tRouted 4 1, regions := [], map := [[(0, 0)], [(1, 0)], [(2, 0)], [(3, 0)]] }; let j : Job := { tJob tS [l] with adopting := [(0, [[(1, 0)], [(0, 0)], [(2, 0)], [(3, 0)]], 3)], changed := true }; let s : State := tPlaced tS j {};let new := [[(1, 0)], [(0, 0)], [(2, 0)], [(3, 0)]]; let votes : List Nat := [1, 1, 1]; (partOf s 0).job = some j ∧ j.adopting = [(0, new, 3)] ∧ votes.length + 1 = (jobGroup j).length ∧ groupAcked s j.group = true ∧ votes.all (· == 1) = true ∧ j.vote = true ∧ groupErr s j.group = false ∧ 0 < j.layers.length) := by decide +kernel

theorem test_hyps_DecisionsAndReshards_7 :
    (let l : Layer := { rec_ := tRouted 4 1, regions := [], map := [[(0, 0)], [(1, 0)], [(2, 0)], [(3, 0)]] }; let j : Job := { tJob tS [l] with adopting := [(0, [[(1, 0)], [(0, 0)], [(2, 0)], [(3, 0)]], 3)], changed := true }; let s : State := tPlaced tS j {};let new := [[(1, 0)], [(0, 0)], [(2, 0)], [(3, 0)]]; let votes : List Nat := [1, 0, 1]; (partOf s 0).job = some j ∧ j.adopting = [(0, new, 3)] ∧ votes.length + 1 = (jobGroup j).length ∧ groupAcked s j.group = true ∧ votes.all (· == 1) = false) := by decide +kernel

theorem test_hyps_DecisionsAndReshards_8 :
    (let l : Layer := { rec_ := tRouted 4 1, regions := [], map := [[(0, 0)], [(1, 0)], [(2, 0)], [(3, 0)]] }; let j : Job := { tJob tS [l] with adopting := [(0, [], 3)] }; let s : State := tPlaced tS j {}; (partOf s 0).job = some j ∧ j.adopting = [(0, [], 3)] ∧ [1].length + 1 ≠ (jobGroup j).length) := by decide +kernel

theorem test_hyps_AtomicsOfQueues :
    (let s : State := withOp (tFab tS) 0x0B (tAtomic tS (ownDev tS) 1 1 0); goes (startHead s 16 0x0B 0 .ready) (fun x o _ t => decide (x.partition = 0 ∧ amKind o.body = 1 ∧ amFormBad t o.body = false ∧ (amResult o.body ≠ 0 → ptrOk t o.owner (amResult o.body) (amBytes o.body) .write = true) ∧ amRack o.body = ownRack t ∧ raDev (amAddr o.body) = ownDev t ∧ winOk t o.owner (raOff (amAddr o.body)) (amBytes o.body) .atomic = true ∧ poisonAt t (raOff (amAddr o.body)) (amBytes o.body) = false)) = true) ∧
    (let s : State := withOp (tFab tS) 0x0B (tAtomic tS (ownDev tS) 2 0 0); goes (startHead s 16 0x0B 0 .ready) (fun x o _ t => decide (x.partition = 0 ∧ amKind o.body = 2 ∧ amFormBad t o.body = false ∧ (amResult o.body ≠ 0 → ptrOk t o.owner (amResult o.body) (amBytes o.body) .write = true) ∧ amRack o.body = ownRack t ∧ raDev (amAddr o.body) = ownDev t ∧ winOk t o.owner (raOff (amAddr o.body)) (amBytes o.body) .atomic = true ∧ poisonAt t (raOff (amAddr o.body)) (amBytes o.body) = false)) = true) ∧
    (let s : State := withOp (tFab tS) 0x0B (tAtomic tS (ownDev tS) 3 1 0); goes (startHead s 16 0x0B 0 .ready) (fun x o _ t => decide (x.partition = 0 ∧ amKind o.body = 3 ∧ amFormBad t o.body = false ∧ (amResult o.body ≠ 0 → ptrOk t o.owner (amResult o.body) (amBytes o.body) .write = true) ∧ amRack o.body = ownRack t ∧ raDev (amAddr o.body) = ownDev t ∧ winOk t o.owner (raOff (amAddr o.body)) (amBytes o.body) .atomic = true ∧ poisonAt t (raOff (amAddr o.body)) (amBytes o.body) = false)) = true) ∧
    (let s : State := withOp (tFab tS) 0x0B (tAtomic tS (ownDev tS) 4 1 8192); goes (startHead s 16 0x0B 0 .ready) (fun x o _ t => decide (x.partition = 0 ∧ amKind o.body = 4 ∧ amFormBad t o.body = false ∧ (amResult o.body ≠ 0 → ptrOk t o.owner (amResult o.body) (amBytes o.body) .write = true) ∧ amRack o.body = ownRack t ∧ raDev (amAddr o.body) = ownDev t ∧ winOk t o.owner (raOff (amAddr o.body)) (amBytes o.body) .atomic = true ∧ poisonAt t (raOff (amAddr o.body)) (amBytes o.body) = false)) = true) ∧
    (let s : State := withOp (tFab tS) 0x0B (tAtomic tS (ownDev tS) 5 1 0); goes (startHead s 16 0x0B 0 .ready) (fun x o _ t => decide (x.partition = 0 ∧ amKind o.body = 5 ∧ amFormBad t o.body = false ∧ (amResult o.body ≠ 0 → ptrOk t o.owner (amResult o.body) (amBytes o.body) .write = true) ∧ amRack o.body = ownRack t ∧ raDev (amAddr o.body) = ownDev t ∧ winOk t o.owner (raOff (amAddr o.body)) (amBytes o.body) .atomic = true ∧ poisonAt t (raOff (amAddr o.body)) (amBytes o.body) = false)) = true) ∧
    (let s : State := withOp (tFab tS) 0x0B (tAtomic tS (ownDev tS) 6 1 0); goes (startHead s 16 0x0B 0 .ready) (fun x o _ t => decide (x.partition = 0 ∧ amKind o.body = 6 ∧ amFormBad t o.body = false ∧ (amResult o.body ≠ 0 → ptrOk t o.owner (amResult o.body) (amBytes o.body) .write = true) ∧ amRack o.body = ownRack t ∧ raDev (amAddr o.body) = ownDev t ∧ winOk t o.owner (raOff (amAddr o.body)) (amBytes o.body) .atomic = true ∧ poisonAt t (raOff (amAddr o.body)) (amBytes o.body) = false)) = true) ∧
    (let s : State := withOp (tFab tS) 0x0B (tAtomic tS (ownDev tS) 7 1 0); goes (startHead s 16 0x0B 0 .ready) (fun x o _ t => decide (x.partition = 0 ∧ amKind o.body = 7 ∧ amFormBad t o.body = false ∧ (amResult o.body ≠ 0 → ptrOk t o.owner (amResult o.body) (amBytes o.body) .write = true) ∧ amRack o.body = ownRack t ∧ raDev (amAddr o.body) = ownDev t ∧ winOk t o.owner (raOff (amAddr o.body)) (amBytes o.body) .atomic = true ∧ poisonAt t (raOff (amAddr o.body)) (amBytes o.body) = false)) = true) ∧
    (let s : State := withOp (tFab tS) 0x0B (tAtomic tS (ownDev tS) 8 1 0); goes (startHead s 16 0x0B 0 .ready) (fun x o _ t => decide (x.partition = 0 ∧ amKind o.body = 8 ∧ amFormBad t o.body = false ∧ (amResult o.body ≠ 0 → ptrOk t o.owner (amResult o.body) (amBytes o.body) .write = true) ∧ amRack o.body = ownRack t ∧ raDev (amAddr o.body) = ownDev t ∧ winOk t o.owner (raOff (amAddr o.body)) (amBytes o.body) .atomic = true ∧ poisonAt t (raOff (amAddr o.body)) (amBytes o.body) = false)) = true) ∧
    (let s : State := withOp (tFab tS) 0x0B (tAtomic tS (ownDev tS) 9 1 0); goes (startHead s 16 0x0B 0 .ready) (fun x o _ t => decide (x.partition = 0 ∧ amKind o.body = 9 ∧ amFormBad t o.body = false ∧ (amResult o.body ≠ 0 → ptrOk t o.owner (amResult o.body) (amBytes o.body) .write = true) ∧ amRack o.body = ownRack t ∧ raDev (amAddr o.body) = ownDev t ∧ winOk t o.owner (raOff (amAddr o.body)) (amBytes o.body) .atomic = true ∧ poisonAt t (raOff (amAddr o.body)) (amBytes o.body) = false)) = true) ∧
    (let s : State := withOp (tFab tS) 0x0B (tAtomic tS (ownDev tS) 10 1 0); goes (startHead s 16 0x0B 0 .ready) (fun x o _ t => decide (x.partition = 0 ∧ amKind o.body = 10 ∧ amFormBad t o.body = false ∧ (amResult o.body ≠ 0 → ptrOk t o.owner (amResult o.body) (amBytes o.body) .write = true) ∧ amRack o.body = ownRack t ∧ raDev (amAddr o.body) = ownDev t ∧ winOk t o.owner (raOff (amAddr o.body)) (amBytes o.body) .atomic = true ∧ poisonAt t (raOff (amAddr o.body)) (amBytes o.body) = false)) = true) ∧
    (let s : State := withOp (tFab tS) 0x0B (tAtomic tS (ownDev tS) 11 1 0); goes (startHead s 16 0x0B 0 .ready) (fun x o _ t => decide (x.partition = 0 ∧ amKind o.body = 11 ∧ amFormBad t o.body = false ∧ (amResult o.body ≠ 0 → ptrOk t o.owner (amResult o.body) (amBytes o.body) .write = true) ∧ amRack o.body = ownRack t ∧ raDev (amAddr o.body) = ownDev t ∧ winOk t o.owner (raOff (amAddr o.body)) (amBytes o.body) .atomic = true ∧ poisonAt t (raOff (amAddr o.body)) (amBytes o.body) = false)) = true) ∧
    (let s : State := { withOp (tFab tS) 0x0B (tAtomic tS 5 1 1 0) with fab := { (withOp (tFab tS) 0x0B (tAtomic tS 5 1 1 0)).fab with rwins := [(16, fld (ownRack tS) 200 8 + fld 63 194 6 + fld 31 180 5 + fld (2 ^ 38) 39 39)] } }; goes (startHead s 16 0x0B 0 .ready) (fun x o _ t => decide (x.partition = 0 ∧ amKind o.body = 1 ∧ amFormBad t o.body = false ∧ (amResult o.body ≠ 0 → ptrOk t o.owner (amResult o.body) (amBytes o.body) .write = true) ∧ amRack o.body = ownRack t ∧ raDev (amAddr o.body) ≠ ownDev t ∧ (guardWin t o.owner (amRack o.body) (raDev (amAddr o.body)) (raOff (amAddr o.body)) (amBytes o.body) .atomic).isSome = true ∧ t.fab.atomWait.any (fun y => y.1 == raDev (amAddr o.body)) = false ∧ (freeSlot t (raDev (amAddr o.body))).isSome = true)) = true) ∧
    (let s : State := let s0 : State := { withOp (tFab tS) 0x0B (tAtomic tS 5 1 1 0) with fab := { (withOp (tFab tS) 0x0B (tAtomic tS 5 1 1 0)).fab with rwins := [(16, fld (ownRack tS) 200 8 + fld 63 194 6 + fld 31 180 5 + fld (2 ^ 38) 39 39)] } }; { s0 with fab := { s0.fab with slots := (List.range 256).map (fun i => (slotKey 5 i, AtomSlot.mk 1 0 17 0)) } }; goes (startHead s 16 0x0B 0 .ready) (fun x o _ t => decide (x.partition = 0 ∧ amKind o.body = 1 ∧ amFormBad t o.body = false ∧ (amResult o.body ≠ 0 → ptrOk t o.owner (amResult o.body) (amBytes o.body) .write = true) ∧ amRack o.body = ownRack t ∧ raDev (amAddr o.body) ≠ ownDev t ∧ (guardWin t o.owner (amRack o.body) (raDev (amAddr o.body)) (raOff (amAddr o.body)) (amBytes o.body) .atomic).isSome = true ∧ freeSlot t (raDev (amAddr o.body)) = none)) = true) ∧
    (goes (startHead (let s0 : State := withOp tS 0x0C (fld 1 419 1); { s0 with fab := { s0.fab with lines := [{ addr := 4096, owner := 1, state := 1, data := [] }] } }) 16 0x0C 0 .ready) (fun _ o _ t => decide (t.fab.lines.all (fun y => decide (y.owner = o.owner → y.state ≠ 2)) = true)) = true) := by decide +kernel

theorem test_hyps_PortsTrainAndFail :
    ((let port := 20; let rate := 1; let n := 8; let s : State := tPort port (fun y => y); let x := portOf s port; let m := trainedLanes x (min n (portLanes port)); decide (x = portOf s port ∧ port < 21 ∧ portPowered s port = true ∧ x.state = 1 ∧ rate = (if x.highRate = true ∨ 19 ≤ port then 1 else 0) ∧ m = trainedLanes x (min n (portLanes port)) ∧ portMinLanes s port ≤ popCount m 32 ∧ 19 ≤ port)) = true) ∧
    ((let port := 3; let rate := 0; let n := 8; let s : State := tPort port (fun y => y); let x := portOf s port; let m := trainedLanes x (min n (portLanes port)); decide (x = portOf s port ∧ port < 21 ∧ portPowered s port = true ∧ x.state = 1 ∧ rate = (if x.highRate = true ∨ 19 ≤ port then 1 else 0) ∧ m = trainedLanes x (min n (portLanes port)) ∧ portMinLanes s port ≤ popCount m 32 ∧ port < 19 ∧ x.highRate = false)) = true) ∧
    ((let port := 0; let rate := 0; let n := 1; let s : State := tPort port (fun y => y); let x := portOf s port; let m := trainedLanes x (min n (portLanes port)); decide (x = portOf s port ∧ port < 21 ∧ portPowered s port = true ∧ x.state = 1 ∧ rate = (if x.highRate = true ∨ 19 ≤ port then 1 else 0) ∧ m = trainedLanes x (min n (portLanes port)) ∧ portMinLanes s port ≤ popCount m 32 ∧ port < 19 ∧ x.highRate = false)) = true) ∧
    ((let port := 3; let rate := 1; let n := 8; let s : State := tPort port (fun y => { y with highRate := true, peer := tIdentity tS 3 }); let x := portOf s port; let m := trainedLanes x (min n (portLanes port)); decide (x = portOf s port ∧ port < 21 ∧ portPowered s port = true ∧ x.state = 1 ∧ rate = (if x.highRate = true ∨ 19 ≤ port then 1 else 0) ∧ m = trainedLanes x (min n (portLanes port)) ∧ portMinLanes s port ≤ popCount m 32 ∧ port < 19 ∧ x.highRate = true ∧ identityBad s port x.peer = none)) = true) ∧
    ((let port := 20; let s : State := tPort port (fun y => { y with state := 1, trainFails := 1 }); let x := portOf s port;  decide (x = portOf s port ∧ port < 21 ∧ (x.state = 1 ∨ x.state = 2) ∧ x.trainFails < 2)) = true) ∧
    ((let port := 3; let s : State := tPort port (fun y => { y with state := 2, trainFails := 2 }); let x := portOf s port;  decide (x = portOf s port ∧ port < 21 ∧ (x.state = 1 ∨ x.state = 2) ∧ 2 ≤ x.trainFails)) = true) ∧
    ((let port := 18; let s : State := tPort port (fun y => { y with state := 2 }); let x := portOf s port;  decide (x = portOf s port ∧ port < 19 ∧ (portOf s port).state = 2 ∧ bit (2 ^ 320) 320 = true)) = true) ∧
    ((let port := 3; let s : State := tPort port (fun y => { y with state := 5 }); let x := portOf s port;  decide (x = portOf s port ∧ port < 19 ∧ (portOf s port).state = 5 ∧ (identityBad s port (7 % 2 ^ 512)).isSome = true)) = true) ∧
    ((let port := 18; let s : State := tPort port (fun y => { y with state := 3, lanes := 255, rxSeq := 4095 }); let x := portOf s port; let f : Flit := { seq := 4095, ok := true, body := [], ack := 7 }; decide (x = portOf s port ∧ port < 19 ∧ portUp s port = true ∧ f.ok = true ∧ f.seq = x.rxSeq)) = true) ∧
    ((let port := 18; let s : State := tPort port (fun y => { y with state := 3, lanes := 255, replayAsked := 14 }); let x := portOf s port; let f : Flit := { seq := 0, ok := false, body := [], ack := 7 }; decide (x = portOf s port ∧ port < 19 ∧ portUp s port = true ∧ f.ok = false ∧ x.replayAsked < 15)) = true) ∧
    ((let port := 18; let s : State := tPort port (fun y => { y with state := 3, lanes := 255, replayAsked := 15 }); let x := portOf s port; let f : Flit := { seq := 0, ok := false, body := [], ack := 7 }; decide (x = portOf s port ∧ port < 19 ∧ portUp s port = true ∧ f.ok = false ∧ x.replayAsked = 15)) = true) ∧
    ((let port := 18; let s : State := tPort port (fun y => { y with state := 3, lanes := 255, reqSeq := 9, reqCount := 14 }); let x := portOf s port; let f : Flit := { seq := 0, ok := true, body := [], ack := 7 }; decide (x = portOf s port ∧ port < 19 ∧ portUp s port = true ∧ x.reqSeq = 9 ∧ x.reqCount < 15)) = true) ∧
    ((let port := 18; let s : State := tPort port (fun y => { y with state := 3, lanes := 255, reqSeq := 9, reqCount := 15 }); let x := portOf s port; let f : Flit := { seq := 0, ok := true, body := [], ack := 7 }; decide (x = portOf s port ∧ port < 19 ∧ portUp s port = true ∧ x.reqSeq = 9 ∧ 15 ≤ x.reqCount)) = true) ∧
    ((let port := 0; let s : State := tPort port (fun y => { y with state := 3, lanes := 3 }); let x := portOf s port; let lane := 1; decide (x = portOf s port ∧ port < 21 ∧ portUp s port = true ∧ lane < portLanes port ∧ bit x.lanes lane = true ∧ portMinLanes s port ≤ popCount (x.lanes - 2 ^ lane) 32)) = true) ∧
    ((let port := 20; let s : State := tPort port (fun y => { y with state := 3, lanes := 15 }); let x := portOf s port; let lane := 3; decide (x = portOf s port ∧ port < 21 ∧ portUp s port = true ∧ lane < portLanes port ∧ bit x.lanes lane = true ∧ popCount (x.lanes - 2 ^ lane) 32 < portMinLanes s port)) = true) ∧
    ((let port := 19; let s : State := tPort port (fun y => { y with state := 3, lanes := 7 }); let x := portOf s port; let lane := 3; decide (x = portOf s port ∧ port < 21 ∧ portUp s port = true ∧ lane < portLanes port ∧ bit x.lanes lane = false ∧ bit x.retired lane = false)) = true) ∧
    ((decide ((19 = 19 ∨ 19 = 20) ∧ 0 < 1)) = true) ∧
    ((decide ((20 = 19 ∨ 20 = 20) ∧ 7 ≠ ent tS 0x2B0605)) = true) ∧
    ((decide (portUp tS 20 = false ∧ (portOf { tS with fab := {} } 20).state ≠ 1)) = true) := by decide +kernel

theorem test_hyps_PacketsAreTakenInOrder :
    ((let s : State := tFab tS; decide ((tPackets s).all (fun k => tNext s 0 k 5) = true ∧ (tPackets s).length = 28)) = true) ∧
    ((let s : State := tRelay; let k := tRelayed s; let key := keyOfPk k; decide (tPasses s 20 k key = true ∧ toRelay s k = true ∧ (relayTake s key k).any (fun v => (heldNext (countApplied v key k) key).isNone) = true ∧ frondState s cdeFrond ≠ .failed ∧ k.dst ≤ 63 ∧ (deviceBuf s (entAt s 0x270101 10) false).2.isSome = true)) = true) ∧
    ((let s : State := tFab tS; let k : Packet := { tPk tS { ty := 3, src := 0, dst := 0, addr := 4096, payload := [9], seq := 0 } with crc := 0 }; decide (portHears s 0 = true ∧ k.eth = decide (19 ≤ 0) ∧ k.version = 2 ∧ (k.eth = true → k.dstRack = ownRack s ∧ k.srcRack ≠ ownRack s) ∧ 5 = keyOfPk k ∧ k.ty = 0x03 ∧ (flowOf s 5).ackDue < 64 ∧ pkCrcOk k = false)) = true) ∧
    ((let s : State := tFab tS; let k : Packet := tPk tS { ty := 3, src := 0, dst := 0, addr := 4096, payload := [9], seq := 0, cmode := 3 }; decide (portHears s 0 = true ∧ k.eth = decide (19 ≤ 0) ∧ k.version = 2 ∧ (k.eth = true → k.dstRack = ownRack s ∧ k.srcRack ≠ ownRack s) ∧ 5 = keyOfPk k ∧ k.ty = 0x03 ∧ (flowOf s 5).ackDue < 64 ∧ pkHeaderOk k = false)) = true) ∧
    ((let s : State := { tFab tS with fab := { (tFab tS).fab with trusted := [] } }; let k : Packet := tPk tS { ty := 3, src := 0, dst := 0, addr := 4096, payload := [9], seq := 0 }; decide (portHears s 0 = true ∧ k.eth = decide (19 ≤ 0) ∧ k.version = 2 ∧ (k.eth = true → k.dstRack = ownRack s ∧ k.srcRack ≠ ownRack s) ∧ 5 = keyOfPk k ∧ k.ty = 0x03 ∧ (flowOf s 5).ackDue < 64 ∧ pkHeaderOk k = true ∧ pkCrcOk k = true ∧ trustedKey s 5 = false)) = true) ∧
    ((let s : State := { tFab tS with fab := { (tFab tS).fab with flows := [(5, { rxNext := 1 })] } }; let k : Packet := tPk tS { ty := 3, src := 0, dst := 0, addr := 4096, payload := [9], seq := 0 }; decide (portHears s 0 = true ∧ k.eth = decide (19 ≤ 0) ∧ k.version = 2 ∧ (k.eth = true → k.dstRack = ownRack s ∧ k.srcRack ≠ ownRack s) ∧ 5 = keyOfPk k ∧ k.ty = 0x03 ∧ (flowOf s 5).ackDue < 64 ∧ pkHeaderOk k = true ∧ pkCrcOk k = true ∧ trustedKey s 5 = true ∧ 2 ^ 31 ≤ (k.seq + 2 ^ 32 - (flowOf s 5).rxNext) % 2 ^ 32)) = true) ∧
    ((let k : Packet := { ty := 3, src := 5, dst := 0 }; decide (portHears tS 0 = false ∧ (flowOf tS (keyOfPk k)).ackDue < 64)) = true) := by decide +kernel

theorem test_hyps_RemoteAccessesActOnce :
    ((let s : State := tFab tS; let k : Packet := tPk s { ty := 3, src := 0, dst := 0, addr := 4096, payload := [9, 8] }; let u := countApplied s 5 k; decide (tNext s 0 k 5 = true ∧ farBad u k (pkOff k) k.payload.length = none)) = true) ∧
    ((let s : State := tFab tS; let k : Packet := tPk s { ty := 4, src := 0, dst := 0, addr := 4096, op := 1, payload := natLe 8 3 }; let u := countApplied s 5 k; decide (tNext s 0 k 5 = true ∧ tget? u.fab.ledger (ledgerKey k) = none ∧ farBad u k (pkOff k) (atomicBytes k) = none ∧ atomicBytes k = 8 ∧ pkOff k % atomicBytes k = 0 ∧ poisonAt u (pkOff k) (atomicBytes k) = false ∧ (atomicResult k.op (atomicBytes k) (rdNat u k.owner (pkOff k) (atomicBytes k)) (leNat (k.payload.take (atomicBytes k))) (leNat (k.payload.drop (atomicBytes k)))).isSome = true)) = true) ∧
    ((let s : State := tFab tS; let k : Packet := tPk s { ty := 4, src := 0, dst := 0, addr := 4096, op := 4, payload := natLe 8 3 }; let u := countApplied s 5 k; decide (tNext s 0 k 5 = true ∧ tget? u.fab.ledger (ledgerKey k) = none ∧ farBad u k (pkOff k) (atomicBytes k) = none ∧ atomicBytes k = 4 ∧ pkOff k % atomicBytes k = 0 ∧ poisonAt u (pkOff k) (atomicBytes k) = false ∧ (atomicResult k.op (atomicBytes k) (rdNat u k.owner (pkOff k) (atomicBytes k)) (leNat (k.payload.take (atomicBytes k))) (leNat (k.payload.drop (atomicBytes k)))).isSome = true)) = true) ∧
    ((let s : State := { tFab tS with fab := { (tFab tS).fab with ledger := [(5 * 256, ⟨1, 0, pkCrc { ty := 4, src := 5, dst := ownDev tS, owner := 1, addr := 4096, op := 1, payload := natLe 8 3 }, 77, 8⟩)] } }; let k : Packet := tPk s { ty := 4, src := 0, dst := 0, addr := 4096, op := 1, payload := natLe 8 3 }; let u := countApplied s 5 k; decide (tNext s 0 k 5 = true ∧ (tget? u.fab.ledger (ledgerKey k)).any (fun e => decide (e.owner = k.owner ∧ e.epoch = k.epoch ∧ e.crc = k.crc)) = true)) = true) ∧
    ((let s : State := { tFab tS with fab := { (tFab tS).fab with ledger := [(5 * 256, ⟨1, 0, pkCrc { ty := 4, src := 5, dst := ownDev tS, owner := 1, addr := 4096, op := 1, payload := natLe 8 3 }, 77, 8⟩)] } }; let k : Packet := tPk s { ty := 6, src := 0, dst := 0, addr := 4096 }; let u := countApplied s 5 k; decide (tNext s 0 k 5 = true ∧ k.ty = 6)) = true) ∧
    ((let s : State := { setEnt (tFab tS) 0x2B0503 1 with fab := { (tFab tS).fab with dir := [] } }; let k : Packet := tPk s { ty := 16, src := 0, dst := 0, addr := 4096 }; let u := countApplied s 5 k; decide (tNext s 0 k 5 = true ∧ cohIn u (raOff k.addr) = true ∧ dirOf u (pkLine k) = {})) = true) ∧
    ((let s : State := { setEnt (tFab tS) 0x2B0503 1 with fab := { (tFab tS).fab with dir := [] } }; let k : Packet := tPk s { ty := 17, src := 0, dst := 0, addr := 4096 }; let u := countApplied s 5 k; decide (tNext s 0 k 5 = true ∧ cohIn u (raOff k.addr) = true ∧ (dirOf u (pkLine k)).busy = false ∧ k.src < 64 ∧ ((dirOf u (pkLine k)).state = 0 ∨ (dirOf u (pkLine k)).state = 1 ∧ (dirOf u (pkLine k)).sharers = 2 ^ k.src))) = true) ∧
    ((let s : State := { setEnt (tFab tS) 0x2B0503 1 with fab := { (tFab tS).fab with dir := [(16, { state := 1, ownerDev := 0, sharers := 32, owner := 1 })] } }; let k : Packet := tPk s { ty := 17, src := 0, dst := 0, addr := 4096 }; let u := countApplied s 5 k; decide (tNext s 0 k 5 = true ∧ cohIn u (raOff k.addr) = true ∧ (dirOf u (pkLine k)).busy = false ∧ k.src < 64 ∧ ((dirOf u (pkLine k)).state = 0 ∨ (dirOf u (pkLine k)).state = 1 ∧ (dirOf u (pkLine k)).sharers = 2 ^ k.src))) = true) ∧
    ((let s : State := { setEnt (tFab tS) 0x2B0503 1 with fab := { (tFab tS).fab with dir := [(16, { state := 1, ownerDev := 0, sharers := 9223372036854775808, owner := 1 })] } }; let k : Packet := tPk s { ty := 17, src := 0, dst := 0, addr := 4096 }; let u := countApplied s 5 k; decide (tNext s 0 k 5 = true ∧ cohIn u (raOff k.addr) = true ∧ (dirOf u (pkLine k)).busy = false ∧ k.src < 64 ∧ 63 ≠ k.src ∧ (dirOf u (pkLine k)).state = 1 ∧ (dirOf u (pkLine k)).sharers = 2 ^ 63)) = true) ∧
    ((let s : State := { setEnt (tFab tS) 0x2B0503 1 with fab := { (tFab tS).fab with dir := [(16, { state := 2, ownerDev := 5, sharers := 0, owner := 1 })] } }; let k : Packet := tPk s { ty := 22, src := 0, dst := 0, addr := 4096, payload := [3, 3] }; let u := countApplied s 5 k; decide (tNext s 0 k 5 = true ∧ (dirOf u (pkLine k)).state = 2 ∧ (dirOf u (pkLine k)).ownerDev = k.src ∧ (dirOf u (pkLine k)).busy = false ∧ k.owner ≠ 0 ∧ keyActive u k.owner = true ∧ tsorted s.fab.dir = true)) = true) := by decide +kernel

theorem test_hyps_FlowsRelaysAndTime :
    ((let s : State := { tFab tS with fab := { (tFab tS).fab with flows := [(5, { txNext := 5 })] } }; let k := tPk s { ty := 13, src := 0, dst := 0, payload := [3, 0, 0, 0] }; decide (portHears s 0 = true ∧ k.eth = decide (19 ≤ 0) ∧ pkHeaderOk k = true ∧ pkCrcOk k = true ∧ 5 = keyOfPk k ∧ k.ty = 0x0D ∧ thas s.fab.flows 5 = true)) = true) ∧
    ((let s : State := { tFab tS with fab := { (tFab tS).fab with flows := [] } }; let k := tPk s { ty := 13, src := 0, dst := 0, payload := [3, 0, 0, 0] }; decide (portHears s 0 = true ∧ k.eth = decide (19 ≤ 0) ∧ pkHeaderOk k = true ∧ pkCrcOk k = true ∧ 5 = keyOfPk k ∧ k.ty = 0x0D ∧ thas s.fab.flows 5 = false)) = true) ∧
    ((let s : State := { tFab tS with fab := { (tFab tS).fab with flows := [] } }; let k := tPk s { ty := 26, src := 0, dst := 0, payload := [3, 0, 0, 0] }; decide (portHears s 0 = true ∧ k.eth = decide (19 ≤ 0) ∧ pkHeaderOk k = true ∧ pkCrcOk k = true ∧ 5 = keyOfPk k ∧ k.ty = 0x1A ∧ k.op = 0)) = true) ∧
    ((let s : State := { tFab tS with fab := { (tFab tS).fab with flows := [(5, { failed := true })] } }; let k := tPk s { ty := 26, src := 0, dst := 0, op := 1, payload := [3, 0, 0, 0] }; decide (portHears s 0 = true ∧ k.eth = decide (19 ≤ 0) ∧ pkHeaderOk k = true ∧ pkCrcOk k = true ∧ 5 = keyOfPk k ∧ k.ty = 0x1A ∧ (flowOf s 5).failed = true)) = true) ∧
    ((let s : State := { tFab tS with fab := { (tFab tS).fab with flows := [] } }; let k := tPk s { ty := 26, src := 0, dst := 0, op := 1, payload := [3, 0, 0, 0] }; decide (portHears s 0 = true ∧ k.eth = decide (19 ≤ 0) ∧ pkHeaderOk k = true ∧ pkCrcOk k = true ∧ 5 = keyOfPk k ∧ k.ty = 0x1A ∧ k.op ≠ 0 ∧ (flowOf s 5).failed = false)) = true) ∧
    ((let s : State := { tFab tS with fab := { (tFab tS).fab with isSource := false } }; let k := tPk s { ty := 24, src := 0, dst := 0, payload := natLe 8 12345 }; decide (portHears s 0 = true ∧ k.eth = decide (19 ≤ 0) ∧ pkHeaderOk k = true ∧ pkCrcOk k = true ∧ 5 = keyOfPk k ∧ k.ty = 0x18 ∧ 0 < 16 ∧ (s.fab.isSource = false ∨ k.src < ownDev s) ∧ s.clock.locked = false)) = true) ∧
    ((let s : State := { tFab tS with clock := { locked := true } }; let k := tPk s { ty := 0x18, src := 0, dst := 0, payload := natLe 8 12345 }; decide (portHears s 0 = true ∧ k.eth = decide (19 ≤ 0) ∧ pkHeaderOk k = true ∧ pkCrcOk k = true ∧ 5 = keyOfPk k ∧ k.ty = 0x18 ∧ s.fab.isSource = false ∧ s.clock.locked = true)) = true) ∧
    ((let s : State := { tFab tS with fab := { (tFab tS).fab with isSource := true } }; let k := tPk s { ty := 24, src := 0, dst := 0, payload := natLe 8 12345 }; decide (portHears s 0 = true ∧ k.eth = decide (19 ≤ 0) ∧ pkHeaderOk k = true ∧ pkCrcOk k = true ∧ 5 = keyOfPk k ∧ k.ty = 0x18 ∧ s.fab.isSource = true ∧ ownDev s ≤ k.src)) = true) ∧
    ((let f : Flow := { txNext := 3, retries := 2, unacked := [{ pk := { ty := 3, src := 0, dst := 5, seq := 1 } }, { pk := { ty := 3, src := 0, dst := 5, seq := 2 } }] }; let s : State := { tFab tS with fab := { (tFab tS).fab with flows := [(5, f)] } }; decide (flowOf s 5 = f ∧ f.waiting = [] ∧ s.queues = [] ∧ isEth 5 = false ∧ f.unacked.all (fun x => decide (x.pk.ty ≠ 0x0E)) = true)) = true) ∧
    ((let f : Flow := { txNext := 3, retries := 2, unacked := [{ pk := { ty := 3, src := 0, dst := 5, seq := 1 } }, { pk := { ty := 3, src := 0, dst := 5, seq := 2 } }] }; let s : State := { tFab tS with fab := { (tFab tS).fab with flows := [(5, f)] } }; decide (flowOf s 5 = f ∧ f.waiting = [] ∧ s.queues = [] ∧ isEth 5 = false ∧ f.unacked.all (fun x => decide (x.pk.ty ≠ 0x0E)) = true)) = true) ∧
    ((let f : Flow := { txNext := 3, retries := 2, unacked := [{ pk := { ty := 3, src := 0, dst := 5, seq := 1 } }, { pk := { ty := 3, src := 0, dst := 5, seq := 2 } }] }; let s : State := { tFab tS with fab := { (tFab tS).fab with flows := [(5, f)] } }; decide (flowOf s 5 = f ∧ f.waiting = [] ∧ s.queues = [] ∧ isEth 5 = false ∧ f.unacked.all (fun x => decide (x.pk.ty ≠ 0x0E)) = true)) = true) ∧
    ((let f : Flow := {}; let s : State := { tFab tS with fab := { (tFab tS).fab with flows := [(5, f)] } }; decide (flowOf s 5 = f ∧ f.ackDue = 0 ∧ f.unacked = [] ∧ f.failed = false ∧ f.withheld = [])) = true) ∧
    ((let f : Flow := { ackDue := 3, failed := true }; let s : State := { tFab tS with fab := { (tFab tS).fab with flows := [(5, f)] } }; decide (flowOf s 5 = f ∧ f.ackDue ≠ 0 ∧ f.failed = true)) = true) ∧
    ((let f : Flow := { txNext := 2, unacked := [{ pk := { ty := 3, src := 0, dst := 5, seq := 1 } }] }; let s : State := { tFab tS with fab := { (tFab tS).fab with flows := [(5, f)] } }; decide (flowOf s 5 = f ∧ f.unacked ≠ [] ∧ f.failed = false ∧ f.retries + 1 < ent s 0x2B0202)) = true) ∧
    ((let f : Flow := { txNext := 2, unacked := [{ pk := { ty := 3, src := 0, dst := 5, seq := 1 } }], retries := 100 }; let s : State := { tFab tS with fab := { (tFab tS).fab with flows := [(5, f)] } }; decide (flowOf s 5 = f ∧ f.unacked ≠ [] ∧ f.failed = false ∧ ent s 0x2B0202 ≤ f.retries + 1)) = true) ∧
    ((let k : Packet := { ty := 3, src := 5, dst := 0, seq := 1 }; let f : Flow := { withheld := [k] }; let s0 : State := setEnt tRelay 0x290401 9; let s : State := { s0 with fab := { s0.fab with flows := [(5, f)] } }; decide (flowOf s 5 = f ∧ f.withheld = [k] ∧ (deviceBuf s (ent s 0x290401) false).2.isSome = true ∧ (deviceBuf s (ent s 0x290401) false).1.fab = s.fab)) = true) ∧
    ((let k : Packet := { ty := 3, src := 5, dst := 0, seq := 1 }; let f : Flow := { withheld := [k] }; let s : State := { tFab tS with fab := { (tFab tS).fab with flows := [(5, f)] } }; decide (flowOf s 5 = f ∧ f.withheld = [k] ∧ (deviceBuf s (ent s 0x290401) false).2.isNone = true ∧ (deviceBuf s (ent s 0x290401) false).1.fab = s.fab)) = true) ∧
    ((let s : State := { tFab tS with fab := { (tFab tS).fab with relays := [] } }; decide (s.fab.relays[2]? = none ∧ (tgetD s.fab.attests 2 {}).failed = false)) = true) ∧
    ((let p : Packet := { ty := 0x0A, src := 5, dst := 7, owner := 1, flags := 4, eth := true, srcRack := 1 }; let s : State := { tFab tS with fab := { (tFab tS).fab with relays := [(p, 1), (p, 0)] } }; decide ((s.fab.relays.take 1).any (fun y => y.1.srcRack == p.srcRack && y.1.src == p.src && y.1.dst == p.dst) = true ∧ s.fab.relays[1]? = some (p, 0))) = true) ∧
    ((let p : Packet := { ty := 0x0A, src := 5, dst := 7, owner := 1, flags := 4, eth := true, srcRack := 1 }; let s : State := { tFab tS with fab := { (tFab tS).fab with relays := [({ p with dst := 8 }, 1), (p, 0)] } }; decide ((s.fab.relays.take 1).any (fun y => y.1.srcRack == p.srcRack && y.1.src == p.src && y.1.dst == p.dst) = false ∧ s.fab.relays[1]? = some (p, 0) ∧ s.fab.holdRelays = [])) = true) ∧
    ((let s : State := { tFab tS with fab := { (tFab tS).fab with attests := [(5, { failed := true })] } }; decide ((tgetD s.fab.attests 5 {}).failed = true)) = true) ∧
    ((let s : State := { tFab tS with fab := { (tFab tS).fab with requests := [{ kind := 1, owner := 1, epoch := 0, home := 5, addr := 4096, len := 1, retry := true }] } }; decide ((s.fab.requests[0]?).any (fun r => decide (r.retry = true ∧ r.done = false)) = true)) = true) ∧
    ((let s : State := { tFab tS with fab := { (tFab tS).fab with requests := [{ kind := 1, owner := 1, epoch := 0, home := 5, addr := 4096, len := 1, retry := false }] } }; decide ((s.fab.requests[0]?).any (fun r => decide (r.retry = false ∧ r.done = false)) = true)) = true) ∧
    ((let s : State := { tFab tS with fab := { (tFab tS).fab with isSource := false } }; decide (s.fab.isSource = false ∧ s.fab.ptpLocked = false)) = true) ∧
    ((let s : State := { tFab tS with fab := { (tFab tS).fab with isSource := true, ptpLocked := true } }; decide (s.fab.isSource = true ∧ s.fab.ptpLocked = true)) = true) ∧
    ((let s : State := setEnt tRelay 0x2B0606 1; let m : Ptp := { domain := ent s 0x2B0607, ty := 0, offsetNs := -5, locked := false }; decide (portHears s 20 = true ∧ ent s 0x2B0606 ≠ 0 ∧ m.domain = ent s 0x2B0607 ∧ m.locked = false ∧ s.fab.ptpLocked = false)) = true) ∧
    ((let s : State := setEnt tRelay 0x2B0606 1; let m : Ptp := { domain := ent s 0x2B0607, ty := 0, offsetNs := -5, locked := true }; decide (portHears s 20 = true ∧ ent s 0x2B0606 ≠ 0 ∧ m.domain = ent s 0x2B0607 ∧ m.locked = true ∧ s.fab.ptpLocked = false)) = true) := by decide +kernel

theorem test_hyps_StepTakesTheFrontCommand :
    (State.reset.pending = []) := by decide +kernel

theorem test_hyps_StateAfterReset :
    (isTile 4096 = false ∧ isTile (tilePtr 0) = true ∧ (1 : Nat) ≠ 0 ∧ 20 < 21) := by decide +kernel

theorem test_hyps_OffsetsHaveOnePlace :
    (let o := 2 ^ 39 - 1; let g := o / 256; let x := g / 512; let h := (x ^^^ (x / 512) ^^^ (x / 2 ^ 18)) % 512; o < 2 ^ 39 ∧ g = o / 256 ∧ x = g / 512 ∧ h = (x ^^^ (x / 512) ^^^ (x / 2 ^ 18)) % 512) ∧
    (511 < 512 ∧ 2 ^ 22 - 1 < 2 ^ 22) := by decide +kernel

theorem test_hyps_DispatchRunsInChunks :
    (let s : State := tCard 1 (fld 15 24 16 + fld 1 14 3) false; cardGoes s 1 (fun _ _ c => decide (ccKind c.ccb = 1 ∧ ccTokens c.ccb = 16 ∧ ccChunks c.ccb = 2 ∧ 7 < ccTokens c.ccb)) = true) := by decide +kernel

theorem test_hyps_StepsKeepTheQueueInOrder :
    (let s : State := { tS with pending := [.mbStatusRead] }; s.pending <:+ [.heartbeatSend, .mbStatusRead] ∧ (match step s with | .next t => decide (t.pending = []) | _ => false) = true) := by decide +kernel

theorem test_hyps_StepsKeepMemoryCanonical :
    (let s : State := { tMem tS 4096 [1, 2] with pending := [.mbStatusRead] }; Memory.wf s.mem = true ∧ (match step s with | .next _ => true | _ => false) = true) := by decide +kernel

/-- A heartbeat of this node's own ID with a serial number that is not this module's. -/
theorem test_hyps_ThallusOnItsOwn_conflict :
    ∃ f : Frame, firmwareRuns tS = true ∧ tS.th.busOff = false ∧ f.fd = true ∧ f.ext = true ∧ bits f.id 26 3 = 7 ∧
      bits f.id 12 7 = nodeId tS ∧ f.data.take 12 ≠ padTo 12 Config.serialNumber := by
  refine ⟨{ id := fld 7 26 3 + fld 127 12 7, data := (padTo 12 Config.serialNumber).map (· + 1) }, ?_⟩
  refine ⟨by decide +kernel, by decide +kernel, rfl, rfl, by decide +kernel, by decide +kernel, ?_⟩
  cases h : padTo 12 Config.serialNumber with
  | nil => exact absurd (congrArg List.length h) (by simp [padTo])
  | cons a l => simp

/-- Commands with a number outside its width, each refused. -/
theorem test_wf_numbers :
    WellFormed (.chainStart 16 3) = true ∧
    ([.vectorAdd (2 ^ 26),
      .chainStart 0 65536,
      .portTrainingFailed 21,
      .portTrainingComplete 0 2 1,
      .portTrainingComplete 0 0 33,
      .laneRetrained 0 32,
      .replayRequest 0 4096,
      .identityRecordReceive 0 (2 ^ 512),
      .priorityFlowControl 19 8 0,
      .priorityFlowControl 19 0 (2 ^ 16),
      .submitDoorbell 1025 8 0,
      .submitDoorbell 0 (2 ^ 16) 0,
      .consumedDoorbell 0 8 (2 ^ 64),
      .agmirTransferTimeout 128,
      .pllLockLoss 112,
      .frondWakeDone 96,
      .inputValid (2 ^ 17),
      .startupPhaseTimeout 11,
      .railSequenceStep 3,
      .railFault 3 0,
      .inputOvercurrent (2 ^ 24),
      .buttonPress (2 ^ 32),
      .pluggableInsert 2 0,
      .pluggableInsert 0 (2 ^ 16),
      .flrVf 1025,
      .pcieLinkChange true 16 0,
      .pcieLinkChange true 0 32,
      .vfEnable 1025,
      .engineWatchdog 128 0,
      .engineWatchdog 0 256,
      .drainCensusComplete 4096,
      .repairDone (2 ^ 32),
      .pcRetrainFailure 512,
      .poolBuildDone 256,
      .placementDecision 32 0 [],
      .placementDecision 0 1024 [],
      .arrayRegParity 8,
      .sfuTableParity 32,
      .tileStoreDoubleError tileBytes,
      .relayForward (2 ^ 32),
      .flowAckTimer (2 ^ 25),
      .attestRetry 4096,
      .retryAfterExpiry (2 ^ 32)] : List Instr).all (fun i => !WellFormed i) = true := by
  decide +kernel

/-- Commands with an ill-formed request, frame, slot, list or reading, each refused. -/
theorem test_wf_structures :
    WellFormed (.agmirRead (.mailbox 1 [2, 0])) = true ∧
    ([.agmirRead (.mailbox (2 ^ 32) []),
      .agmirRead (.mailbox 1 (List.replicate 1025 0)),
      .agmirRead (.mailbox 1 [256]),
      .agmirRead (.assembled 128),
      .agmirSegment { id := 2 ^ 29, data := [] },
      .agmirSegment { id := 0, data := List.replicate 65 0 },
      .agmirSegment { id := 0, data := [256] },
      .serviceProof (.mailbox 1 []) ⟨[256], none⟩,
      .sensorSample ⟨50000, 1, 3000, 62500, [], List.replicate 8 none, none, none, [1, 2]⟩,
      .sensorSample ⟨50000, 1, 3000, 62500, List.replicate 16 none, [], none, none, [1, 2]⟩,
      .sensorSample ⟨50000, 1, 3000, 62500, List.replicate 16 none, List.replicate 8 none, none, none, []⟩,
      .descriptorReadReturn 16 (.bytes [0]),
      .descriptorReadReturn 16 (.bytes (List.replicate 128 256)),
      .ieee1500ShiftDone [256],
      .patrolScrub [⟨hbmBytes, false⟩] false,
      .reshardRound2 0 [2 ^ 64],
      .placementDecision 0 0 [[2 ^ 64]],
      .allReduce 16 [{ member := 32768, step := 0, id := 0 }],
      .closing 16 [{ member := 0, step := 2 ^ 64, id := 0 }],
      .broadcast 16 [{ member := 0, step := 0, id := 2 ^ 32 }],
      .layerEnterForward 16 [[{ member := 0, step := 0, id := 0, data := [256] }]],
      .stepArrivalSend 0 [] [[{ member := 32768, step := 0, id := 0 }]],
      .placeInit 16 [⟨16384, 0⟩],
      .placeInit 16 [⟨0, 2 ^ 512⟩],
      .linkFlitReceive 0 { seq := 0, ok := true, body := [256], ack := 0 },
      .ptpMessage 19 ⟨256, 0, 0, true⟩,
      .ptpMessage 19 ⟨0, 16, 0, true⟩] : List Instr).all (fun i => !WellFormed i) = true := by
  decide +kernel

/-- Packets with a field outside its width, each refused, and so is a command that carries one, or one beside it. -/
theorem test_wf_packets :
    let p : Packet := { ty := 3, src := 1, dst := 0 }
    let g : Geom := { kind := 0, mapOff := 0, plane := 0, members := 1, sliver := 1, chunks := 1, hosted := 1, tokens := 1, choices := 1, rowBytes := 64,
                      step := 0, digest := 0, source := 0, arrival := 0 }
    packetWf p = true ∧ packetWf { p with geom := some g } = true ∧
    ([{ p with ty := 256 }, { p with version := 16 }, { p with reserved := 16 }, { p with src := 4096 }, { p with dst := 4096 }, { p with owner := 4096 },
      { p with epoch := 65536 }, { p with seq := 2 ^ 32 }, { p with addr := 2 ^ 52 }, { p with length := 2 ^ 15 }, { p with counter := 65536 },
      { p with cmode := 4 }, { p with slot := 256 }, { p with op := 256 }, { p with group := 65536 }, { p with flags := 128 }, { p with crc := 2 ^ 32 },
      { p with via := 4096 }, { p with srcRack := 256 }, { p with dstRack := 256 }, { p with payload := [256] }] : List Packet).all
        (fun k => !packetWf k && !WellFormed (.store 0 k)) = true ∧
    ([{ g with kind := 3 }, { g with mapOff := 2 ^ 39 }, { g with plane := 2 ^ 42 }, { g with members := 1025 }, { g with sliver := 4097 },
      { g with chunks := 17 }, { g with hosted := 4097 }, { g with tokens := 65537 }, { g with choices := 17 }, { g with rowBytes := 2 ^ 20 },
      { g with step := 2 ^ 64 }, { g with digest := 2 ^ 32 }, { g with source := 1024 }, { g with slot := 2 ^ 32 }, { g with segs := 17 },
      { g with expert := 4096 }, { g with arrival := 65536 }] : List Geom).all (fun x => !packetWf { p with geom := some x }) = true ∧
    packetWf { p with payload := List.replicate 16385 0 } = false ∧ WellFormed (.getS 0 p [{ p with ty := 256 }]) = false ∧
    WellFormed (.load 0 p [⟨hbmBytes, false⟩]) = false ∧ WellFormed (.attest 0 p ⟨256, true, 0, 0⟩) = false ∧
    WellFormed (.attest 0 p ⟨0, true, 65536, 0⟩) = false ∧ WellFormed (.attest 0 p ⟨0, true, 0, 256⟩) = false ∧
    WellFormed (.startupPhaseEnd 0 { fwOk := [], copyOk := [] }) = false := by
  decide +kernel

/-- The worked example of R237: the offset 0x0012_3456_7800 and the next. -/
theorem test_place_of_offset :
    pcOf 0x1234567800 = 220 ∧ stackOf 0x1234567800 = 3 ∧ channelOf 0x1234567800 = 14 ∧ pseudoOf 0x1234567800 = 0 ∧
    rowOf 0x1234567800 = 2330 ∧ columnOf 0x1234567800 = 0 ∧ bankOf 0x1234567800 = 49 ∧
    pcOf 0x1234567900 = 0xDD ∧ pseudoOf 0x1234567900 = 1 := by decide

/-- The worked example of R388 and R389 (Table 12-8): one decision on a small group. -/
theorem test_decision_on_a_group :
    placeExperts [100, 60, 20, 10, 6, 4] 4 2 =
      some ([[(0, 0), (1, 0)], [(2, 0), (3, 0)], [(2, 1)], [(3, 1)], [(0, 1)], [(1, 1)]], 56) ∧
    mapLoad [100, 60, 20, 10, 6, 4] 4 [[(0, 0)], [(0, 1)], [(1, 0)], [(1, 1)], [(2, 0)], [(2, 1)]] = 160 ∧
    gainEnough 56 160 64 = true ∧
    (mapMoves [[(0, 0)], [(0, 1)], [(1, 0)], [(1, 1)], [(2, 0)], [(2, 1)]]
      [[(0, 0), (1, 0)], [(2, 0), (3, 0)], [(2, 1)], [(3, 1)], [(0, 1)], [(1, 1)]]).length = 7 := by decide +kernel

/-- The worked example of R98 (Table 03-7): 30 chains of J = 3 packed on two groups of bands, nothing on bands 6 and 7. -/
theorem test_packing_of_a_chunk :
    let e : Nat := fld 6144 56 24 + fld 1536 32 24 + fld 6 8 8 + fld 6 0 8
    let l := (placeChains (fun _ => true) (sortChains (rawChains 8
      ((List.range 5).map (fun i => (i, e, [[4000, 3500, 2748, 2000, 40].getD i 0]))))) (List.replicate 8 0) []).getD []
    let group (b : Nat) : List Nat := (l.filter (fun c => c.b0 == b)).map (·.cost)
    l.length = 30 ∧ l.all (fun c => c.depth == 3) = true ∧
    group 0 = List.replicate 3 4000 ++ List.replicate 3 3500 ++ List.replicate 3 2748 ++ List.replicate 3 2000 ++ List.replicate 3 128 ∧
    group 3 = group 0 ∧ (group 0).sum = 37128 := by decide +kernel

/-- The worked example of the slot maps of layer L-A (R205 to R208): areas, a slot row and a chunk. -/
theorem test_slot_map_areas :
    mapRexp 64 512 = 524288 ∧ sliverLen 8192 = 512 ∧ mapFills 5 64 = 24576 ∧ mapTags 5 64 4 = 106496 ∧ mapEnd 5 64 512 4 = 21078016 ∧
    2 * mapRexp 64 512 + (9 * 16 + 5000 / sliverLen 8192) * 512 + 7 = 1126919 ∧ sliverIn 9 2 4 = true ∧ sliverIn 7 2 4 = false := by decide

/-- The contest of Table 11-9: with the pointer at 20, device 40 comes before device 7. -/
theorem test_home_contest : contestRank 20 40 < contestRank 20 7 := by decide

/-- Steps 105 and 107 of the worked example of R184 and R186 (Table 06-3). -/
theorem test_loss_scale_steps :
    let s0 := setEnt (setEnt (setEnt (setEnt tS 0x302005 16) 0x302006 3) 0x30200A 2) 0x30200E 1
    let a := stepUpdate (setEnt (setEnt s0 0x302003 16) 0x302007 2) 0 true
    let b := stepUpdate (setEnt (setEnt (setEnt s0 0x302003 15) 0x302008 1) 0x302009 1) 0 false
    pEnt a 0x3020 3 0 = 16 ∧ pEnt a 0x3020 7 0 = 0 ∧ a.log.raised = 0 ∧
    pEnt b 0x3020 3 0 = 14 ∧ pEnt b 0x3020 8 0 = 2 ∧ pEnt b 0x3020 9 0 = 2 ∧ b.log.raised = 1 := by decide +kernel

end Sys2Proof.Tests
end

/-!
PROOFS. What the checks of an operation leave known of its control block (R230), and the division of a
DISPATCH's tokens into chunks (R20).
-/
namespace Sys2Proof.Machine

/-! ### Checks that pass -/

/-- Checks 5 and 6 keep the control block they were given. -/
theorem cardTables_ok_ccb {s : State} {o : Op} {p b : Nat} {ms map : List Nat} {c : Card} (h : cardTables s o p b ms map = .ok c) :
    c.ccb = b := by
  unfold cardTables at h
  split at h
  · cases h
  split at h
  · cases h
  dsimp only at h
  -- The plane's check is one answer here, whichever kind asks for it.
  generalize (if cardUses (ccKind b) 272 then _ else _ : Option CardBad) = plane at h
  split at h
  · cases h
  split at h
  · cases h
  split at h <;> cases h
  rfl

/-- A record comes from a control block that was read and that passed the checks on its fields, ranges and pointers. -/
theorem cardCheck_ok {s : State} {o : Op} {p at_ : Nat} {c : Card} (h : cardCheck s o p at_ = .ok c) :
    readStruct s o.owner at_ 128 = some c.ccb ∧ cardFieldBad c.ccb = none ∧ cardRangeBad c.ccb = none ∧
    cardPointerBad s o.owner c.ccb = none := by
  unfold cardCheck at h
  split at h
  · cases h
  next b hread =>
  split at h
  · cases h
  next hfield =>
  split at h
  · cases h
  next hrange =>
  split at h
  · cases h
  next hptr =>
  suffices hb : c.ccb = b by rw [hb]; exact ⟨hread, hfield, hrange, hptr⟩
  split at h
  · split at h <;> cases h
    rfl
  split at h
  · cases h
  split at h
  · split at h
    · cases h
    split at h
    · cases h
    exact cardTables_ok_ccb h
  · exact cardTables_ok_ccb h

/-- Check 3 admits exponents of the chunk count up to 4, for a kind that has chunks. -/
theorem chunkExponent_le_of_cardRangeBad {b : Nat} (h : cardRangeBad b = none) (hu : cardUses (ccKind b) 14 = true) :
    bits b 14 3 ≤ 4 := by
  by_contra hlt
  unfold cardRangeBad at h
  simp only [hu, Bool.true_and, decide_eq_true_eq, if_pos (Nat.lt_of_not_le hlt)] at h
  split at h <;> cases h

/-- The chunk counts of R20. -/
theorem ccChunks_mem {b : Nat} (h : bits b 14 3 ≤ 4) : ccChunks b ∈ [1, 2, 4, 8, 16] := by
  unfold ccChunks
  interval_cases bits b 14 3 <;> decide

/-! ### The tokens of a chunk -/

theorem ccTokens_pos (b : Nat) : 0 < ccTokens b := Nat.succ_pos _

theorem ccChunks_pos (b : Nat) : 0 < ccChunks b := Nat.two_pow_pos _

/-- The model's rounded-up quotient is Mathlib's. -/
theorem ceilDiv_eq (x m : Nat) : ceilDiv x m = x ⌈/⌉ m := (Nat.ceilDiv_eq_add_pred_div x m).symm

theorem ceilDiv_pos {x m : Nat} (hx : 0 < x) (hm : 0 < m) : 0 < ceilDiv x m := Nat.div_pos (by omega) hm

/-- `m` chunks of the rounded-up size reach past every number below `x`. -/
theorem div_ceilDiv_lt {x m y : Nat} (hm : 0 < m) (hy : y < x) : y / ceilDiv x m < m := by
  have hcover : x ≤ m * ceilDiv x m := by
    simpa only [ceilDiv_eq, smul_eq_mul] using le_smul_ceilDiv (b := x) hm
  exact Nat.div_lt_of_lt_mul (Nat.mul_comm m _ ▸ hy.trans_le hcover)

/-- A chunk's tokens as one interval, of no length where its first token is `T` or more. -/
theorem chunkList_eq_range' (c : Card) {n : Nat} (hn : n = ceilDiv (ccTokens c.ccb) (ccChunks c.ccb)) :
    chunkList c = List.range' (c.chunk * n) (min ((c.chunk + 1) * n) (ccTokens c.ccb) - c.chunk * n) := by
  simp only [chunkList, chunkTokens, ← hn]
  rcases Nat.le_total (c.chunk * n) (ccTokens c.ccb) with hle | hge
  · rw [Nat.min_eq_left hle, List.range'_eq_map_range]
    simp only [Nat.add_comm]
  · have hnone : min ((c.chunk + 1) * n) (ccTokens c.ccb) ≤ ccTokens c.ccb := Nat.min_le_right _ _
    rw [Nat.min_eq_right hge, Nat.sub_eq_zero_of_le hnone, Nat.sub_eq_zero_of_le (hnone.trans hge)]
    rfl

/-- The chunk that holds a token is the token's number by the chunk size. -/
theorem mem_chunkList_iff (c : Card) {y n : Nat} (hn : n = ceilDiv (ccTokens c.ccb) (ccChunks c.ccb)) :
    y ∈ chunkList c ↔ y < ccTokens c.ccb ∧ c.chunk = y / n := by
  have hpos : 0 < n := hn ▸ ceilDiv_pos (ccTokens_pos _) (ccChunks_pos _)
  rw [chunkList_eq_range' c hn, List.mem_range'_1, eq_comm, Nat.div_eq_iff hpos]
  have hsucc : (c.chunk + 1) * n = c.chunk * n + n := Nat.succ_mul _ _
  omega

/-- Settles O58: check 3 bounds the chunk count, a chunk is an interval, and token `y` lies in chunk `y / S` alone. -/
theorem dispatchRunsInChunks : Obligations.DispatchRunsInChunks := by
  intro s o p at_ c t k n hok hkind ht hk hn
  obtain ⟨-, -, hrange, -⟩ := cardCheck_ok hok
  have hsize : n = ceilDiv (ccTokens c.ccb) (ccChunks c.ccb) := by rw [hn, ht, hk, ceilDiv]
  have hinterval (i : Nat) : chunkList { c with chunk := i } = List.range' (i * n) (min ((i + 1) * n) t - i * n) :=
    ht ▸ chunkList_eq_range' { c with chunk := i } hsize
  have hmem (i y : Nat) : y ∈ chunkList { c with chunk := i } ↔ y < t ∧ i = y / n :=
    ht ▸ mem_chunkList_iff { c with chunk := i } hsize
  refine ⟨?_, hinterval, fun i hi => ?_, fun y hy => ⟨y / n, ?_, (hmem _ y).2 ⟨hy, rfl⟩, fun j hj => ((hmem j y).1 hj).2⟩⟩
  · rw [hk]
    exact ccChunks_mem (chunkExponent_le_of_cardRangeBad hrange (by rw [hkind]; decide))
  · rw [hinterval, Nat.sub_eq_zero_of_le ((Nat.min_le_right _ _).trans hi), List.range'_zero]
  · rw [hsize, hk]
    exact div_ceilDiv_lt (ccChunks_pos _) (ht ▸ hy)

end Sys2Proof.Machine

/-!
PROOFS. Writes whose entry has a row of its own and takes effect at the write: the commands to a pool (R279, R280, R282), a
band's self-test (R76) and a port's enable bit (R329).
-/
namespace Sys2Proof.Machine

/-! ### Tables under repeated changes -/

section Tables
variable {α : Type}

/-- The second of two writes of a key stands. -/
@[simp] theorem tput_tput (t : Tbl α) (k : Nat) (v w : α) : tput (tput t k v) k w = tput t k w := by
  induction t with
  | nil => simp [tput]
  | cons a r ih =>
    obtain ⟨x, y⟩ := a
    rcases Nat.lt_trichotomy k x with h | rfl | h
    · simp [tput, h]
    · simp [tput]
    · simp [tput, Nat.not_lt_of_gt h, Nat.ne_of_gt h, ih]

/-- Removing a key keeps a table's form. -/
theorem tsorted_tdel {t : Tbl α} (k : Nat) (h : tsorted t = true) : tsorted (tdel t k) = true := by
  have hsub : (tdel t k).Sublist t := by
    clear h
    induction t with
    | nil => exact .slnil
    | cons a r ih =>
      unfold tdel
      split
      · exact List.sublist_cons_self a r
      · exact ih.cons_cons a
  exact (tsorted_iff _).2 (((tsorted_iff t).1 h).sublist hsub)

/-- A key removed reads the default, and every other key as before. -/
theorem tgetD_tdel {t : Tbl α} (k j : Nat) (d : α) (h : tsorted t = true) :
    tgetD (tdel t k) j d = if j = k then d else tgetD t j d := by
  unfold tgetD
  split
  · next hj => rw [hj, tget_tdel_self k h]; rfl
  · next hj => rw [tget_tdel_ne t hj]

/-- Keys removed one by one, but for those of a kind, read the default afterwards. -/
theorem tgetD_foldl_tdel (keep : Nat → Prop) [DecidablePred keep] (l : List Nat) {t : Tbl α} (j : Nat) (d : α)
    (h : tsorted t = true) :
    tgetD (l.foldl (fun t f => if keep f then t else tdel t f) t) j d = if j ∈ l ∧ ¬ keep j then d else tgetD t j d := by
  induction l generalizing t with
  | nil => simp
  | cons a l ih =>
    rw [List.foldl_cons]
    by_cases ha : keep a
    · have hmem : j ∈ a :: l ∧ ¬ keep j ↔ j ∈ l ∧ ¬ keep j := by grind
      rw [if_pos ha, ih h]
      simp only [hmem]
    · rw [if_neg ha, ih (tsorted_tdel a h), tgetD_tdel a j d h]
      grind

/-- A run of `n` keys from `b` on, each changed once, while every other key stays. -/
theorem tgetD_foldl_tupd_range (b n : Nat) (t : Tbl α) (d : α) (f : α → α) (j : Nat) :
    tgetD ((List.range n).foldl (fun t i => tupd t (b + i) d f) t) j d =
      if b ≤ j ∧ j < b + n then f (tgetD t j d) else tgetD t j d := by
  induction n with
  | zero => simp
  | succ n ih =>
    rw [List.range_succ, List.foldl_append, List.foldl_cons, List.foldl_nil]
    by_cases hj : j = b + n
    · subst hj
      simp [ih]
    · rw [tgetD_tupd_ne _ _ _ _ hj, ih]
      have hrange : b ≤ j ∧ j < b + n ↔ b ≤ j ∧ j < b + (n + 1) := by omega
      simp only [hrange]

end Tables

/-! ### A write that comes to its effect -/

/-- Taking in a request touches the Thallus alone. -/
theorem answeredOnly_served (v : State) (x : Thallus) : AnsweredOnly v { v with th := servedTh v.th x } := rfl

theorem AnsweredOnly.pools_eq {v t : State} (h : AnsweredOnly v t) : t.pools = v.pools := (congrArg State.pools h).trans rfl
theorem AnsweredOnly.fab_eq {v t : State} (h : AnsweredOnly v t) : t.fab = v.fab := (congrArg State.fab h).trans rfl
theorem AnsweredOnly.fronds_eq {v t : State} (h : AnsweredOnly v t) : t.fronds = v.fronds := (congrArg State.fronds h).trans rfl

/-- Whether an entry is a number that the configuration copies do not hold. -/
def isPlainNumber (k : Nat) : Bool := (specOf k).any fun e => (tySize e.ty).isSome && !isStored k e

theorem isPlainNumber_poolCommand : isPlainNumber 0x290103 = true := by decide +kernel
theorem isPlainNumber_bistStart : isPlainNumber 0x220502 = true := by decide +kernel
theorem isPlainNumber_portEnable : isPlainNumber 0x2B0108 = true := by decide +kernel

/-- A WRITE of a number that is not stored: what its effect does to the state that has taken the request in is all that its
row does but for the answer. -/
theorem dictRow_number {s : State} {r : Req} {path : Path} {p : Pdu} {u v : State} {k n id : Nat} (h : Writes s r path p u)
    (hk : pdKey p = k) (hn : leNat p.value = n) (hnum : isPlainNumber k = true) (hid : rowId k n = id) (hp : postOf k n = 0)
    (hv : ∀ (x : Thallus) (b : Bool),
      applyWrite { s with th := servedTh s.th x } b k (.num n) = { v with th := servedTh v.th x }) :
    AnsweredOnly v (dictRow id r s) := by
  subst hk
  obtain ⟨e, he, hplain⟩ := (Option.any_eq_true _ _).1 hnum
  obtain ⟨hty, hs⟩ := Bool.and_eq_true_iff.1 hplain
  have hval : valOfBytes e.ty p.value = .num n := by
    obtain ⟨m, hm⟩ := Option.isSome_iff_exists.1 hty
    simp only [valOfBytes, hm, hn]
  refine dictRow_effect h (hn ▸ hid) he (by simpa using hs) (hval ▸ hp) ?_
  rw [hval, Delivers_frame h.1, hv]
  exact answeredOnly_served v _

/-! ### Commands to a pool -/

theorem applyWrite_poolCommand (s : State) (b : Bool) (n : Nat) :
    applyWrite s b 0x290103 (.num n) = poolCmd s (selPool s) n := rfl

/-- The records of a pool enabled afresh: each of its own starts again one generation on (R279). -/
theorem recAt_enablePool (s : State) (p i : Nat) :
    recAt (enablePool s p) i =
      if pdFirst (poolOf s p).desc ≤ i ∧ i < pdFirst (poolOf s p).desc + pdCount (poolOf s p).desc
      then { gen := ((recAt s i).gen + 1) % 2 ^ 16, pool := p } else recAt s i :=
  tgetD_foldl_tupd_range (pdFirst (poolOf s p).desc) (pdCount (poolOf s p).desc) s.pools.recs {}
    (fun r => { gen := (r.gen + 1) % 2 ^ 16, pool := p }) i

/-- Setting a pool leaves every other. -/
theorem poolOf_setPool_ne (s : State) {p j : Nat} (x : Pool) (h : j ≠ p) : poolOf (setPool s p x) j = poolOf s j :=
  tgetD_tput_ne s.pools.pools x {} h

@[simp] theorem poolOf_setPool_self (s : State) (p : Nat) (x : Pool) : poolOf (setPool s p x) p = x :=
  tgetD_tput_self s.pools.pools p x {}

/-! ### The self-test of a band, and the enable bit of a port -/

theorem applyWrite_bistStart (s : State) (b : Bool) :
    applyWrite s b 0x220502 (.num 1) = setEnt { s with units := { s.units with bist := some (ent s 0x220501) } } 0x220502 1 := rfl

theorem applyWrite_portDisable (s : State) (b : Bool) : applyWrite s b 0x2B0108 (.num 0) = disablePort s (selPort s) := rfl

theorem applyWrite_portEnable (s : State) (b : Bool) : applyWrite s b 0x2B0108 (.num 1) = portEnabled s (selPort s) := rfl

@[simp] theorem portOf_modPort_self (s : State) (p : Nat) (f : Port → Port) : portOf (modPort s p f) p = f (portOf s p) :=
  tgetD_tupd_self s.fab.ports p {} f

/-- A port changed leaves every other. -/
theorem portOf_modPort_ne (s : State) {p j : Nat} (f : Port → Port) (h : j ≠ p) : portOf (modPort s p f) j = portOf s j :=
  tgetD_tupd_ne s.fab.ports {} {} f h

/-- Two changes of a port are one. -/
theorem modPort_modPort (s : State) (p : Nat) (f g : Port → Port) :
    modPort (modPort s p f) p g = modPort s p (fun x => g (f x)) := by
  simp only [modPort, tupd, tgetD_tput_self, tput_tput]

/-- Without flows none can lose its last port (R341). -/
theorem failUnreached_of_flows_nil {s : State} (h : s.fab.flows = []) : failUnreached s = s := by
  simp only [failUnreached, h, List.filter_nil, List.foldl_nil]

/-- The fronds as a port's power-down leaves them. -/
def frondsWithout (fr : Fronds) (p : Nat) : Fronds where
  st := (portFronds p).foldl (fun t f => if tgetD fr.st f .off = .failed then t else tdel t f) fr.st
  queue := fr.queue.filter (fun f => !(portFronds p).contains f)

/-- A port off: its own record and the fronds are all that change (R329). -/
def portOff (s : State) (p : Nat) : State :=
  modPort { s with fronds := frondsWithout s.fronds p } p (fun x => { trainAgain x 0 with enable := false, faulted := false })

theorem disablePort_of_flows_nil {s : State} (p : Nat) (h : s.fab.flows = []) : disablePort s p = portOff s p :=
  failUnreached_of_flows_nil h

/-- A port's power-down turns its fronds off, failed ones aside. -/
theorem frondState_frondsWithout (s : State) (p f : Nat) (h : tsorted s.fronds.st = true) :
    tgetD (frondsWithout s.fronds p).st f .off =
      if f ∈ portFronds p ∧ frondState s f ≠ .failed then .off else frondState s f :=
  tgetD_foldl_tdel (fun f => frondState s f = .failed) (portFronds p) f Frond.off h

/-- A frond that is on needs no wake. -/
theorem requestWake_of_on {s : State} {f : Nat} (h : frondState s f = .on) : requestWake s f = s := by
  simp [requestWake, h]

/-- Fronds that are all on need no wake. -/
theorem foldl_requestWake_of_on {s : State} {l : List Nat} (h : ∀ f ∈ l, frondState s f = .on) : l.foldl requestWake s = s := by
  induction l with
  | nil => rfl
  | cons f l ih =>
    rw [List.foldl_cons, requestWake_of_on (h f List.mem_cons_self)]
    exact ih fun g hg => h g (List.mem_cons_of_mem f hg)

/-- What enabling makes of the record of a port that is not up: it trains, with nothing counted against it (R329). -/
def enabledPort (x : Port) : Port := { trainAgain x 1 with enable := true, trainFails := 0, lost := [], retired := 0 }

/-- A port that is not up, its fronds on, is enabled by its own record alone. -/
theorem enablePort_of_down {s : State} {p : Nat} (hst : (portOf s p).state ∈ [0, 2, 6])
    (hon : ∀ f ∈ portFronds p, frondState s f = .on) : enablePort s p = modPort s p enabledPort := by
  have hdown : (portOf s p).state ≠ 3 ∧ (portOf s p).state ≠ 4 ∧ (portOf s p).state ≠ 5 := by
    simp only [List.mem_cons, List.not_mem_nil, or_false] at hst
    omega
  obtain ⟨h3, h4, h5⟩ := hdown
  simp only [enablePort, foldl_requestWake_of_on hon, h3, h4, h5, or_self, false_and, if_false, modPort_modPort]
  rfl

/-- Where no reset is in progress, one that begins is the only one. -/
theorem noteReset_of_resets_nil {s : State} (x : Reset) (h : s.resets = []) : noteReset s x = { s with resets := [x] } := by
  simp [noteReset, resetAbsorbed, addReset, h]

/-- A port on: its own record changes, and the reset of the port is the one in progress (R329). -/
def portOn (s : State) (p : Nat) : State := { modPort s p enabledPort with resets := [⟨2, p, causeEnable⟩] }

theorem portEnabled_of_down {s : State} {p : Nat} (hr : s.resets = []) (hst : (portOf s p).state ∈ [0, 2, 6])
    (hon : ∀ f ∈ portFronds p, frondState s f = .on) :
    portEnabled s p = portOn s p := by
  have htrains : (enabledPort (portOf s p)).state = 1 ∧ (portOf s p).state ≠ 1 := by
    refine ⟨rfl, fun h1 => ?_⟩
    rw [h1] at hst
    exact absurd hst (by decide)
  have hr' : (modPort s p enabledPort).resets = [] := hr
  simp only [portEnabled, enablePort_of_down hst hon, portOf_modPort_self, if_pos htrains, noteReset_of_resets_nil _ hr', portOn]

/-! ### The rows -/

section Rows
variable {s : State} {r : Req} {path : Path} {p : Pdu} {u : State}

/-- POOL_ENABLE, POOL_DISABLE and POOL_REBUILD come to the command to the selected pool. -/
theorem dictRow_poolCommand {n : Nat} (h : Writes s r path p u) (hk : pdKey p = 0x290103) (hn : leNat p.value = n)
    (hc : n ∈ [1, 2, 3]) : AnsweredOnly (poolCmd s (selPool s) n) (dictRow (32 + n) r s) := by
  simp only [List.mem_cons, List.not_mem_nil, or_false] at hc
  rcases hc with rfl | rfl | rfl <;>
    exact dictRow_number h hk hn isPlainNumber_poolCommand rfl rfl fun x b => applyWrite_poolCommand { s with th := servedTh s.th x } b _

theorem dictRow_bistStart (h : Writes s r path p u) (hk : pdKey p = 0x220502) (hn : leNat p.value = 1) :
    AnsweredOnly (setEnt { s with units := { s.units with bist := some (ent s 0x220501) } } 0x220502 1) (dictRow 36 r s) :=
  dictRow_number h hk hn isPlainNumber_bistStart rfl rfl fun x b => applyWrite_bistStart { s with th := servedTh s.th x } b

theorem dictRow_portDisable (h : Writes s r path p u) (hk : pdKey p = 0x2B0108) (hn : leNat p.value = 0) (hf : s.fab.flows = []) :
    AnsweredOnly (portOff s (selPort s)) (dictRow 37 r s) :=
  dictRow_number h hk hn isPlainNumber_portEnable rfl rfl fun x b =>
    (applyWrite_portDisable { s with th := servedTh s.th x } b).trans (disablePort_of_flows_nil _ hf)

theorem dictRow_portEnable (h : Writes s r path p u) (hk : pdKey p = 0x2B0108) (hn : leNat p.value = 1) (hr : s.resets = [])
    (hst : (portOf s (selPort s)).state ∈ [0, 2, 6]) (hon : ∀ f ∈ portFronds (selPort s), frondState s f = .on) :
    AnsweredOnly (portOn s (selPort s)) (dictRow 38 r s) :=
  dictRow_number h hk hn isPlainNumber_portEnable rfl rfl fun x b =>
    (applyWrite_portEnable { s with th := servedTh s.th x } b).trans (portEnabled_of_down hr hst hon)

end Rows

/-- POOL_ENABLE: the pool as R279 leaves it, its records, and no other pool. -/
theorem enablePool_pools {s t : State} {p : Nat} (h : AnsweredOnly (enablePool s p) t) :
    poolOf t p = { poolOf s p with
      state := 2
      gen := ((poolOf s p).gen + 1) % 2 ^ 16
      cache := []
      head := 0xFFFFFF
      free := pdCount (poolOf s p).desc
      held := 0
      low := pdCount (poolOf s p).desc } ∧
    (∀ j, j ≠ p → poolOf t j = poolOf s j) ∧
    (∀ i, recAt t i = if pdFirst (poolOf s p).desc ≤ i ∧ i < pdFirst (poolOf s p).desc + pdCount (poolOf s p).desc
      then { gen := ((recAt s i).gen + 1) % 2 ^ 16, pool := p } else recAt s i) ∧
    AnsweredOnly { s with pools := { s.pools with pools := t.pools.pools, recs := t.pools.recs } } t := by
  have hpool (j : Nat) : poolOf t j = poolOf (enablePool s p) j := by rw [poolOf, poolOf, h.pools_eq]
  have hrec (i : Nat) : recAt t i = recAt (enablePool s p) i := by rw [recAt, recAt, h.pools_eq]
  refine ⟨(hpool p).trans (poolOf_setPool_self _ _ _), fun j hj => (hpool j).trans (poolOf_setPool_ne _ _ hj),
    fun i => (hrec i).trans (recAt_enablePool s p i), ?_⟩
  rw [h.pools_eq]
  exact h

/-- PORT_DISABLE with no flow: the port's record and the fronds as R329 leaves them, and no other port. -/
theorem portOff_ports {s t : State} {p : Nat} (h : AnsweredOnly (portOff s p) t) (hs : tsorted s.fronds.st = true) :
    portOf t p = { trainAgain (portOf s p) 0 with
      enable := false
      faulted := false } ∧
    (∀ j, j ≠ p → portOf t j = portOf s j) ∧
    (∀ f, frondState t f = if f ∈ portFronds p ∧ frondState s f ≠ .failed then .off else frondState s f) ∧
    t.fronds.queue = s.fronds.queue.filter (fun f => !(portFronds p).contains f) ∧
    AnsweredOnly { s with fronds := t.fronds, fab := { s.fab with ports := t.fab.ports } } t := by
  have hport (j : Nat) : portOf t j = portOf (portOff s p) j := by rw [portOf, portOf, h.fab_eq]
  have hfr : t.fronds = frondsWithout s.fronds p := h.fronds_eq
  refine ⟨(hport p).trans (portOf_modPort_self _ _ _), fun j hj => (hport j).trans (portOf_modPort_ne _ _ hj), fun f => ?_, ?_, ?_⟩
  · rw [frondState, hfr]
    exact frondState_frondsWithout s p f hs
  · rw [hfr]
    rfl
  · rw [hfr, h.fab_eq]
    exact h

/-- Settles O17: each of the six writes comes to its effect on the selected pool, band or port, and to the answer. -/
theorem poolPortAndSelfTestCommands : Obligations.PoolPortAndSelfTestCommands := by
  intro s r path p u h
  refine ⟨fun hk hn x hx => ?_, fun hk hn => ?_, fun hk hn x hx => ?_, fun hk hn => ?_, fun hk hn hf hs => ?_,
    fun hk hn hr hst hon => ?_⟩
  · subst hx
    exact ⟨_, rfl, enablePool_pools (dictRow_poolCommand h hk hn (by decide))⟩
  · exact ⟨_, rfl, dictRow_poolCommand h hk hn (by decide)⟩
  · subst hx
    exact ⟨_, rfl, dictRow_poolCommand h hk hn (by decide)⟩
  · exact ⟨_, rfl, dictRow_bistStart h hk hn⟩
  · exact ⟨_, rfl, portOff_ports (dictRow_portDisable h hk hn hf) hs⟩
  · exact ⟨_, rfl, dictRow_portEnable h hk hn hr hst hon⟩

end Sys2Proof.Machine

/-!
PROOFS. What memory writes, recorded faults and operations of a queue leave as it was.
-/
namespace Sys2Proof.Machine

/-! ### What writes and counters change -/

/-- A state is another one but for memory, the values in force of the dictionary, and the retained staged copies: all that the
writes and counters of a run change. -/
def Written (s t : State) : Prop :=
  ∃ m d r, t = { s with mem := m, dict := d, units := { s.units with retained := r } }

theorem Written.refl (s : State) : Written s s := ⟨_, _, _, rfl⟩

theorem Written.trans {s t u : State} (h : Written s t) (k : Written t u) : Written s u := by
  obtain ⟨m, d, r, rfl⟩ := h
  obtain ⟨m', d', r', rfl⟩ := k
  exact ⟨m', d', r', rfl⟩

theorem written_bump (s : State) (k n : Nat) : Written s (bump s k n) := ⟨_, _, _, rfl⟩

theorem written_wr (s : State) (o a : Nat) (b : List Nat) : Written s (wr s o a b) := by
  unfold wr
  dsimp only
  split
  · exact ⟨_, _, _, rfl⟩
  · exact ⟨_, _, _, rfl⟩

theorem written_writePacked (s : State) (o p w i : Nat) (l : List Nat) : Written s (writePacked s o p w i l) := by
  unfold writePacked
  dsimp only
  split
  · exact .refl s
  · exact written_wr ..

/-! ### What recording a fault changes -/

/-- Of the units and the count of raised faults, a state differs from another one in the retained staged copies alone, as it does
where a record is stored or sent. -/
def Recorded (s t : State) : Prop :=
  t.log.raised = s.log.raised ∧ ∃ r, t.units = { s.units with retained := r }

theorem Recorded.trans {s t u : State} (h : Recorded s t) (k : Recorded t u) : Recorded s u := by
  obtain ⟨hl, r, hr⟩ := h
  obtain ⟨kl, r', kr⟩ := k
  exact ⟨kl.trans hl, r', by rw [kr, hr]⟩

theorem recorded_of_eq {s t : State} (hl : t.log.raised = s.log.raised) (hu : t.units = s.units) : Recorded s t :=
  ⟨hl, s.units.retained, hu⟩

theorem Written.recorded {s t : State} (h : Written s t) : Recorded s t := by
  obtain ⟨m, d, r, rfl⟩ := h
  exact ⟨rfl, r, rfl⟩

theorem recorded_noticeOf (s : State) (r : Nat) : Recorded s (noticeOf s r) :=
  recorded_of_eq (congrArg FaultLog.raised (noticeOf_log s r)) (noticeOf_units s r)

theorem recorded_storeRecord (s : State) (r : Nat) : Recorded s (storeRecord s r) := by
  unfold storeRecord
  dsimp only
  split
  · next ps x hroom =>
    have hlog : Recorded s { s with log := { s.log with
        records := tput s.log.records s.log.next r
        next := s.log.next + 1
        pages := ps } } := recorded_of_eq rfl rfl
    exact (hlog.trans (written_wr ..).recorded).trans (recorded_noticeOf ..)
  · have hlog : Recorded s { s with log := { s.log with
        records := tput s.log.records s.log.next r
        next := s.log.next + 1
        onDie := s.log.onDie + 1 } } := recorded_of_eq rfl rfl
    exact hlog.trans (recorded_noticeOf ..)

theorem recorded_takeRecord (s : State) (r : Nat) : Recorded s (takeRecord s r) := by
  unfold takeRecord
  dsimp only
  split
  · exact recorded_of_eq rfl rfl
  split
  · have hlost : Recorded s { s with log := { s.log with lostSince := 0 } } := recorded_of_eq rfl rfl
    exact (hlost.trans (recorded_storeRecord ..)).trans (recorded_storeRecord ..)
  · exact recorded_storeRecord ..

theorem recorded_ringWr (s : State) (o : Nat) (l : Bool) (a : Nat) (b : List Nat) : Recorded s (ringWr s o l a b) := by
  unfold ringWr
  split
  · exact (written_wr ..).recorded
  · exact recorded_of_eq (by simp) (by simp)

theorem recorded_ringRecord (s : State) (o r : Nat) : Recorded s (ringRecord s o r) := by
  unfold ringRecord
  dsimp only
  split
  · exact recorded_of_eq rfl rfl
  have hring := recorded_ringWr s o (bit (ownerRec s o).ring 15)
    (bits (ownerRec s o).ring 192 64 + 32 * ((ownerRec s o).ringCount % 2 ^ bits (ownerRec s o).ring 10 4)) (natLe 32 r)
  split
  · exact hring.trans (recorded_of_eq (by simp) (by simp))
  split
  · exact hring.trans (recorded_of_eq (by simp) (by simp))
  · exact hring.trans (recorded_of_eq (by simp) (by simp))

/-- A fault raised is counted once; of the units it touches the retained staged copies alone (R103). -/
theorem raise_log_units (s : State) (f : Flt) :
    (raise s f).log.raised = s.log.raised + 1 ∧ ∃ r, (raise s f).units = { s.units with retained := r } := by
  unfold raise
  dsimp only
  split
  · exact (recorded_takeRecord ..).trans (recorded_ringRecord ..)
  · exact ⟨rfl, _, rfl⟩

/-! ### Operations of a queue -/

theorem OtherQueues.refl (q : Nat) (s : State) : OtherQueues q s s := fun _ _ => rfl

theorem OtherQueues.trans {q : Nat} {s t u : State} (h : OtherQueues q s t) (k : OtherQueues q t u) : OtherQueues q s u :=
  fun r hr => (k r hr).trans (h r hr)

theorem otherQueues_of_queues_eq {q : Nat} {s t : State} (h : t.queues = s.queues) : OtherQueues q s t :=
  fun r _ => queueOf_congr h r

theorem otherQueues_modOp (s : State) (q n : Nat) (f : Op → Op) : OtherQueues q s (modOp s q n f) :=
  fun _ hr => queueOf_modQueue_ne s _ hr

theorem opAt_congr {s t : State} (h : t.queues = s.queues) (q n : Nat) : opAt t q n = opAt s q n := by
  rw [opAt, opAt, queueOf_congr h]

theorem otherQueues_startHead {s t : State} {q op sub : Nat} {n : Need} {x : Queue} {o : Op} {h : Head}
    (e : startHead s q op sub n = .go x o h t) : OtherQueues q s t := by
  obtain ⟨-, ⟨o', -, -, -, rfl⟩, -⟩ := startHead_go e
  exact (otherQueues_of_queues_eq (by split <;> rfl)).trans (otherQueues_modOp _ _ _ _)

/-- What is read of a changed operation is the change of one that was there. -/
theorem opAt_modOp_eq_some {s : State} {q n : Nat} {f : Op → Op} {y : Op} (hf : ∀ o, (f o).seq = o.seq)
    (h : opAt (modOp s q n f) q n = some y) : ∃ z, opAt s q n = some z ∧ f z = y :=
  Option.map_eq_some_iff.1 ((opAt_modOp s q n f hf).symm.trans h)

/-- A head that starts is an operation of its queue, marked as started. -/
theorem startHead_started {s t : State} {q op sub : Nat} {n : Need} {x : Queue} {o : Op} {h : Head}
    (e : startHead s q op sub n = .go x o h t) : ∃ y, opAt t q o.seq = some y ∧ y.progress = .started := by
  obtain ⟨y, hy⟩ := startHead_opAt e
  obtain ⟨-, ⟨o', -, rfl, -, rfl⟩, -⟩ := startHead_go e
  obtain ⟨z, -, hz⟩ := opAt_modOp_eq_some (by intro; rfl) hy
  exact ⟨y, hy, hz ▸ rfl⟩

theorem goingHead_queue {s : State} {q op : Nat} {x : Queue} {o : Op} {h : Head} (e : goingHead s q op = some (x, o, h)) :
    queueOf s q = some x ∧ qHead x = some o := by
  obtain ⟨x', hx, e⟩ := Option.bind_eq_some_iff.1 e
  obtain ⟨o', ho, e⟩ := Option.bind_eq_some_iff.1 e
  dsimp only at e
  split at e
  · cases e
    exact ⟨hx, ho⟩
  · cases e

theorem goingHead_opAt {s : State} {q op : Nat} {x : Queue} {o : Op} {h : Head} (e : goingHead s q op = some (x, o, h)) :
    ∃ y, opAt s q o.seq = some y := by
  obtain ⟨hx, ho⟩ := goingHead_queue e
  rw [← Option.isSome_iff_exists, opAt, hx, Option.bind_some, List.find?_isSome]
  exact ⟨o, qHead_mem ho, beq_self_eq_true _⟩

/-- An array operation's walk is the one that the walker holds for its queue. -/
theorem arrayHead_walk {s : State} {q : Nat} {o : Op} {h : Head} {w : Walk} (e : arrayHead s q = some (o, h, w)) :
    tget? s.units.walks q = some w := by
  unfold arrayHead at e
  split at e
  · next hw => cases e; exact hw
  · next hw => cases e; exact hw
  · cases e

theorem arrayHead_opAt {s : State} {q : Nat} {o : Op} {h : Head} {w : Walk} (e : arrayHead s q = some (o, h, w)) :
    ∃ y, opAt s q o.seq = some y := by
  unfold arrayHead at e
  split at e
  · next hg _ => cases e; exact goingHead_opAt hg
  · next hg _ => cases e; exact goingHead_opAt hg
  · cases e

/-! ### Faults of an operation -/

theorem opAt_modOp_some {s : State} {q n : Nat} {f : Op → Op} {y : Op} (hf : ∀ o, (f o).seq = o.seq) (h : opAt s q n = some y) :
    opAt (modOp s q n f) q n = some (f y) := by
  rw [opAt_modOp s q n f hf, h]
  rfl

/-- An operation of a queue is still there after any change of its fields. -/
theorem opAt_modOp_exists {s : State} {q n : Nat} {f : Op → Op} (hf : ∀ o, (f o).seq = o.seq) (h : ∃ y, opAt s q n = some y) :
    ∃ y, opAt (modOp s q n f) q n = some y := by
  obtain ⟨y, hy⟩ := h
  exact ⟨f y, opAt_modOp_some hf hy⟩

theorem opAt_raiseOp_exists {s : State} {q : Nat} {o : Op} {c r : Nat} {l : List (Nat × Nat)} (h : ∃ y, opAt s q o.seq = some y) :
    ∃ y, opAt (raiseOp s q o c r l) q o.seq = some y :=
  opAt_modOp_exists (fun _ => rfl) (by rwa [opAt_congr (raise_queues ..)])

theorem finished_refuseOp {s : State} {q : Nat} {o : Op} {c r : Nat} {l : List (Nat × Nat)} (h : ∃ y, opAt s q o.seq = some y) :
    Finished (refuseOp s q o c r l) q o.seq 0x10 :=
  finished_endOp (opAt_raiseOp_exists h)

theorem otherQueues_raiseOp (s : State) (q : Nat) (o : Op) (c r : Nat) (l : List (Nat × Nat)) :
    OtherQueues q s (raiseOp s q o c r l) :=
  (otherQueues_of_queues_eq (raise_queues ..)).trans (otherQueues_modOp _ _ _ _)

theorem otherQueues_refuseOp (s : State) (q : Nat) (o : Op) (c r : Nat) (l : List (Nat × Nat)) :
    OtherQueues q s (refuseOp s q o c r l) :=
  (otherQueues_raiseOp _ _ _ _ _ _).trans (otherQueues_modOp _ _ _ _)

theorem raiseOp_log_units (s : State) (q : Nat) (o : Op) (c r : Nat) (l : List (Nat × Nat)) :
    (raiseOp s q o c r l).log.raised = s.log.raised + 1 ∧
    ∃ k, (raiseOp s q o c r l).units = { s.units with retained := k } :=
  raise_log_units s _

theorem refuseOp_log_units (s : State) (q : Nat) (o : Op) (c r : Nat) (l : List (Nat × Nat)) :
    (refuseOp s q o c r l).log.raised = s.log.raised + 1 ∧
    ∃ k, (refuseOp s q o c r l).units = { s.units with retained := k } :=
  raiseOp_log_units s q o c r l

/-- An operation of class R that is not in place and has not run 8 times is stopped for a fault of R429: one fault is raised, and
it waits to be run again. -/
theorem rerunOp_waits {s : State} {q : Nat} {o : Op} {h : Head} (code src : Nat) (items : List (Nat × Nat)) (hruns : o.runs < 8)
    (ho : ∃ y, opAt s q o.seq = some y) :
    (∃ y, opAt (rerunOp s q o h false code src items) q o.seq = some y ∧ y.progress = .waiting ∧ y.rerun = true) ∧
    (rerunOp s q o h false code src items).log.raised = s.log.raised + 1 ∧
    (∃ k, (rerunOp s q o h false code src items).units = { s.units with retained := k }) ∧
    OtherQueues q s (rerunOp s q o h false code src items) := by
  unfold rerunOp againOp
  rw [if_neg (by simp), if_neg (Nat.not_le.2 hruns)]
  refine ⟨?_, (raiseOp_log_units ..).1, (raiseOp_log_units ..).2,
    ((otherQueues_raiseOp _ _ _ _ _ _).trans (otherQueues_modOp _ _ _ _)).trans (otherQueues_modOp _ _ _ _)⟩
  obtain ⟨y, hy⟩ := opAt_modOp_exists (f := fun x => if 8 ≤ o.runs then { x with code := code } else x)
    (fun _ => by split <;> rfl) (opAt_raiseOp_exists (c := code) (r := src) (l := items) ho)
  exact ⟨_, opAt_modOp_some (by intro; rfl) hy, rfl, rfl⟩

end Sys2Proof.Machine

/-!
PROOFS. The plan of a grouped operation (R91, R95, R98), and its refusal.
-/
namespace Sys2Proof.Machine

/-! ### The walk as planned -/

theorem map_snd_indexed {α : Type} (l : List α) (n : Nat) : (indexed n l).map (·.2) = l := by
  induction l generalizing n with
  | nil => rfl
  | cons a l ih => rw [indexed, List.map_cons, ih]

/-- Entries of which none is sparse have no tile whose metadata is to be checked (R123). -/
theorem sparseTiles_of_dense (s : State) {w : Walk} (h : ∀ e ∈ w.table, enSparse e = false) : sparseTiles s w = [] := by
  refine List.flatten_eq_nil_iff.2 fun l hl => ?_
  obtain ⟨x, hx, rfl⟩ := List.mem_map.1 hl
  obtain ⟨y, hy, rfl⟩ := List.mem_map.1 hx
  have hmem : y.2 ∈ w.table := map_snd_indexed w.table 0 ▸ List.mem_map_of_mem hy
  rw [if_neg (by rw [h _ hmem]; simp)]

/-- A walk that has a plan is planned: the walker holds the plan, and beside it only counters and retained copies change. -/
theorem planWalk_planned {s : State} {q : Nat} {o : Op} {h : Head} {w : Walk} {cs : List Chain} (hp : PlanIs s q o h w cs) :
    ∃ d r, planWalk s q o h w = { s with
      dict := d
      units := { s.units with
        retained := r
        walks := tput s.units.walks q { walkRead s q o h w with
          chains := cs
          stage := 1 } } } := by
  obtain ⟨hfill, hdense, hplan, hne⟩ := hp
  have hread : ((indexed 0 w.table).map (fun x => (x.1, x.2, readFills s o.owner w.gcb x.2))).map (fun x => x.2.2.map (·.getD 0)) =
      w.table.map (fun e => (readFills s o.owner w.gcb e).map (·.getD 0)) := by
    conv_rhs => rw [← map_snd_indexed w.table 0]
    simp only [List.map_map, Function.comp_def]
  have hchecked : ((indexed 0 w.table).map (fun x => (x.1, x.2, readFills s o.owner w.gcb x.2))).findSome?
      (fun x => fillCheck (detailIdx w x.1) x.2.1 x.2.2) = none := by
    simpa [List.findSome?_map, List.findSome?_eq_none_iff] using hfill
  have hmeta := sparseTiles_of_dense s (w := { walkRead s q o h w with chains := cs, stage := 1 }) hdense
  have hcs : cs.isEmpty = false := by simpa using hne
  unfold walkRead at hplan hmeta
  unfold planWalk
  simp only [hchecked, hread, hplan, hmeta, checkSparse, hcs]
  exact ⟨_, _, rfl⟩

theorem plannedAs_planWalk {s : State} {q : Nat} {o : Op} {h : Head} {w : Walk} {cs : List Chain} (hp : PlanIs s q o h w cs) :
    PlannedAs s (planWalk s q o h w) q o h w cs := by
  obtain ⟨d, r, hplan⟩ := planWalk_planned hp
  rw [hplan]
  exact tget_tput_self ..

/-- A head that starts and is planned runs on, with its plan held and nothing but its queue, counters and the units changed. -/
theorem planWalk_of_startHead {s t : State} {q op sub : Nat} {n : Need} {x : Queue} {o : Op} {h : Head} {w : Walk} {cs : List Chain}
    {u : State} (e : startHead s q op sub n = .go x o h t) (hp : PlanIs t q o h w cs) (hu : u = planWalk t q o h w) :
    PlannedAs t u q o h w cs ∧ (∃ y, opAt u q o.seq = some y ∧ y.progress = .started) ∧ u.mem = s.mem ∧ OtherQueues q s u ∧
    u = { s with queues := u.queues, dict := u.dict, units := u.units } := by
  have hplanned : PlannedAs t u q o h w cs := hu ▸ plannedAs_planWalk hp
  obtain ⟨d, r, hplan⟩ := planWalk_planned hp
  have hqueues : u.queues = t.queues := by rw [hu, hplan]
  have hframe : u = { s with queues := u.queues, dict := u.dict, units := u.units } := by
    rw [hu, hplan, startHead_frame e]
  refine ⟨hplanned, ?_, by rw [hframe], (otherQueues_startHead e).trans (otherQueues_of_queues_eq hqueues), hframe⟩
  rw [opAt_congr hqueues]
  exact startHead_started e

/-! ### From the command to the plan -/

theorem startWalk_noWait {s : State} {q : Nat} {o : Op} {h : Head} {w : Walk} (hw : gcbWait w.gcb = false) :
    startWalk s q o h w = planWalk s q o h w := by
  unfold startWalk
  rw [if_pos (by simp [hw])]

/-- An operation whose wait has ended starts by the way it ended: with its target reached it is planned. -/
theorem startWalk_reached {s : State} {q : Nat} {o : Op} {h : Head} {w : Walk} (hw : gcbWait w.gcb = true)
    (hobj : objIn s (queuePart s q) 2 (gcbCounter w.gcb) = true) (hend : tget? s.syu.ended q = some 1) :
    startWalk s q o h w = planWalk (dropWaits s q) q o h w := by
  simp [startWalk, hw, hobj, hend, thas]

/-- An operation whose counter was poisoned while it waited is refused (R95). -/
theorem startWalk_poisoned {s : State} {q : Nat} {o : Op} {h : Head} {w : Walk} (hw : gcbWait w.gcb = true)
    (hobj : objIn s (queuePart s q) 2 (gcbCounter w.gcb) = true) (hend : tget? s.syu.ended q = some 2) :
    startWalk s q o h w = refuseWalk s q o w.gcb (0x200C, [(gcbCounter w.gcb, 16)]) := by
  simp [startWalk, hw, hobj, hend, thas]

theorem startGrouped_passes {s : State} {q : Nat} {x : Queue} {o : Op} {h : Head} {g : Nat}
    (hptr : ptrOk s o.owner (bits o.body 472 40) 64 .read = true) (hread : readStruct s o.owner (bits o.body 472 40) 64 = some g)
    (hgcb : gcbCheck s o.owner (some g) = none)
    (hentries : entriesCheck s o.owner g (fun i => readStruct s o.owner (gcbProfile g + 64 * i) 64) 0 (readTable s o.owner g) = none)
    (hover : overlapCheck (groupExts (bits o.body 472 40) g) g ((indexed 0 ((readTable s o.owner g).map (·.getD 0))).map
      (fun y => (y.1, y.2, tgetD (readProfiles s o.owner g ((readTable s o.owner g).map (·.getD 0))) (enProfile y.2) 0))) = none) :
    startGrouped q s x o h = startWalk s q o h (newWalk o (bits o.body 472 40) g false ((readTable s o.owner g).map (·.getD 0))
      (readProfiles s o.owner g ((readTable s o.owner g).map (·.getD 0)))) := by
  unfold startGrouped
  simp only [hptr, hread, Option.getD_some, hgcb, hentries, hover]
  rfl

theorem startMatrix_passes {s : State} {q : Nat} {x : Queue} {o : Op} {h : Head} {g : Nat}
    (hg : g = matrixGcb h.auxPtr (pEnt s 0x3000 5 x.partition) (pEnt s 0x3000 6 x.partition))
    (hptr : ptrOk s o.owner h.auxPtr 64 .read = true)
    (hstaging : stagingOk s o.owner (pEnt s 0x3000 5 x.partition) (pEnt s 0x3000 6 x.partition) = true)
    (hentry : entryCheck s o.owner 0xFFFF g (some o.body) (fun i => readStruct s o.owner (h.auxPtr + 64 * i) 64) = none)
    (hsegs : enSegs o.body = 1)
    (hover : overlapCheck [(h.auxPtr, 64, 128)] g [(0xFFFF, o.body, rdNat s o.owner h.auxPtr 64)] = none) :
    startMatrix q s x o h = startWalk s q o h (newWalk o 0 g true [o.body] [(0, rdNat s o.owner h.auxPtr 64)]) := by
  have hprof : tgetD [(0, rdNat s o.owner h.auxPtr 64)] 0 0 = rdNat s o.owner h.auxPtr 64 := rfl
  unfold startMatrix
  simp only [← hg, hptr, hstaging, hentry, hsegs, hprof, hover]
  rfl

theorem exec_grouped_of_go {s t : State} {q : Nat} {x : Queue} {o : Op} {h : Head} (ht : walkerTakes s q = true)
    (hc : clearOfRunning s (controlExts s q) = true) (e : startHead s q 0x01 0 .ready = .go x o h t) :
    exec (.grouped q) s = .next (startGrouped q t x o h) := by
  change execGrouped q s = _
  rw [execGrouped, if_pos ⟨ht, hc⟩, runHead, e]

theorem exec_matrix_of_go {s t : State} {q : Nat} {x : Queue} {o : Op} {h : Head} (ht : walkerTakes s q = true)
    (hc : clearOfRunning s (controlExts s q) = true) (e : startHead s q 0x02 0 .ready = .go x o h t) :
    exec (.matrix q) s = .next (startMatrix q t x o h) := by
  change execMatrix q s = _
  rw [execMatrix, if_pos ⟨ht, hc⟩, runHead, e]

theorem exec_walkerStartCondition {s : State} {q : Nat} {o : Op} {h : Head} {w : Walk} (e : arrayHead s q = some (o, h, w))
    (hw : w.stage = 0) (hp : (plannedWalks s).length < 2) : exec (.walkerStartCondition q) s = .next (startWalk s q o h w) := by
  change execWalkerStartCondition q s = _
  simp only [execWalkerStartCondition, e]
  rw [if_pos ⟨hw, decide_eq_true hp⟩]

/-! ### The refusal of a walk -/

theorem written_refusedStatus (s : State) (o g : Nat) : Written s (refusedStatus s o g) := by
  unfold refusedStatus
  split
  · exact written_wr ..
  · exact .refl s

/-- A walk refused: its operation finishes with status 0x10, the walker forgets it, and one fault is raised. -/
theorem refuseWalk_refuses {s : State} {q : Nat} {o : Op} (g : Nat) (b : Bad) (hw : tsorted s.units.walks = true)
    (ho : ∃ y, opAt s q o.seq = some y) :
    Finished (refuseWalk s q o g b) q o.seq 0x10 ∧ tget? (refuseWalk s q o g b).units.walks q = none ∧
    (refuseWalk s q o g b).log.raised = s.log.raised + 1 ∧ OtherQueues q s (refuseWalk s q o g b) := by
  have hcount : Written s (if b.1 = 0x200B ∨ b.1 = 0x2007 ∨ b.1 = 0x3005 then bump s 0x280203 1 else s) := by
    split
    · exact written_bump ..
    · exact .refl s
  unfold refuseWalk
  dsimp only
  obtain ⟨m, d, r, hv⟩ := hcount.trans (written_refusedStatus _ o.owner g)
  rw [hv]
  generalize hu : dropWalk _ q = u
  have huq : u.queues = s.queues := by rw [← hu]; rfl
  have huw : u.units.walks = tdel s.units.walks q := by rw [← hu]; rfl
  have hul : u.log = s.log := by rw [← hu]; rfl
  obtain ⟨hl, r', hr'⟩ := refuseOp_log_units u q o b.1 (badSrc b.1) b.2
  refine ⟨?_, ?_, ?_, ?_⟩
  · exact finished_refuseOp (s := u) (by rwa [opAt_congr huq])
  · rw [bump_units, hr']
    exact huw ▸ tget_tdel_self q hw
  · rw [bump_log, hl, hul]
  · exact ((otherQueues_of_queues_eq huq).trans (otherQueues_refuseOp _ _ _ _ _ _)).trans (otherQueues_of_queues_eq rfl)

/-! ### O41 -/

theorem engineWaits_of_dropWaits {s t : State} {q : Nat} (h : t.syu = (dropWaits s q).syu) : engineWaits t q = [] := by
  rw [engineWaits, h]
  simp [dropWaits]

/-- The plan of an operation does not read the waits of its queue. -/
theorem walkRead_dropWaits (s : State) (p q : Nat) (o : Op) (h : Head) (w : Walk) :
    walkRead (dropWaits s p) q o h w = walkRead s q o h w := by
  unfold walkRead
  rfl

theorem planIs_dropWaits (s : State) (p q : Nat) (o : Op) (h : Head) (w : Walk) (cs : List Chain) :
    PlanIs (dropWaits s p) q o h w cs ↔ PlanIs s q o h w cs := by
  rw [PlanIs, PlanIs, walkRead_dropWaits]
  rfl

theorem plannedAs_dropWaits (s t : State) (p q : Nat) (o : Op) (h : Head) (w : Walk) (cs : List Chain) :
    PlannedAs (dropWaits s p) t q o h w cs ↔ PlannedAs s t q o h w cs := by
  rw [PlannedAs, PlannedAs, walkRead_dropWaits]

/-- Settles O41: with every check passed the start of the walk is its plan; a wait that has ended plans or refuses it. -/
theorem groupedOperationsArePlanned : Obligations.GroupedOperationsArePlanned := by
  intro s q x o h t w cs
  refine ⟨?_, ?_, ?_⟩
  · rintro g at_ table profs htake hclear hstart rfl hptr hread hgcb hentries rfl rfl hover hwait rfl hplan
    exact ⟨_, exec_grouped_of_go htake hclear hstart, planWalk_of_startHead hstart hplan
      ((startGrouped_passes hptr hread hgcb hentries hover).trans (startWalk_noWait hwait))⟩
  · rintro g profs htake hclear hstart hg hptr hstaging hentry hsegs rfl hover hwait rfl hplan
    exact ⟨_, exec_matrix_of_go htake hclear hstart, planWalk_of_startHead hstart hplan
      ((startMatrix_passes hg hptr hstaging hentry hsegs hover).trans (startWalk_noWait hwait))⟩
  · intro hhead hstage hroom hwait hobj
    refine ⟨fun hend hplan => ?_, fun hend _ hsorted hop => ?_⟩
    · refine ⟨_, exec_walkerStartCondition hhead hstage hroom, ?_⟩
      have hplan' := (planIs_dropWaits s q q o h w cs).2 hplan
      obtain ⟨d, r, hu⟩ := planWalk_planned hplan'
      rw [startWalk_reached hwait hobj hend]
      have hheld := (plannedAs_dropWaits ..).1 (plannedAs_planWalk hplan')
      refine ⟨hheld, engineWaits_of_dropWaits (s := s) ?_, ?_, ?_, ?_⟩ <;> rw [hu] <;> rfl
    · refine ⟨_, exec_walkerStartCondition hhead hstage hroom, ?_⟩
      rw [startWalk_poisoned hwait hobj hend]
      exact refuseWalk_refuses _ _ hsorted (arrayHead_opAt hhead)

end Sys2Proof.Machine

/-!
PROOFS. The chains of a planned operation: what they stream, how they complete, and how they stop (R72 to R76, R100, R106, R108,
R165).
-/
namespace Sys2Proof.Machine

/-! ### The rows of a chain -/

theorem written_writeRow (s : State) (x : Prob) (u row : Nat) (r : RowOut) : Written s (writeRow s x u row r) := by
  unfold writeRow
  dsimp only
  split
  · exact written_writePacked ..
  · exact (written_writePacked ..).trans (written_wr ..)

theorem written_runRow (di : Nat) (x : Prob) (toks : List (Nat × Bool)) (u : Nat) (cols : List Col) (bias : List Fp) (replay : Bool)
    (row : Nat) (acc : RowsAcc) : Written acc.s (runRow di x toks u cols bias replay row acc).s := by
  unfold runRow
  dsimp only
  split
  · exact .refl _
  split
  · exact .refl _
  split
  · exact written_writeRow ..
  split
  · exact (written_writeRow ..).trans (written_wr ..)
  · exact (written_writeRow ..).trans (written_wr ..)
  · exact written_writeRow ..

theorem written_runRows (di : Nat) (x : Prob) (toks : List (Nat × Bool)) (u : Nat) (cols : List Col) (bias : List Fp) (replay : Bool)
    (rows : List Nat) (acc : RowsAcc) : Written acc.s (runRows di x toks u cols bias replay rows acc).s := by
  induction rows generalizing acc with
  | nil => exact .refl _
  | cons row rows ih =>
    unfold runRows
    dsimp only
    split
    · exact written_runRow ..
    · exact (written_runRow ..).trans (ih _)

/-- A chain's rows only write. -/
theorem written_runChain (s : State) (w : Walk) (owner : Nat) (c : Chain) (replay : Bool) :
    Written s (runChain s w owner c replay).s := by
  unfold runChain
  dsimp only
  split
  · exact .refl s
  · exact written_runRows ..

/-! ### Counters -/

/-- A state is another one but for the values in force of the dictionary, where counters stand. -/
def Counted (s t : State) : Prop := ∃ d, t = { s with dict := d }

theorem Counted.trans {s t u : State} (h : Counted s t) (k : Counted t u) : Counted s u := by
  obtain ⟨d, rfl⟩ := h
  obtain ⟨d', rfl⟩ := k
  exact ⟨d', rfl⟩

theorem counted_bump (s : State) (k n : Nat) : Counted s (bump s k n) := ⟨_, rfl⟩

theorem counted_foldl_bump (l : List (Nat × Nat)) (s : State) :
    Counted s (l.foldl (fun t p => if p.2 = 0 then t else bump t p.1 p.2) s) := by
  induction l generalizing s with
  | nil => exact ⟨_, rfl⟩
  | cons p l ih =>
    rw [List.foldl_cons]
    split
    · exact ih s
    · exact (counted_bump s p.1 p.2).trans (ih _)

theorem counted_drainCounters (s : State) (a : RowsAcc) : Counted s (drainCounters s a) := counted_foldl_bump _ s

theorem counted_chainCounters (s : State) (w : Walk) (owner i : Nat) (c : Chain) : Counted s (chainCounters s w owner i c) :=
  counted_foldl_bump _ s

/-- A chain that runs to its end streams: what its rows wrote stands, the array's registers are loaded, and its walk has it
streaming. -/
theorem streamChain_streams {s : State} {q : Nat} {o : Op} {w : Walk} {i : Nat} {c : Chain} {replay : Bool} {a : RowsAcc}
    (ha : runChain s w o.owner c replay = a) (hstop : a.stop = none) :
    ∃ d g, streamChain s q o w i c replay = { a.s with
      dict := d
      units := { a.s.units with
        regs := g
        walks := tput a.s.units.walks q (walkBits (modChain w i (fun e => { e with
          state := 1
          flagged := if replay then e.flagged else a.flagged })) a) } } := by
  unfold streamChain
  simp only [ha, hstop]
  obtain ⟨d, hd⟩ := (counted_drainCounters a.s a).trans (counted_chainCounters (drainCounters a.s a) w o.owner i c)
  rw [hd]
  exact ⟨d, _, rfl⟩

theorem exec_chainStart_dense {s : State} {q i : Nat} {o : Op} {h : Head} {w : Walk} {c : Chain} (e : arrayHead s q = some (o, h, w))
    (hstage : w.stage = 3) (hc : w.chains[i]? = some c) (hrun : s.units.running = some q) (hstarted : w.started = true)
    (hstate : c.state = 0) (hready : groupReady w i c = true) (hin : ∀ b ∈ chainBands c, bandIn s b = true)
    (hon : ∀ b ∈ chainBands c, frondState s b = .on) (hdense : enSparse (walkProb o.owner w c.entry).e = false) :
    exec (.chainStart q i) s = .next (streamChain s q o w i c false) := by
  have hwalk : { w with stage := 3, started := true } = w := by rw [← hstage, ← hstarted]
  have hout : (chainBands c).find? (fun b => !bandIn s b) = none :=
    List.find?_eq_none.2 fun b hb => by simp [hin b hb]
  have hoff : (chainBands c).filter (fun b => frondState s b != .on) = [] :=
    List.filter_eq_nil_iff.2 fun b hb => by simp [hon b hb]
  have hhold : holdArray s q w = some s := if_pos hrun
  change execChainStart q i s = _
  simp [execChainStart, e, hstage, hhold, hc, hwalk, hstate, hready, hout, hoff, hdense]

/-! ### The end of an operation -/

theorem chargeArray_frame (s : State) (q : Nat) (w : Walk) :
    ∃ d n a, chargeArray s q w = { s with dict := d, free := n, units := { s.units with array := a } } := by
  unfold chargeArray
  split
  · exact ⟨_, _, _, rfl⟩
  · exact ⟨_, _, _, rfl⟩

theorem closeWalk_counted (s : State) (o : Op) (w : Walk) :
    Counted (if gcbStatus w.gcb then wr s o.owner (gcbStatusPtr w.gcb) (walkStatus w) else s) (closeWalk s o w) :=
  ((counted_bump ..).trans (counted_bump ..)).trans (counted_bump ..)

theorem retainTiles_frame (s : State) (owner : Nat) (w : Walk) :
    ∃ r n, retainTiles s owner w = { s with units := { s.units with retained := r, stagings := n } } := by
  unfold retainTiles
  split
  · exact ⟨_, _, rfl⟩
  · exact ⟨_, _, rfl⟩

/-- What a write leaves in memory depends on memory and keys alone. -/
theorem wr_mem_congr {s t : State} (hm : t.mem = s.mem) (hk : t.mc = s.mc) (o a : Nat) (b : List Nat) :
    (wr t o a b).mem = (wr s o a b).mem := by
  have hwr (u : State) : (wr u o a b).mem = (writeMem u.mem o (keyGen u o) a b).1 := by
    unfold wr
    dsimp only
    split <;> rfl
  rw [hwr, hwr, keyGen, keyGen, keySlot, keySlot, hm, hk]

/-- The state of an operation that ends, before its status is set: its run charged, its status vector written, its walk gone. -/
theorem closedWalk_frame (s : State) (q : Nat) (o : Op) (w : Walk) :
    let v := dropWalk (retainTiles (closeWalk (chargeArray s q w) o w) o.owner w) q
    v.queues = s.queues ∧ v.units.walks = tdel s.units.walks q ∧
    v.mem = (if gcbStatus w.gcb then wr s o.owner (gcbStatusPtr w.gcb) (walkStatus w) else s).mem := by
  obtain ⟨d, n, a, hcharge⟩ := chargeArray_frame s q w
  obtain ⟨d', hclose⟩ := closeWalk_counted (chargeArray s q w) o w
  obtain ⟨r, k, hretain⟩ := retainTiles_frame (closeWalk (chargeArray s q w) o w) o.owner w
  have hwritten : Written (chargeArray s q w)
      (if gcbStatus w.gcb then wr (chargeArray s q w) o.owner (gcbStatusPtr w.gcb) (walkStatus w) else chargeArray s q w) := by
    split
    · exact written_wr ..
    · exact .refl _
  obtain ⟨m, d'', r', hw⟩ := hwritten
  intro v
  refine ⟨?_, ?_, ?_⟩
  · change (retainTiles (closeWalk (chargeArray s q w) o w) o.owner w).queues = _
    rw [hretain, hclose, hw, hcharge]
  · change tdel (retainTiles (closeWalk (chargeArray s q w) o w) o.owner w).units.walks q = _
    rw [hretain, hclose, hw, hcharge]
  · change (retainTiles (closeWalk (chargeArray s q w) o w) o.owner w).mem = _
    rw [hretain, hclose]
    split
    · exact wr_mem_congr (by rw [hcharge]) (by rw [hcharge]) ..
    · rw [hcharge]

/-- A grouped operation done: finished with status 0x01, forgotten by the walker, its status vector written where it asks. -/
theorem finishWalk_finishes {s : State} {q : Nat} {o : Op} (w : Walk) (hw : tsorted s.units.walks = true)
    (ho : ∃ y, opAt s q o.seq = some y) :
    Finished (finishWalk s q o w) q o.seq 0x01 ∧ tget? (finishWalk s q o w).units.walks q = none ∧
    (finishWalk s q o w).mem = (if gcbStatus w.gcb then wr s o.owner (gcbStatusPtr w.gcb) (walkStatus w) else s).mem ∧
    OtherQueues q s (finishWalk s q o w) := by
  obtain ⟨hqueues, hwalks, hmem⟩ := closedWalk_frame s q o w
  unfold finishWalk
  refine ⟨?_, ?_, hmem, ?_⟩
  · exact finished_endOp (opAt_modOp_exists (fun _ => rfl) (by rwa [opAt_congr hqueues]))
  · change tget? (dropWalk (retainTiles (closeWalk (chargeArray s q w) o w) o.owner w) q).units.walks q = none
    rw [hwalks]
    exact tget_tdel_self q hw
  · exact ((otherQueues_of_queues_eq hqueues).trans (otherQueues_modOp _ _ _ _)).trans (otherQueues_modOp _ _ _ _)

/-- A chain with no row flagged is complete, and its operation done where every chain is. -/
theorem exec_chainComplete_unflagged {s : State} {q i : Nat} {o : Op} {h : Head} {w : Walk} {c : Chain}
    (e : arrayHead s q = some (o, h, w)) (hc : w.chains[i]? = some c) (hstate : c.state = 1) (hflag : c.flagged = 0) :
    exec (.chainComplete q i) s = .next (if (chainDone w i).chains.all (fun d => d.state == 2) then finishWalk s q o (chainDone w i)
      else { s with units := { s.units with walks := tput s.units.walks q (chainDone w i) } }) := by
  have hwalk := arrayHead_walk e
  have hmod : modWalk s q (fun _ => chainDone w i) =
      { s with units := { s.units with walks := tput s.units.walks q (chainDone w i) } } := by
    rw [modWalk, tmod, hwalk]
  change execChainComplete q i s = _
  simp only [execChainComplete, e, hc, hstate, hflag, hwalk, ne_eq, not_true_eq_false, if_false, if_true]
  rw [← hmod]
  rfl

/-! ### Early starts -/

theorem exec_earlyStart {s : State} {q r : Nat} {o : Op} {h : Head} {w v : Walk} (e : arrayHead s q = some (o, h, w))
    (hrun : s.units.running = some r) (hne : r ≠ q) (hv : tget? s.units.walks r = some v) (hstage : w.stage = 1)
    (hahead : s.units.ahead = none) (hearly : gcbEarly w.gcb = true) (hon : ent s 0x230101 = 1) :
    (earlyOverlap w v = true → w.declined = false →
      exec (.earlyStart q) s = .next (modWalk (bump s 0x23020A 1) q (fun x => { x with declined := true }))) ∧
    (earlyOverlap w v = false → ∃ g, exec (.earlyStart q) s = .next { bump s 0x230209 1 with
      mem := spoilTile s.mem (gcbStagingBase w.gcb) (gcbStagingSize w.gcb)
      units := { s.units with
        walks := tmod s.units.walks q (fun x => { x with stage := 2, started := true })
        regs := g
        ahead := some q } }) := by
  have hguard : ¬ (w.stage ≠ 1 ∨ s.units.running = some q ∨ s.units.ahead.isSome = true ∨ ¬ gcbEarly w.gcb = true ∨
      ent s 0x230101 ≠ 1) := by
    simp [hstage, hrun, hne, hahead, hearly, hon]
  have hwalks : s.units.running.bind (fun r => tget? s.units.walks r) = some v := by rw [hrun, Option.bind_some, hv]
  refine ⟨fun hover hdecl => ?_, fun hover => ?_⟩
  · change execEarlyStart q s = _
    simp only [execEarlyStart, e, hwalks]
    rw [if_neg hguard, if_pos hover, hdecl]
    rfl
  · change ∃ g, execEarlyStart q s = _
    simp only [execEarlyStart, e, hwalks]
    rw [if_neg hguard, if_neg (by rw [hover]; simp)]
    exact ⟨_, rfl⟩

/-! ### Faults of the array -/

theorem returnAhead_of_walks_nil {s : State} (q : Nat) (h : s.units.walks = []) : returnAhead s q = s := by
  rw [returnAhead, h, List.foldl_nil]

/-- The walker drops the only walk that it has, of an operation that may run again. -/
theorem quitWalk_drops {s : State} {q : Nat} {o : Op} {h : Head} {w : Walk} (hplace : walkInPlace w = false) (hruns : o.runs < 8)
    (hwalks : s.units.walks = [(q, w)]) (ho : ∃ y, opAt s q o.seq = some y) :
    (∃ y, opAt (quitWalk s q o h w) q o.seq = some y) ∧ (quitWalk s q o h w).units.bandFaults = s.units.bandFaults ∧
    (quitWalk s q o h w).units.walks = [] ∧ (quitWalk s q o h w).log = s.log ∧ OtherQueues q s (quitWalk s q o h w) := by
  obtain ⟨d, n, a, hcharge⟩ := chargeArray_frame s q w
  have hnil : (carryBits (dropWalk (chargeArray s q w) q) q o w).units.walks = [] := by
    change tdel (chargeArray s q w).units.walks q = []
    rw [hcharge, hwalks]
    simp [tdel]
  have hquit : quitWalk s q o h w = carryBits (dropWalk (chargeArray s q w) q) q o w := by
    unfold quitWalk
    rw [if_neg (by simp [hplace, hruns]), returnAhead_of_walks_nil q hnil]
  have hqueues : (dropWalk (chargeArray s q w) q).queues = s.queues := by rw [hcharge]; rfl
  rw [hquit]
  refine ⟨opAt_modOp_exists (fun _ => rfl) (by rwa [opAt_congr hqueues]), ?_, hnil, ?_,
    (otherQueues_of_queues_eq hqueues).trans (otherQueues_modOp _ _ _ _)⟩
  · rw [hcharge]; rfl
  · rw [hcharge]; rfl

/-- An operation that may run again and is the only one with the walker stops for a fault of R429: the walker forgets it, one
fault is raised, and it waits to be run again. -/
theorem lostWalk_waits {s : State} {q : Nat} {o : Op} {h : Head} {w : Walk} (code src : Nat) (items : List (Nat × Nat))
    (hplace : walkInPlace w = false) (hruns : o.runs < 8) (hwalks : s.units.walks = [(q, w)]) (ho : ∃ y, opAt s q o.seq = some y) :
    (∃ y, opAt (lostWalk s q o h w code src items) q o.seq = some y ∧ y.progress = .waiting ∧ y.rerun = true) ∧
    (lostWalk s q o h w code src items).units.bandFaults = s.units.bandFaults ∧
    (lostWalk s q o h w code src items).units.walks = [] ∧
    (lostWalk s q o h w code src items).log.raised = s.log.raised + 1 ∧
    OtherQueues q s (lostWalk s q o h w code src items) := by
  obtain ⟨hop, hbands, hnil, hlog, hother⟩ := quitWalk_drops (h := h) hplace hruns hwalks ho
  obtain ⟨hagain, hraised, ⟨k, hunits⟩, hother'⟩ := rerunOp_waits (h := h) code src items hruns hop
  rw [lostWalk, hplace]
  exact ⟨hagain, by rw [hunits, ← hbands], by rw [hunits, ← hnil], by rw [hraised, hlog], hother.trans hother'⟩

theorem exec_arrayRegParity {s : State} {b q : Nat} {o : Op} {h : Head} {w : Walk} (e : bandUser s b = some (q, o, h, w)) :
    exec (.arrayRegParity b) s = .next (lostWalk (faultBand (bump { s with free := s.free + 2 } 0x220408 1) b) q o h w 0x1007 srcArray
      [(b, 3), (Config.freeValue s.free, 10), (Config.freeValue (s.free + 1), 10)]) := by
  change execArrayRegParity b s = _
  simp only [execArrayRegParity, e]

/-- Some column's foot was crossed other than once: the first such column is found (R73). -/
theorem exec_arrayFrontCheck {s : State} {b q : Nat} {o : Op} {h : Head} {w : Walk} {counts : List Nat}
    (e : bandUser s b = some (q, o, h, w)) (hc : counts.any (· != 1) = true) :
    ∃ col, exec (.arrayFrontCheck b counts) s = .next (lostWalk (faultBand s b) q o h w 0x1008 srcArray [(b, 3), (col, 10)]) := by
  have hfound : ((indexed 0 counts).find? (fun c => c.2 != 1)).isSome = true := by
    rw [← map_snd_indexed counts 0, List.any_map, List.any_eq_true] at hc
    exact List.find?_isSome.2 hc
  obtain ⟨c, hcol⟩ := Option.isSome_iff_exists.1 hfound
  refine ⟨c.1, ?_⟩
  change execArrayFrontCheck b counts s = _
  simp only [execArrayFrontCheck, e, hcol]

/-! ### O42 -/

/-- A band that fails under a chain is faulted, and the chain's operation waits to be run again. -/
theorem runs_of_lostWalk {s t : State} {c : Instr} {b q : Nat} {o : Op} {h : Head} {w : Walk} {code src : Nat}
    {items : List (Nat × Nat)} (he : exec c s = .next (lostWalk (faultBand t b) q o h w code src items))
    (hq : t.queues = s.queues) (hu : t.units = s.units) (hl : t.log = s.log) (hplace : walkInPlace w = false) (hruns : o.runs < 8)
    (hwalks : s.units.walks = [(q, w)]) (ho : ∃ y, opAt s q o.seq = some y) :
    Runs c s (fun v => (∃ y, opAt v q o.seq = some y ∧ y.progress = .waiting ∧ y.rerun = true) ∧
      v.units.bandFaults = s.units.bandFaults ||| 2 ^ b ∧ v.units.walks = [] ∧ v.log.raised = s.log.raised + 1 ∧
      OtherQueues q s v) := by
  have hqueues : (faultBand t b).queues = s.queues := hq
  obtain ⟨hop, hbands, hnil, hlog, hother⟩ := lostWalk_waits (s := faultBand t b) (h := h) code src items hplace hruns
    (by rw [← hwalks, ← hu]; rfl) (by rwa [opAt_congr hqueues])
  refine ⟨_, he, hop, hbands.trans ?_, hnil, hlog.trans ?_, (otherQueues_of_queues_eq hqueues).trans hother⟩
  · rw [← hu]; rfl
  · rw [← hl]; rfl

theorem opAt_of_any_find {s : State} {q : Nat} {o : Op}
    (h : (queueOf s q).any (fun x => (x.ops.find? (fun y => y.seq == o.seq)) == some o) = true) : ∃ y, opAt s q o.seq = some y := by
  rw [Option.any_eq_true] at h
  obtain ⟨x, hx, hfind⟩ := h
  exact ⟨o, by rw [opAt, hx]; exact eq_of_beq hfind⟩

/-- Settles O42: each command comes to one outcome of the array, whose effect its lemma states: the rows of a chain only write, the
end of an operation drops its walk, an early start takes up the walk's loads, and a failed band sends its operation back. -/
theorem chainsStreamAndComplete : Obligations.ChainsStreamAndComplete := by
  refine ⟨?_, ?_, ?_, ?_⟩
  · intro s q i o h w c e hstage hc
    refine ⟨?_, ?_, ?_⟩
    · intro hrun hstarted hstate hready hin hon hdense hstop
      have hexec := exec_chainStart_dense e hstage hc hrun hstarted hstate hready hin hon hdense
      obtain ⟨m, d, r, hw⟩ := written_runChain s w o.owner c false
      obtain ⟨d', g, hstream⟩ := streamChain_streams (q := q) (i := i) rfl hstop
      refine ⟨_, hexec, ?_⟩
      rw [hstream]
      refine ⟨rfl, by rw [hw], by rw [hw], ⟨_, tget_tput_self .., hstage, rfl, rfl⟩, ?_⟩
      rw [hw]
      exact hrun
    · intro hstate hflag hleft
      rw [exec_chainComplete_unflagged e hc hstate hflag, hleft]
      rfl
    · intro hstate hflag hall hsorted
      refine ⟨_, exec_chainComplete_unflagged e hc hstate hflag, ?_⟩
      rw [if_pos hall]
      exact finishWalk_finishes _ hsorted (arrayHead_opAt e)
  · intro s q r o h w v e hrun hne hv hstage hahead hearly hon
    obtain ⟨hheld, hfree⟩ := exec_earlyStart e hrun hne hv hstage hahead hearly hon
    refine ⟨fun hover => ?_, fun hover hdecl => ?_⟩
    · obtain ⟨g, hexec⟩ := hfree hover
      refine ⟨_, hexec, rfl, hrun, ?_, ?_, rfl, ?_, rfl⟩
      · exact (tget_tmod_self ..).trans (congrArg _ (arrayHead_walk e))
      · exact (tget_tmod_ne _ _ hne).trans hv
      · exact ent_bump_self ..
    · refine ⟨_, hheld hover hdecl, ?_, hahead, ?_, rfl⟩
      · exact (tget_tmod_self ..).trans (congrArg _ (arrayHead_walk e))
      · exact ent_bump_self ..
  · intro s b q o h w e hplace hruns hwalks hop
    have hop' := opAt_of_any_find hop
    refine ⟨?_, fun counts hcounts => ?_⟩
    · exact runs_of_lostWalk (exec_arrayRegParity e) rfl rfl rfl hplace hruns hwalks hop'
    · obtain ⟨col, hexec⟩ := exec_arrayFrontCheck e hcounts
      exact runs_of_lostWalk hexec rfl rfl rfl hplace hruns hwalks hop'
  · intro s n
    refine ⟨fun hsome => ?_, fun hnone => ?_⟩
    · obtain ⟨m, hm⟩ := Option.isSome_iff_exists.1 hsome
      change execBistDone n s = _
      simp only [execBistDone, hm]
      rfl
    · change execBistDone n s = _
      simp only [execBistDone, hnone]

end Sys2Proof.Machine

/-!
PROOFS. Copies between local ends, of every form (R126 to R133, R349), and the fence of a copy group (R350).
-/
namespace Sys2Proof.Machine

/-! ### States with the same memory -/

/-- Two states read alike as owners: the same memory under the same keys. -/
def SameStore (s t : State) : Prop := t.mem = s.mem ∧ t.mc = s.mc

theorem SameStore.rd_eq {s t : State} (h : SameStore s t) (o a n : Nat) : rd t o a n = rd s o a n := by
  obtain ⟨hmem, hmc⟩ := h
  simp [rd, keyGen, keySlot, hmem, hmc]

theorem SameStore.rdNat_eq {s t : State} (h : SameStore s t) (o a n : Nat) : rdNat t o a n = rdNat s o a n :=
  congrArg leNat (h.rd_eq o a n)

theorem sameStore_wr {s t : State} (h : SameStore s t) (o a : Nat) (b : List Nat) : SameStore (wr s o a b) (wr t o a b) :=
  ⟨wr_mem_congr h.1 h.2 o a b, by simpa using h.2⟩

theorem sameStore_bump {s t : State} (h : SameStore s t) (k n : Nat) : SameStore (bump s k n) (bump t k n) := h

theorem sameStore_bump_right {s t : State} (h : SameStore s t) (k n : Nat) : SameStore s (bump t k n) := h

theorem sameStore_writePacked {s t : State} (h : SameStore s t) (o p w i : Nat) (l : List Nat) :
    SameStore (writePacked s o p w i l) (writePacked t o p w i l) := by
  unfold writePacked memByte
  simp only [h.rdNat_eq]
  split
  · exact h
  · exact sameStore_wr h ..

theorem sameStore_foldl {α : Type} {f : State → α → State} (hf : ∀ s t x, SameStore s t → SameStore (f s x) (f t x))
    (l : List α) {s t : State} (h : SameStore s t) : SameStore (l.foldl f s) (l.foldl f t) := by
  induction l generalizing s t with
  | nil => exact h
  | cons x l ih => exact ih (hf s t x h)

theorem sameStore_putRows {s t : State} (h : SameStore s t) (o w p ld : Nat) (rows : List (List Nat)) :
    SameStore (putRows s o w p ld rows) (putRows t o w p ld rows) := by
  refine sameStore_foldl (fun _ _ _ h => ?_) _ h
  exact sameStore_writePacked h ..

theorem sameStore_putLineBytes {s t : State} (h : SameStore s t) (o : Nat) (at_ : Nat → Nat → Nat) (lines : List (List Nat)) :
    SameStore (putLineBytes s o at_ lines) (putLineBytes t o at_ lines) := by
  refine sameStore_foldl (fun _ _ _ h => ?_) _ h
  refine sameStore_foldl (fun _ _ _ h => ?_) _ h
  exact sameStore_wr h ..

theorem SameStore.lineScales_eq {s t : State} (h : SameStore s t) (o b ld p i : Nat) :
    lineScales t o b ld p i = lineScales s o b ld p i := by
  simp only [lineScales, h.rdNat_eq]

theorem sameStore_writeCompressed {s t : State} (h : SameStore s t) (o b src dst : Nat) (lines : List (List Nat)) :
    SameStore (writeCompressed s o b src dst lines) (writeCompressed t o b src dst lines) := by
  unfold writeCompressed
  simp only [h.lineScales_eq]
  have hput {w p ld : Nat} {r c d : List (List Nat)} {f g : Nat → Nat → Nat} :
      SameStore (putLineBytes (putLineBytes (putRows s o w p ld r) o f c) o g d)
        (putLineBytes (putLineBytes (putRows t o w p ld r) o f c) o g d) :=
    sameStore_putLineBytes (sameStore_putLineBytes (sameStore_putRows h ..) ..) ..
  split
  · exact sameStore_bump (sameStore_bump (sameStore_bump (sameStore_bump hput ..) ..) ..) ..
  · exact sameStore_bump (sameStore_bump hput ..) ..

theorem sameStore_writeExpanded {s t : State} (h : SameStore s t) (o b src dst : Nat) (lines : List (List Nat × List Nat)) :
    SameStore (writeExpanded s o b src dst lines) (writeExpanded t o b src dst lines) := by
  unfold writeExpanded
  simp only [h.rdNat_eq]
  split
  · exact sameStore_putRows h ..
  · exact sameStore_putLineBytes (sameStore_putRows h ..) ..

/-! ### What a copy's writes change -/

theorem written_foldl {α : Type} {f : State → α → State} (hf : ∀ s x, Written s (f s x)) (l : List α) (s : State) :
    Written s (l.foldl f s) := by
  induction l generalizing s with
  | nil => exact .refl s
  | cons x l ih => exact (hf s x).trans (ih _)

theorem written_putRows (s : State) (o w p ld : Nat) (rows : List (List Nat)) : Written s (putRows s o w p ld rows) :=
  written_foldl (fun _ _ => written_writePacked ..) _ s

theorem written_putLineBytes (s : State) (o : Nat) (at_ : Nat → Nat → Nat) (lines : List (List Nat)) :
    Written s (putLineBytes s o at_ lines) :=
  written_foldl (fun _ _ => written_foldl (fun _ _ => written_wr ..) _ _) _ s

theorem Written.bump {s t : State} (h : Written s t) (k n : Nat) : Written s (bump t k n) := h.trans (written_bump ..)

theorem written_writeCompressed (s : State) (o b src dst : Nat) (lines : List (List Nat)) :
    Written s (writeCompressed s o b src dst lines) := by
  have hput {w p ld : Nat} {r c d : List (List Nat)} {f g : Nat → Nat → Nat} :
      Written s (putLineBytes (putLineBytes (putRows s o w p ld r) o f c) o g d) :=
    ((written_putRows ..).trans (written_putLineBytes ..)).trans (written_putLineBytes ..)
  unfold writeCompressed
  dsimp only
  split
  · exact (((hput.bump ..).bump ..).bump ..).bump ..
  · exact (hput.bump ..).bump ..

theorem written_writeExpanded (s : State) (o b src dst : Nat) (lines : List (List Nat × List Nat)) :
    Written s (writeExpanded s o b src dst lines) := by
  unfold writeExpanded
  dsimp only
  split
  · exact written_putRows ..
  · exact (written_putRows ..).trans (written_putLineBytes ..)

/-! ### A copy that runs -/

/-- An operation runs and has so far changed its own queue, memory, counters and retained staged copies alone. -/
structure RunsAlone (s : State) (q n : Nat) (t : State) : Prop where
  op : ∃ y, opAt t q n = some y
  others : OtherQueues q s t
  frame : t = { s with
    queues := t.queues
    dict := t.dict
    mem := t.mem
    units := { s.units with retained := t.units.retained } }

theorem RunsAlone.of_startHead {s t : State} {q op sub : Nat} {n : Need} {x : Queue} {o : Op} {h : Head}
    (e : startHead s q op sub n = .go x o h t) : RunsAlone s q o.seq t where
  op := startHead_opAt e
  others := otherQueues_startHead e
  frame := by rw [startHead_frame e]

theorem RunsAlone.modOp {s t : State} {q n : Nat} {f : Op → Op} (h : RunsAlone s q n t) (hf : ∀ o, (f o).seq = o.seq) :
    RunsAlone s q n (modOp t q n f) where
  op := opAt_modOp_exists hf h.op
  others := h.others.trans (otherQueues_modOp _ _ _ _)
  frame := by rw [h.frame]; rfl

theorem RunsAlone.written {s t u : State} {q n : Nat} (h : RunsAlone s q n t) (hw : Written t u) : RunsAlone s q n u := by
  obtain ⟨m, d, r, rfl⟩ := hw
  exact ⟨h.op, h.others, by rw [h.frame]⟩

/-- How a copy ends that left memory as another state's: the conclusion that the forms of a copy share. -/
def CopyEnds (s : State) (q n : Nat) (v u : State) : Prop :=
  Finished u q n 0x01 ∧ u.mem = v.mem ∧ OtherQueues q s u ∧
    u = { s with
      queues := u.queues
      dict := u.dict
      mem := u.mem
      units := { s.units with retained := u.units.retained } }

theorem RunsAlone.copyEnds {s t v : State} {q : Nat} {o : Op} (h : RunsAlone s q o.seq t) (hm : SameStore v t) :
    CopyEnds s q o.seq v (doneOp t q o) :=
  have hend := h.modOp (f := fun x => { x with progress := .finished, status := 0x01 }) fun _ => rfl
  ⟨finished_endOp h.op, hm.1, hend.others, hend.frame⟩

/-! ### The checks of a copy -/

/-- A copy that an engine runs between local ends, which passes every check of R126, R132 and R349, names no counter, and whose
source reads clean. -/
structure LocalCopy (t : State) (engine : Nat) (o : Op) (h : Head) (src dst : Nat) : Prop where
  word : dmWordBad o.body (entAt t 0x240101 (engine + 2) == 1) = false
  body : dmBad o.body = none
  source : dmEnd t (dmSrc o.body) (dmSrcRack o.body) (dmSrcTile o.body) = .here src
  target : dmEnd t (dmDst o.body) (dmDstRack o.body) (dmDstTile o.body) = .here dst
  large : dmSmall o.body = false
  readable : winOk t o.owner src (if dmMode o.body = 5 then 32 else dmSrcBytes o.body src) .read = true
  writable : winOk t o.owner dst (dmDstBytes o.body dst) .write = true
  uncounted : dmCmode o.body = 0
  onePhase : h.twoPhase = false
  clean : firstPoison t src (if dmMode o.body = 5 then 32 else dmSrcBytes o.body src) = none

/-- The state in which an engine has taken a copy up. -/
def copyTaken (t : State) (engine q : Nat) (o : Op) : State := modOp t q o.seq (fun y => { y with stage := engine + 1 })

theorem sameStore_copyTaken (t : State) (engine q : Nat) (o : Op) : SameStore t (copyTaken t engine q o) := ⟨rfl, rfl⟩

@[simp] theorem rd_copyTaken (t : State) (engine q : Nat) (o : Op) (w a n : Nat) :
    rd (copyTaken t engine q o) w a n = rd t w a n := rfl
@[simp] theorem rdNat_copyTaken (t : State) (engine q : Nat) (o : Op) (w a n : Nat) :
    rdNat (copyTaken t engine q o) w a n = rdNat t w a n := rfl
@[simp] theorem ptrOk_copyTaken (t : State) (engine q : Nat) (o : Op) (w a n : Nat) (k : Acc) :
    ptrOk (copyTaken t engine q o) w a n k = ptrOk t w a n k := rfl
@[simp] theorem firstPoison_copyTaken (t : State) (engine q : Nat) (o : Op) (a n : Nat) :
    firstPoison (copyTaken t engine q o) a n = firstPoison t a n := rfl
@[simp] theorem srcRows_copyTaken (t : State) (engine q : Nat) (o : Op) (w b a : Nat) :
    srcRows (copyTaken t engine q o) w b a = srcRows t w b a := rfl
@[simp] theorem keptLines_copyTaken (t : State) (engine q : Nat) (o : Op) (w b a : Nat) :
    keptLines (copyTaken t engine q o) w b a = keptLines t w b a := rfl

theorem runsAlone_copyTaken {s t : State} {q : Nat} {o : Op} (h : RunsAlone s q o.seq t) (engine : Nat) :
    RunsAlone s q o.seq (copyTaken t engine q o) := h.modOp fun _ => rfl

section Forms
variable {t : State} {engine q src dst : Nat} {x : Queue} {o : Op} {h : Head} (c : LocalCopy t engine o h src dst)
include c

/-- A copy whose checks pass runs in its mode. -/
theorem dmRun_of_localCopy : dmRun engine q t x o h =
    if dmMode o.body = 0 then dmPlain (copyTaken t engine q o) q o src (.here dst)
    else dmForm (copyTaken t engine q o) q o src dst := by
  unfold dmRun
  simp [c.word, c.body, c.source, c.target, c.large, c.readable, c.writable, c.uncounted, c.onePhase, dmGuard, copyTaken]

theorem dmSignal_of_localCopy (s : State) (n : Nat) : dmSignal s q o n = s := if_pos c.uncounted

theorem firstPoison_of_localCopy (hm : dmMode o.body ≠ 5) : firstPoison t src (dmSrcBytes o.body src) = none :=
  (if_neg hm ▸ c.clean :)

theorem dmRun_plain (hm : dmMode o.body = 0) : dmRun engine q t x o h =
    doneOp (putRows (copyTaken t engine q o) o.owner (dmW o.body) dst (dmLdDst o.body) (srcRows t o.owner o.body src)) q o := by
  rw [dmRun_of_localCopy c]
  simp [dmPlain, hm, firstPoison_of_localCopy c, dmSignal_of_localCopy c]

/-- Strict compression with no group too crowded. -/
theorem dmRun_strict (hm : dmMode o.body = 1)
    (hfit : firstCrowded (dmFmt o.body) (linesOf o.body (srcRows t o.owner o.body src)) = none) : dmRun engine q t x o h =
    doneOp (writeCompressed (copyTaken t engine q o) o.owner o.body src dst (linesOf o.body (srcRows t o.owner o.body src))) q o := by
  rw [dmRun_of_localCopy c]
  simp [dmForm, hm, hfit, firstPoison_of_localCopy c, dmSignal_of_localCopy c]

theorem dmRun_prune (hm : dmMode o.body = 2) : dmRun engine q t x o h =
    doneOp (writeCompressed (copyTaken t engine q o) o.owner o.body src dst (linesOf o.body (srcRows t o.owner o.body src))) q o := by
  rw [dmRun_of_localCopy c]
  simp [dmForm, hm, firstPoison_of_localCopy c, dmSignal_of_localCopy c]

theorem dmRun_runLength {b : List Nat} (hm : dmMode o.body = 3)
    (hb : b = rleEncode (dmFmt o.body) (dmRows o.body) (dmCols o.body) (srcRows t o.owner o.body src).flatten) :
    dmRun engine q t x o h = doneOp (modOp (bump (wr (copyTaken t engine q o) o.owner dst b) 0x240207 1) q o.seq
      (fun y => { y with detail := b.length % 2 ^ 32 })) q o := by
  rw [dmRun_of_localCopy c]
  simp [dmForm, hm, ← hb, firstPoison_of_localCopy c, dmSignal_of_localCopy c]

theorem dmRun_expand (hm : dmMode o.body = 4) (hsound : keptBad o.body src (keptLines t o.owner o.body src) = []) :
    dmRun engine q t x o h = doneOp (writeExpanded (bump (copyTaken t engine q o) 0x240202
        (((keptLines t o.owner o.body src).map (fun l => l.2.length)).foldl (· + ·) 0))
      o.owner o.body src dst (keptLines t o.owner o.body src)) q o := by
  rw [dmRun_of_localCopy c]
  simp [dmForm, hm, hsound, lowestBad, firstPoison_of_localCopy c, dmSignal_of_localCopy c]

theorem dmRun_expandRunLength {n : Nat} {els : List Nat} (hm : dmMode o.body = 5)
    (hn : n = 32 + bits (rdNat t o.owner src 32) 128 32) (hheader : rleHeaderBad o.body (rdNat t o.owner src 32) = none)
    (hptr : ptrOk t o.owner src n .read = true) (hclean : firstPoison t src n = none)
    (hdecode : rleDecode (dmW o.body) (dmRows o.body * dmCols o.body) n 32 (rd t o.owner (src + 32) (n - 32)) 0 [] = .ok els) :
    dmRun engine q t x o h = doneOp (bump (putRows (copyTaken t engine q o) o.owner (dmW o.body) dst (dmLdDst o.body)
      (splitEvery (dmCols o.body) (dmRows o.body) els)) 0x240208 1) q o := by
  have hhead : firstPoison t src 32 = none := (if_pos hm ▸ c.clean :)
  rw [dmRun_of_localCopy c]
  simp [dmForm, hm, hhead, ← hn, hheader, hptr, hclean, hdecode, dmSignal_of_localCopy c]

end Forms

/-! ### O43 -/

/-- The row of the head's mode runs the head on the engine that takes it. -/
theorem dmaExec_of_go {s t : State} {engine q : Nat} {x : Queue} {o : Op} {h : Head} (he : dmaEngine s = some (engine, .ready))
    (e : startHead s q 0x04 0 .ready = .go x o h t) : dmaExec (dmMode o.body) q s = dmRun engine q t x o h := by
  have hother : dmaOther s q (dmMode o.body) = false := by
    obtain ⟨hx, ⟨o', ho, rfl, -, -⟩, -⟩ := startHead_go e
    simp [dmaOther, hx, ho]
  simp [dmaExec, hother, he, runHead, e]

/-- What holds of the state that a copy runs to holds after the row of its mode. -/
theorem runs_of_dmRun {s t u : State} {i : Instr} {m engine q : Nat} {x : Queue} {o : Op} {h : Head} {p : State → Prop}
    (he : dmaEngine s = some (engine, .ready)) (e : startHead s q 0x04 0 .ready = .go x o h t) (hm : dmMode o.body = m)
    (hi : exec i s = .next (dmaExec m q s)) (hu : dmRun engine q t x o h = u) (hp : p u) : Runs i s p :=
  ⟨u, by rw [hi, ← hm, dmaExec_of_go he e, hu], hp⟩

/-- A fence that starts with no flow open has nothing to wait for: its group is settled. -/
theorem exec_groupFence_of_go {s t : State} {q : Nat} {x : Queue} {o : Op} {h : Head} (hidle : goingHead s q 0x05 = none)
    (e : startHead s q 0x05 0 .ready = .go x o h t) (hin : groupIn t x.partition (bits o.body 496 16) = true)
    (hflows : t.fab.flows = []) : exec (.groupFence q) s = .next (settleFence t q o) := by
  have htag (g tag : Nat) : tagGroup t g tag = t := by
    unfold tagGroup
    simp only [hflows, tmap, List.map_nil]
    rw [← hflows]
  change execGroupFence q s = _
  simp [execGroupFence, hidle, runHead, e, fenceRun, hin, htag]

/-- A state that has forgotten a copy group. -/
def withoutGroup (t : State) (n : Nat) : State := { t with fab := { t.fab with groups := tdel t.fab.groups n } }

/-- An operation with one more fault, whose code is kept where it is the first. -/
def withFault (code : Nat) (y : Op) : Op := { y with faults := y.faults + 1, code := if y.faults = 0 then code else y.code }

/-- With no flow open a fence ends: done, or with status 0x02 and the code of its group's first late fault. -/
theorem settleFence_of_flows_nil {t : State} {q : Nat} {o : Op} (hflows : t.fab.flows = []) : settleFence t q o =
    if (tgetD t.fab.groups (bits o.body 496 16) {}).err then
      endOp (modOp (withoutGroup t (bits o.body 496 16)) q o.seq
        (withFault (tgetD t.fab.groups (bits o.body 496 16) {}).first)) q o 0x02
    else endOp (withoutGroup t (bits o.body 496 16)) q o 0x01 :=
  if_neg (by simp [fenceOpen, hflows])

/-- Settles O43: a copy between local ends runs in its mode, which only writes and counts; a fence with nothing in flight settles
its group. -/
theorem copiesOfEveryForm : Obligations.CopiesOfEveryForm := by
  refine ⟨?_, ?_⟩
  · intro s q engine x o h t src dst he e hword hbody hsource htarget hlarge hread hwrite hcount hphase hclean ends
    have c : LocalCopy t engine o h src dst :=
      ⟨hword, hbody, hsource, htarget, hlarge, hread, hwrite, hcount, hphase, hclean⟩
    have hrun := runsAlone_copyTaken (.of_startHead e) engine
    have hsame := sameStore_copyTaken t engine q o
    refine ⟨?_, ?_, ?_, ?_, ?_, ?_⟩
    · intro hm
      refine runs_of_dmRun he e hm rfl (dmRun_plain c hm) ?_
      exact (hrun.written (written_putRows ..)).copyEnds (sameStore_putRows hsame ..)
    · intro hm hfit
      refine runs_of_dmRun he e hm rfl (dmRun_strict c hm hfit) ?_
      exact (hrun.written (written_writeCompressed ..)).copyEnds (sameStore_writeCompressed hsame ..)
    · intro hm
      refine runs_of_dmRun he e hm rfl (dmRun_prune c hm) ?_
      exact (hrun.written (written_writeCompressed ..)).copyEnds (sameStore_writeCompressed hsame ..)
    · intro b hm hb
      have hwrote : RunsAlone s q o.seq (bump (wr (copyTaken t engine q o) o.owner dst b) 0x240207 1) :=
        hrun.written ((written_wr ..).bump ..)
      obtain ⟨y, hy⟩ := hwrote.op
      refine runs_of_dmRun he e hm rfl (dmRun_runLength c hm hb) ⟨?_, ?_⟩
      · exact (hwrote.modOp (by intro; rfl)).copyEnds (sameStore_wr hsame ..)
      · exact ⟨_, opAt_modOp_some (by intro; rfl) (opAt_modOp_some (by intro; rfl) hy), rfl⟩
    · intro hm hsound
      refine runs_of_dmRun he e hm rfl (dmRun_expand c hm hsound) ?_
      exact (hrun.written ((written_bump ..).trans (written_writeExpanded ..))).copyEnds
        (sameStore_writeExpanded (sameStore_bump_right hsame ..) ..)
    · intro n els hm hn hheader hptr hpoison hdecode
      refine runs_of_dmRun he e hm rfl (dmRun_expandRunLength c hm hn hheader hptr hpoison hdecode) ?_
      exact (hrun.written ((written_putRows ..).bump ..)).copyEnds (sameStore_putRows hsame ..)
  · intro s q x o h t g hidle e hin hflows hg hfaults
    have hfab : t.fab = s.fab := by rw [startHead_frame e]
    have hflows' : t.fab.flows = [] := hfab ▸ hflows
    refine ⟨_, exec_groupFence_of_go hidle e hin hflows', ?_⟩
    rw [settleFence_of_flows_nil hflows', hfab, ← hg]
    have hother : OtherQueues q s (withoutGroup t (bits o.body 496 16)) := fun r hr => otherQueues_startHead e r hr
    have hframe := startHead_frame e
    obtain ⟨y, hy⟩ := startHead_opAt e
    have hkept : opAt (withoutGroup t (bits o.body 496 16)) q o.seq = some y := hy
    split
    · next herr =>
      have hmarked := opAt_modOp_some (f := withFault g.first) (fun _ => rfl) hkept
      refine ⟨finished_endOp ⟨_, hmarked⟩, (hother.trans (otherQueues_modOp _ _ _ _)).trans (otherQueues_modOp _ _ _ _),
        fun _ => ⟨_, opAt_modOp_some (by intro; rfl) hmarked, ?_⟩, ?_⟩
      · exact if_pos (hfaults y hy)
      · rw [hframe]; rfl
    · next herr =>
      refine ⟨finished_endOp ⟨y, hkept⟩, hother.trans (otherQueues_modOp _ _ _ _), fun h => absurd h herr, ?_⟩
      rw [hframe]; rfl

end Sys2Proof.Machine

/-!
PROOFS. The functions of the Vector Engine on one row of FP32 (R137 to R143, R169, R178, R426), the loss of a core (R171, R429), a
double error of the Tile Store (R241), and gated heads (R183, R188).
-/
namespace Sys2Proof.Machine

/-! ### The functions of a row (Table 05-1) -/

section Functions
variable {d1 : Bool} {opk b i : Nat} {x y z : List Fp}

theorem vcApply_add (hf : vcFn b = 0x01) (hr : vcRnd b = rne32) :
    vcApply d1 opk b i x y z = ⟨zipMap (fun a c => rne32 (fpAdd a c)) x y, 0, none⟩ := by simp [vcApply, hf, hr]

theorem vcApply_mul (hf : vcFn b = 0x02) (hr : vcRnd b = rne32) :
    vcApply d1 opk b i x y z = ⟨zipMap (fun a c => rne32 (fpMul a c)) x y, 0, none⟩ := by simp [vcApply, hf, hr]

theorem vcApply_fma (hf : vcFn b = 0x03) (hr : vcRnd b = rne32) :
    vcApply d1 opk b i x y z = ⟨zipMap (fun p c => rne32 (fpAdd p c)) (zipMap fpMul x y) z, 0, none⟩ := by
  simp [vcApply, hf, hr]

theorem vcApply_min (hf : vcFn b = 0x04) : vcApply d1 opk b i x y z = ⟨zipMap fpMin x y, 0, none⟩ := by simp [vcApply, hf]

theorem vcApply_max (hf : vcFn b = 0x05) : vcApply d1 opk b i x y z = ⟨zipMap fpMax x y, 0, none⟩ := by simp [vcApply, hf]

theorem vcApply_convert (hf : vcFn b = 0x06) : vcApply d1 opk b i x y z = ⟨x, 0, none⟩ := by simp [vcApply, hf]

/-- The six special functions have the codes 0x10 to 0x15. -/
theorem vcApply_sfu {f : Nat} (hf : vcFn b = f) (hlo : 0x10 ≤ f) (hhi : f ≤ 0x15) :
    vcApply d1 opk b i x y z = ⟨x.map (sfu d1 (vcSfu f)), x.length, none⟩ := by
  have hlane : f ≠ 0x01 ∧ f ≠ 0x02 ∧ f ≠ 0x03 ∧ f ≠ 0x04 ∧ f ≠ 0x05 ∧ f ≠ 0x06 := by omega
  simp [vcApply, hf, hlane, hhi]

theorem vcApply_rowSum (hf : vcFn b = 0x20) : vcApply d1 opk b i x y z = ⟨[rowSum d1 x], 0, none⟩ := by simp [vcApply, hf]

theorem vcApply_rowMax (hf : vcFn b = 0x21) : vcApply d1 opk b i x y z = ⟨[rowMax x], 0, none⟩ := by simp [vcApply, hf]

theorem vcApply_mean (hf : vcFn b = 0x22) : vcApply d1 opk b i x y z = ⟨[rowMean d1 x], 0, none⟩ := by simp [vcApply, hf]

theorem vcApply_variance (hf : vcFn b = 0x23) : vcApply d1 opk b i x y z = ⟨[rowVariance d1 x], 0, none⟩ := by
  simp [vcApply, hf]

theorem vcApply_rms (hf : vcFn b = 0x24) : vcApply d1 opk b i x y z = ⟨[rowRms d1 x], 0, none⟩ := by simp [vcApply, hf]

theorem vcApply_normApply (hf : vcFn b = 0x25) :
    vcApply d1 opk b i x y z = ⟨normApply d1 (dec32 (vcScalar b)) x y z, 1, none⟩ := by simp [vcApply, hf]

theorem vcApply_rmsApply (hf : vcFn b = 0x26) :
    vcApply d1 opk b i x y z = ⟨rmsApply d1 (dec32 (vcScalar b)) x y, 1, none⟩ := by simp [vcApply, hf]

theorem vcApply_gatedUnit (hf : vcFn b = 0x27) :
    vcApply d1 opk b i x y z = ⟨zipMap (gatedElem d1) x y, 2 * x.length, none⟩ := by simp [vcApply, hf]

theorem vcApply_normalise {l : Fp} (hf : vcFn b = 0x28) :
    vcApply d1 opk b i x [l] z = ⟨x.map (fun v => rne32 (fpMul v (sfu d1 .recip l))), 1, none⟩ := by simp [vcApply, hf]

theorem vcApply_softmaxTile {m l : Fp} {r : Fp × Fp × List Fp × List Fp} (hf : vcFn b = 0x29) (hr : r = softmaxD1Row m l z x) :
    vcApply d1 opk b i x [m, l] z = ⟨r.2.2.2, x.length + b2n (fpLt m r.1), some (r.1, r.2.1, r.2.2.1)⟩ := by
  simp [vcApply, hf, hr]

theorem vcApply_maskedMul (hf : vcFn b = 0x30) : vcApply d1 opk b i x y z = ⟨maskedRow opk b i x, 0, none⟩ := by
  simp [vcApply, hf]

end Functions

/-! ### The row as written -/

/-- A row's values rounded to FP32, as its element words. -/
def fp32Words (v : List Fp) : List Nat := (convRow 0xE false (v.map (fun y => (y, none)))).words

/-- The output of one row in FP32: its one value for a function that reduces, its elements for another (R158, R175). -/
def putRowOut (f : Nat) (s : State) (o b : Nat) (v : List Fp) : State :=
  if 0x20 ≤ f ∧ f ≤ 0x24 then wr s o (vcOut b) (natLe 4 ((fp32Words v).headD 0))
  else writePacked s o (vcOut b) 32 0 (fp32Words v)

/-- The row state and output partial of one row, where its function has them (R169). -/
def putRowState (s : State) (o b : Nat) : Option (Fp × Fp × List Fp) → State
  | none => s
  | some (m, l, op) =>
    writePacked (wr s o (vcSrc1 b) (natLe 4 (enc32 m) ++ natLe 4 (enc32 l))) o (vcSrc2 b) 32 0 (op.map enc32)

theorem written_putRowOut (f : Nat) (s : State) (o b : Nat) (v : List Fp) : Written s (putRowOut f s o b v) := by
  unfold putRowOut
  split
  · exact written_wr ..
  · exact written_writePacked ..

theorem written_putRowState (s : State) (o b : Nat) (r : Option (Fp × Fp × List Fp)) : Written s (putRowState s o b r) := by
  cases r with
  | none => exact .refl s
  | some r => exact (written_wr ..).trans (written_writePacked ..)

/-- The first row of an FP32 output that rounds to nearest. -/
theorem vcWrite_fp32 {b : Nat} (s : State) (o opk : Nat) (v : List Fp) (hfmt : vcOutFmt b = 0xE) (hround : vcRound b = 0) :
    (vcWrite s o opk b 0 v).1 = putRowOut (vcFn b) s o b v := by
  have hcode : fbCode 0xE = 0xE := rfl
  have hvals : (indexed 0 v).map (fun e => (e.2, (none : Option Nat))) = v.map (fun y => (y, none)) := by
    conv_rhs => rw [← map_snd_indexed v 0, List.map_map]
    rfl
  unfold vcWrite putRowOut vcReduces fp32Words
  simp only [hfmt, hround, hcode, hvals, decide_eq_true_eq, Nat.zero_ne_one, if_false, Nat.mul_zero, Nat.zero_mul, Nat.add_zero]
  split <;> rfl

/-! ### An operation of one row -/

/-- A VECTOR operation that passes every check of its start, of one row of FP32 in and out, which reads clean. -/
structure OneRow (t : State) (o : Op) (h : Head) : Prop where
  fields : vcBadField o.body = none
  cores : coresOut t ≠ 2 ^ 32 - 1
  operands : ∀ p ∈ vcOperands o.body, ptrOk t o.owner p.1 p.2.1 p.2.2.2 = true
  phases : (h.twoPhase && vcInPlace o.body) = false
  rows : vcRows o.body = 1
  input : vcIn o.body = 0xE
  output : vcOutFmt o.body = 0xE
  round : vcRound o.body = 0
  clean : vcPoison t o.body 0 = none

/-- What an operation's function makes of its first row. -/
def rowResult (t : State) (x : Queue) (o : Op) (h : Head) : VcRes :=
  vcApply (entAt t 0x250101 x.partition == 1)
    (opKey (stepKey (pEnt t 0x3020 1 x.partition) (stepNumber t x.partition)) h.drawOp) o.body 0
    (vcRow t o.owner o.body (vcIn o.body) (vcSrc0 o.body) 0)
    (vcKindVals t o.owner o.body (vcKinds (vcFn o.body)).1 (vcSrc1 o.body) 0)
    (vcKindVals t o.owner o.body (vcKinds (vcFn o.body)).2 (vcSrc2 o.body) 0)

/-- The state with what an operation's first row comes to written. -/
def rowWritten (t : State) (x : Queue) (o : Op) (h : Head) : State :=
  putRowOut (vcFn o.body) (putRowState t o.owner o.body (rowResult t x o h).state) o.owner o.body (rowResult t x o h).out

theorem written_rowWritten (t : State) (x : Queue) (o : Op) (h : Head) : Written t (rowWritten t x o h) :=
  (written_putRowState ..).trans (written_putRowOut ..)

/-- FP32 in and out is no packed operation: its lanes round to FP32 (R137, R138). -/
theorem OneRow.vcRnd_eq {t : State} {o : Op} {h : Head} (v : OneRow t o h) : vcRnd o.body = rne32 := by
  have hpacked : vcPacked o.body = false := by rw [vcPacked, v.input]; rfl
  funext y
  rw [vcRnd, hpacked]
  rfl

/-- A row that reads clean is written, and the operation does not stop at it. -/
theorem vcRunRow_of_oneRow {t : State} {x : Queue} {o : Op} {h : Head} (v : OneRow t o h) :
    let a := vcRunRow (entAt t 0x250101 x.partition == 1) o.owner
      (opKey (stepKey (pEnt t 0x3020 1 x.partition) (stepNumber t x.partition)) h.drawOp) o.body 0 { s := t }
    a.s = rowWritten t x o h ∧ a.stop = none := by
  unfold vcRunRow rowWritten
  simp only [v.clean]
  refine ⟨?_, trivial⟩
  rw [vcWrite_fp32 _ _ _ _ v.output v.round]
  congr 1
  unfold rowResult
  split <;> next hr =>
    rw [hr]
    simp [putRowState]

/-- A state whose Vector Engine a queue's operation holds. -/
def engineHeld (s : State) (q : Nat) : State := { s with units := { s.units with vecQueue := some q } }

/-- An operation of one row: its row is written, its run is counted, and it is done and holds the engine. -/
theorem vcRun_of_oneRow {t : State} {x : Queue} {o : Op} {h : Head} (q : Nat) (v : OneRow t o h) :
    ∃ a g, (∀ y, (g y : Op).seq = y.seq) ∧
      vcRun q t x o h = doneOp (modOp (engineHeld (vcCounters (rowWritten t x o h) x.partition o.body a) q) q o.seq g) q o := by
  have hptr : (vcOperands o.body).find? (fun p => !ptrOk t o.owner p.1 p.2.1 p.2.2.2) = none :=
    List.find?_eq_none.2 fun p hp => by simp [v.operands p hp]
  obtain ⟨hwritten, hstop⟩ := vcRunRow_of_oneRow (x := x) v
  unfold vcRun
  simp only [v.fields, v.cores, hptr, v.phases, v.rows, vcRunRows, hwritten, hstop, ite_self, if_false, Bool.false_eq_true]
  refine ⟨_, _, ?_, rfl⟩
  intro y
  rfl

/-- Counting a run changes counters, the units and the free values alone (R170, R426). -/
theorem vcCounters_frame (s : State) (p b : Nat) (a : VcAcc) :
    ∃ d u n, vcCounters s p b a = { s with dict := d, units := u, free := n } := by
  unfold vcCounters
  dsimp only
  generalize hl : List.foldl _ _ _ = v
  obtain ⟨d, rfl⟩ : Counted { s with free := s.free + 2 } v := hl ▸ counted_foldl_bump _ _
  exact ⟨d, _, _, rfl⟩

/-- How a VECTOR operation ends that left memory as another state's. -/
def VectorEnds (s : State) (q n : Nat) (v u : State) : Prop :=
  Finished u q n 0x01 ∧ u.units.vecQueue = some q ∧ OtherQueues q s u ∧ u.mem = v.mem ∧
    u = { s with
      queues := u.queues
      dict := u.dict
      mem := u.mem
      units := u.units
      free := u.free }

/-- The head that the schedule takes runs as its row (R426). -/
theorem vcExec_of_go {s t : State} {q f : Nat} {d : Drr} {x : Queue} {o : Op} {h : Head}
    (hready : (vcReadyQueues s).contains q = true) (hqueue : drrQueue s 4 s.units.vector (vcReadyQueues s) = some (q, d))
    (e : startHead { s with units := { s.units with vector := d } } q 0x03 f (needAll s (coreFronds s)) = .go x o h t) :
    vcExec f q s = vcRun q t x o h := by
  simp only [vcExec, hready, hqueue, runHead, e, not_true_eq_false, if_false, if_true]

theorem vectorEnds_of_oneRow {s t : State} {q op f : Nat} {d : Drr} {n : Need} {x : Queue} {o : Op} {h : Head}
    (e : startHead { s with units := { s.units with vector := d } } q op f n = .go x o h t) (v : OneRow t o h) :
    VectorEnds s q o.seq (rowWritten t x o h) (vcRun q t x o h) := by
  obtain ⟨a, g, hg, hrun⟩ := vcRun_of_oneRow (x := x) q v
  obtain ⟨d', k, j, hcount⟩ := vcCounters_frame (rowWritten t x o h) x.partition o.body a
  obtain ⟨m, d'', r, hwritten⟩ := written_rowWritten t x o h
  rw [hrun, hcount]
  generalize hu : engineHeld _ q = u
  have huq : u.queues = t.queues := by rw [← hu, hwritten]; rfl
  have huv : u.units.vecQueue = some q := by rw [← hu]; rfl
  have hum : u.mem = (rowWritten t x o h).mem := by rw [← hu]; rfl
  have hframe : u = { s with queues := u.queues, dict := u.dict, mem := u.mem, units := u.units, free := u.free } := by
    rw [← hu, hwritten, startHead_frame e]
    rfl
  refine ⟨finished_endOp (opAt_modOp_exists hg ?_), huv, ?_, hum, by rw [hframe]; rfl⟩
  · rw [opAt_congr huq]
    exact startHead_opAt e
  · have hstart : OtherQueues q s t := fun p hp => otherQueues_startHead e p hp
    exact ((hstart.trans (otherQueues_of_queues_eq huq)).trans (otherQueues_modOp _ _ _ _)).trans (otherQueues_modOp _ _ _ _)

/-! ### O39 -/

/-- A row of the Vector Engine's functions has the code that its operation's body names. -/
theorem vcFn_of_startHead {s t : State} {q op f : Nat} {n : Need} {x : Queue} {o : Op} {h : Head}
    (e : startHead s q op f n = .go x o h t) (hf : f ≠ 0) : vcFn o.body = f := by
  obtain ⟨-, -, -, -, hsub⟩ := startHead_go e
  exact hsub.resolve_left hf

/-- A function of one row that has no row state writes its output alone. -/
theorem rowWritten_of_stateless {t : State} {x : Queue} {o : Op} {h : Head} {f n : Nat} {r : List Fp} (hf : vcFn o.body = f)
    (hr : rowResult t x o h = ⟨r, n, none⟩) : rowWritten t x o h = putRowOut f t o.owner o.body r := by
  rw [rowWritten, hr, hf]
  rfl

/-- Settles O39: an operation of one row writes what its function makes of the row, and each function's branch is its entry of
Table 05-1. -/
theorem vectorFunctionsOfARow : Obligations.VectorFunctionsOfARow := by
  intro s q f d x o h t c r row y z d1 scalar hready hqueue e hfields hcores hoperands hphases hrows hin hout hround hclean
    hrow hy hz hd1 hscalar hmem
  have v : OneRow t o h := ⟨hfields, hcores, hoperands, hphases, hrows, hin, hout, hround, hclean⟩
  have hlane := v.vcRnd_eq
  have hf : f ≠ 0 := by
    rintro rfl
    simp at hmem
  have hfn := vcFn_of_startHead e hf
  have ends {n : Nat} (hc : exec c s = .next (vcExec f q s)) (hr : rowResult t x o h = ⟨r, n, none⟩) :
      ∃ u, exec c s = .next u ∧ VectorEnds s q o.seq (putRowOut f t o.owner o.body r) u := by
    rw [← rowWritten_of_stateless hfn hr]
    exact ⟨_, hc, vcExec_of_go hready hqueue e ▸ vectorEnds_of_oneRow e v⟩
  have hres : rowResult t x o h = vcApply d1
      (opKey (stepKey (pEnt t 0x3020 1 x.partition) (stepNumber t x.partition)) h.drawOp) o.body 0 row
      (vcKindVals t o.owner o.body (vcKinds f).1 (vcSrc1 o.body) 0)
      (vcKindVals t o.owner o.body (vcKinds f).2 (vcSrc2 o.body) 0) := by
    rw [rowResult, hfn, hin, ← hrow, ← hd1]
  rw [← hin] at hy hz
  subst hy hz hscalar
  clear hrow hd1
  simp only [List.mem_cons, Prod.mk.injEq, List.not_mem_nil, or_false] at hmem
  rcases hmem with ⟨rfl, rfl, rfl⟩ | ⟨rfl, rfl, rfl⟩ | ⟨rfl, rfl, rfl⟩ | ⟨rfl, rfl, rfl⟩ | ⟨rfl, rfl, rfl⟩ | ⟨rfl, rfl, rfl⟩ |
      ⟨rfl, rfl, rfl⟩ | ⟨rfl, rfl, rfl⟩ | ⟨rfl, rfl, rfl⟩ | ⟨rfl, rfl, rfl⟩ | ⟨rfl, rfl, rfl⟩ | ⟨rfl, rfl, rfl⟩ |
      ⟨rfl, rfl, rfl⟩ | ⟨rfl, rfl, rfl⟩ | ⟨rfl, rfl, rfl⟩ | ⟨rfl, rfl, rfl⟩ | ⟨rfl, rfl, rfl⟩ |
      ⟨rfl, rfl, rfl⟩ | ⟨rfl, rfl, rfl⟩ | ⟨rfl, rfl, rfl⟩ | ⟨rfl, rfl, rfl⟩ | ⟨rfl, rfl, rfl⟩
  -- The lanes (R137, R138).
  · exact ends rfl (hres.trans (vcApply_add hfn hlane))
  · exact ends rfl (hres.trans (vcApply_mul hfn hlane))
  · exact ends rfl (hres.trans (vcApply_fma hfn hlane))
  · exact ends rfl (hres.trans (vcApply_min hfn))
  · exact ends rfl (hres.trans (vcApply_max hfn))
  · exact ends rfl (hres.trans (vcApply_convert hfn))
  -- The special functions (Table 05-2).
  · exact ends rfl (hres.trans (vcApply_sfu hfn (by decide) (by decide)))
  · exact ends rfl (hres.trans (vcApply_sfu hfn (by decide) (by decide)))
  · exact ends rfl (hres.trans (vcApply_sfu hfn (by decide) (by decide)))
  · exact ends rfl (hres.trans (vcApply_sfu hfn (by decide) (by decide)))
  · exact ends rfl (hres.trans (vcApply_sfu hfn (by decide) (by decide)))
  · exact ends rfl (hres.trans (vcApply_sfu hfn (by decide) (by decide)))
  -- One value for the row (R141, R142).
  · exact ends rfl (hres.trans (vcApply_rowSum hfn))
  · exact ends rfl (hres.trans (vcApply_rowMax hfn))
  · exact ends rfl (hres.trans (vcApply_mean hfn))
  · exact ends rfl (hres.trans (vcApply_variance hfn))
  · exact ends rfl (hres.trans (vcApply_rms hfn))
  -- Rows made with operands of their own (R142, R143, R169, R178).
  · exact ends rfl (hres.trans (vcApply_normApply hfn))
  · exact ends rfl (hres.trans (vcApply_rmsApply hfn))
  · exact ends rfl (hres.trans (vcApply_gatedUnit hfn))
  · exact ends rfl (hres.trans (vcApply_normalise hfn))
  · exact ends rfl (hres.trans (vcApply_maskedMul hfn))

/-! ### Cores lost -/

/-- An operation that is not in place, or runs in two phases, may run again (R429). -/
theorem rerunOp_of_rerunnable {h : Head} {inPl : Bool} (hp : (inPl && !h.twoPhase) = false) (s : State) (q : Nat) (o : Op)
    (code src : Nat) (items : List (Nat × Nat)) : rerunOp s q o h inPl code src items = rerunOp s q o h false code src items := by
  simp [rerunOp, againOp, hp]

/-- A core is lost under the operation that held the engine: it is faulted, one fault is raised, nothing holds the engine, and the
operation waits to be run again (R171, R429). -/
def CoreLost (s : State) (core q n : Nat) (t : State) : Prop :=
  (∃ y, opAt t q n = some y ∧ y.progress = .waiting ∧ y.rerun = true) ∧ t.units.coreFaults = s.units.coreFaults ||| 2 ^ core ∧
    t.units.vecQueue = none ∧ t.log.raised = s.log.raised + 1 ∧ OtherQueues q s t

theorem coreLost_vcLose {s : State} {core q : Nat} {o : Op} {h : Head} (hheld : vcHolder s = some (q, o, h))
    (hin : bit (coresOut s) core = false) (hagain : (vcInPlace o.body && !h.twoPhase) = false) (hruns : o.runs < 8)
    (ho : ∃ y, opAt s q o.seq = some y) (code : Nat) (items : List (Nat × Nat)) :
    CoreLost s core q o.seq (vcLose s core code items) := by
  unfold vcLose
  simp only [hheld, hin, Bool.false_eq_true, if_false, rerunOp_of_rerunnable hagain]
  generalize hs : { s with units := { s.units with coreFaults := s.units.coreFaults ||| 2 ^ core, vecQueue := none } } = v
  have hvq : v.queues = s.queues := by rw [← hs]
  have hvu : v.units = { s.units with coreFaults := s.units.coreFaults ||| 2 ^ core, vecQueue := none } := by rw [← hs]
  have hvl : v.log = s.log := by rw [← hs]
  obtain ⟨hwaits, hraised, ⟨k, hunits⟩, hother⟩ := rerunOp_waits (s := v) (h := h) code
    (if code = 0x4006 then srcSfu else srcVector) items hruns (by rwa [opAt_congr hvq])
  exact ⟨hwaits, by rw [hunits, hvu], by rw [hunits, hvu], by rw [hraised, hvl], (otherQueues_of_queues_eq hvq).trans hother⟩

theorem vcLose_of_idle {s : State} (h : vcHolder s = none) (core code : Nat) (items : List (Nat × Nat)) :
    vcLose s core code items = s := by
  simp only [vcLose, h]

/-! ### Lines of the Tile Store -/

theorem mem_insertKey_self (l : List Nat) (x : Nat) : x ∈ insertKey l x := by
  induction l with
  | nil => exact List.mem_singleton_self x
  | cons y l ih =>
    unfold insertKey
    split
    · exact List.mem_cons_self
    split
    · next h => exact h ▸ List.mem_cons_self
    · exact List.mem_cons_of_mem y ih

/-- The poison unit of a Tile Store byte is its line (R241). -/
theorem poisonKey_tilePtr {a : Nat} (h : a < tileBytes) : poisonKey (tilePtr a) = 2 ^ 40 + a / 1024 := by
  have hlt : a < 2 ^ 39 := h.trans (by decide)
  have htile : isTile (tilePtr a) = true := by
    rw [isTile, bit, tilePtr, Nat.testBit_two_pow_add_eq, Nat.testBit_lt_two_pow hlt]
    rfl
  have hoff : ptrOff (tilePtr a) = a := by
    rw [ptrOff, bits, tilePtr, Nat.shiftRight_zero, Nat.add_mod_left, Nat.mod_eq_of_lt hlt]
  rw [poisonKey, if_pos htile, hoff]

theorem poisoned_poisonS_tilePtr (s : State) {a : Nat} (h : a < tileBytes) :
    (poisonS s (tilePtr a)).mem.poison.contains (2 ^ 40 + a / 1024) = true := by
  rw [List.contains_iff_mem, ← poisonKey_tilePtr h]
  exact mem_insertKey_self _ _

theorem exec_tileStoreDoubleError {a : Nat} (s : State) (h : a < tileBytes) :
    exec (.tileStoreDoubleError a) s = .next (poisonS (raiseDev s 0x7008 srcTile [(a, 29)]) (tilePtr a)) :=
  congrArg Host.Outcome.next (if_pos h)

/-! ### Gated heads -/

/-- A gated head whose gate is decided or waits ends as its gate does (R183). -/
theorem exec_gatedOpStart_of_ends {s u : State} {q : Nat} {x : Queue} {o : Op} (hx : queueOf s q = some x)
    (ho : qHead x = some o) (hstart : mayStart s x = true) (hprogress : o.progress = .accepted)
    (hdesc : descCheck (qVersion x) o.hdr o.body = none) (hgated : (headOf x o).gated = true)
    (hends : startGate s q x o (headOf x o) .ready = .ends u) : exec (.gatedOpStart q) s = .next u := by
  change execGatedOpStart q s = _
  simp [execGatedOpStart, hx, ho, hstart, hprogress, hdesc, hgated, hends]

/-! ### O40 -/

/-- Settles O40: softmax_tile_d1 is the one function of a row that writes row state; each other command comes to one outcome, whose
effect its lemma states. -/
theorem softmaxTileAndVectorFaults : Obligations.SoftmaxTileAndVectorFaults := by
  refine ⟨?_, fun s core => ⟨?_, ?_, ?_⟩, ?_⟩
  · rintro s q _ d x o h t m l op p rfl hready hqueue e hfields hcores hoperands hphases hrows hin hout hround hclean hsoft
    have v : OneRow t o h := ⟨hfields, hcores, hoperands, hphases, hrows, hin, hout, hround, hclean⟩
    have hfn := vcFn_of_startHead e (by decide)
    obtain ⟨n, hres⟩ : ∃ n, rowResult t x o h = ⟨p, n, some (m, l, op)⟩ := by
      rw [rowResult, hfn, hin]
      exact ⟨_, vcApply_softmaxTile hfn hsoft⟩
    have hwritten := vectorEnds_of_oneRow e v
    rw [← vcExec_of_go hready hqueue e, rowWritten, hres, hfn] at hwritten
    obtain ⟨hfinished, -, hother, hmem, -⟩ := hwritten
    exact ⟨_, rfl, hfinished, hother, hmem⟩
  · intro hidle
    have hidle' : vcHolder { s with free := s.free + 1 } = none := hidle
    exact ⟨congrArg Host.Outcome.next (vcLose_of_idle hidle' ..), congrArg Host.Outcome.next (vcLose_of_idle hidle' ..)⟩
  · intro q o h hheld hin hagain hruns hop
    have lost (code : Nat) (items : List (Nat × Nat)) :
        CoreLost s core q o.seq (vcLose { s with free := s.free + 1 } core code items) :=
      coreLost_vcLose (s := { s with free := s.free + 1 }) hheld hin hagain hruns (opAt_of_any_find hop) code items
    exact ⟨⟨_, rfl, lost ..⟩, ⟨_, rfl, lost ..⟩⟩
  · intro a ha
    exact ⟨_, exec_tileStoreDoubleError s ha, poisoned_poisonS_tilePtr _ ha, _, rfl, rfl⟩
  · intro s q x o hx ho hfind hstart hprogress hdesc hgated
    have hop : opAt s q o.seq = some o := by rw [opAt, hx]; exact hfind
    refine ⟨fun hskip => ?_, fun hwait => ?_⟩
    · refine ⟨_, exec_gatedOpStart_of_ends hx ho hstart hprogress hdesc hgated (by rw [startGate, hskip]), ?_⟩
      exact ⟨finished_endOp ⟨o, hop⟩, otherQueues_modOp _ _ _ _, rfl⟩
    · refine ⟨_, exec_gatedOpStart_of_ends hx ho hstart hprogress hdesc hgated (by rw [startGate, hwait]), ?_⟩
      exact ⟨⟨_, opAt_modOp_some (by intro; rfl) hop, rfl⟩, otherQueues_modOp _ _ _ _, rfl⟩

end Sys2Proof.Machine

/-!
PROOFS. Routing (R197, R201): a token's logits and bias as read, the order of keys, the experts of the highest ranks, and the counts
of choices.
-/
namespace Sys2Proof.Machine

/-! ### Numbers read from memory -/

@[simp] theorem length_rdList (m : Mem) (o g a n : Nat) : (rdList m o g a n).length = n := by
  induction n generalizing a with
  | zero => rfl
  | succ n ih => rw [rdList, List.length_cons, ih]

/-- A read of `n + k` bytes is a read of `n` and one of the `k` that follow. -/
theorem rdList_add (m : Mem) (o g a n k : Nat) : rdList m o g a (n + k) = rdList m o g a n ++ rdList m o g (a + n) k := by
  induction n generalizing a with
  | zero => simp [rdList]
  | succ n ih =>
    rw [Nat.succ_add, rdList, rdList, ih, List.cons_append, Nat.succ_add_eq_add_succ]

/-- A read of `c` elements of `w` bytes, cut into elements, is a read of each. -/
theorem splitEvery_rdList (m : Mem) (o g a c : Nat) {w : Nat} (hw : 0 < w) :
    splitEvery w c (rdList m o g a (w * c)) = (List.range c).map fun i => rdList m o g (a + w * i) w := by
  induction c generalizing a with
  | zero => rfl
  | succ c ih =>
    have hne (l : List Nat) : (rdList m o g a w ++ l).isEmpty = false := by
      rw [List.isEmpty_eq_false_iff, ← List.length_pos_iff, List.length_append, length_rdList]
      exact Nat.add_pos_left hw _
    rw [Nat.mul_succ, Nat.add_comm (w * c), rdList_add, splitEvery, hne, if_neg Bool.false_ne_true,
      List.take_left' (length_rdList ..), List.drop_left' (length_rdList ..), ih, List.range_succ_eq_map, List.map_cons, List.map_map]
    refine congrArg₂ List.cons (by rw [Nat.mul_zero, Nat.add_zero]) (List.map_congr_left fun i _ => ?_)
    rw [Function.comp_apply, Nat.mul_succ, Nat.add_comm (w * i), Nat.add_assoc]

theorem splitEvery_rd (s : State) (o a c : Nat) {w : Nat} (hw : 0 < w) :
    (splitEvery w ((rd s o a (w * c)).length / w) (rd s o a (w * c))).map leNat =
      (List.range c).map fun i => rdNat s o (a + w * i) w := by
  rw [rd, length_rdList, Nat.mul_div_cancel_left _ hw, splitEvery_rdList _ _ _ _ _ hw, List.map_map]
  rfl

/-- The 32-bit words of a read. -/
theorem leWords_rd (s : State) (o a c : Nat) : leWords (rd s o a (4 * c)) = (List.range c).map fun i => rdNat s o (a + 4 * i) 4 :=
  splitEvery_rd s o a c (by decide)

/-- The halfwords of a read. -/
theorem leShorts_rd (s : State) (o a c : Nat) :
    tokenLogits.leShorts (rd s o a (2 * c)) = (List.range c).map fun i => rdNat s o (a + 2 * i) 2 :=
  splitEvery_rd s o a c (by decide)

theorem tokenLogits_bf16 (s : State) (o t : Nat) {b : Nat} (h : ccBf16 b = true) : tokenLogits s o b t =
    (List.range (ccExperts b)).map fun e => dec32 (rdNat s o (ccLogits b + 2 * ccExperts b * t + 2 * e) 2 * 2 ^ 16) := by
  simp only [tokenLogits, h, if_true, leShorts_rd, List.map_map]
  rfl

theorem tokenLogits_fp32 (s : State) (o t : Nat) {b : Nat} (h : ccBf16 b = false) : tokenLogits s o b t =
    (List.range (ccExperts b)).map fun e => dec32 (rdNat s o (ccLogits b + 4 * ccExperts b * t + 4 * e) 4) := by
  simp only [tokenLogits, h, Bool.false_eq_true, if_false, leWords_rd, List.map_map]
  rfl

theorem cardBias_of_hasBias (s : State) (o : Nat) {b : Nat} (h : ccHasBias b = true) :
    cardBias s o b = some ((List.range (ccExperts b)).map fun e => dec32 (rdNat s o (ccBias b + 4 * e) 4)) := by
  simp only [cardBias, h, if_true, leWords_rd, List.map_map]
  rfl

/-! ### The order of keys -/

/-- The order of two numbers, read at the smaller of their exponents. -/
theorem fpLt_num (a b : Bool) (m n : Nat) (e f : Int) : fpLt (.num b n f) (.num a m e) =
    decide ((if b then -(n : Int) else n) * 2 ^ (f - min e f).toNat < (if a then -(m : Int) else m) * 2 ^ (e - min e f).toNat) := by
  have he : (0 : Int) < 2 ^ (e - min e f).toNat := by positivity
  have hf : (0 : Int) < 2 ^ (f - min e f).toNat := by positivity
  simp only [fpLt, fpSub, fpNegate, fpAdd, min_comm f e]
  rcases Nat.eq_zero_or_pos n with rfl | hn <;> rcases Nat.eq_zero_or_pos m with rfl | hm
  · simp
  · cases a <;> simp [hm, hm.ne', he]
  · cases b <;> simp [hn, hn.ne', hf]
  · simp only [hn.ne', hm.ne', false_and, if_false]
    push_cast
    generalize (2 : Int) ^ (f - min e f).toNat = x at *
    generalize (2 : Int) ^ (e - min e f).toNat = y at *
    generalize hz : (if b = true then -((n : Int) * x) else n * x) + (if (!a) = true then -((m : Int) * y) else m * y) = z
    have hdiff : z = (if b = true then -(n : Int) else n) * x - (if a = true then -(m : Int) else m) * y := by
      rw [← hz]
      cases a <;> cases b <;> simp <;> ring
    rw [Bool.eq_iff_iff, Bool.and_eq_true, decide_eq_true_eq, decide_eq_true_eq, ← sub_neg (a := _ * x), ← hdiff]
    exact ⟨And.left, fun hneg => ⟨hneg, bne_iff_ne.2 (Int.natAbs_ne_zero.2 hneg.ne)⟩⟩

/-- The rational that a number stands for. -/
def fpRat : Fp → ℚ
  | .num a m e => (if a then -(m : ℚ) else m) * 2 ^ e
  | _ => 0

/-- The class of a key (R197): NaN, minus infinity, a number, plus infinity. -/
def keyClass : Fp → Nat
  | .nan => 0
  | .inf true => 1
  | .num _ _ _ => 2
  | .inf false => 3

/-- The place of a key in the order of R197: its class, and among numbers its value. -/
def keyRank (x : Fp) : ℕ ×ₗ ℚ := toLex (keyClass x, fpRat x)

/-- The integer at the smaller exponent, scaled, is the number. -/
theorem scaled_eq_zpow (x : Int) {e g : Int} (h : g ≤ e) :
    (x : ℚ) * 2 ^ e = ((x * 2 ^ (e - g).toNat : Int) : ℚ) * 2 ^ g := by
  have he : e = ((e - g).toNat : Int) + g := by omega
  push_cast
  conv_lhs => rw [he, zpow_add₀ two_ne_zero, zpow_natCast]
  ring

theorem fpLt_num_iff (a b : Bool) (m n : Nat) (e f : Int) :
    fpLt (.num b n f) (.num a m e) = true ↔ fpRat (.num b n f) < fpRat (.num a m e) := by
  have hcast (c : Bool) (k : Nat) : (if c = true then -(k : ℚ) else k) = ((if c = true then -(k : Int) else k : Int) : ℚ) := by
    cases c <;> simp
  rw [fpLt_num, decide_eq_true_eq, fpRat, fpRat, hcast, hcast, scaled_eq_zpow _ (min_le_right e f), scaled_eq_zpow _ (min_le_left e f),
    mul_lt_mul_iff_left₀ (by positivity), Int.cast_lt]

/-- A key ranks above another where its place is higher. -/
theorem ranksAbove_iff (x y : Fp) : ranksAbove x y = true ↔ keyRank y < keyRank x := by
  rw [keyRank, keyRank, Prod.Lex.toLex_lt_toLex]
  rcases x with _ | ⟨_ | _⟩ | ⟨a, m, e⟩ <;> rcases y with _ | ⟨_ | _⟩ | ⟨b, n, f⟩
  case num.num => simp [ranksAbove, keyClass, fpLt_num_iff]
  all_goals simp [ranksAbove, keyClass, fpRat]

/-! ### The experts of the highest ranks -/

/-- The place of an expert in the order of choices: the higher key first, of equal keys the lower expert. -/
def choicePlace (x : Nat × Fp) : (ℕ ×ₗ ℚ)ᵒᵈ ×ₗ ℕ := toLex (OrderDual.toDual (keyRank x.2), x.1)

theorem choicePlace_lt_iff (x y : Nat × Fp) : choicePlace x < choicePlace y ↔
    (ranksAbove x.2 y.2 || (!ranksAbove y.2 x.2 && decide (x.1 < y.1))) = true := by
  rw [choicePlace, choicePlace, Prod.Lex.toLex_lt_toLex']
  simp only [Bool.or_eq_true, Bool.and_eq_true, Bool.not_eq_true', ← Bool.not_eq_true, ranksAbove_iff, decide_eq_true_eq,
    OrderDual.toDual_le_toDual, not_lt]
  constructor
  · rintro ⟨hle, hlt⟩
    exact (hle.lt_or_eq).imp id fun heq => ⟨hle, hlt heq.symm⟩
  · rintro (hlt | ⟨hle, hlt⟩)
    · exact ⟨hlt.le, fun heq => absurd heq hlt.ne'⟩
    · exact ⟨hle, fun _ => hlt⟩

/-- Experts listed in ascending order, each once. -/
def Ascending (l : List (Nat × Fp)) : Prop := l.Pairwise (fun x y => x.1 < y.1)

theorem bestKey_eq_none {l : List (Nat × Fp)} : bestKey l = none ↔ l = [] := by
  cases l with
  | nil => simp [bestKey]
  | cons a l =>
    rw [bestKey]
    split
    · simp
    · split <;> simp

/-- The best of a list is the one of the first place. -/
theorem bestKey_some {l : List (Nat × Fp)} {x : Nat × Fp} (hs : Ascending l) (h : bestKey l = some x) :
    x ∈ l ∧ ∀ y ∈ l, choicePlace x ≤ choicePlace y := by
  induction l generalizing x with
  | nil => cases h
  | cons a l ih =>
    obtain ⟨ha, hl⟩ := List.pairwise_cons.1 hs
    cases hr : bestKey l with
    | none =>
      simp only [bestKey, hr, Option.some.injEq] at h
      simp [← h, bestKey_eq_none.1 hr]
    | some z =>
      obtain ⟨hmem, hmin⟩ := ih hl hr
      simp only [bestKey, hr] at h
      split at h <;> obtain rfl := Option.some.inj h
      case isTrue habove =>
        have hlt : choicePlace z < choicePlace a := (choicePlace_lt_iff z a).2 (by rw [habove, Bool.true_or])
        exact ⟨List.mem_cons_of_mem _ hmem, List.forall_mem_cons.2 ⟨hlt.le, hmin⟩⟩
      case isFalse habove =>
        have hlt : choicePlace a < choicePlace z := (choicePlace_lt_iff a z).2 (by simp [habove, ha z hmem])
        exact ⟨List.mem_cons_self, List.forall_mem_cons.2 ⟨le_rfl, fun y hy => hlt.le.trans (hmin y hy)⟩⟩

/-- An expert and the others are the list. -/
theorem perm_cons_filter_ne {l : List (Nat × Fp)} {x : Nat × Fp} (hs : Ascending l) (h : x ∈ l) :
    l.Perm (x :: l.filter (fun y => y.1 != x.1)) := by
  have hnodup : l.Nodup := hs.imp fun hlt heq => absurd (congrArg Prod.fst heq) hlt.ne
  have hinj : Set.InjOn Prod.fst {y | y ∈ l} := List.inj_on_of_nodup_map ((List.pairwise_map.2 hs).imp ne_of_lt)
  have hfst : ∀ y ∈ l, (y.1 != x.1) = (y != x) := fun y hy => by
    rw [bne, bne, Bool.eq_iff_iff, Bool.not_eq_true', Bool.not_eq_true', beq_eq_false_iff_ne, beq_eq_false_iff_ne, Ne, Ne,
      hinj.eq_iff hy h]
  rw [List.filter_congr hfst, ← hnodup.erase_eq_filter]
  exact List.perm_cons_erase h

theorem topKeys_spec {k : Nat} {l : List (Nat × Fp)} (hs : Ascending l) (hk : k ≤ l.length) :
    (topKeys k l).length = k ∧ ∀ i c, (topKeys k l)[i]? = some c →
      ∃ x ∈ l, x.1 = c ∧ l.countP (fun y => decide (choicePlace y < choicePlace x)) = i := by
  induction k generalizing l with
  | zero => simp [topKeys]
  | succ k ih =>
    obtain ⟨x, hx⟩ : ∃ x, bestKey l = some x := Option.ne_none_iff_exists'.1 fun hnone => by
      rw [bestKey_eq_none.1 hnone] at hk
      cases hk
    obtain ⟨hmem, hmin⟩ := bestKey_some hs hx
    have hperm := perm_cons_filter_ne hs hmem
    generalize hr : l.filter (fun y => y.1 != x.1) = r at hperm
    have hrs : Ascending r := hr ▸ hs.filter _
    have hrk : k ≤ r.length := by
      have := hperm.length_eq
      rw [List.length_cons] at this
      omega
    obtain ⟨hlen, hrest⟩ := ih hrs hrk
    simp only [topKeys, hx, hr, List.length_cons, hlen, true_and]
    intro i c hi
    cases i with
    | zero =>
      refine ⟨x, hmem, by simpa using hi, List.countP_eq_zero.2 fun y hy => ?_⟩
      simpa using hmin y hy
    | succ i =>
      obtain ⟨y, hy, hyc, hcount⟩ := hrest i c (by simpa using hi)
      obtain ⟨hyl, hyx⟩ := List.mem_filter.1 (hr ▸ hy)
      have hlt : choicePlace x < choicePlace y := lt_of_le_of_ne (hmin y hyl) fun heq => by
        have : x.1 = y.1 := congrArg (fun p => (ofLex p).2) heq
        simp [this] at hyx
      exact ⟨y, hyl, hyc, by rw [hperm.countP_eq, List.countP_cons, hcount, if_pos (decide_eq_true hlt)]⟩

theorem indexed_map_range' {α : Type} (g : Nat → α) (n k : Nat) :
    indexed n ((List.range' n k).map g) = (List.range' n k).map fun i => (i, g i) := by
  induction k generalizing n with
  | zero => rfl
  | succ k ih => rw [List.range'_succ, List.map_cons, indexed, ih, List.map_cons]

theorem indexed_map_range {α : Type} (g : Nat → α) (k : Nat) :
    indexed 0 ((List.range k).map g) = (List.range k).map fun i => (i, g i) := by
  rw [List.range_eq_range', indexed_map_range']

theorem ascending_map_range (g : Nat → Fp) (k : Nat) : Ascending ((List.range k).map fun i => (i, g i)) :=
  List.pairwise_map.2 List.pairwise_lt_range

theorem length_gateWeights (d1 : Bool) (mode : Nat) (z : List Fp) (chosen : List Nat) :
    (gateWeights d1 mode z chosen).length = chosen.length := by
  unfold gateWeights
  dsimp only
  split
  · simp
  split <;> simp

/-- The keys of a token's experts (R197). -/
def tokenKeys (z : List Fp) : Option (List Fp) → List Fp
  | none => z
  | some b => (List.zip z b).map fun p => rne32 (fpAdd p.1 p.2)

theorem routeToken_choices (d1 : Bool) (mode scale k : Nat) (z : List Fp) (bias : Option (List Fp)) :
    (routeToken d1 mode scale k z bias).1.map Prod.fst = topKeys k (indexed 0 (tokenKeys z bias)) := by
  have hlen (l : List Nat) : ((gateWeights d1 mode z l).map fun v => rne32 (fpMul v (dec32 scale))).length = l.length := by
    rw [List.length_map, length_gateWeights]
  cases bias <;> exact List.map_fst_zip (hlen _).ge

/-- The key of one expert: its logit, or the sum of logit and bias rounded once (R197). -/
def expertKey (z : List Fp) (bias : Option (List Fp)) (e : Nat) : Fp :=
  match bias with
  | none => (z[e]?).getD .nan
  | some b => rne32 (fpAdd ((z[e]?).getD .nan) ((b[e]?).getD .nan))

theorem tokenKeys_eq {z : List Fp} {bias : Option (List Fp)} (hb : ∀ b, bias = some b → b.length = z.length) :
    tokenKeys z bias = (List.range z.length).map (expertKey z bias) := by
  refine List.ext_getElem ?_ fun e he _ => ?_
  · cases bias with
    | none => simp [tokenKeys]
    | some b => simp [tokenKeys, hb b rfl]
  · cases bias with
    | none =>
      have hez : e < z.length := he
      simp [tokenKeys, expertKey, hez]
    | some b =>
      obtain ⟨hez, heb⟩ : e < z.length ∧ e < b.length := by simpa [tokenKeys] using he
      simp [tokenKeys, expertKey, hez, heb]

/-- Choice `i` of a token is the expert that exactly `i` rank above (R197). -/
theorem routeToken_ranks (d1 : Bool) (mode scale : Nat) {k : Nat} {z : List Fp} {bias : Option (List Fp)} {key : Nat → Fp}
    (hkeys : tokenKeys z bias = (List.range z.length).map key) (hk : k ≤ z.length) :
    (routeToken d1 mode scale k z bias).1.length = k ∧ ∀ i, i < k → ∃ c w, (routeToken d1 mode scale k z bias).1[i]? = some (c, w) ∧
      c < z.length ∧ ((List.range z.length).filter (fun f => ranksAbove (key f) (key c) ||
        (!ranksAbove (key c) (key f) && decide (f < c)))).length = i := by
  have hchoices := routeToken_choices d1 mode scale k z bias
  rw [hkeys, indexed_map_range] at hchoices
  obtain ⟨hlen, hspec⟩ := topKeys_spec (ascending_map_range key z.length) (by simpa using hk : k ≤ _)
  rw [← hchoices] at hlen hspec
  rw [List.length_map] at hlen
  refine ⟨hlen, fun i hi => ?_⟩
  obtain ⟨⟨c, w⟩, hcw⟩ : ∃ x, (routeToken d1 mode scale k z bias).1[i]? = some x := by simp [hlen, hi]
  obtain ⟨x, hx, hxc, hcount⟩ := hspec i c (by rw [List.getElem?_map, hcw]; rfl)
  obtain ⟨e, he, rfl⟩ := List.mem_map.1 hx
  obtain rfl : e = c := hxc
  refine ⟨e, w, hcw, List.mem_range.1 he, ?_⟩
  rw [← hcount, List.countP_map, List.countP_eq_length_filter]
  refine congrArg List.length (List.filter_congr fun f _ => ?_)
  rw [Function.comp_apply, Bool.eq_iff_iff, decide_eq_true_eq, choicePlace_lt_iff]

/-! ### The counts of choices -/

/-- Placing choices adds to each expert's count the number of choices that name it (R201). -/
theorem chosen_foldl_placeChoice (o t f : Nat) (odd : Bool) (l : List (Nat × Nat × Fp)) (a : CardRun) :
    tgetD (l.foldl (placeChoice o t odd) a).c.chosen f 0 = tgetD a.c.chosen f 0 + l.countP (fun x => x.2.1 == f) := by
  induction l generalizing a with
  | nil => rfl
  | cons x l ih =>
    rw [List.foldl_cons, ih, List.countP_cons]
    simp only [placeChoice]
    by_cases hx : x.2.1 = f
    · subst hx
      simp
      omega
    · rw [tgetD_tput_ne _ _ _ (Ne.symm hx)]
      simp [hx]

theorem chosen_routeOne {q o t : Nat} {bias : Option (List Fp)} {a : CardRun} (hstop : a.stop = none)
    (hsound : poisonAt a.s (logitAt a.c.ccb t).1 (logitAt a.c.ccb t).2 = false) (f : Nat) :
    tgetD (routeOne q o bias a t).c.chosen f 0 = tgetD a.c.chosen f 0 +
      ((routeToken (cardD1 a.s q) (ccGate a.c.ccb) (ccScale a.c.ccb) (ccChoices a.c.ccb) (tokenLogits a.s o a.c.ccb t)
        bias).1.filter (fun x => x.1 == f)).length := by
  simp only [routeOne, hstop, hsound, Option.isSome_none, Bool.false_eq_true, if_false, chosen_foldl_placeChoice]
  conv_rhs => rw [← List.countP_eq_length_filter, ← map_snd_indexed (routeToken ..).1 0, List.countP_map]
  rfl

/-- Settles O45: a token's words are reads at its pointers, keys are ordered by a place in a linear order, and choice `i` is the
element of that order with `i` before it. -/
theorem routingTakesTheHighestRanks : Obligations.RoutingTakesTheHighestRanks := by
  refine ⟨fun s o b t e n hn he => ?_, fun s o b e he => ?_, fun x a b m n e f => ?_,
    fun d1 mode scale k z bias key hb hk hkey => routeToken_ranks d1 mode scale ?_ hk,
    fun q o t f bias a hstop hsound => chosen_routeOne hstop hsound f⟩
  · subst hn
    cases hbf : ccBf16 b with
    | true =>
      have haddr : ccLogits b + 2 * ccExperts b * t + 2 * e = ccLogits b + t * (ccExperts b * 2) + e * 2 := by ring
      simp [tokenLogits_bf16 s o t hbf, he, rdNat, haddr]
    | false =>
      have haddr : ccLogits b + 4 * ccExperts b * t + 4 * e = ccLogits b + t * (ccExperts b * 4) + e * 4 := by ring
      simp [tokenLogits_fp32 s o t hbf, he, rdNat, haddr]
  · split
    next h => exact ⟨_, cardBias_of_hasBias s o h, by simp, by simp [he, rdNat]⟩
    next h => simp [cardBias, h]
  · refine ⟨by cases x <;> rfl, ?_, fpLt_num ..⟩
    rcases x with _ | ⟨_ | _⟩ | ⟨a, m, e⟩ <;> simp [ranksAbove]
  · rw [tokenKeys_eq hb]
    exact List.map_congr_left fun e he => (hkey e (List.mem_range.1 he)).symm

end Sys2Proof.Machine

/-!
PROOFS. Carding operations by chunks (R213, R218, R224): what a queue that lists one sequence number twice makes of a COMBINE.
-/
namespace Sys2Proof.Machine

/-! ### A start that goes on, and checks that pass, as Booleans -/

/-- A head starts and goes on, with something that holds of its queue, operation, header and state. -/
def goesOn (r : Start) (p : Queue → Op → Head → State → Bool) : Bool :=
  match r with
  | .go x o h t => p x o h t
  | _ => false

theorem exists_of_goesOn {r : Start} {p : Queue → Op → Head → State → Bool} (h : goesOn r p = true) :
    ∃ x o f t, r = .go x o f t ∧ p x o f t = true := by
  cases r with
  | go x o f t => exact ⟨x, o, f, t, rfl, h⟩
  | no => cases h
  | ends t => cases h

/-- The checks of R230 pass, with a record of which something holds. -/
def checksPass (r : CardChk) (p : Card → Bool) : Bool :=
  match r with
  | .ok c => p c
  | .bad _ => false

theorem exists_of_checksPass {r : CardChk} {p : Card → Bool} (h : checksPass r p = true) : ∃ c, r = .ok c ∧ p c = true := by
  cases r with
  | ok c => exact ⟨c, rfl, h⟩
  | bad x => cases h

/-! ### Two operations of one sequence number -/

/-- The control block of a COMBINE of one token with one choice: pointers to the Tile Store, its home plane in HBM, rows of 64
elements of format 6, and counter 1 for its arrivals. -/
def twinCcb : Nat :=
  fld (tilePtr 12288) 744 40 + fld (tilePtr 9728) 544 40 + fld (tilePtr 8192) 344 40 + fld 131072 304 39 + fld 1 216 16 +
  fld 6 128 8 + fld 6 104 8 + fld 64 40 15 + fld 3 8 4 + 2

/-- The COMBINE, accepted, of owner 1. -/
def twinCombine : Op := { seq := 0, hdr := fld 8 272 8 + 2, body := fld (tilePtr 4096) 472 40, owner := 1, epoch := 0 }

/-- A NOP of the same sequence number, completed and not yet retired. -/
def twinNop : Op := { seq := 0, hdr := fld 0xD 272 8 + 2, body := 0, owner := 1, epoch := 0, progress := .completed, status := 1 }

/-- Owner 1 is active and may read and write memory, every frond is on, counter 1 is ready and has counted nothing, and queue
16 lists the NOP before the COMBINE. -/
def twinState : State :=
  let mem := wrMem (wrMem State.reset.mem 1 1 (tilePtr 4096) (natLe 128 twinCcb)) 1 1 (tilePtr 8192)
    (natLe 4 (fld (ownRack State.reset) 12 12 + ownDev State.reset))
  { State.reset with
    mem := mem
    owners := [(1, { state := .active, entry := fld 16 40 20 + fld 7 60 20 })]
    mc := {
      keys := [(0, { active := true, gen := 1, fresh := 0 }), (1, { active := true, gen := 1, fresh := 1 })]
      keyDraws := 2
      windows := [(8, fld 1 95 1 + fld 7 91 3 + fld (2 ^ 38) 39 39), (9, fld 3 94 2 + fld 7 91 3 + fld (2 ^ 28) 39 39)] }
    dict := [(0x300002, .num 1024), (0x302806, .num 64)]
    resets := []
    fronds := { st := (List.range 96).map (fun f => (f, Frond.on)) }
    syu := { objs := [(objKey 2 1, { state := 1, owner := 1 })] }
    queues := [(16, { ctx := fld 2 272 2 + fld 1 288 12, partition := 0, ops := [twinNop, twinCombine], nextSeq := 1 })] }

/-- The COMBINE starts as O44 has it, with one chunk whose counter has not reached its target. -/
theorem twinState_waits : ∃ x o h t c, CardStarts twinState 16 3 x o h t c ∧ ccChunks c.ccb = 1 ∧
    (chunkWait (cardBegun t 16 o c) 16 c).2 = none := by
  have hgo : goesOn (startHead twinState 16 0x08 0 .ready) (fun x o h t =>
      checksPass (cardCheck t o x.partition (bits o.body 472 40)) fun c =>
        decide (ptrOk t o.owner (bits o.body 472 40) 128 .read = true ∧ ccKind c.ccb = 3 ∧ h.twoPhase = false ∧ cardD1Bad t c = none ∧
          ccChunks c.ccb = 1 ∧ (chunkWait (cardBegun t 16 o c) 16 c).2 = none)) = true := by decide +kernel
  obtain ⟨x, o, h, t, hstart, hchecks⟩ := exists_of_goesOn hgo
  obtain ⟨c, hcheck, hc⟩ := exists_of_checksPass hchecks
  obtain ⟨hptr, hkind, htwo, hd1, hchunks, hwait⟩ := of_decide_eq_true hc
  exact ⟨x, o, h, t, c, ⟨by decide +kernel, by decide +kernel, hstart, hptr, hcheck, hkind, htwo, hd1⟩, hchunks, hwait⟩

/-- Starting the COMBINE starts the NOP with it, which is then the head: the COMBINE's record is dropped. -/
theorem twinState_dropped : tget? (cardExec 3 16 twinState).card.ops 16 = none := by decide +kernel

/-- Refutes O44: where a queue lists a completed NOP of the COMBINE's sequence number before it, the start marks both as started, the
NOP becomes the head, and the COMBINE does not wait at its counter: its record is dropped. -/
theorem not_cardingOperationsRunByChunks : ¬ Obligations.CardingOperationsRunByChunks := by
  intro hall
  obtain ⟨x, o, h, t, c, hstarts, hchunks, hwait⟩ := twinState_waits
  obtain ⟨hstart, -⟩ := hall
  obtain ⟨-, hwaits⟩ := hstart twinState 16 3 x o h t c (.combine 16) (by simp) hstarts hchunks
  obtain ⟨hnext, hheld, -⟩ := hwaits _ (Prod.ext rfl hwait)
  have hexec : exec (.combine 16) twinState = .next (cardExec 3 16 twinState) := rfl
  rw [← Host.Outcome.next.inj (hexec.symm.trans hnext), twinState_dropped] at hheld
  cases hheld

end Sys2Proof.Machine

/-!
PROOFS. What sending over the fabric leaves: the packets that a relay holds, attestations and the numbers of flows; and faults, of
which none is taken back (R220, R337, R340, R341).
-/
namespace Sys2Proof.Machine

/-! ### Ports -/

/-- A packet handed to a port changes ports and what is seen outside. -/
theorem portSend_frame (s : State) (p dev : Nat) (k : Packet) :
    ∃ o ports, portSend s p dev k = { s with
      out := o
      fab := { s.fab with ports := ports } } := by
  unfold portSend
  dsimp only
  split
  · split <;> exact ⟨_, _, rfl⟩
  · exact ⟨_, _, rfl⟩

theorem transmit_frame (s : State) (key : Nat) (k : Packet) (avoid : Option Nat) :
    ∃ o ports, transmit s key k avoid = { s with
      out := o
      fab := { s.fab with ports := ports } } := by
  unfold transmit
  split
  · exact portSend_frame ..
  · exact ⟨_, _, rfl⟩

theorem sendLoose_frame (s : State) (key : Nat) (k : Packet) :
    ∃ o ports, sendLoose s key k = { s with
      out := o
      fab := { s.fab with ports := ports } } :=
  transmit_frame ..

/-! ### Flows that send and fail -/

/-- What the fabric keeps while it sends: the packets that relays hold, flows held back, attestations and the next number of each flow;
faults raised only grow. -/
structure Sends (s t : State) : Prop where
  raised : s.log.raised ≤ t.log.raised
  relays : t.fab.relays = s.fab.relays
  holdRelays : t.fab.holdRelays = s.fab.holdRelays
  attests : t.fab.attests = s.fab.attests
  txNext : ∀ key, (flowOf t key).txNext = (flowOf s key).txNext

theorem Sends.refl (s : State) : Sends s s := ⟨Nat.le_refl _, rfl, rfl, rfl, fun _ => rfl⟩

theorem Sends.trans {s t u : State} (h : Sends s t) (k : Sends t u) : Sends s u where
  raised := h.raised.trans k.raised
  relays := k.relays.trans h.relays
  holdRelays := k.holdRelays.trans h.holdRelays
  attests := k.attests.trans h.attests
  txNext key := (k.txNext key).trans (h.txNext key)

theorem Sends.foldl {α : Type} {f : State → α → State} (hf : ∀ u a, Sends u (f u a)) (l : List α) (s : State) :
    Sends s (l.foldl f s) := by
  induction l generalizing s with
  | nil => exact .refl s
  | cons a l ih => exact (hf s a).trans (ih _)

theorem sends_of_fab_eq {s t : State} (hf : t.fab = s.fab) (hl : s.log.raised ≤ t.log.raised) : Sends s t :=
  ⟨hl, by rw [hf], by rw [hf], by rw [hf], fun key => by rw [flowOf, flowOf, hf]⟩

/-- Sending changes nothing else of the fabric that this keeps: ports, groups, requests, slots and trust are free to change. -/
theorem sends_fab (s : State) (fab : Fabric) (hflows : fab.flows = s.fab.flows) (hrelays : fab.relays = s.fab.relays)
    (hholds : fab.holdRelays = s.fab.holdRelays) (hattests : fab.attests = s.fab.attests) : Sends s { s with fab := fab } :=
  ⟨Nat.le_refl _, hrelays, hholds, hattests, fun key => by rw [flowOf, flowOf, ← hflows]⟩

theorem sends_raise (s : State) (f : Flt) : Sends s (raise s f) :=
  sends_of_fab_eq (raise_fab s f) ((raise_log_units s f).1 ▸ Nat.le_succ _)

/-- A flow set anew under its own number. -/
theorem sends_setFlow {s : State} {key : Nat} {f : Flow} (h : f.txNext = (flowOf s key).txNext) : Sends s (setFlow s key f) where
  raised := Nat.le_refl _
  relays := rfl
  holdRelays := rfl
  attests := rfl
  txNext k := by
    by_cases hk : k = key
    · subst hk
      simp [flowOf, setFlow] at h ⊢
      exact h
    · rw [flowOf, flowOf, setFlow, tgetD_tput_ne _ _ _ hk]

theorem sends_portSend (s : State) (p dev : Nat) (k : Packet) : Sends s (portSend s p dev k) := by
  obtain ⟨o, ports, h⟩ := portSend_frame s p dev k
  rw [h]
  exact ⟨Nat.le_refl _, rfl, rfl, rfl, fun _ => rfl⟩

theorem sends_stopFar (s : State) (q n code : Nat) : Sends s (stopFar s q n code) := by
  unfold stopFar
  split
  · exact .refl s
  split
  · exact .refl s
  · exact sends_of_fab_eq rfl (Nat.le_refl _)

theorem sends_takeLate (s : State) (x : Sent) (target code : Nat) : Sends s (takeLate s x target code) := by
  unfold takeLate
  refine Sends.trans ?_ (sends_stopFar ..)
  refine Sends.trans ?_ (sends_fab _ _ rfl rfl rfl rfl)
  exact sends_raise ..

theorem sends_unknownAtomics (s : State) (dev : Nat) : Sends s (unknownAtomics s dev) := by
  unfold unknownAtomics
  refine Sends.trans ?_ (sends_fab _ _ rfl rfl rfl rfl)
  refine Sends.trans ?_ (Sends.foldl (fun u _ => sends_stopFar u ..) _ _)
  exact Sends.foldl (fun u _ => sends_raise u _) _ s

/-- What a flow that fails keeps after its fault. -/
theorem sends_failFlow_of_raised (s : State) (key : Nat) :
    Sends (raiseDev s 0xA009 srcFabric [(keyDev key, 12), ((flowOf s key).unacked.length, 16)]) (failFlow s key) := by
  unfold failFlow
  refine Sends.trans ?_ (sends_fab _ _ rfl rfl rfl rfl)
  refine Sends.trans ?_ (sends_unknownAtomics ..)
  refine Sends.trans ?_ (sends_fab _ _ rfl rfl rfl rfl)
  refine Sends.trans ?_ (Sends.foldl (fun u x => sends_takeLate u x ..) _ _)
  exact sends_setFlow ((sends_raise s _).txNext key).symm

/-- A flow that fails raises one fault at least (R341). -/
theorem raised_lt_failFlow (s : State) (key : Nat) : s.log.raised < (failFlow s key).log.raised := by
  have hcount : (raiseDev s 0xA009 srcFabric [(keyDev key, 12), ((flowOf s key).unacked.length, 16)]).log.raised = s.log.raised + 1 :=
    (raise_log_units ..).1
  exact Nat.lt_of_lt_of_le (hcount ▸ Nat.lt_succ_self _) (sends_failFlow_of_raised s key).raised

theorem sends_failFlow (s : State) (key : Nat) : Sends s (failFlow s key) :=
  (sends_raise s _).trans (sends_failFlow_of_raised s key)

theorem sends_pumpFlow (n : Nat) (s : State) (key : Nat) : Sends s (pumpFlow n s key) := by
  induction n generalizing s with
  | zero => exact .refl s
  | succ n ih =>
    unfold pumpFlow
    dsimp only
    split
    · exact .refl s
    next x r _ =>
    split
    · exact .refl s
    split
    · exact sends_failFlow s key
    next p _ =>
    refine Sends.trans ?_ (ih _)
    have hsent : Sends s (portSend (setFlow s key { flowOf s key with
        waiting := r
        unacked := (flowOf s key).unacked ++ [{ x with port := p }] }) p (keyDev key) x.pk) := by
      refine Sends.trans (sends_setFlow ?_) (sends_portSend ..)
      rfl
    split
    · exact hsent.trans (sends_of_fab_eq rfl (Nat.le_refl _))
    · exact hsent.trans (sends_of_fab_eq rfl (Nat.le_refl _))

/-- A packet put into a flow: no fault is taken back, and attestations stay. -/
theorem sendPk_raised_attests (s : State) (key q n : Nat) (k : Packet) :
    s.log.raised ≤ (sendPk s key q n k).log.raised ∧ (sendPk s key q n k).fab.attests = s.fab.attests := by
  unfold sendPk
  split
  · have h : Sends s _ := (sends_raise s { code := 0xA009, src := srcFabric, items := [(keyDev key, 12), (0, 16)] }).trans
      (sends_takeLate _ { pk := k, q := q, seq := n } (keyDev key) 0xA009)
    exact ⟨h.raised, h.attests⟩
  · have h (f : Flow) := sends_pumpFlow 1 (setFlow s key f) key
    exact ⟨(h _).raised, (h _).attests⟩

/-! ### Faults are not taken back -/

theorem raised_le_foldl {α : Type} {f : State → α → State} (hf : ∀ u a, u.log.raised ≤ (f u a).log.raised) (l : List α) (s : State) :
    s.log.raised ≤ (l.foldl f s).log.raised := by
  induction l generalizing s with
  | nil => exact Nat.le_refl _
  | cons a l ih => exact (hf s a).trans (ih _)

theorem signalQueue_log (s : State) (q : Nat) (x : Queue) : (signalQueue s q x).log = s.log := by
  unfold signalQueue
  split
  · rfl
  split
  · rfl
  · dsimp only
    split <;> simp

theorem landMsg_log (s : State) (q : Nat) (m : Held) : (landMsg s q m).log = s.log := by
  unfold landMsg
  split
  · rfl
  · dsimp only
    split <;> split <;> simp [signalQueue_log]

theorem postMsg_log (s : State) (q msg : Nat) (w : Bool) : (postMsg s q msg w).log = s.log := by
  unfold postMsg
  split
  · rfl
  · dsimp only
    split
    · simp [landMsg_log]
    · split <;> simp

theorem raised_le_fireWatch (s : State) (id : Nat) (w : Watch) (reason : Nat) : s.log.raised ≤ (fireWatch s id w reason).log.raised := by
  unfold fireWatch
  dsimp only
  split
  · rw [postMsg_log]
    exact Nat.le_refl _
  · exact Nat.le_refl _
  · exact (sendPk_raised_attests (dropWatch s id) ..).1

theorem raised_le_evalWatches (s : State) (k : Nat) : s.log.raised ≤ (evalWatches s k).log.raised := by
  unfold evalWatches
  split
  · exact Nat.le_refl _
  · refine raised_le_foldl (fun u a => ?_) _ s
    dsimp only
    split
    · exact raised_le_fireWatch ..
    · exact Nat.le_refl _

theorem raised_le_touchObj (s : State) (k : Nat) (o : SyncObj) : s.log.raised ≤ (touchObj s k o).log.raised :=
  raised_le_evalWatches (setObj s k _) k

theorem raised_le_peerPoison (s : State) (k cause dev : Nat) : s.log.raised ≤ (peerPoison s k cause dev).log.raised := by
  unfold peerPoison
  split
  · exact (sends_raise s _).raised.trans (raised_le_touchObj (bump _ 0x2A0205 1) ..)
  · exact Nat.le_refl _

/-! ### Aborts of the Carding Engine -/

/-- The abort bit of a fill message's header (Table 07-9). -/
theorem fhAbort_fillHeader (total digest step layer hosted source chunk : Nat) (back abort : Bool) :
    fhAbort (fillHeader total digest step layer hosted source chunk back abort) = abort := by
  have hlt : b2n abort < 2 := by cases abort <;> decide
  have hbit : fillHeader total digest step layer hosted source chunk back abort / 2 ^ 83 % 2 = b2n abort := by
    simp only [fillHeader, fld, Nat.shiftLeft_eq]
    omega
  rw [fhAbort, bit, Nat.testBit_eq_decide_div_mod_eq, hbit]
  cases abort <;> rfl

theorem raised_le_landBind {s : State} {o layer : Nat} {g : Geom} {next : State → Landed}
    (h : ∀ u, u.log.raised ≤ (next u).s.log.raised) : s.log.raised ≤ (landBind s o layer g next).s.log.raised := by
  unfold landBind
  split
  · exact Nat.le_refl _
  · exact (Nat.le_of_eq (by simp [bindMap])).trans (h _)
  · exact h s

/-- An aborting fill message poisons its chunk's counter, forward or backward (R216, R227). -/
theorem raised_le_landFill {h : Nat} (ha : fhAbort h = true) (s : State) (far : Bool) (o src : Nat) (g : Geom) (counts : List Nat) :
    s.log.raised ≤ (landFill s far o src g h counts).s.log.raised := by
  unfold landFill
  refine raised_le_landBind fun u => ?_
  dsimp only
  rw [if_pos ha]
  exact raised_le_peerPoison (bump u 0x270204 1) ..

theorem raised_le_landFillBack {h : Nat} (ha : fhAbort h = true) (s : State) (far : Bool) (o src : Nat) (g : Geom) (counts : List Nat) :
    s.log.raised ≤ (landFillBack s far o src g h counts).s.log.raised := by
  unfold landFillBack
  dsimp only
  rw [if_pos ha]
  exact raised_le_peerPoison (bump s 0x270204 1) ..

theorem raised_le_sendCard (s : State) (q : Nat) (o : Op) (c : Card) (d chunk ty epoch : Nat) (g : Geom) (payload : List Nat) :
    s.log.raised ≤ (sendCard s q o c d chunk ty epoch g payload).log.raised := by
  unfold sendCard
  dsimp only
  split
  · exact (sendPk_raised_attests ..).1
  · exact (sendPk_raised_attests ..).1

theorem raised_le_sendAbort (q : Nat) (o : Op) (c : Card) (back : Bool) (s : State) (x : Nat × Nat) :
    s.log.raised ≤ (sendAbort q o c back s x).log.raised := by
  unfold sendAbort
  dsimp only
  split
  · split
    · exact raised_le_landFillBack (fhAbort_fillHeader ..) (bump s 0x270208 1) ..
    · exact raised_le_landFill (fhAbort_fillHeader ..) (bump s 0x270208 1) ..
  · exact raised_le_sendCard (bump s 0x270208 1) ..

theorem raised_le_abortCard (s : State) (q : Nat) (o : Op) (c : Card) : s.log.raised ≤ (abortCard s q o c).log.raised := by
  unfold abortCard
  split
  · exact raised_le_foldl (fun u _ => raised_le_foldl (fun v _ => raised_le_sendAbort q o c _ v _) _ u) _ s
  · exact Nat.le_refl _

theorem raised_le_settleCards (s : State) : s.log.raised ≤ (settleCards s).log.raised := by
  refine raised_le_foldl (fun u c => ?_) _ s
  split
  · split
    · exact raised_le_abortCard (dropWaits (dropCard u c.1) c.1) ..
    · exact Nat.le_refl _
  · exact Nat.le_refl _

end Sys2Proof.Machine

/-!
PROOFS. Flows, relays and the rack's time: what acknowledgements, timeouts, resets, forwarding, retries and time messages come to
(R220, R340 to R343, R360, R364, R365).
-/
namespace Sys2Proof.Machine

/-! ### Flows after a change -/

@[simp] theorem flowOf_setFlow_self (s : State) (key : Nat) (f : Flow) : flowOf (setFlow s key f) key = f :=
  tgetD_tput_self s.fab.flows key f {}

@[simp] theorem flowOf_modFlow_self (s : State) (key : Nat) (f : Flow → Flow) : flowOf (modFlow s key f) key = f (flowOf s key) :=
  tgetD_tupd_self s.fab.flows key {} f

@[simp] theorem flowOf_bump (s : State) (k n key : Nat) : flowOf (bump s k n) key = flowOf s key := rfl

theorem flowOf_congr {s t : State} (h : t.fab.flows = s.fab.flows) (key : Nat) : flowOf t key = flowOf s key := by
  rw [flowOf, flowOf, h]

/-- A flow without packets that wait has none to pump. -/
theorem pumpFlow_of_waiting_nil {s : State} {key : Nat} (h : (flowOf s key).waiting = []) (n : Nat) : pumpFlow n s key = s := by
  cases n with
  | zero => rfl
  | succ n => simp only [pumpFlow, h]

/-! ### Packets outside sequence -/

/-- A packet that a port hears, of the port's kind, whose header and end-to-end check pass. -/
def ArrivesSound (s : State) (port : Nat) (k : Packet) : Prop :=
  portHears s port = true ∧ k.eth = decide (19 ≤ port) ∧ pkHeaderOk k = true ∧ pkCrcOk k = true

/-- A packet of version 2 is handed on as it came. -/
theorem portTranslate_of_headerOk {k : Packet} (h : pkHeaderOk k = true) (s : State) (port : Nat) : portTranslate s port k = k := by
  have hversion : k.version = 2 := by
    simp only [pkHeaderOk, Bool.and_eq_true, beq_iff_eq] at h
    obtain ⟨⟨⟨⟨hversion, -⟩, -⟩, -⟩, -⟩ := h
    exact hversion
  rw [portTranslate, if_neg (by omega)]

theorem exec_flowAck {s : State} {port : Nat} {k : Packet} (h : ArrivesSound s port k) (hty : k.ty = 0x0D) :
    exec (.flowAck port k) s = .next (if thas s.fab.flows (keyOfPk k) then
      takeAck s (keyOfPk k) (leNat (k.payload.take 4)) (k.op == 1) else s) := by
  obtain ⟨hhears, heth, hok, hcrc⟩ := h
  change execFlowAck port k s = _
  simp [execFlowAck, portTranslate_of_headerOk hok, hty, hhears, heth, hok, hcrc]

theorem exec_flowReset {s : State} {port : Nat} {k : Packet} (h : ArrivesSound s port k) (hty : k.ty = 0x1A) :
    exec (.flowReset port k) s = .next (if k.op = 0 ∨ (flowOf s (keyOfPk k)).failed then takeReset s (keyOfPk k) k else s) := by
  obtain ⟨hhears, heth, hok, hcrc⟩ := h
  change execFlowReset port k s = _
  simp [execFlowReset, portTranslate_of_headerOk hok, hty, hhears, heth, hok, hcrc]

/-- The device takes another one as the source of the rack's time (R365). -/
def followsSource (s : State) (dev : Nat) : State := { s with fab := { s.fab with
  isSource := false
  sourceDev := dev } }

theorem exec_timeSync {s : State} {port : Nat} {k : Packet} (h : ArrivesSound s port k) (hty : k.ty = 0x18) (hport : port < 16) :
    exec (.timeSync port k) s = .next (if s.fab.isSource ∧ ownDev s ≤ k.src then s
      else followTime (followsSource s k.src) (leNat (k.payload.take 8))) := by
  obtain ⟨hhears, -, hok, hcrc⟩ := h
  change execTimeSync port k s = _
  simp [execTimeSync, portTranslate_of_headerOk hok, hty, hhears, hok, hcrc, Nat.not_le.2 hport, followsSource]

/-! ### Time -/

theorem followTime_of_unlocked {s : State} (h : s.clock.locked = false) (t : Nat) :
    followTime s t = { s with clock := { s.clock with
      ns := t % 2 ^ 64
      locked := true } } := by
  simp [followTime, h]

/-- A locked clock is steered, by at most 200 ppm (R365). -/
theorem followTime_of_locked {s : State} (h : s.clock.locked = true) (t : Nat) :
    ∃ r : Int, -200 ≤ r ∧ r ≤ 200 ∧ followTime s t = { s with
      free := s.free + 1
      fab := { s.fab with rateAdj := r } } := by
  refine ⟨((Config.freeValue s.free % 401 : Nat) : Int) - 200, ?_, ?_, ?_⟩
  · omega
  · omega
  · simp [followTime, h]

/-- Following a time changes the clock and the rate alone. -/
theorem followTime_frame (s : State) (t : Nat) : ∃ c f r, followTime s t = { s with
    clock := c
    free := f
    fab := { s.fab with rateAdj := r } } := by
  unfold followTime
  split
  · exact ⟨_, _, _, rfl⟩
  · exact ⟨_, _, _, rfl⟩

/-- A packet to a Skein or near port is seen outside once. -/
theorem portSend_of_lt {p : Nat} (h : p < 19) (s : State) (dev : Nat) (k : Packet) :
    ∃ e ports, portSend s p dev k = { s with
      out := s.out ++ [e]
      fab := { s.fab with ports := ports } } := by
  unfold portSend
  dsimp only
  rw [if_neg (Nat.not_le.2 h)]
  exact ⟨_, _, rfl⟩

/-- A packet to each of a list of Skein or near ports, made from the state before it. -/
theorem foldl_portSend {l : List Nat} (h : ∀ p ∈ l, p < 19) (dev : Nat) (k : State → Packet) (s : State) :
    ∃ o ports, l.foldl (fun t p => portSend t p dev (k t)) s = { s with
      out := o
      fab := { s.fab with ports := ports } } ∧ o.length = s.out.length + l.length := by
  induction l generalizing s with
  | nil => exact ⟨_, _, rfl, rfl⟩
  | cons p l ih =>
    obtain ⟨e, ports, hsend⟩ := portSend_of_lt (h p List.mem_cons_self) s dev (k s)
    obtain ⟨o, ports', hrest, hlen⟩ := ih (fun q hq => h q (List.mem_cons_of_mem p hq)) (portSend s p dev (k s))
    rw [hsend] at hrest hlen
    refine ⟨o, ports', ?_, ?_⟩
    · rw [List.foldl_cons, hsend, hrest]
    · rw [hlen, List.length_append, List.length_singleton, List.length_cons]
      omega

/-- A lock to the PTP master held; the first makes the device the source of the rack's time (R364). -/
def ptpHeld (s : State) : State := { s with fab := { s.fab with
  ptpLocked := true
  isSource := s.fab.isSource || !s.fab.ptpLocked } }

theorem exec_ptpMessage {s u : State} {port : Nat} {m : Ptp} (hport : port = 19 ∨ port = 20) (hhears : portHears s port = true)
    (hon : ent s 0x2B0606 ≠ 0) (hdomain : m.domain = ent s 0x2B0607) (hu : u = setEnt s 0x2B0608 (ofSigned 32 m.offsetNs)) :
    exec (.ptpMessage port m) s = .next (if ¬ m.locked then u else if (ptpHeld u).fab.isSource then
      followTime (ptpHeld u) (((u.clock.ns : Int) - m.offsetNs) % ((2 ^ 64 : Nat) : Int)).toNat else ptpHeld u) := by
  subst hu
  change execPtpMessage port m s = _
  rw [execPtpMessage, if_neg (by simp [hport, hhears, hon, hdomain])]
  rfl

/-! ### Acknowledgements -/

theorem settleFences_of_queues_nil {s : State} (h : s.queues = []) : settleFences s = s := by
  rw [settleFences, h, List.foldl_nil]

/-- Acknowledged packets of which none is a notice of an epoch change no owner. -/
theorem foldl_noteAcked {l : List Sent} (h : ∀ x ∈ l, x.pk.ty ≠ 0x0E) (key : Nat) (s : State) : l.foldl (noteAcked key) s = s := by
  induction l with
  | nil => rfl
  | cons x l ih =>
    rw [List.foldl_cons, noteAcked, if_neg (h x List.mem_cons_self)]
    exact ih fun y hy => h y (List.mem_cons_of_mem x hy)

theorem windowOf_of_skein (f : Flow) (acked : Nat) (mark : Bool) : windowOf false f acked mark = f := rfl

theorem isEmpty_filter_eq_all {α : Type} (l : List α) (p : α → Bool) : (l.filter p).isEmpty = l.all (fun x => !p x) := by
  rw [Bool.eq_iff_iff, List.isEmpty_iff, List.filter_eq_nil_iff, List.all_eq_true]
  simp only [Bool.not_eq_true, Bool.not_eq_true']

/-- An acknowledgement of a rack-internal flow with no packet waiting: the packets it covers go, and retries start again where it
covers one (R340). -/
theorem flowOf_takeAck {s : State} {key ack : Nat} {f : Flow} (hf : flowOf s key = f) (hwaiting : f.waiting = []) (hqueues : s.queues = [])
    (heth : isEth key = false) (hnotices : ∀ x ∈ f.unacked, x.pk.ty ≠ 0x0E) :
    flowOf (takeAck s key ack false) key = { f with
      unacked := f.unacked.filter (fun x => !decide ((ack + 2 ^ 32 - x.pk.seq) % 2 ^ 32 < 2 ^ 31))
      retries := if f.unacked.all (fun x => !decide ((ack + 2 ^ 32 - x.pk.seq) % 2 ^ 32 < 2 ^ 31)) then f.retries else 0 } := by
  unfold takeAck
  dsimp only
  rw [hf, heth, windowOf_of_skein, foldl_noteAcked fun x hx => hnotices x (List.mem_of_mem_filter hx),
    settleFences_of_queues_nil (s := setFlow s key _) hqueues,
    pumpFlow_of_waiting_nil (by rw [flowOf_setFlow_self]; exact hwaiting), flowOf_setFlow_self, isEmpty_filter_eq_all]

theorem sendAck_frame (s : State) (key : Nat) : ∃ o ports, sendAck s key = { setFlow s key { flowOf s key with ackDue := 0 } with
    out := o
    fab := { s.fab with
      flows := tput s.fab.flows key { flowOf s key with ackDue := 0 }
      ports := ports } } :=
  sendLoose_frame ..

/-- Sending again changes counters, ports and what is seen outside. -/
theorem resend_frame (s : State) (key : Nat) : ∃ d o ports, resend s key = { s with
    dict := d
    out := o
    fab := { s.fab with ports := ports } } := by
  unfold resend
  generalize (flowOf s key).unacked = l
  induction l generalizing s with
  | nil => exact ⟨_, _, _, rfl⟩
  | cons x l ih =>
    obtain ⟨o, ports, hsend⟩ := transmit_frame s key x.pk (some x.port)
    obtain ⟨d, o', ports', hrest⟩ := ih (bump (transmit s key x.pk (some x.port)) 0x2B0703 1)
    refine ⟨d, o', ports', ?_⟩
    rw [List.foldl_cons, hrest, hsend]
    rfl

/-! ### Relays -/

theorem writeLink_fab (s : State) (p i n : Nat) : (writeLink s p i n).fab = s.fab := by
  simp [writeLink]

theorem pushBuf_fab (s : State) (p i : Nat) : (pushBuf s p i).fab = s.fab := by
  unfold pushBuf
  dsimp only
  split <;> simp [writeLink_fab]

theorem freeBuf_fab (s : State) (p i : Nat) : (freeBuf s p i).fab = s.fab := by
  unfold freeBuf
  dsimp only
  split <;> simp [pushBuf_fab]

theorem readRec_fab (s : State) (h : Nat) : (readRec s h).fab = s.fab := by
  unfold readRec
  dsimp only
  split
  · exact (raiseDev_fab ..).trans rfl
  · rfl

/-- A buffer released changes nothing of the fabric. -/
theorem deviceRelease_fab (s : State) (h : Nat) : (deviceRelease s h).fab = s.fab := by
  rw [← readRec_fab s h]
  unfold deviceRelease
  dsimp only
  split
  · rfl
  split
  · unfold dropRef
    dsimp only
    split
    · exact freeBuf_fab ..
    · rfl
  · exact raiseDev_fab ..

/-- A packet forwarded takes the next number of its flow; other held packets stay (R220, R335). -/
theorem sendOn_relays (s : State) (key : Nat) (k : Packet) :
    (sendOn s key k).fab.relays = s.fab.relays ∧ (sendOn s key k).fab.holdRelays = s.fab.holdRelays ∧
    (flowOf (sendOn s key k) key).txNext = ((flowOf s key).txNext + 1) % 2 ^ 32 := by
  have h (f : Flow) := sends_pumpFlow 1 (setFlow s key f) key
  refine ⟨(h _).relays, (h _).holdRelays, ((h _).txNext key).trans ?_⟩
  rw [flowOf_setFlow_self]

theorem exec_relayForward {s : State} {n : Nat} {x : Packet × Nat} (hx : s.fab.relays[n]? = some x)
    (hfirst : (s.fab.relays.take n).any (fun y => y.1.srcRack == x.1.srcRack && y.1.src == x.1.src && y.1.dst == x.1.dst) = false)
    (hholds : s.fab.holdRelays = []) :
    exec (.relayForward n) s = .next (deviceRelease (bump
      (sendOn { s with fab := { s.fab with relays := s.fab.relays.eraseIdx n } } x.1.dst x.1) 0x270205 1) x.2) := by
  change execRelayForward n s = _
  simp only [execRelayForward, hx, hfirst, Bool.false_eq_true, if_false]
  rw [deviceRelease_fab, bump_fab, (sendOn_relays ..).2.1, hholds, List.foldl_nil]

/-- An attestation tried again starts from its first message (R343). -/
theorem attests_sendSpdm (s : State) (dev exchange : Nat) :
    tgetD (sendSpdm s dev exchange).fab.attests dev {} = { tgetD s.fab.attests dev {} with sent := exchange + 1 } := by
  unfold sendSpdm
  dsimp only
  rw [(sendPk_raised_attests ..).2, tgetD_tput_self]

/-! ### O54 -/

/-- A packet that carries time is followed where the device is no source, or a source of a higher number than the sender. -/
theorem timeSync_follows {s : State} {port : Nat} {k : Packet} (h : ArrivesSound s port k) (hty : k.ty = 0x18) (hport : port < 16)
    (hother : s.fab.isSource = false ∨ k.src < ownDev s) :
    exec (.timeSync port k) s = .next (followTime (followsSource s k.src) (leNat (k.payload.take 8))) := by
  rw [exec_timeSync h hty hport, if_neg]
  rintro ⟨hsource, hle⟩
  rcases hother with hno | hlt
  · rw [hno] at hsource
    cases hsource
  · omega

theorem timeSync_runs {s : State} {port : Nat} {k : Packet} (h : ArrivesSound s port k) (hty : k.ty = 0x18) (hport : port < 16)
    (hother : s.fab.isSource = false ∨ k.src < ownDev s) :
    (s.clock.locked = false → Runs (.timeSync port k) s (fun t => t.clock.ns = leNat (k.payload.take 8) % 2 ^ 64 ∧
      t.clock.locked = true ∧ t.fab.sourceDev = k.src ∧ t.fab.isSource = false ∧ t = { s with clock := t.clock, fab := t.fab })) ∧
    (s.clock.locked = true → Runs (.timeSync port k) s (fun t => -200 ≤ t.fab.rateAdj ∧ t.fab.rateAdj ≤ 200 ∧
      t.fab.sourceDev = k.src ∧ t.fab.isSource = false ∧ t = { s with free := t.free, fab := t.fab })) := by
  refine ⟨fun hunlocked => ?_, fun hlocked => ?_⟩
  · refine ⟨_, timeSync_follows h hty hport hother, ?_⟩
    rw [followTime_of_unlocked (s := followsSource s k.src) hunlocked]
    exact ⟨rfl, rfl, rfl, rfl, rfl⟩
  · obtain ⟨r, hlo, hhi, hfollow⟩ := followTime_of_locked (s := followsSource s k.src) hlocked (leNat (k.payload.take 8))
    refine ⟨_, timeSync_follows h hty hport hother, ?_⟩
    rw [hfollow]
    exact ⟨hlo, hhi, rfl, rfl, rfl⟩

theorem exec_e2eTimeout {s : State} {key : Nat} (hsent : (flowOf s key).unacked ≠ []) (hfine : (flowOf s key).failed = false) :
    exec (.e2eTimeout key) s = .next (if ent s 0x2B0202 ≤ (flowOf s key).retries + 1 then settleCards (failFlow s key)
      else resend (setFlow s key { flowOf s key with retries := (flowOf s key).retries + 1 }) key) := by
  change execE2eTimeout key s = _
  rw [execE2eTimeout, if_neg (by simp [hsent, hfine])]

/-- A flow not acknowledged in time is sent again, and the retry counted (R340). -/
theorem e2eTimeout_resends {s : State} {key : Nat} (hsent : (flowOf s key).unacked ≠ []) (hfine : (flowOf s key).failed = false)
    (hmore : (flowOf s key).retries + 1 < ent s 0x2B0202) :
    Runs (.e2eTimeout key) s (fun t => (flowOf t key).retries = (flowOf s key).retries + 1 ∧
      (flowOf t key).unacked = (flowOf s key).unacked ∧ t.mem = s.mem ∧ t.queues = s.queues ∧ t.log = s.log) := by
  have hexec := exec_e2eTimeout hsent hfine
  rw [if_neg (Nat.not_le.2 hmore)] at hexec
  generalize hu : setFlow s key { flowOf s key with retries := (flowOf s key).retries + 1 } = u at hexec
  obtain ⟨d, o, ports, hresend⟩ := resend_frame u key
  have hflow : flowOf (resend u key) key = { flowOf s key with retries := (flowOf s key).retries + 1 } := by
    rw [flowOf_congr (s := u) (by rw [hresend]), ← hu, flowOf_setFlow_self]
  refine ⟨_, hexec, by rw [hflow], by rw [hflow], ?_, ?_, ?_⟩ <;> rw [hresend, ← hu] <;> rfl

/-- A flow not acknowledged after the last retry fails, with a fault (R341). -/
theorem e2eTimeout_fails {s : State} {key : Nat} (hsent : (flowOf s key).unacked ≠ []) (hfine : (flowOf s key).failed = false)
    (hlast : ent s 0x2B0202 ≤ (flowOf s key).retries + 1) :
    Runs (.e2eTimeout key) s (fun t => t = settleCards (failFlow s key) ∧ s.log.raised < t.log.raised) := by
  have hexec := exec_e2eTimeout hsent hfine
  rw [if_pos hlast] at hexec
  exact ⟨_, hexec, rfl, (raised_lt_failFlow s key).trans_le (raised_le_settleCards _)⟩

/-- A withheld packet takes a buffer (R342). -/
theorem creditWithholdExpiry_buffered {s t : State} {key : Nat} {k : Packet} {r : List Packet} {b : Nat × Nat}
    (hheld : (flowOf s key).withheld = k :: r) (hbuf : deviceBuf s (ent s 0x290401) false = (t, some b)) (hfab : t.fab = s.fab) :
    Runs (.creditWithholdExpiry key) s (fun u => (flowOf u key).withheld = r ∧ (flowOf u key).ahead = (flowOf s key).ahead ++ [(k, b.1)]) := by
  have hexec : execCreditWithholdExpiry key s = .next (modFlow t key (fun f => { f with
      withheld := r
      ahead := f.ahead ++ [(k, b.1)] })) := by
    simp only [execCreditWithholdExpiry, hheld, hbuf]
  refine ⟨_, hexec, ?_⟩
  simp [flowOf_congr (congrArg Fabric.flows hfab)]

/-- A withheld packet for which there is no buffer goes (R342). -/
theorem creditWithholdExpiry_refused {s t : State} {key : Nat} {k : Packet} {r : List Packet} (hheld : (flowOf s key).withheld = k :: r)
    (hbuf : deviceBuf s (ent s 0x290401) false = (t, none)) (hfab : t.fab = s.fab) :
    Runs (.creditWithholdExpiry key) s (fun u => (flowOf u key).withheld = r ∧ (flowOf u key).ahead = (flowOf s key).ahead ∧
      u.mem = t.mem) := by
  have hexec : execCreditWithholdExpiry key s = .next (bump (modFlow t key (fun f => { f with withheld := r })) 0x2B0706 1) := by
    simp only [execCreditWithholdExpiry, hheld, hbuf]
  refine ⟨_, hexec, ?_⟩
  simp [flowOf_congr (congrArg Fabric.flows hfab)]

/-- A packet of the rack's time goes out on each Skein port that is up (R365). -/
theorem timeSyncSend_sends {s : State} (h : s.fab.isSource = true) :
    Runs .timeSyncSend s (fun t => t.out.length = s.out.length + ((List.range 16).filter (portUp s)).length ∧
      t = { s with out := t.out, fab := { s.fab with ports := t.fab.ports } }) := by
  obtain ⟨o, ports, hsend, hlen⟩ := foldl_portSend (l := (List.range 16).filter (portUp s))
    (fun p hp => (List.mem_range.1 (List.mem_of_mem_filter hp)).trans (by decide)) 0xFFF
    (fun t => pkSeal { ty := 0x18, src := ownDev t, dst := 0xFFF, payload := natLe 8 t.clock.ns }) s
  refine ⟨_, congrArg Host.Outcome.next ((if_pos h).trans hsend), hlen, rfl⟩

theorem ptpMessage_runs {s : State} {port : Nat} {m : Ptp} (hport : port = 19 ∨ port = 20) (hhears : portHears s port = true)
    (hon : ent s 0x2B0606 ≠ 0) (hdomain : m.domain = ent s 0x2B0607) :
    (m.locked = false → exec (.ptpMessage port m) s = .next (setEnt s 0x2B0608 (ofSigned 32 m.offsetNs))) ∧
    (m.locked = true → s.fab.ptpLocked = false → Runs (.ptpMessage port m) s (fun t => t.fab.ptpLocked = true ∧
      t.fab.isSource = true ∧ t.dict = (setEnt s 0x2B0608 (ofSigned 32 m.offsetNs)).dict ∧ t.mem = s.mem)) := by
  have hexec := exec_ptpMessage hport hhears hon hdomain rfl
  refine ⟨fun hfree => ?_, fun hlocked hfirst => ?_⟩
  · rw [hexec, if_pos (by simp [hfree])]
  · have hsource : (ptpHeld (setEnt s 0x2B0608 (ofSigned 32 m.offsetNs))).fab.isSource = true := by simp [ptpHeld, hfirst]
    rw [if_neg (by simp [hlocked]), if_pos hsource] at hexec
    obtain ⟨c, f, r, hfollow⟩ := followTime_frame (ptpHeld (setEnt s 0x2B0608 (ofSigned 32 m.offsetNs)))
      (((s.clock.ns : Int) - m.offsetNs) % ((2 ^ 64 : Nat) : Int)).toNat
    exact ⟨_, hexec.trans (congrArg Host.Outcome.next hfollow), rfl, hsource, rfl, rfl⟩

/-- Settles O54: each command comes to one outcome, whose effect its lemma states; sending leaves what relays hold, attestations and
the numbers of flows, and takes no fault back. -/
theorem flowsRelaysAndTime : Obligations.FlowsRelaysAndTime := by
  refine ⟨?_, fun s key ack f => flowOf_takeAck, ?_, ?_, ?_⟩
  -- Packets outside sequence (R340, R341, R365).
  · rintro s port k key hhears heth hok hcrc rfl
    have h : ArrivesSound s port k := ⟨hhears, heth, hok, hcrc⟩
    refine ⟨fun hty hknown => ?_, fun hty hunknown => ?_, fun hty hdue => ?_, fun hty hask hfine => ?_,
      fun hty hport hother => timeSync_runs h hty hport hother, fun hty hport hsource hlow => ?_⟩
    · rw [exec_flowAck h hty, if_pos hknown]
    · rw [exec_flowAck h hty, if_neg (by simp [hunknown])]
    · rw [exec_flowReset h hty, if_pos hdue]
    · rw [exec_flowReset h hty, if_neg (by simp [hask, hfine])]
    · rw [exec_timeSync h hty hport, if_pos ⟨hsource, hlow⟩]
  -- Timers of a flow (R340 to R342).
  · rintro s key f rfl
    refine ⟨fun hnone => ?_, fun hdue => ?_, fun hidle => ?_, e2eTimeout_resends, e2eTimeout_fails, fun hfine => ?_,
      fun hfailed => ?_, fun hnone => ?_, fun k r t b => creditWithholdExpiry_buffered, fun k r t => creditWithholdExpiry_refused⟩
    · exact congrArg Host.Outcome.next (if_pos hnone)
    · obtain ⟨o, ports, hack⟩ := sendAck_frame s key
      exact ⟨_, congrArg Host.Outcome.next ((if_neg hdue).trans hack), by simp [flowOf], by simp [flowOf], rfl⟩
    · exact congrArg Host.Outcome.next (if_pos (by simpa using hidle))
    · exact congrArg Host.Outcome.next (if_neg (by simp [hfine]))
    · obtain ⟨o, ports, hsend⟩ := sendLoose_frame s key
        { ty := 0x1A, src := ownDev s, dst := keyDev key, op := 0, payload := natLe 4 (flowOf s key).txNext }
      refine ⟨_, congrArg Host.Outcome.next (if_pos hfailed), rfl, ?_⟩
      rw [sendReset, hsend]
    · change execCreditWithholdExpiry key s = _
      simp only [execCreditWithholdExpiry, hnone]
  -- Relays, attestations and requests (R220, R343, R360).
  · intro s n
    refine ⟨fun hnone => ?_, fun x hx hsame => ?_, fun x hx hfirst hholds => ?_, fun hfine => ?_, fun hfailed => ?_,
      fun r hr hretry hopen => ?_, fun r hr hidle => ?_⟩
    · change execRelayForward n s = _
      simp only [execRelayForward, hnone]
    · change execRelayForward n s = _
      simp only [execRelayForward, hx, hsame, if_true]
    · obtain ⟨hrelays, -, hnumber⟩ := sendOn_relays { s with fab := { s.fab with relays := s.fab.relays.eraseIdx n } } x.1.dst x.1
      refine ⟨_, exec_relayForward hx hfirst hholds, ?_, ?_⟩
      · rw [deviceRelease_fab, bump_fab, hrelays]
      · rw [flowOf_congr (congrArg Fabric.flows (deviceRelease_fab ..)), flowOf_bump, hnumber]
        rfl
    · exact congrArg Host.Outcome.next (if_neg (by simp [hfine]))
    · refine ⟨_, congrArg Host.Outcome.next (if_pos hfailed), ?_⟩
      exact (attests_sendSpdm ..).trans (by rw [tgetD_tput_self])
    · change execRetryAfterExpiry n s = _
      simp [execRetryAfterExpiry, hr, hretry, hopen]
    · change execRetryAfterExpiry n s = _
      simp only [execRetryAfterExpiry, hr]
      rw [if_neg (by rcases hidle with h | h <;> simp [h])]
  -- The rack's time (R364, R365).
  · intro s
    refine ⟨fun hother => ?_, timeSyncSend_sends, fun hfree => ?_, fun hlocked => ?_,
      fun port m hport hhears hon hdomain => ptpMessage_runs hport hhears hon hdomain⟩
    · exact congrArg Host.Outcome.next (if_neg (by simp [hother]))
    · exact congrArg Host.Outcome.next (if_neg (by simp [hfree]))
    · exact ⟨_, congrArg Host.Outcome.next (if_pos hlocked), by rw [raiseDev_fab], by rw [raiseDev_fab], (raise_log_units ..).1⟩

end Sys2Proof.Machine

/-!
PROOFS. Every command passes on the commands that wait and the canonical form of memory (R237, R241, R245).
-/
namespace Sys2Proof.Machine

/-! ### Commands of the walker and the array -/

theorem keeps_grouped (s : State) (q : Nat) : Runs (.grouped q) s (Keeps s) :=
  ⟨_, rfl, .ite (runHead_keeps _ _ _ _ _ (.refl s) fun _ _ _ _ k => startGrouped_keeps _ _ _ _ k) (.refl s)⟩

theorem keeps_matrix (s : State) (q : Nat) : Runs (.matrix q) s (Keeps s) :=
  ⟨_, rfl, .ite (runHead_keeps _ _ _ _ _ (.refl s) fun _ _ _ _ k => startMatrix_keeps _ _ _ _ k) (.refl s)⟩

theorem keeps_walkerStartCondition (s : State) (q : Nat) : Runs (.walkerStartCondition q) s (Keeps s) := by
  refine ⟨_, rfl, ?_⟩
  split
  · exact .ite (startWalk_keeps _ _ _ _ (.refl s)) (.refl s)
  · exact .refl s

theorem keeps_chainStart (s : State) (q chain : Nat) : Runs (.chainStart q chain) s (Keeps s) := by
  refine ⟨_, rfl, ?_⟩
  split
  · exact .refl s
  refine .ite (.refl s) ?_
  split
  · next hhold _ =>
    have hheld := holdArray_keeps_eq hhold (.refl s)
    refine .ite (.refl s) ?_
    split
    · exact lostWalk_keeps _ _ _ _ _ _ _ hheld
    refine .ite (.fold hheld fun _ _ k => requestWake_keeps _ k) ?_
    dsimp only
    split
    · exact stopWalk_keeps _ _ _ _ _ _ hheld
    · exact streamChain_keeps _ _ _ _ _ _ hheld
  · exact .refl s

theorem keeps_chainComplete (s : State) (q chain : Nat) : Runs (.chainComplete q chain) s (Keeps s) := by
  refine ⟨_, rfl, ?_⟩
  split
  · exact .refl s
  split
  · exact .refl s
  refine .ite (.refl s) ?_
  have hagain {o : Op} {w : Walk} {c : Chain} :
      Keeps s (if c.flagged = 0 then s else bump (streamChain s q o w chain c true) 0x250205 1) :=
    .ite (.refl s) (bump_keeps _ _ (streamChain_keeps _ _ _ _ _ _ (.refl s)))
  dsimp only
  split
  · exact .ite (finishWalk_keeps _ _ _ hagain) (modWalk_keeps _ _ hagain)
  · exact hagain

theorem keeps_earlyStart (s : State) (q : Nat) : Runs (.earlyStart q) s (Keeps s) := by
  refine ⟨_, rfl, ?_⟩
  split
  · refine .ite (.refl s) (.ite (.ite (.refl s) ?_) ?_)
    · exact modWalk_keeps _ _ (bump_keeps _ _ (.refl s))
    · exact .updMem (modWalk_keeps _ _ (bump_keeps _ _ (.refl s))) fun h => spoilTile_wf h _ _
  · exact .refl s

theorem keeps_arrayRegParity (s : State) (band : Nat) : Runs (.arrayRegParity band) s (Keeps s) := by
  refine ⟨_, rfl, ?_⟩
  split
  · exact .refl s
  · exact lostWalk_keeps _ _ _ _ _ _ _ (faultBand_keeps _ (bump_keeps _ _ (.upd (.refl s))))

theorem keeps_arrayFrontCheck (s : State) (band : Nat) (counts : List Nat) : Runs (.arrayFrontCheck band counts) s (Keeps s) := by
  refine ⟨_, rfl, ?_⟩
  split
  · exact lostWalk_keeps _ _ _ _ _ _ _ (faultBand_keeps _ (.refl s))
  · exact .refl s

theorem keeps_bistDone (s : State) (result : Nat) : Runs (.bistDone result) s (Keeps s) := by
  refine ⟨_, rfl, ?_⟩
  split
  · exact .refl s
  · exact setEnt_keeps _ _ (setEnt_keeps _ _ (.upd (.refl s)))

/-! ### Waits, fences and heads whose gate is closed -/

theorem keeps_wait (s : State) (q : Nat) : Runs (.wait q) s (Keeps s) := by
  refine ⟨_, rfl, ?_⟩
  split
  · exact .ite (waitEnds_keeps _ _ (.refl s)) (.refl s)
  · exact runHead_keeps _ _ _ _ _ (.refl s) fun _ _ _ _ k => syWait_keeps _ _ _ _ k

theorem keeps_groupFence (s : State) (q : Nat) : Runs (.groupFence q) s (Keeps s) := by
  refine ⟨_, rfl, ?_⟩
  split
  · exact settleFence_keeps _ _ (.refl s)
  · exact runHead_keeps _ _ _ _ _ (.refl s) fun _ _ _ _ k => fenceRun_keeps _ _ _ _ k

theorem keeps_gatedOpStart (s : State) (q : Nat) : Runs (.gatedOpStart q) s (Keeps s) := by
  refine ⟨_, rfl, ?_⟩
  split
  · exact .refl s
  split
  · exact .refl s
  refine .ite ?_ (.refl s)
  split
  · next e => exact startGate_keeps_ends e (.refl s)
  · exact modOp_keeps _ _ _ (.refl s)

theorem keeps_deadlockSample (s : State) : Runs .deadlockSample s (Keeps s) :=
  ⟨_, rfl, .ite (.refl s) (.fold (.refl s) fun _ _ k => samplePart_keeps _ k)⟩

/-! ### Queues and their journals -/

theorem keeps_submitDoorbell (s : State) (fn size value : Nat) : Runs (.submitDoorbell fn size value) s (Keeps s) :=
  ⟨_, rfl, .ite (.refl s) (doorbell_keeps _ _ _ _ (.refl s) fun _ _ _ _ k => submit_keeps _ _ _ k)⟩

theorem keeps_consumedDoorbell (s : State) (fn size value : Nat) : Runs (.consumedDoorbell fn size value) s (Keeps s) :=
  ⟨_, rfl, .ite (.refl s) (doorbell_keeps _ _ _ _ (.refl s) fun _ _ _ _ k => consume_keeps _ _ _ k)⟩

theorem keeps_descriptorReadReturn (s : State) (q : Nat) (slot : SlotRead) : Runs (.descriptorReadReturn q slot) s (Keeps s) := by
  refine ⟨_, rfl, ?_⟩
  split
  · exact .refl s
  refine .ite (.refl s) ?_
  split
  · exact raise_keeps _ (modQueue_keeps _ _ (.refl s))
  · exact .ite (bump_keeps _ _ (modQueue_keeps _ _ (.refl s))) (issueRead_keeps _ (modQueue_keeps _ _ (.refl s)))

theorem keeps_descriptorAccept (s : State) (q : Nat) : Runs (.descriptorAccept q) s (Keeps s) := by
  refine ⟨_, rfl, ?_⟩
  split
  · exact .refl s
  split
  · exact .refl s
  · exact .ite (.refl s) (bump_keeps _ _ (bump_keeps _ _ (modQueue_keeps _ _ (.refl s))))

theorem keeps_watermarkWrite (s : State) (q : Nat) : Runs (.watermarkWrite q) s (Keeps s) := by
  refine ⟨_, rfl, ?_⟩
  split
  · exact .refl s
  · exact .ite (hostWr_keeps _ _ _ (modQueue_keeps _ _ (.refl s))) (.refl s)

theorem keeps_operationComplete (s : State) (q : Nat) : Runs (.operationComplete q) s (Keeps s) := by
  refine ⟨_, rfl, ?_⟩
  have hcards : Keeps s (settleCards s) := settleCards_keeps (.refl s)
  split
  · exact hcards
  split
  · exact hcards
  refine .ite hcards (settlePreempt_keeps _ (settleOps_keeps (freeUnits_keeps _ (postCompletion_keeps _ _ (.ite ?_ ?_)))))
  all_goals
    have hrec {x : Queue} {o : Op} {h : Head} :
        Keeps s (recordOp (if o.status = 0x01 ∧ ¬ switchDone (settleCards s) q o h then commitSwitch (settleCards s) q o h
          else settleCards s) x o h) := recordOp_keeps _ _ _ (.ite (commitSwitch_keeps _ _ _ hcards) hcards)
  · exact clearLocalFinite_keeps _ (applySignal_keeps _ _ _ hrec)
  · exact applySignal_keeps _ _ _ hrec

theorem keeps_msixHoldoffExpiry (s : State) (q : Nat) : Runs (.msixHoldoffExpiry q) s (Keeps s) := by
  refine ⟨_, rfl, ?_⟩
  split
  · exact .refl s
  · next x _ =>
    have hsignal : Keeps s (if x.signalDue then
        signalQueue (modQueue s q fun y => { y with holdoff := false, signalDue := false }) q { x with holdoff := false }
        else modQueue s q fun y => { y with holdoff := false, signalDue := false }) :=
      .ite (signalQueue_keeps _ _ (modQueue_keeps _ _ (.refl s))) (modQueue_keeps _ _ (.refl s))
    exact .ite (ringHoldoffEnds_keeps _ hsignal) hsignal

theorem keeps_journalRetire (s : State) (q : Nat) : Runs (.journalRetire q) s (Keeps s) := by
  refine ⟨_, rfl, ?_⟩
  split
  · exact .refl s
  · exact .ite (.refl s) (issueRead_keeps _ (modQueue_keeps _ _ (emit_keeps _ (.refl s))))

theorem keeps_journalRemirrorDone (s : State) : Runs .journalRemirrorDone s (Keeps s) := by
  refine ⟨_, rfl, ?_⟩
  split
  · exact .refl s
  · exact .upd (.refl s)

/-! ### Pools, the fault log and the stacks of HBM -/

theorem keeps_poolBuildDone (s : State) (pool : Nat) : Runs (.poolBuildDone pool) s (Keeps s) := by
  refine ⟨_, rfl, .ite (.refl s) ?_⟩
  split
  · exact failPool_keeps _ _ (.refl s)
  · exact setPool_keeps _ _ (writeLinks_keeps _ _ (.refl s))

theorem keeps_poolAuditScan (s : State) : Runs .poolAuditScan s (Keeps s) :=
  ⟨_, rfl, .ite (.refl s) (bump_keeps _ _ (.upd (.fold1 (.refl s) fun _ _ k => scanRec_keeps _ k)))⟩

theorem keeps_faultLogPageTaken (s : State) : Runs .faultLogPageTaken s (Keeps s) :=
  ⟨_, rfl, .ite (.refl s) (takePage_keeps (.refl s))⟩

theorem keeps_pcRetrainFailure (s : State) (pc : Nat) : Runs (.pcRetrainFailure pc) s (Keeps s) :=
  ⟨_, rfl, .ite (.refl s) (.ite (setMc_keeps _ (.refl s)) (failPc_keeps _ _ (setMc_keeps _ (.refl s))))⟩

theorem keeps_repairDone (s : State) (result : Nat) : Runs (.repairDone result) s (Keeps s) := by
  refine ⟨_, rfl, ?_⟩
  split
  · exact .refl s
  have hend : Keeps s (setMc s fun m => { m with repairing := none }) := setMc_keeps _ (.refl s)
  refine .ite (nextRepair_keeps (.ite ?_ (setEnt_keeps _ _ ?_)))
    (nextRepair_keeps (raiseDev_keeps _ _ _ (.ite ?_ (setEnt_keeps _ _ ?_))))
  · exact repairDone_keeps _ hend
  · exact repairDone_keeps _ hend
  · exact setMc_keeps _ hend
  · exact setMc_keeps _ hend

theorem keeps_patrolScrub (s : State) (found : List EccEvent) (passEnd : Bool) : Runs (.patrolScrub found passEnd) s (Keeps s) := by
  refine ⟨_, rfl, .ite (.refl s) ?_⟩
  have hfound : Keeps s (found.foldl (fun t e => eccFound t 0x7002 0 e) s) := .fold (.refl s) fun _ _ k => eccFound_keeps _ _ _ k
  exact .ite (setMc_keeps _ (bump_keeps _ _ hfound)) hfound

theorem keeps_ieee1500ShiftDone (s : State) (data : List Nat) : Runs (.ieee1500ShiftDone data) s (Keeps s) :=
  ⟨_, rfl, .ite (setEnt_keeps _ _ (setEntV_keeps _ _ (.refl s))) (.refl s)⟩

theorem keeps_tileStoreDoubleError (s : State) (offset : Nat) : Runs (.tileStoreDoubleError offset) s (Keeps s) :=
  ⟨_, rfl, .ite (poisonS_keeps _ (raiseDev_keeps _ _ _ (.refl s))) (.refl s)⟩

/-! ### Ports -/

theorem keeps_portTrainingComplete (s : State) (port rate lanes : Nat) : Runs (.portTrainingComplete port rate lanes) s (Keeps s) := by
  refine ⟨_, rfl, .ite (.refl s) (.ite ?_ (.ite ?_ ?_))⟩
  · exact modPort_keeps _ _ (modPort_keeps _ _ (.refl s))
  · exact checkIdentity_keeps _ (modPort_keeps _ _ (.refl s))
  · exact modPort_keeps _ _ (modPort_keeps _ _ (.refl s))

theorem keeps_portTrainingFailed (s : State) (port : Nat) : Runs (.portTrainingFailed port) s (Keeps s) :=
  ⟨_, rfl, .ite (.refl s) (.ite (modPort_keeps _ _ (raiseDev_keeps _ _ _ (.refl s))) (modPort_keeps _ _ (.refl s)))⟩

theorem keeps_identityRecordReceive (s : State) (port record : Nat) : Runs (.identityRecordReceive port record) s (Keeps s) :=
  ⟨_, rfl, .ite (.refl s)
    (.ite (modPort_keeps _ _ (modPort_keeps _ _ (.refl s))) (checkIdentity_keeps _ (modPort_keeps _ _ (.refl s))))⟩

theorem keeps_linkFlitReceive (s : State) (port : Nat) (flit : Flit) : Runs (.linkFlitReceive port flit) s (Keeps s) := by
  refine ⟨_, rfl, .ite (.refl s) (.ite ?_ (.ite (.ite ?_ (.refl s)) ?_))⟩
  · exact badFlit_keeps _ (.refl s)
  · exact badFlit_keeps _ (.refl s)
  · exact modPort_keeps _ _ (.refl s)

theorem keeps_replayRequest (s : State) (port seq : Nat) : Runs (.replayRequest port seq) s (Keeps s) :=
  ⟨_, rfl, .ite (.refl s) (.ite (failUnreached_keeps (modPort_keeps _ _ (modPort_keeps _ _ (.refl s))))
    (resendFlits_keeps _ _ _ _ (modPort_keeps _ _ (.refl s))))⟩

theorem keeps_laneRetrained (s : State) (port lane : Nat) : Runs (.laneRetrained port lane) s (Keeps s) :=
  ⟨_, rfl, .ite (.refl s) (modPort_keeps _ _ (.refl s))⟩

theorem keeps_peerSilentTimeout (s : State) (port : Nat) : Runs (.peerSilentTimeout port) s (Keeps s) :=
  ⟨_, rfl, .ite (portDown_keeps _ (.refl s)) (.refl s)⟩

theorem keeps_priorityFlowControl (s : State) (port priority quanta : Nat) :
    Runs (.priorityFlowControl port priority quanta) s (Keeps s) :=
  ⟨_, rfl, .ite (.refl s) (.ite (endPause_keeps _ (.refl s)) (modPort_keeps _ _ (.refl s)))⟩

theorem keeps_portSignalDetect (s : State) (port : Nat) : Runs (.portSignalDetect port) s (Keeps s) :=
  ⟨_, rfl, .ite (.refl s) (modPort_keeps _ _ (.refl s))⟩

theorem keeps_pluggableInsert (s : State) (cage mw : Nat) : Runs (.pluggableInsert cage mw) s (Keeps s) :=
  ⟨_, rfl, .ite (.refl s) (.ite (modPort_keeps _ _ (.refl s))
    (raiseModule_keeps _ _ (takeFree_keeps (failUnreached_keeps (modPort_keeps _ _ (.refl s))))))⟩

/-! ### Packets, flows and time -/

theorem keeps_getS (s : State) (port : Nat) (k : Packet) (rivals : List Packet) : Runs (.getS port k rivals) s (Keeps s) :=
  ⟨_, rfl, .ite (receive_keeps _ _ (.refl s)) (rxRow_keeps _ _ _ _ (.refl s))⟩

theorem keeps_getM (s : State) (port : Nat) (k : Packet) (rivals : List Packet) : Runs (.getM port k rivals) s (Keeps s) :=
  ⟨_, rfl, .ite (receive_keeps _ _ (.refl s)) (rxRow_keeps _ _ _ _ (.refl s))⟩

theorem keeps_retryAfterExpiry (s : State) (request : Nat) : Runs (.retryAfterExpiry request) s (Keeps s) := by
  refine ⟨_, rfl, ?_⟩
  split
  · exact .refl s
  · exact .ite (sendRequest_keeps _ (.upd (.refl s))) (.refl s)

theorem keeps_attestRetry (s : State) (device : Nat) : Runs (.attestRetry device) s (Keeps s) :=
  ⟨_, rfl, .ite (sendSpdm_keeps _ _ (.upd (.refl s))) (.refl s)⟩

theorem keeps_relayForward (s : State) (held : Nat) : Runs (.relayForward held) s (Keeps s) := by
  refine ⟨_, rfl, ?_⟩
  split
  · exact .refl s
  refine .ite (.refl s) (.fold ?_ fun _ _ k => retryHeld_keeps _ k)
  exact deviceRelease_keeps _ (bump_keeps _ _ (sendOn_keeps _ _ (.upd (.refl s))))

theorem keeps_flowAck (s : State) (port : Nat) (k : Packet) : Runs (.flowAck port k) s (Keeps s) :=
  ⟨_, rfl, .ite (rxRow_keeps _ _ _ _ (.refl s)) (.ite (badPacket_keeps _ (.refl s)) (.ite (takeAck_keeps _ _ _ (.refl s)) (.refl s)))⟩

theorem keeps_flowAckTimer (s : State) (flow : Nat) : Runs (.flowAckTimer flow) s (Keeps s) :=
  ⟨_, rfl, .ite (.refl s) (sendAck_keeps _ (.refl s))⟩

theorem keeps_e2eTimeout (s : State) (flow : Nat) : Runs (.e2eTimeout flow) s (Keeps s) :=
  ⟨_, rfl, .ite (.refl s) (.ite (settleCards_keeps (failFlow_keeps _ (.refl s))) (resend_keeps _ (setFlow_keeps _ _ (.refl s))))⟩

theorem keeps_flowResetRetry (s : State) (flow : Nat) : Runs (.flowResetRetry flow) s (Keeps s) :=
  ⟨_, rfl, .ite (sendReset_keeps _ _ _ (.refl s)) (.refl s)⟩

theorem keeps_flowReset (s : State) (port : Nat) (k : Packet) : Runs (.flowReset port k) s (Keeps s) :=
  ⟨_, rfl, .ite (rxRow_keeps _ _ _ _ (.refl s)) (.ite (badPacket_keeps _ (.refl s)) (.ite (takeReset_keeps _ _ (.refl s)) (.refl s)))⟩

theorem keeps_creditWithholdExpiry (s : State) (flow : Nat) : Runs (.creditWithholdExpiry flow) s (Keeps s) := by
  refine ⟨_, rfl, ?_⟩
  split
  · exact .refl s
  split
  · next e => exact modFlow_keeps _ _ (deviceBuf_keeps_eq e (.refl s))
  · next e => exact bump_keeps _ _ (modFlow_keeps _ _ (deviceBuf_keeps_eq e (.refl s)))

theorem keeps_timeSyncSend (s : State) : Runs .timeSyncSend s (Keeps s) :=
  ⟨_, rfl, .ite (.fold (.refl s) fun _ _ k => portSend_keeps _ _ _ k) (.refl s)⟩

theorem keeps_timeSync (s : State) (port : Nat) (k : Packet) : Runs (.timeSync port k) s (Keeps s) :=
  ⟨_, rfl, .ite (rxRow_keeps _ _ _ _ (.refl s)) (.ite (badPacket_keeps _ (.refl s))
    (.ite (.refl s) (followTime_keeps _ (.upd (.refl s)))))⟩

theorem keeps_ptpMessage (s : State) (port : Nat) (m : Ptp) : Runs (.ptpMessage port m) s (Keeps s) := by
  have hoffset : Keeps s (setEnt s 0x2B0608 (ofSigned 32 m.offsetNs)) := setEnt_keeps _ _ (.refl s)
  exact ⟨_, rfl, .ite (.refl s) (.ite hoffset (.ite (followTime_keeps _ (.upd hoffset)) (.upd hoffset)))⟩

theorem keeps_ptpLockLost (s : State) : Runs .ptpLockLost s (Keeps s) :=
  ⟨_, rfl, .ite (raiseDev_keeps _ _ _ (.upd (.refl s))) (.refl s)⟩

/-! ### Owners, resets and start-up -/

theorem keeps_drainCensusComplete (s : State) (owner : Nat) : Runs (.drainCensusComplete owner) s (Keeps s) := by
  refine ⟨_, rfl, ?_⟩
  split
  · exact .refl s
  · exact .ite (.refl s) (modOwner_keeps _ _ (.upd (.fold (.refl s) fun _ _ k => unbindMap_keeps _ _ k)))

theorem keeps_revocationWalkDone (s : State) (owner : Nat) : Runs (.revocationWalkDone owner) s (Keeps s) := by
  refine ⟨_, rfl, ?_⟩
  split
  · exact .refl s
  · exact .ite (.refl s) (ownerResetEnd_keeps _ _ (revokeOwner_keeps _ (.refl s)))

theorem keeps_engineWatchdog (s : State) (unit inst : Nat) : Runs (.engineWatchdog unit inst) s (Keeps s) := by
  refine ⟨_, rfl, ?_⟩
  split
  · exact .refl s
  · exact engineReset_keeps _ _ _ (raiseDev_keeps _ _ _ (.refl s))

theorem keeps_censusTimeout (s : State) (owner : Nat) : Runs (.censusTimeout owner) s (Keeps s) := by
  refine ⟨_, rfl, ?_⟩
  split
  · exact .refl s
  · exact .ite (.refl s) (partitionReset_keeps _ _ (raiseDev_keeps _ _ _ (.refl s)))

theorem keeps_frondWakeDone (s : State) (frond : Nat) : Runs (.frondWakeDone frond) s (Keeps s) :=
  ⟨_, rfl, .ite (bump_keeps _ _ (setFrond_keeps _ _ (.refl s))) (.refl s)⟩

theorem keeps_frondWakeFail (s : State) (frond : Nat) : Runs (.frondWakeFail frond) s (Keeps s) :=
  ⟨_, rfl, .ite (frondFails_keeps _ (.refl s)) (.refl s)⟩

theorem keeps_frondIdlePowerdown (s : State) (frond : Nat) : Runs (.frondIdlePowerdown frond) s (Keeps s) :=
  ⟨_, rfl, .ite (.refl s) (setFrond_keeps _ _
    (.ite (clearBand_keeps _ (.refl s)) (.ite (evictLines_keeps _ (.refl s)) (.refl s))))⟩

theorem keeps_startupPhaseEnd (s : State) (phase : Nat) (x : PhaseEnd) : Runs (.startupPhaseEnd phase x) s (Keeps s) := by
  refine ⟨_, rfl, .ite (.refl s) (.ite (.ite (.refl s) ?_) (.ite ?_ (.ite ?_ (.refl s))))⟩
  · exact noteTime_keeps _ _ (mainPhaseEnd_keeps _ _ (.refl s))
  · exact noteTime_keeps _ _ (setBack_keeps _ (.refl s))
  · exact noteTime_keeps _ _ (.upd (.refl s))

theorem keeps_startupPhaseTimeout (s : State) (phase : Nat) : Runs (.startupPhaseTimeout phase) s (Keeps s) := by
  have hraised : Keeps s (raiseDev s 0xC00C srcThallus [(phase, 8), (phaseBound phase, 32)]) := raiseDev_keeps _ _ _ (.refl s)
  exact ⟨_, rfl, .ite (.refl s) (.ite (stopStart_keeps hraised) (.ite (coldBegin_keeps _ _ hraised) hraised))⟩

theorem keeps_flrVf (s : State) (vf : Nat) : Runs (.flrVf vf) s (Keeps s) :=
  ⟨_, rfl, .ite (.refl s) (.fold (.refl s) fun _ _ k => ownerReset_keeps _ _ k)⟩

theorem keeps_resetComplete (s : State) : Runs .resetComplete s (Keeps s) := by
  refine ⟨_, rfl, ?_⟩
  split
  · exact completeReset_keeps _ (.refl s)
  · exact .refl s

theorem keeps_resetBoundExpired (s : State) : Runs .resetBoundExpired s (Keeps s) := by
  refine ⟨_, rfl, ?_⟩
  split
  · exact warmReset_keeps _ (raiseDev_keeps _ _ _ (.refl s))
  · exact .refl s

/-! ### The host's link -/

theorem keeps_perstAssert (s : State) : Runs .perstAssert s (Keeps s) := ⟨_, rfl, warmReset_keeps _ (.upd (.refl s))⟩

theorem keeps_pcieHotReset (s : State) : Runs .pcieHotReset s (Keeps s) := ⟨_, rfl, .ite (warmReset_keeps _ (.refl s)) (.refl s)⟩

theorem keeps_flrPf (s : State) : Runs .flrPf s (Keeps s) := ⟨_, rfl, .ite (warmReset_keeps _ (.refl s)) (.refl s)⟩

theorem keeps_pcieLinkChange (s : State) (up : Bool) (gen width : Nat) : Runs (.pcieLinkChange up gen width) s (Keeps s) := by
  refine ⟨_, rfl, .ite (.ite (.refl s) (.ite ?_ (.upd (.refl s)))) (.ite ?_ (.refl s))⟩
  · exact raiseDev_keeps _ _ _ (.upd (.refl s))
  · exact raiseDev_keeps _ _ _ (.upd (.refl s))

theorem keeps_vfEnable (s : State) (count : Nat) : Runs (.vfEnable count) s (Keeps s) :=
  ⟨_, rfl, .ite (.refl s) (.ite (raiseDev_keeps _ _ _ (.upd (.refl s))) (.upd (.refl s)))⟩

theorem keeps_configurationRequest (s : State) : Runs .configurationRequest s (Keeps s) :=
  ⟨_, rfl, .ite (emit_keeps _ (.refl s)) (.refl s)⟩

/-! ### Power, the module and its sensors -/

theorem keeps_inputValid (s : State) (mv : Nat) : Runs (.inputValid mv) s (Keeps s) :=
  ⟨_, rfl, .ite (.refl s) (coldBegin_keeps _ _ (setPower_keeps _ (.refl s)))⟩

theorem keeps_inputLoss (s : State) : Runs .inputLoss s (Keeps s) := ⟨_, rfl, .ite (inputGone_keeps (.refl s)) (.refl s)⟩

theorem keeps_mainRailsMayStart (s : State) (mv : Nat) : Runs (.mainRailsMayStart mv) s (Keeps s) :=
  ⟨_, rfl, .ite (.refl s) (releaseRails_keeps (setPower_keeps _ (.refl s)))⟩

theorem keeps_railSequenceStep (s : State) (rail : Nat) : Runs (.railSequenceStep rail) s (Keeps s) :=
  ⟨_, rfl, .ite (.refl s) (setPower_keeps _ (.refl s))⟩

theorem keeps_railFault (s : State) (rail mv : Nat) : Runs (.railFault rail mv) s (Keeps s) :=
  ⟨_, rfl, .ite (.refl s) (raiseModule_keeps _ _ (.upd (railsOff_keeps _ (.refl s))))⟩

theorem keeps_inputUndervoltage (s : State) (mv : Nat) : Runs (.inputUndervoltage mv) s (Keeps s) :=
  ⟨_, rfl, .ite (.refl s) (inputFault_keeps _ _ (setPower_keeps _ (.refl s)))⟩

theorem keeps_inputOvervoltage (s : State) (mv : Nat) : Runs (.inputOvervoltage mv) s (Keeps s) :=
  ⟨_, rfl, .ite (.refl s) (inputFault_keeps _ _ (setPower_keeps _ (.refl s)))⟩

theorem keeps_inputOvercurrent (s : State) (ma : Nat) : Runs (.inputOvercurrent ma) s (Keeps s) :=
  ⟨_, rfl, .ite (.refl s) (inputFault_keeps _ _ (setPower_keeps _ (.refl s)))⟩

theorem keeps_inputRecoveryRestart (s : State) : Runs .inputRecoveryRestart s (Keeps s) :=
  ⟨_, rfl, .ite (coldReset_keeps _ (.refl s)) (.refl s)⟩

theorem keeps_seatedOpen (s : State) : Runs .seatedOpen s (Keeps s) :=
  ⟨_, rfl, .ite (.refl s) (.ite (railsOff_keeps _ (setPower_keeps _ (.refl s))) (setPower_keeps _ (.refl s)))⟩

theorem keeps_seatedClose (s : State) : Runs .seatedClose s (Keeps s) := ⟨_, rfl, releaseRails_keeps (setPower_keeps _ (.refl s))⟩

theorem keeps_buttonPress (s : State) (ms : Nat) : Runs (.buttonPress ms) s (Keeps s) :=
  ⟨_, rfl, .ite (.refl s) (.ite (requestRemoval_keeps _ (bump_keeps _ _ (.refl s)))
    (.ite (setPower_keeps _ (bump_keeps _ _ (.refl s))) (.refl s)))⟩

theorem keeps_buttonHold (s : State) : Runs .buttonHold s (Keeps s) :=
  ⟨_, rfl, .ite (.refl s) (raiseModule_keeps _ _ (setPower_keeps _ (railsDown_keeps _ (bump_keeps _ _ (.refl s)))))⟩

theorem keeps_sensorSample (s : State) (x : Sample) : Runs (.sensorSample x) s (Keeps s) := by
  have hread : Keeps s (takeReadings { s with th := { s.th with ckRuns := true } } x) := takeReadings_keeps _ (.upd (.refl s))
  exact ⟨_, rfl, .ite (.refl s) (judgeCritical_keeps (governClocks_keeps _ (judgeLevels_keeps
    (.ite (.fold hread fun _ _ k => absentStack_keeps _ _ k) hread))))⟩

theorem keeps_pllLockLoss (s : State) (domain : Nat) : Runs (.pllLockLoss domain) s (Keeps s) := by
  have hraised : Keeps s (raiseDev s 0xC00E srcThallus [(domain, 16)]) := raiseDev_keeps _ _ _ (.refl s)
  have hfronds := Keeps.ite (c := s.power.railState = 2)
    (.fold (l := domainFronds domain) hraised fun _ f k => loseFrond_keeps f k) hraised
  have hlanes := Keeps.ite (c := 96 ≤ domain ∧ domain ≤ 107)
    (.fold (l := pllLanes (domain - 96)) hfronds fun _ x k => laneLost_keeps x.1 x.2 k) hfronds
  have hlink := Keeps.ite (c := domain = 108 ∨ domain = 1) (pcieDown_keeps hlanes) hlanes
  exact ⟨_, rfl, .ite (.refl s) (.ite (.upd hlink) hlink)⟩

/-! ### The Thallus and its requests -/

theorem keeps_agmirRead (s : State) (r : Req) : Runs (.agmirRead r) s (Keeps s) :=
  ⟨_, rfl, agmirRow_keeps _ _ _ (.refl s) fun _ _ _ k => k⟩

theorem keeps_serviceOpen (s : State) (r : Req) : Runs (.serviceOpen r) s (Keeps s) :=
  ⟨_, rfl, agmirRow_keeps _ _ _ (.refl s) fun _ _ _ k => doOpen_keeps _ k⟩

theorem keeps_serviceProof (s : State) (r : Req) (proof : Proof) : Runs (.serviceProof r proof) s (Keeps s) :=
  ⟨_, rfl, agmirRow_keeps _ _ _ (.refl s) fun _ _ _ k => doProof_keeps _ _ k⟩

theorem keeps_serviceClose (s : State) (r : Req) : Runs (.serviceClose r) s (Keeps s) :=
  ⟨_, rfl, agmirRow_keeps _ _ _ (.refl s) fun _ _ _ k => doClose_keeps _ k⟩

theorem keeps_fwUpdateVerify (s : State) (r : Req) (image : Option Nat) : Runs (.fwUpdateVerify r image) s (Keeps s) :=
  ⟨_, rfl, agmirRow_keeps _ _ _ (.refl s) fun _ _ _ k => .ite1 (verifyImage_keeps _ (doWrite_keeps _ _ k)) (doWrite_keeps _ _ k)⟩

theorem keeps_agmirSegment (s : State) (f : Frame) : Runs (.agmirSegment f) s (Keeps s) := by
  refine ⟨_, rfl, .ite (.refl s) (.ite (bump_keeps _ _ (.refl s)) (.ite (.refl s) (.ite (filterDrop_keeps _ _ (.refl s)) ?_)))⟩
  split
  · exact filterDrop_keeps _ _ (.refl s)
  refine .ite ?_ (.ite (filterDrop_keeps _ _ (.refl s)) (.ite (filterDrop_keeps _ _ (.refl s)) ?_))
  · exact endTransfer_keeps _ _ (countFrame_keeps _ (.refl s))
  · exact takeSegment_keeps _ _ (countFrame_keeps _ (.refl s))

theorem keeps_mbStatusRead (s : State) : Runs .mbStatusRead s (Keeps s) := ⟨_, rfl, .ite (.upd (.refl s)) (.refl s)⟩

theorem keeps_heartbeatSend (s : State) : Runs .heartbeatSend s (Keeps s) :=
  ⟨_, rfl, .ite (sendFrame_keeps _ _ _ _ (.refl s)) (.refl s)⟩

theorem keeps_heartbeatReceive (s : State) (f : Frame) : Runs (.heartbeatReceive f) s (Keeps s) :=
  ⟨_, rfl, .ite (.refl s) (.ite (bump_keeps _ _ (.refl s)) (.ite (.refl s) (raiseDev_keeps _ _ _ (.upd (.refl s)))))⟩

theorem keeps_canBusOff (s : State) : Runs .canBusOff s (Keeps s) := ⟨_, rfl, .ite (.refl s) (raiseDev_keeps _ _ _ (.upd (.refl s)))⟩

theorem keeps_ckThIdleStop (s : State) : Runs .ckThIdleStop s (Keeps s) := ⟨_, rfl, .ite (.upd (.refl s)) (.refl s)⟩

theorem keeps_thallusWatchdog (s : State) : Runs .thallusWatchdog s (Keeps s) :=
  ⟨_, rfl, .ite (.refl s) (raiseDev_keeps _ _ _ (.upd (runImage_keeps _ (bump_keeps _ _ (.refl s)))))⟩

theorem keeps_configBatchStore (s : State) (verify : List Bool) : Runs (.configBatchStore verify) s (Keeps s) :=
  ⟨_, rfl, .ite (.refl s) (sendReplies_keeps _ (.upd (storeBatch_keeps _ (.refl s))))⟩

theorem keeps_telemetryFrameSend (s : State) : Runs .telemetryFrameSend s (Keeps s) :=
  ⟨_, rfl, .ite (.refl s) (sendFrame_keeps _ _ _ _ (.upd (.refl s)))⟩

theorem keeps_recall (s : State) (port : Nat) (k : Packet) : Runs (.recall port k) s (Keeps s) :=
  ⟨_, rfl, rxRow_keeps _ _ _ _ (.refl s)⟩

/-! ### Every command -/

/-- Whatever command runs, it completes, and what it leaves passes on the commands that wait and the form of memory. -/
theorem exec_keeps (c : Instr) (s : State) : Runs c s (Keeps s) := by
  cases c with
  | agmirWrite _ | fwUpdateBegin _ | fwUpdateData _ | removalRequest _ | removalCommit _ | removalWithdraw _
  | deviceResetNoAction _ | deviceResetWarm _ | deviceResetCold _ | resetRequestLane _ | resetRequestPort _
  | resetRequestEngine _ | resetRequestPartition _ | maintenanceHoldSet _ | maintenanceHoldRelease _
  | ownerActivate _ | ownerPreempt _ | ownerResume _ | ownerReset _ | ownerFree _ | faultRingWrite _
  | countersClear _ | localWindowWrite _ | remoteWindowWrite _ | keyGenerate _ | keyZeroise _ | repairSoftRow _
  | repairHardRow _ | repairLane _ | maintStackEnter _ | maintStackEnd _ | ieee1500Execute _ | poolEnable _
  | poolDisable _ | poolRebuild _ | bistStart _ | portEnable _ | portDisable _ =>
    exact ⟨_, rfl, dictRow_keeps _ _ (.refl s)⟩
  | vectorAdd _ | vectorMul _ | vectorFma _ | vectorMin _ | vectorMax _ | vectorConvert _ | vectorExp _
  | vectorExp2 _ | vectorLn _ | vectorLog2 _ | vectorRecip _ | vectorRsqrt _ | rowSum _ | rowMax _ | mean _
  | variance _ | rms _ | normApply _ | rmsApply _ | gatedUnit _ | softmaxNormalise _ | softmaxTileD1 _ | maskedMul _ =>
    exact ⟨_, rfl, vcExec_keeps _ _ (.refl s)⟩
  | atomicAdd _ | atomicFadd _ | atomicSwap _ | atomicCas _ | atomicAnd _ | atomicOr _ | atomicXor _ | atomicSmin _
  | atomicSmax _ | atomicUmin _ | atomicUmax _ =>
    exact ⟨_, rfl, amExec_keeps _ _ (.refl s)⟩
  | dmaPlainCopy _ | dmaCompressStrict _ | dmaCompressPrune _ | dmaCompressRle _ | dmaExpand24 _ | dmaExpandRle _ =>
    exact ⟨_, rfl, dmaExec_keeps _ _ (.refl s)⟩
  | syncInit _ | syncFree _ | flagSet _ | flagClear _ | counterAdd _ | counterWrite _ =>
    exact ⟨_, rfl, syExec_keeps _ _ (.refl s)⟩
  | dispatch _ | cardReturn _ | combine _ | scatter _ | gradCombine _ | release _ => exact ⟨_, rfl, cardExec_keeps _ _ (.refl s)⟩
  | dispatchChunkStart _ | returnChunkStart _ | combineChunkStart _ | scatterChunkStart _ =>
    exact ⟨_, rfl, cardGoOn_keeps _ _ (.refl s)⟩
  | allReduce _ _ | reduceScatter _ _ | allGather _ _ | broadcast _ _ | closing _ _ =>
    exact ⟨_, rfl, clExec_keeps _ _ _ (.refl s)⟩
  | load _ _ _ | loadData _ _ | store _ _ | atomicPacket _ _ | atomicResult _ _ | atomicRelease _ _ | copyData _ _
  | syncPacket _ _ | watchMessage _ _ | cardRowForward _ _ | cardRowBackward _ _ | cardRowReturn _ _
  | cardFillForward _ _ | cardFillBackward _ _ | relayPacketReceive _ _ | lateFault _ _ | epochNotice _ _
  | epochClose _ _ | epochClosed _ _ | data _ _ | inv _ _ | invAck _ _ | putM _ _ | retryAfter _ _
  | attest _ _ _ | remoteSourceCopy _ _ =>
    exact ⟨_, rfl, rxRow_keeps _ _ _ _ (.refl s)⟩
  | vectorRegParity _ | sfuTableParity _ => exact ⟨_, rfl, vcLose_keeps _ _ _ (.upd (.refl s))⟩
  | agmirTransferTimeout _ => exact ⟨_, rfl, endTransfer_keeps _ _ (.refl s)⟩
  | messagePost _ => exact ⟨_, rfl, postHeld_keeps _ (.refl s)⟩
  | headCacheRefill _ => exact ⟨_, rfl, refill_keeps _ _ (.refl s)⟩
  | stepArrivalSend _ _ _ => exact ⟨_, rfl, sendArrival_keeps _ _ _ (.refl s)⟩
  | placementDecision _ _ _ => exact ⟨_, rfl, decidePlacement_keeps _ _ _ (.refl s)⟩
  | reshardRound2 _ _ => exact ⟨_, rfl, secondRound_keeps _ _ (.refl s)⟩
  | laneLossOfLock _ _ => exact ⟨_, rfl, laneLost_keeps _ _ (.refl s)⟩
  | serviceSessionTimeout | perstDeassert | canBusOffRecovery => exact ⟨_, rfl, .upd (.refl s)⟩
  | barrierArrive _ => exact ⟨_, rfl, runHead_keeps _ _ _ _ _ (.refl s) fun _ _ _ _ k => syArrive_keeps _ _ _ _ k⟩
  | watch _ => exact ⟨_, rfl, runHead_keeps _ _ _ _ _ (.refl s) fun _ _ _ _ k => syWatch_keeps _ _ _ _ k⟩
  | unwatch _ => exact ⟨_, rfl, runHead_keeps _ _ _ _ _ (.refl s) fun _ _ _ _ k => syUnwatch_keeps _ _ _ _ k⟩
  | syncRead _ => exact ⟨_, rfl, runHead_keeps _ _ _ _ _ (.refl s) fun _ _ _ _ k => syRead_keeps _ _ _ _ k⟩
  | taskBegin _ => exact ⟨_, rfl, runHead_keeps _ _ _ _ _ (.refl s) fun _ _ _ _ k => syTaskBegin_keeps _ _ _ _ k⟩
  | taskEnd _ => exact ⟨_, rfl, runHead_keeps _ _ _ _ _ (.refl s) fun _ _ _ _ k => syTaskEnd_keeps _ _ _ _ k⟩
  | poolAllocate _ => exact ⟨_, rfl, runHead_keeps _ _ _ _ _ (.refl s) fun _ _ _ _ k => poolTake_keeps _ _ _ _ k⟩
  | poolAcquire _ => exact ⟨_, rfl, runHead_keeps _ _ _ _ _ (.refl s) fun _ _ _ _ k => poolRef_keeps _ _ _ _ _ k⟩
  | poolRelease _ => exact ⟨_, rfl, runHead_keeps _ _ _ _ _ (.refl s) fun _ _ _ _ k => poolRef_keeps _ _ _ _ _ k⟩
  | placeInit _ _ => exact ⟨_, rfl, runHead_keeps _ _ _ _ _ (.refl s) fun _ _ _ _ k => placeInit_keeps _ _ _ _ _ k⟩
  | flcInvalidate _ => exact ⟨_, rfl, runHead_keeps _ _ _ _ _ (.refl s) fun _ _ _ _ k => flcDrop_keeps _ _ _ _ k⟩
  | nop _ => exact ⟨_, rfl, runHead_keeps _ _ _ _ _ (.refl s) fun _ _ _ _ k => endOp_keeps _ _ _ k⟩
  | queueCreate _ => exact ⟨_, rfl, runHead_keeps _ _ _ _ _ (.refl s) fun _ _ _ _ k => queueMake_keeps _ _ _ _ k⟩
  | queueDestroy _ => exact ⟨_, rfl, runHead_keeps _ _ _ _ _ (.refl s) fun _ _ _ _ k => queueEnd_keeps _ _ _ _ k⟩
  | queueQuery _ => exact ⟨_, rfl, runHead_keeps _ _ _ _ _ (.refl s) fun _ _ _ _ k => queueShow_keeps _ _ _ _ k⟩
  | layerEnterForward _ _ => exact ⟨_, rfl, markerExec_keeps _ _ _ _ (.refl s) fun _ _ _ _ k => enterForward_keeps _ _ _ _ _ k⟩
  | layerExitForward _ _ => exact ⟨_, rfl, markerExec_keeps _ _ _ _ (.refl s) fun _ _ _ _ k => exitForward_keeps _ _ _ _ k⟩
  | layerEnterBackward _ _ => exact ⟨_, rfl, markerExec_keeps _ _ _ _ (.refl s) fun _ _ _ _ k => enterBackward_keeps _ _ _ _ _ k⟩
  | layerExitBackward _ _ => exact ⟨_, rfl, markerExec_keeps _ _ _ _ (.refl s) fun _ _ _ _ k => exitBackward_keeps _ _ _ _ k⟩
  | agmirRead _ => exact keeps_agmirRead s _
  | serviceOpen _ => exact keeps_serviceOpen s _
  | serviceProof _ _ => exact keeps_serviceProof s _ _
  | serviceClose _ => exact keeps_serviceClose s _
  | agmirSegment _ => exact keeps_agmirSegment s _
  | mbStatusRead => exact keeps_mbStatusRead s
  | heartbeatSend => exact keeps_heartbeatSend s
  | heartbeatReceive _ => exact keeps_heartbeatReceive s _
  | canBusOff => exact keeps_canBusOff s
  | ckThIdleStop => exact keeps_ckThIdleStop s
  | thallusWatchdog => exact keeps_thallusWatchdog s
  | fwUpdateVerify _ _ => exact keeps_fwUpdateVerify s _ _
  | configBatchStore _ => exact keeps_configBatchStore s _
  | sensorSample _ => exact keeps_sensorSample s _
  | telemetryFrameSend => exact keeps_telemetryFrameSend s
  | pllLockLoss _ => exact keeps_pllLockLoss s _
  | frondWakeDone _ => exact keeps_frondWakeDone s _
  | frondWakeFail _ => exact keeps_frondWakeFail s _
  | frondIdlePowerdown _ => exact keeps_frondIdlePowerdown s _
  | inputValid _ => exact keeps_inputValid s _
  | inputLoss => exact keeps_inputLoss s
  | startupPhaseEnd _ _ => exact keeps_startupPhaseEnd s _ _
  | startupPhaseTimeout _ => exact keeps_startupPhaseTimeout s _
  | railSequenceStep _ => exact keeps_railSequenceStep s _
  | railFault _ _ => exact keeps_railFault s _ _
  | inputUndervoltage _ => exact keeps_inputUndervoltage s _
  | inputOvervoltage _ => exact keeps_inputOvervoltage s _
  | inputOvercurrent _ => exact keeps_inputOvercurrent s _
  | inputRecoveryRestart => exact keeps_inputRecoveryRestart s
  | seatedOpen => exact keeps_seatedOpen s
  | seatedClose => exact keeps_seatedClose s
  | buttonPress _ => exact keeps_buttonPress s _
  | buttonHold => exact keeps_buttonHold s
  | portSignalDetect _ => exact keeps_portSignalDetect s _
  | pluggableInsert _ _ => exact keeps_pluggableInsert s _ _
  | perstAssert => exact keeps_perstAssert s
  | pcieHotReset => exact keeps_pcieHotReset s
  | flrPf => exact keeps_flrPf s
  | flrVf _ => exact keeps_flrVf s _
  | pcieLinkChange _ _ _ => exact keeps_pcieLinkChange s _ _ _
  | vfEnable _ => exact keeps_vfEnable s _
  | resetComplete => exact keeps_resetComplete s
  | resetBoundExpired => exact keeps_resetBoundExpired s
  | engineWatchdog _ _ => exact keeps_engineWatchdog s _ _
  | submitDoorbell _ _ _ => exact keeps_submitDoorbell s _ _ _
  | consumedDoorbell _ _ _ => exact keeps_consumedDoorbell s _ _ _
  | descriptorReadReturn _ _ => exact keeps_descriptorReadReturn s _ _
  | descriptorAccept _ => exact keeps_descriptorAccept s _
  | watermarkWrite _ => exact keeps_watermarkWrite s _
  | operationComplete _ => exact keeps_operationComplete s _
  | msixHoldoffExpiry _ => exact keeps_msixHoldoffExpiry s _
  | journalRetire _ => exact keeps_journalRetire s _
  | journalRemirrorDone => exact keeps_journalRemirrorDone s
  | drainCensusComplete _ => exact keeps_drainCensusComplete s _
  | censusTimeout _ => exact keeps_censusTimeout s _
  | revocationWalkDone _ => exact keeps_revocationWalkDone s _
  | faultLogPageTaken => exact keeps_faultLogPageTaken s
  | repairDone _ => exact keeps_repairDone s _
  | ieee1500ShiftDone _ => exact keeps_ieee1500ShiftDone s _
  | patrolScrub _ _ => exact keeps_patrolScrub s _ _
  | pcRetrainFailure _ => exact keeps_pcRetrainFailure s _
  | poolBuildDone _ => exact keeps_poolBuildDone s _
  | poolAuditScan => exact keeps_poolAuditScan s
  | deadlockSample => exact keeps_deadlockSample s
  | gatedOpStart _ => exact keeps_gatedOpStart s _
  | grouped _ => exact keeps_grouped s _
  | matrix _ => exact keeps_matrix s _
  | walkerStartCondition _ => exact keeps_walkerStartCondition s _
  | chainStart _ _ => exact keeps_chainStart s _ _
  | chainComplete _ _ => exact keeps_chainComplete s _ _
  | earlyStart _ => exact keeps_earlyStart s _
  | arrayRegParity _ => exact keeps_arrayRegParity s _
  | arrayFrontCheck _ _ => exact keeps_arrayFrontCheck s _ _
  | bistDone _ => exact keeps_bistDone s _
  | tileStoreDoubleError _ => exact keeps_tileStoreDoubleError s _
  | groupFence _ => exact keeps_groupFence s _
  | wait _ => exact keeps_wait s _
  | portTrainingComplete _ _ _ => exact keeps_portTrainingComplete s _ _ _
  | portTrainingFailed _ => exact keeps_portTrainingFailed s _
  | identityRecordReceive _ _ => exact keeps_identityRecordReceive s _ _
  | linkFlitReceive _ _ => exact keeps_linkFlitReceive s _ _
  | replayRequest _ _ => exact keeps_replayRequest s _ _
  | laneRetrained _ _ => exact keeps_laneRetrained s _ _
  | peerSilentTimeout _ => exact keeps_peerSilentTimeout s _
  | relayForward _ => exact keeps_relayForward s _
  | flowAck _ _ => exact keeps_flowAck s _ _
  | flowAckTimer _ => exact keeps_flowAckTimer s _
  | e2eTimeout _ => exact keeps_e2eTimeout s _
  | flowResetRetry _ => exact keeps_flowResetRetry s _
  | flowReset _ _ => exact keeps_flowReset s _ _
  | creditWithholdExpiry _ => exact keeps_creditWithholdExpiry s _
  | getS _ _ _ => exact keeps_getS s _ _ _
  | getM _ _ _ => exact keeps_getM s _ _ _
  | retryAfterExpiry _ => exact keeps_retryAfterExpiry s _
  | timeSyncSend => exact keeps_timeSyncSend s
  | timeSync _ _ => exact keeps_timeSync s _ _
  | ptpMessage _ _ => exact keeps_ptpMessage s _ _
  | ptpLockLost => exact keeps_ptpLockLost s
  | attestRetry _ => exact keeps_attestRetry s _
  | mainRailsMayStart _ => exact keeps_mainRailsMayStart s _
  | configurationRequest => exact keeps_configurationRequest s
  | priorityFlowControl _ _ _ => exact keeps_priorityFlowControl s _ _ _
  -- RECALL alone is left: its bare name is a word of Mathlib's own and cannot stand as a case.
  | _ => exact keeps_recall s _ _

/-- The commands that wait after a step are those before it without the first, and memory keeps its form. -/
theorem step_keeps {s t : State} (h : step s = .next t) : t.pending = s.pending.tail ∧ (MemOk s → MemOk t) := by
  unfold step at h
  split at h
  · next hnone =>
    cases h
    rw [hnone]
    exact (idleTick_keeps (.refl s)).imp_left fun hpending => hpending.trans hnone
  · next c r hfront =>
    obtain ⟨u, hu, hkeeps⟩ := exec_keeps c { s with pending := r }
    cases h.symm.trans hu
    rw [hfront]
    exact hkeeps

/-- Settles O60: each command passes on the canonical form of memory, and so does the microsecond of a step without one. -/
theorem stepsKeepMemoryCanonical : Obligations.StepsKeepMemoryCanonical :=
  fun _ _ hmem hstep => (step_keeps hstep).2 hmem

end Sys2Proof.Machine

/-!
PROOFS. The map of HBM offsets to their places (R237), and the state after reset (R261, R265, R473).
-/
namespace Sys2Proof.Machine

/-! ### The map of HBM offsets -/

/-- The bits of a local granule that R237 folds into its pseudo-channel. -/
def foldedBits (x : Nat) : Nat := (x ^^^ (x / 512) ^^^ (x / 2 ^ 18)) % 512

/-- The granule whose place is a pseudo-channel and a local granule: the fold is its own inverse. -/
def granuleAt (pc x : Nat) : Nat := 512 * x + (pc ^^^ foldedBits x)

theorem foldedBits_lt (x : Nat) : foldedBits x < 512 := Nat.mod_lt _ (by decide)

theorem xor_foldedBits_lt {n : Nat} (h : n < 512) (x : Nat) : n ^^^ foldedBits x < 512 := Nat.xor_lt_two_pow (n := 9) h (foldedBits_lt x)

theorem bits_eq_div_mod (x l w : Nat) : bits x l w = x / 2 ^ l % 2 ^ w := by rw [bits, Nat.shiftRight_eq_div_pow]

theorem pcOf_eq_xor (o : Nat) : pcOf o = (o / 256 % 512) ^^^ foldedBits (o / 256 / 512) := by
  simp only [pcOf, foldedBits, Nat.shiftRight_eq_div_pow]

theorem pcOf_lt (o : Nat) : pcOf o < 512 := by
  rw [pcOf_eq_xor]
  exact xor_foldedBits_lt (Nat.mod_lt _ (by decide)) _

/-- Each byte of a granule lies in the pseudo-channel of its two numbers. -/
theorem pcOf_of_granule {g b : Nat} (hb : b < 256) : pcOf (256 * g + b) = (g % 512) ^^^ foldedBits (g / 512) := by
  rw [pcOf_eq_xor, show (256 * g + b) / 256 = g by omega]

theorem pcOf_granuleAt {pc x b : Nat} (hpc : pc < 512) (hb : b < 256) : pcOf (256 * granuleAt pc x + b) = pc := by
  have hlow := xor_foldedBits_lt hpc x
  have hmod : granuleAt pc x % 512 = pc ^^^ foldedBits x := by rw [granuleAt]; omega
  have hdiv : granuleAt pc x / 512 = x := by rw [granuleAt]; omega
  rw [pcOf_of_granule hb, hmod, hdiv, Nat.xor_assoc, Nat.xor_self, Nat.xor_zero]

/-- A granule is the one of its pseudo-channel and its local granule. -/
theorem granuleAt_pcOf (k : Nat) : granuleAt (pcOf (256 * k)) (256 * k / 2 ^ 17) = k := by
  have hlocal : 256 * k / 2 ^ 17 = k / 512 := by omega
  have hpc : pcOf (256 * k) = (k % 512) ^^^ foldedBits (k / 512) := pcOf_of_granule (b := 0) (by decide)
  rw [hlocal, hpc, granuleAt, Nat.xor_assoc, Nat.xor_self, Nat.xor_zero]
  omega

/-- Settles O57: the pseudo-channel is an exclusive-or with bits of the local granule, so the granule of a place is that
exclusive-or again. -/
theorem offsetsHaveOnePlace : Obligations.OffsetsHaveOnePlace := by
  refine ⟨?_, fun pc x hpc hx => ⟨granuleAt pc x, ?_, fun b hb => ⟨pcOf_granuleAt hpc hb, ?_⟩, ?_⟩⟩
  · rintro o g x h - rfl rfl rfl
    have hlocal : o >>> 17 = o / 256 / 512 := by rw [Nat.shiftRight_eq_div_pow, Nat.div_div_eq_div_mul]
    refine ⟨pcOf_eq_xor o, pcOf_lt o, ?_, ?_, ?_, ?_, ?_, ?_⟩
    · rw [stackOf, Nat.shiftRight_eq_div_pow]
    · rw [channelOf, bits_eq_div_mod, pow_one]
      rfl
    · rw [pseudoOf, bits_eq_div_mod, pow_zero, Nat.div_one, pow_one]
    · rw [columnOf, bits_eq_div_mod, hlocal]
      rfl
    · rw [rowOf, bits_eq_div_mod, hlocal]
      rfl
    · simp only [bankOf, bits_eq_div_mod, hlocal, pow_zero, Nat.div_one]
      rfl
  · have hlow := xor_foldedBits_lt hpc x
    rw [granuleAt]
    omega
  · have hlow := xor_foldedBits_lt hpc x
    rw [granuleAt]
    omega
  · rintro k - rfl rfl
    exact (granuleAt_pcOf k).symm

/-! ### After reset -/

/-- Settles O56: memory lists nothing after reset, the one key listed is the device's, and the ports listed are the 21 in training. -/
theorem stateAfterReset : Obligations.StateAfterReset := by
  refine ⟨reset_memOk, rfl, rfl, rfl, rfl, rfl, rfl, rfl, rfl, rfl, fun _ => rfl, fun a g ha => ?_, fun a o g ha => ?_, rfl,
    fun o ho => ?_, by decide⟩
  · rw [rdByte, ha]
    rfl
  · rw [rdByte, if_pos ha]
    rfl
  · have hkeys : State.reset.mc.keys = tput [] 0 { active := true, gen := 1, fresh := 0 } := rfl
    rw [keyActive, keySlot, hkeys, tgetD_tput_ne _ _ _ ho]
    rfl

end Sys2Proof.Machine

/-!
PROOFS. Writes of windows, keys, fault rings, repairs, maintenance and test access: each comes to its effect on what the entry
selects, and to the answer (R247, R262, R267 to R269, R345, R484).
-/
namespace Sys2Proof.Machine

/-! ### Answers only add to what is sent outside -/

theorem out_sendFrame (s : State) (c d t : Nat) (b : List Nat) : s.out <+: (sendFrame s c d t b).out := by
  unfold sendFrame
  split
  · exact List.prefix_rfl
  · exact List.prefix_append ..

theorem out_toHost (s : State) (e : OutEv) : s.out <+: (toHost s e).out := by
  unfold toHost
  split
  · exact List.prefix_append ..
  · exact List.prefix_rfl

theorem out_sendSegments (node tag n k : Nat) (b : List Nat) (s : State) : s.out <+: (sendSegments node tag n k b s).out := by
  induction n generalizing k b s with
  | zero => exact List.prefix_rfl
  | succ n ih =>
    unfold sendSegments
    split
    · exact List.prefix_rfl
    · exact (out_sendFrame ..).trans (ih ..)

theorem out_answerHost (s : State) (b : List Nat) : s.out <+: (answerHost s b).out :=
  out_toHost { s with th := { s.th with mbResponse := b, mbStatus := 2 } } (.msix 0 0)

theorem out_reply (s : State) (path : Path) (p : Pdu) {r : Reply} (hp : r.post = 0) (hl : r.later = false) :
    s.out <+: (reply s path p r).out := by
  have hafter (x : State) : afterReply x 0 = x := rfl
  unfold reply
  rw [if_neg (by simp [hl]), hp, hafter]
  cases path with
  | host => exact out_answerHost ..
  | field node tag => exact (out_sendFrame ..).trans (out_sendSegments ..)

/-! ### States that answering leaves -/

theorem AnsweredOnly.refl (s : State) : AnsweredOnly s s := rfl

theorem AnsweredOnly.trans {s t u : State} (h : AnsweredOnly s t) (k : AnsweredOnly t u) : AnsweredOnly s u := by
  unfold AnsweredOnly at h k ⊢
  rw [k, h]
  rfl

theorem answeredOnly_hostWr (s : State) (o a : Nat) (b : List Nat) : AnsweredOnly s (hostWr s o a b) := by
  unfold hostWr toHost
  split <;> rfl

theorem AnsweredOnly.dict_eq {v t : State} (h : AnsweredOnly v t) : t.dict = v.dict := (congrArg State.dict h).trans rfl
theorem AnsweredOnly.mc_eq {v t : State} (h : AnsweredOnly v t) : t.mc = v.mc := (congrArg State.mc h).trans rfl
theorem AnsweredOnly.log_eq {v t : State} (h : AnsweredOnly v t) : t.log = v.log := (congrArg State.log h).trans rfl
theorem AnsweredOnly.queues_eq {v t : State} (h : AnsweredOnly v t) : t.queues = v.queues := (congrArg State.queues h).trans rfl
theorem AnsweredOnly.owners_eq {v t : State} (h : AnsweredOnly v t) : t.owners = v.owners := (congrArg State.owners h).trans rfl

/-! ### A write that is applied -/

/-- Whether an entry is one that the configuration copies do not hold. -/
def isUnstored (k : Nat) : Bool := (specOf k).any fun e => !isStored k e

@[simp] theorem valNat_valOfBytes (ty : ETy) (b : List Nat) : valNat (valOfBytes ty b) = leNat b := by
  unfold valOfBytes
  split <;> rfl

/-- A WRITE of an entry that is not stored: its effect, in the state that has taken the request in, is all that its row does but
for the answer, and what it sends outside stays sent. -/
theorem dictRow_applies {s : State} {r : Req} {path : Path} {p : Pdu} {u : State} {k id : Nat} (h : Writes s r path p u)
    (hk : pdKey p = k) (hun : isUnstored k = true) (hid : rowId k (leNat p.value) = id) (hp : postOf k (leNat p.value) = 0) :
    ∃ x b w, valNat w = leNat p.value ∧ AnsweredOnly (applyWrite { s with th := servedTh s.th x } b k w) (dictRow id r s) ∧
      (applyWrite { s with th := servedTh s.th x } b k w).out <+: (dictRow id r s).out := by
  subst hk
  obtain ⟨e, he, hs⟩ := (Option.any_eq_true _ _).1 hun
  have hs : isStored (pdKey p) e = false := by simpa using hs
  have hpost : postOf (pdKey p) (valNat (valOfBytes e.ty p.value)) = 0 := by rw [valNat_valOfBytes, hp]
  refine ⟨u.th, !onField path, valOfBytes e.ty p.value, valNat_valOfBytes .., ?_⟩
  rw [← Delivers_frame h.1]
  refine ⟨dictRow_effect h hid he hs hpost (.refl _), ?_⟩
  rw [dictRow_writes h hid]
  obtain ⟨-, -, hindex, e', he', hstatus⟩ := h
  cases he.symm.trans he'
  simp only [doWrite, hindex, he, hstatus, hs, hpost]
  exact out_reply _ _ _ rfl rfl

/-- The state that takes a request in differs from the one before it in the Thallus alone, so an effect that leaves the Thallus comes
to the same from either. -/
theorem dictRow_comes_to {s v : State} {r : Req} {path : Path} {p : Pdu} {u : State} {k id : Nat} (h : Writes s r path p u)
    (hk : pdKey p = k) (hun : isUnstored k = true) (hid : rowId k (leNat p.value) = id) (hp : postOf k (leNat p.value) = 0)
    (hv : ∀ x b w, valNat w = leNat p.value →
      applyWrite { s with th := servedTh s.th x } b k w = { v with th := servedTh v.th x }) :
    AnsweredOnly v (dictRow id r s) := by
  obtain ⟨x, b, w, hw, hans, -⟩ := dictRow_applies h hk hun hid hp
  rw [hv x b w hw] at hans
  exact (answeredOnly_served v x).trans hans

/-! ### The effects of the entries -/

theorem isUnstored_localWindow : isUnstored 0x280402 = true := by decide +kernel
theorem isUnstored_remoteWindow : isUnstored 0x2B0402 = true := by decide +kernel
theorem isUnstored_keyCommand : isUnstored 0x280502 = true := by decide +kernel
theorem isUnstored_faultRing : isUnstored 0x2D0202 = true := by decide +kernel
theorem isUnstored_repair : isUnstored 0x280606 = true := by decide +kernel
theorem isUnstored_maintStack : isUnstored 0x280601 = true := by decide +kernel
theorem isUnstored_testAccess : isUnstored 0x280604 = true := by decide +kernel

theorem applyWrite_localWindow (s : State) (b : Bool) (w : Val) : applyWrite s b 0x280402 w = writeLocalWin s (selWindow s) (valNat w) := rfl
theorem applyWrite_remoteWindow (s : State) (b : Bool) (w : Val) : applyWrite s b 0x2B0402 w = writeRemoteWin s (selRwin s) (valNat w) := rfl
theorem applyWrite_keyCommand (s : State) (b : Bool) (w : Val) : applyWrite s b 0x280502 w = keyCmd s (selKey s) (valNat w) := rfl
theorem applyWrite_faultRing (s : State) (b : Bool) (w : Val) : applyWrite s b 0x2D0202 w = writeRing s (selFaultOwner s) (valNat w) := rfl
theorem applyWrite_maintStack (s : State) (b : Bool) (w : Val) : applyWrite s b 0x280601 w = setMaint s (valNat w) := rfl
theorem applyWrite_repair (s : State) (b : Bool) (w : Val) :
    applyWrite s b 0x280606 w = beginRepair (setEnt s 0x280606 (valNat w)) (valNat w) false := rfl
theorem applyWrite_testAccess (s : State) (b : Bool) (w : Val) :
    applyWrite s b 0x280604 w = if valNat w = 1 then setEnt s 0x280604 1 else s := rfl

/-- A local window replaces one that is not a valid one of the Tile Stores without clearing any byte (R245, R247). -/
theorem writeLocalWin_of_not_tile {s : State} {sel : Nat}
    (h : (lwValid (tgetD s.mc.windows sel 0) && lwTile (tgetD s.mc.windows sel 0)) = false) (e : Nat) :
    writeLocalWin s sel e = { s with mc := { s.mc with windows := tputNZ s.mc.windows sel e } } := by
  have hold : ¬ (lwValid (tgetD s.mc.windows sel 0) = true ∧ lwTile (tgetD s.mc.windows sel 0) = true) := by
    rw [← Bool.and_eq_true, h]
    exact Bool.false_ne_true
  simp only [writeLocalWin, if_neg hold, setMc]

/-- A key generated takes the next generation and the next draw (R262). -/
theorem keyCmd_generate (s : State) (o : Nat) : keyCmd s o 1 = { s with mc := { s.mc with
    keys := tput s.mc.keys o ⟨true, (keySlot s o).gen + 1, s.mc.keyDraws⟩
    keyDraws := s.mc.keyDraws + 1 } } := rfl

theorem keyCmd_zeroise (s : State) (o : Nat) : keyCmd s o 2 = { s with mc := { s.mc with
    keys := tput s.mc.keys o { keySlot s o with active := false } } } := rfl

/-- The state with a fault ring in force (R484). -/
def ringSet (s : State) (o v : Nat) : State :=
  { s with owners := tput s.owners o { ownerRec s o with ring := v, ringCount := 0 } }

theorem ownerRec_ringSet_entry (s : State) (o v : Nat) : (ownerRec (ringSet s o v) o).entry = (ownerRec s o).entry := by
  rw [ownerRec, ringSet, tgetD_tput_self]

theorem writeRing_eq (s : State) (o v : Nat) : writeRing s o v =
    if bit v 0 then hostWr (ringSet s o v) o (bits v 128 64) (natLe 8 0) else ringSet s o v := rfl

theorem answeredOnly_writeRing (s : State) (o v : Nat) : AnsweredOnly (ringSet s o v) (writeRing s o v) := by
  rw [writeRing_eq]
  split
  · exact answeredOnly_hostWr ..
  · exact .refl _

/-- A ring that is valid has its count of zero sent to its index address, under its owner's function and PASID (R484). -/
theorem mem_out_writeRing {s : State} {v : Nat} (o : Nat) (hv : bit v 0 = true) (hup : s.host.up = true) :
    .hostWrite (ownerFn s o) (if o = 0 then 0 else ownerPasid s o) (bits v 128 64) [0, 0, 0, 0, 0, 0, 0, 0] ∈ (writeRing s o v).out := by
  have hup' : (ringSet s o v).host.up = true := hup
  rw [writeRing_eq, if_pos hv, hostWr, toHost, if_pos hup', ownerFn, ownerPasid, ownerRec_ringSet_entry]
  exact List.mem_append_right _ (List.mem_singleton.2 rfl)

/-- A repair with a spare left is the one in progress (R267). -/
theorem beginRepair_of_spare {s : State} {n : Nat} (h : spareLeft s n = true) :
    beginRepair s n false = { setEnt s 0x280605 1 with mc := { s.mc with repairing := some n } } := by
  rw [beginRepair, if_neg (not_not.2 h)]
  rfl

/-- A repair with no spare left is refused with a fault (R267). -/
theorem beginRepair_of_no_spare {s : State} {n : Nat} (h : spareLeft s n = false) :
    beginRepair s n false = raiseDev (setEnt s 0x280605 3) 0x7009 srcMc [(n, 64)] := by
  rw [beginRepair, if_pos (Bool.eq_false_iff.1 h)]
  rfl

/-- Maintenance that begins or goes on clears nothing (R268). -/
theorem setMaint_enter {s : State} {n : Nat} (h : ent s 0x280601 = 0xFF ∨ ent s 0x280601 = n) :
    setMaint s n = { s with dict := tput s.dict 0x280601 (.num n) } := by
  have hstays : ¬ (ent s 0x280601 ≠ 0xFF ∧ ent s 0x280601 ≠ n) := by tauto
  simp only [setMaint, if_neg hstays]
  rfl

/-- Maintenance that ends clears the stack that was in it (R265, R269). -/
theorem setMaint_end {s : State} (h : ent s 0x280601 ≠ 0xFF) : setMaint s 0xFF = setEnt (zeroStack s (ent s 0x280601)) 0x280601 0xFF := by
  simp only [setMaint, ne_eq, h, not_false_eq_true, and_self, if_true]

/-! ### Faults of the device leave owners and other entries -/

theorem raiseDev_owners (s : State) (c r : Nat) (l : List (Nat × Nat)) : (raiseDev s c r l).owners = s.owners := by
  unfold raiseDev raise
  dsimp only
  split
  · rw [ringRecord, if_pos (.inl rfl), takeRecord_owners]
  · rfl

/-- The entries that recording a fault may count in. -/
def recorderCounters : List Nat := [0x280208, 0x290309, 0x2D0106]

theorem ent_wr {s : State} {k : Nat} (h : k ≠ 0x280208) (o a : Nat) (b : List Nat) : ent (wr s o a b) k = ent s k := by
  unfold wr
  dsimp only
  split
  · rfl
  · exact ent_bump_ne _ _ h

theorem ent_storeRecord {s : State} {k : Nat} (h : k ≠ 0x280208) (r : Nat) : ent (storeRecord s r) k = ent s k := by
  unfold storeRecord
  dsimp only
  split
  · rw [ent_congr (noticeOf_dict ..), ent_wr h]
    rfl
  · exact ent_congr (noticeOf_dict ..) k

theorem ent_takeRecord {s : State} {k : Nat} (h : k ∉ recorderCounters) (r : Nat) : ent (takeRecord s r) k = ent s k := by
  simp only [recorderCounters, List.mem_cons, List.not_mem_nil, or_false, not_or] at h
  obtain ⟨hdiscard, hlost, hfull⟩ := h
  unfold takeRecord
  dsimp only
  split
  · rw [ent_bump_ne _ _ hlost, ent_bump_ne _ _ hfull]
    rfl
  split
  · rw [ent_storeRecord hdiscard, ent_storeRecord hdiscard]
    rfl
  · exact ent_storeRecord hdiscard r

theorem ent_raiseDev {s : State} {k : Nat} (h : k ∉ recorderCounters) (c r : Nat) (l : List (Nat × Nat)) :
    ent (raiseDev s c r l) k = ent s k := by
  unfold raiseDev raise
  dsimp only
  split
  · rw [ringRecord, if_pos (.inl rfl), ent_takeRecord h]
    rfl
  · rfl

/-! ### Windows, keys and rings -/

section Rows
variable {s : State} {r : Req} {path : Path} {p : Pdu} {u : State}

theorem dictRow_localWindow (h : Writes s r path p u) (hk : pdKey p = 0x280402)
    (hold : (lwValid (tgetD s.mc.windows (selWindow s) 0) && lwTile (tgetD s.mc.windows (selWindow s) 0)) = false) :
    AnsweredOnly { s with mc := { s.mc with windows := tputNZ s.mc.windows (selWindow s) (leNat p.value) } } (dictRow 23 r s) :=
  dictRow_comes_to h hk isUnstored_localWindow rfl rfl fun x b w hw => by
    rw [applyWrite_localWindow, hw]
    exact writeLocalWin_of_not_tile (s := { s with th := servedTh s.th x }) hold _

theorem dictRow_remoteWindow (h : Writes s r path p u) (hk : pdKey p = 0x2B0402) :
    AnsweredOnly { s with fab := { s.fab with rwins := tputNZ s.fab.rwins (selRwin s) (leNat p.value) } } (dictRow 24 r s) :=
  dictRow_comes_to h hk isUnstored_remoteWindow rfl rfl fun x b w hw => by
    rw [applyWrite_remoteWindow, hw]
    rfl

/-- KEY_GENERATE and KEY_ZEROISE come to the command to the selected key. -/
theorem dictRow_keyCommand {n : Nat} (h : Writes s r path p u) (hk : pdKey p = 0x280502) (hn : leNat p.value = n) (hc : n ∈ [1, 2]) :
    AnsweredOnly (keyCmd s (selKey s) n) (dictRow (24 + n) r s) := by
  simp only [List.mem_cons, List.not_mem_nil, or_false] at hc
  rcases hc with rfl | rfl <;>
  · refine dictRow_comes_to h hk isUnstored_keyCommand (by rw [hn]; rfl) (by rw [hn]; rfl) fun x b w hw => ?_
    rw [applyWrite_keyCommand, hw, hn]
    rfl

theorem dictRow_faultRing (h : Writes s r path p u) (hk : pdKey p = 0x2D0202) :
    AnsweredOnly (ringSet s (selFaultOwner s) (leNat p.value)) (dictRow 22 r s) ∧
    (bit (leNat p.value) 0 = true → s.host.up = true →
      .hostWrite (ownerFn s (selFaultOwner s)) (if selFaultOwner s = 0 then 0 else ownerPasid s (selFaultOwner s))
        (bits (leNat p.value) 128 64) [0, 0, 0, 0, 0, 0, 0, 0] ∈ (dictRow 22 r s).out) := by
  obtain ⟨x, b, w, hw, hans, hout⟩ := dictRow_applies h hk isUnstored_faultRing rfl rfl
  rw [applyWrite_faultRing, hw] at hans hout
  refine ⟨?_, fun hv hup => hout.subset (mem_out_writeRing (s := { s with th := servedTh s.th x }) _ hv hup)⟩
  exact ((answeredOnly_served (ringSet s (selFaultOwner s) (leNat p.value)) x).trans (answeredOnly_writeRing ..)).trans hans

/-- Settles O15: each write is applied to the window, key or ring that its selector names. -/
theorem windowsKeysAndRings : Obligations.WindowsKeysAndRings := by
  intro s r path p u h
  refine ⟨fun hk hold => ?_, fun hk => ?_, fun hk hn => ?_, fun hk hn => ?_, fun hk => ?_⟩
  · exact ⟨_, rfl, dictRow_localWindow h hk hold⟩
  · exact ⟨_, rfl, dictRow_remoteWindow h hk⟩
  · exact ⟨_, rfl, dictRow_keyCommand h hk hn (by decide)⟩
  · exact ⟨_, rfl, dictRow_keyCommand h hk hn (by decide)⟩
  · exact ⟨_, rfl, dictRow_faultRing h hk⟩

/-! ### Repairs, maintenance and test access -/

/-- The row of a repair is that of its kind (R267, R268). -/
theorem rowId_repair {n k : Nat} (hk : rqKind n = k) (h : k ∈ [1, 2, 3]) : rowId 0x280606 n = 26 + k := by
  have hkind : (0x280606 = 0x280606) ∧ 1 ≤ rqKind n ∧ rqKind n ≤ 3 := by
    simp only [List.mem_cons, List.not_mem_nil, or_false] at h
    omega
  have hrow : rowId 0x280606 n = if (0x280606 = 0x280606) ∧ 1 ≤ rqKind n ∧ rqKind n ≤ 3 then 26 + rqKind n else 0 := rfl
  rw [hrow, if_pos hkind, hk]

theorem rowId_maintEnter {n : Nat} (h : n ≤ 7) : rowId 0x280601 n = 30 := by
  interval_cases n <;> rfl

/-- A repair asked for: with a spare left it is in progress, and without one it is refused with a fault (R267, R268). -/
theorem dictRow_repair {k : Nat} (h : Writes s r path p u) (hk : pdKey p = 0x280606) (hkind : rqKind (leNat p.value) = k)
    (hc : k ∈ [1, 2, 3]) :
    (spareLeft s (leNat p.value) = true → AnsweredOnly { s with
      dict := tput (tput s.dict 0x280606 (.num (leNat p.value))) 0x280605 (.num 1)
      mc := { s.mc with repairing := some (leNat p.value) } } (dictRow (26 + k) r s)) ∧
    (spareLeft s (leNat p.value) = false → ent (dictRow (26 + k) r s) 0x280605 = 3 ∧
      (dictRow (26 + k) r s).log.raised = s.log.raised + 1 ∧ (dictRow (26 + k) r s).mc = s.mc ∧
      (dictRow (26 + k) r s).queues = s.queues ∧ (dictRow (26 + k) r s).owners = s.owners) := by
  have hid := rowId_repair hkind hc
  refine ⟨fun hspare => ?_, fun hnone => ?_⟩
  · refine dictRow_comes_to h hk isUnstored_repair hid rfl fun x b w hw => ?_
    rw [applyWrite_repair, hw, beginRepair_of_spare (s := setEnt { s with th := servedTh s.th x } 0x280606 (leNat p.value)) hspare]
    rfl
  · obtain ⟨x, b, w, hw, hans, -⟩ := dictRow_applies h hk isUnstored_repair hid rfl
    rw [applyWrite_repair, hw,
      beginRepair_of_no_spare (s := setEnt { s with th := servedTh s.th x } 0x280606 (leNat p.value)) hnone] at hans
    refine ⟨?_, ?_, ?_, ?_, ?_⟩
    · rw [ent_congr hans.dict_eq, ent_raiseDev (by decide)]
      exact ent_setEnt_self ..
    · rw [hans.log_eq]
      exact (raise_log_units _ _).1
    · rw [hans.mc_eq, raiseDev_mc]
      rfl
    · rw [hans.queues_eq, raiseDev_queues]
      rfl
    · rw [hans.owners_eq, raiseDev_owners]
      rfl

theorem dictRow_maintEnter (h : Writes s r path p u) (hk : pdKey p = 0x280601) (hn : leNat p.value ≤ 7)
    (hfree : ent s 0x280601 = 0xFF ∨ ent s 0x280601 = leNat p.value) :
    AnsweredOnly { s with dict := tput s.dict 0x280601 (.num (leNat p.value)) } (dictRow 30 r s) :=
  dictRow_comes_to h hk isUnstored_maintStack (rowId_maintEnter hn) rfl fun x b w hw => by
    rw [applyWrite_maintStack, hw]
    exact setMaint_enter (s := { s with th := servedTh s.th x }) hfree

theorem dictRow_maintEnd (h : Writes s r path p u) (hk : pdKey p = 0x280601) (hn : leNat p.value = 0xFF)
    (hin : ent s 0x280601 ≠ 0xFF) :
    AnsweredOnly (setEnt (zeroStack s (ent s 0x280601)) 0x280601 0xFF) (dictRow 31 r s) :=
  dictRow_comes_to h hk isUnstored_maintStack (by rw [hn]; rfl) rfl fun x b w hw => by
    rw [applyWrite_maintStack, hw, hn]
    exact setMaint_end (s := { s with th := servedTh s.th x }) hin

theorem dictRow_testAccess (h : Writes s r path p u) (hk : pdKey p = 0x280604) (hn : leNat p.value = 1) :
    AnsweredOnly { s with dict := tput s.dict 0x280604 (.num 1) } (dictRow 32 r s) :=
  dictRow_comes_to h hk isUnstored_testAccess (by rw [hn]; rfl) rfl fun x b w hw => by
    rw [applyWrite_testAccess, hw, if_pos hn]
    rfl

end Rows

/-- Settles O16: each write is applied to the repair, the stack in maintenance or the test access. -/
theorem repairsAndMaintenanceOfStacks : Obligations.RepairsAndMaintenanceOfStacks := by
  intro s r path p u h
  refine ⟨fun hk k c hc hkind => ?_, fun hk hn hfree => ?_, fun hk hn hin => ?_, fun hk hn => ?_⟩
  · simp only [List.mem_cons, Prod.mk.injEq, List.not_mem_nil, or_false] at hc
    rcases hc with ⟨rfl, rfl⟩ | ⟨rfl, rfl⟩ | ⟨rfl, rfl⟩
    · exact ⟨_, rfl, dictRow_repair h hk hkind (by decide)⟩
    · exact ⟨_, rfl, dictRow_repair h hk hkind (by decide)⟩
    · exact ⟨_, rfl, dictRow_repair h hk hkind (by decide)⟩
  · exact ⟨_, rfl, dictRow_maintEnter h hk hn hfree⟩
  · exact ⟨_, rfl, dictRow_maintEnd h hk hn hin⟩
  · exact ⟨_, rfl, dictRow_testAccess h hk hn⟩

end Sys2Proof.Machine

/-!
PROOFS. Atomics of queues and the invalidation of lines (R346, R348, R352, R357).
-/
namespace Sys2Proof.Machine

/-! ### Heads that start -/

theorem runHead_of_go {s t : State} {q op sub : Nat} {n : Need} {x : Queue} {o : Op} {h : Head}
    (e : startHead s q op sub n = .go x o h t) (f : State → Queue → Op → Head → State) : runHead s q op sub n f = f t x o h := by
  rw [runHead, e]

/-- What runs for a head that has started and changes no queue but its own leaves every other queue of the state before the start. -/
theorem otherQueues_of_startHead {s t u : State} {q op sub : Nat} {n : Need} {x : Queue} {o : Op} {h : Head}
    (e : startHead s q op sub n = .go x o h t) (hu : OtherQueues q t u) : OtherQueues q s u :=
  (otherQueues_startHead e).trans hu

/-! ### The rows of Table 11-7 -/

/-- Table 11-7: each kind with the command that runs it from a queue, and what it stores in a field of `w` bits. -/
def atomicRows (q w old a b : Nat) : List (Nat × Instr × Nat) :=
  [(0x01, .atomicAdd q, (old + a) % 2 ^ w), (0x02, .atomicFadd q, enc32 (fpAdd (dec32 old) (dec32 a))),
    (0x03, .atomicSwap q, a), (0x04, .atomicCas q, if old = a then b else old), (0x05, .atomicAnd q, old &&& a),
    (0x06, .atomicOr q, old ||| a), (0x07, .atomicXor q, old ^^^ a),
    (0x08, .atomicSmin q, if toSigned w old ≤ toSigned w a then old else a),
    (0x09, .atomicSmax q, if toSigned w old ≤ toSigned w a then a else old), (0x0A, .atomicUmin q, min old a),
    (0x0B, .atomicUmax q, max old a)]

theorem exec_of_mem_atomicRows {q w old a b kind r : Nat} {i : Instr} (h : (kind, i, r) ∈ atomicRows q w old a b) (s : State) :
    exec i s = .next (amExec kind q s) := by
  simp only [atomicRows, List.mem_cons, Prod.mk.injEq, List.not_mem_nil, or_false] at h
  rcases h with ⟨rfl, rfl, -⟩ | ⟨rfl, rfl, -⟩ | ⟨rfl, rfl, -⟩ | ⟨rfl, rfl, -⟩ | ⟨rfl, rfl, -⟩ | ⟨rfl, rfl, -⟩ | ⟨rfl, rfl, -⟩ |
    ⟨rfl, rfl, -⟩ | ⟨rfl, rfl, -⟩ | ⟨rfl, rfl, -⟩ | ⟨rfl, rfl, -⟩ <;> rfl

/-- What an atomic stores is the result of its row; the FP32 sum is one of 4 bytes alone. -/
theorem atomicResult_of_mem_atomicRows {q n old a b kind r : Nat} {i : Instr} (h : (kind, i, r) ∈ atomicRows q (8 * n) old a b)
    (hfadd : kind = 0x02 → n = 4) : atomicResult kind n old a b = some r := by
  simp only [atomicRows, List.mem_cons, Prod.mk.injEq, List.not_mem_nil, or_false] at h
  rcases h with ⟨rfl, -, rfl⟩ | ⟨rfl, -, rfl⟩ | ⟨rfl, -, rfl⟩ | ⟨rfl, -, rfl⟩ | ⟨rfl, -, rfl⟩ | ⟨rfl, -, rfl⟩ | ⟨rfl, -, rfl⟩ |
    ⟨rfl, -, rfl⟩ | ⟨rfl, -, rfl⟩ | ⟨rfl, -, rfl⟩ | ⟨rfl, -, rfl⟩
  case inr.inl => rw [hfadd rfl]; rfl
  all_goals rfl

theorem bytes_of_fadd {s : State} {b : Nat} (h : amFormBad s b = false) (hk : amKind b = 0x02) : amBytes b = 4 := by
  simp only [amFormBad, Bool.or_eq_false_iff, Bool.not_eq_false', amKnown, hk] at h
  simpa using h.1.1.2

/-! ### From the row to its effect -/

/-- A head that starts is of its own row's kind. -/
theorem amOther_of_go {s t : State} {q sub : Nat} {n : Need} {x : Queue} {o : Op} {h : Head}
    (e : startHead s q 0x0B sub n = .go x o h t) : amOther s q (amKind o.body) = false := by
  obtain ⟨hx, ⟨o', ho, rfl, -, -⟩, -⟩ := startHead_go e
  simp [amOther, hx, ho]

theorem amExec_of_go {s t : State} {q : Nat} {x : Queue} {o : Op} {h : Head} (e : startHead s q 0x0B 0 .ready = .go x o h t) :
    amExec (amKind o.body) q s = amRun q t x o h := by
  rw [amExec, amOther_of_go e, if_neg Bool.false_ne_true, runHead_of_go e]

/-- The old value of an atomic at its result pointer, where one is given (R348). -/
def oldKept (s : State) (o : Op) (old : Nat) : State :=
  if amResult o.body = 0 then s else wr s o.owner (amResult o.body) (natLe (amBytes o.body) old)

theorem written_oldKept (s : State) (o : Op) (old : Nat) : Written s (oldKept s o old) := by
  unfold oldKept
  split
  · exact .refl s
  · exact written_wr ..

section Run
variable {s : State} {q : Nat} {x : Queue} {o : Op} {h : Head}

/-- An atomic on clean memory in a window of its owner: the result is written, then the old value at its pointer. -/
theorem amLocal_of_clean {r : Nat} (hwin : winOk s o.owner (raOff (amAddr o.body)) (amBytes o.body) .atomic = true)
    (hclean : poisonAt s (raOff (amAddr o.body)) (amBytes o.body) = false)
    (hr : atomicResult (amKind o.body) (amBytes o.body) (rdNat s o.owner (raOff (amAddr o.body)) (amBytes o.body)) (amOp1 o.body)
      (amOp2 o.body) = some r) :
    amLocal s q o = endOp (oldKept (wr s o.owner (raOff (amAddr o.body)) (natLe (amBytes o.body) r)) o
      (rdNat s o.owner (raOff (amAddr o.body)) (amBytes o.body))) q o 0x01 := by
  simp only [amLocal, hwin, hclean, hr, oldKept, not_true_eq_false, if_false, Bool.false_eq_true, false_and, Option.getD_some]

/-- The result pointer of an atomic is none, or one that its owner may write. -/
def ResultPtrOk (s : State) (o : Op) : Prop := amResult o.body ≠ 0 → ptrOk s o.owner (amResult o.body) (amBytes o.body) .write = true

theorem not_badPtr (hptr : ResultPtrOk s o) :
    ¬ (amResult o.body ≠ 0 ∧ ¬ ptrOk s o.owner (amResult o.body) (amBytes o.body) .write = true) :=
  fun hbad => hbad.2 (hptr hbad.1)

/-- A well-formed atomic on this device's memory. -/
theorem amRun_local (hptr : ResultPtrOk s o) (hform : amFormBad s o.body = false) (hrack : amRack o.body = ownRack s)
    (hdev : raDev (amAddr o.body) = ownDev s) : amRun q s x o h = amLocal s q o := by
  simp only [amRun, if_neg (not_badPtr hptr), hform, hrack, hdev, Bool.false_eq_true, and_self, if_true, if_false]

/-- A well-formed atomic that the guard admits to another device of the rack goes out in the slot that is free for it, or waits for
one (R352). -/
theorem amRun_remote {e : Nat} {k : Option Nat} (hptr : ResultPtrOk s o) (hform : amFormBad s o.body = false)
    (hrack : amRack o.body = ownRack s) (hdev : raDev (amAddr o.body) ≠ ownDev s)
    (hguard : guardWin s o.owner (amRack o.body) (raDev (amAddr o.body)) (raOff (amAddr o.body)) (amBytes o.body) .atomic = some e)
    (hslot : (if s.fab.atomWait.any (fun y => y.1 == raDev (amAddr o.body)) then none else freeSlot s (raDev (amAddr o.body))) = k) :
    amRun q s x o h =
      k.elim { s with fab := { s.fab with atomWait := s.fab.atomWait ++ [(raDev (amAddr o.body), q, o.seq)] } } (sendAtomic s q o) := by
  have hfar : ¬ (amRack o.body = ownRack s ∧ raDev (amAddr o.body) = ownDev s) := fun hnear => hdev hnear.2
  dsimp only [amRun]
  rw [if_neg (not_badPtr hptr), hform, if_neg Bool.false_ne_true, if_neg hfar, hguard]
  dsimp only
  rw [if_neg (not_not.2 hrack), hslot]
  cases k <;> rfl

end Run

/-- A local atomic that has started: its two writes are all that changes but for its own operation and counters. -/
theorem atomic_finishes {s t v u : State} {q : Nat} {x : Queue} {o : Op} {h : Head} (e : startHead s q 0x0B 0 .ready = .go x o h t)
    (hv : Written t v) (hu : u = endOp v q o 0x01) :
    Finished u q o.seq 0x01 ∧ OtherQueues q s u ∧ u.mem = v.mem ∧
    u = { s with queues := u.queues, dict := u.dict, mem := u.mem, units := { s.units with retained := u.units.retained } } := by
  obtain ⟨m, d, k, rfl⟩ := hv
  have hqueues : ({ t with mem := m, dict := d, units := { t.units with retained := k } } : State).queues = t.queues := rfl
  subst hu
  refine ⟨finished_endOp ?_, ?_, rfl, ?_⟩
  · rw [opAt_congr hqueues]
    exact startHead_opAt e
  · exact otherQueues_of_startHead e ((otherQueues_of_queues_eq hqueues).trans (otherQueues_modOp _ _ _ _))
  · rw [startHead_frame e]
    rfl

/-! ### Lines -/

/-- Lines of which none is modified are dropped, and nothing is written back (R357, R359). -/
theorem evictLines_of_clean {s : State} {f : Line → Bool} (h : ∀ y ∈ s.fab.lines, f y = true → y.state ≠ 2) :
    evictLines s f = dropLines s f := by
  have hkept (l : List Line) (hl : ∀ y ∈ l, y.state ≠ 2) (t : State) : l.foldl (fun t y => writeBack t y) t = t := by
    induction l generalizing t with
    | nil => rfl
    | cons y l ih =>
      rw [List.foldl_cons, writeBack, if_neg (hl y List.mem_cons_self), ih fun z hz => hl z (List.mem_cons_of_mem y hz)]
  refine hkept _ (fun y hy => ?_) _
  obtain ⟨hy, hf⟩ := List.mem_filter.1 hy
  exact h y hy hf

/-- Settles O50: a head of a row's kind runs as the atomic, which writes its result and the old value here, or goes out or waits for a
slot; lines of which none is modified are only dropped. -/
theorem atomicsOfQueues : Obligations.AtomicsOfQueues := by
  refine ⟨?_, ?_⟩
  · rintro s q kind old a b w r x o h t i hstart rfl hform hptr rfl rfl rfl rfl hrow
    have hexec : exec i s = .next (amRun q t x o h) := (exec_of_mem_atomicRows hrow s).trans (congrArg _ (amExec_of_go hstart))
    have hresult := atomicResult_of_mem_atomicRows hrow (bytes_of_fadd hform)
    refine ⟨fun hrack hdev hwin hclean => ⟨_, hexec, ?_⟩, fun e hrack hdev hguard => ⟨fun n hnone hslot => ?_, fun hslot => ⟨_, hexec, ?_⟩⟩⟩
    · rw [amRun_local hptr hform hrack hdev, amLocal_of_clean hwin hclean hresult]
      obtain ⟨hfin, hother, hmem, hframe⟩ := atomic_finishes hstart ((written_wr ..).trans (written_oldKept ..)) rfl
      refine ⟨hfin, hother, hmem.trans ?_, hframe⟩
      unfold oldKept
      split <;> rfl
    · rw [hexec, amRun_remote hptr hform hrack hdev hguard (by rw [hnone, if_neg Bool.false_ne_true, hslot])]
      rfl
    · rw [amRun_remote hptr hform hrack hdev hguard (by rw [hslot, ite_self]), Option.elim_none, startHead_frame hstart]
      exact ⟨rfl, rfl, otherQueues_of_startHead hstart (otherQueues_of_queues_eq rfl)⟩
  · intro s q x o h t hstart hclean
    have hlines : t.fab = s.fab := by rw [startHead_frame hstart]
    refine ⟨_, congrArg Host.Outcome.next (runHead_of_go hstart _), ?_⟩
    rw [flcDrop, evictLines_of_clean fun y hy hmine => hclean y (hlines ▸ hy) (by simp_all)]
    refine ⟨finished_endOp ?_, otherQueues_of_startHead hstart (otherQueues_modOp (dropLines t _) _ _ _), ?_, ?_⟩
    · rw [opAt_congr (t := dropLines t _) (s := t) rfl]
      exact startHead_opAt hstart
    · rw [startHead_frame hstart]
      rfl
    · rw [startHead_frame hstart]
      rfl

end Sys2Proof.Machine

/-!
PROOFS. Packets of other devices that are next in their flow: stores, atomics and their ledger, and the requests that the home of a line
takes (R347, R352, R353, R358 to R360).
-/
namespace Sys2Proof.Machine

/-! ### A packet that is next in its flow -/

section Next
variable {s : State} {port : Nat} {k : Packet} {key : Nat} {u : State}

theorem takeSeq_next (h : PacketNext s port k key u) : takeSeq s key k = (u, [(key, k)]) := by
  obtain ⟨⟨-, -, -, -, -, -, -, hseq, hlt, hheld⟩, hhere, rfl, hnone, -⟩ := h
  have hnext : (k.seq + 2 ^ 32 - (flowOf s key).rxNext) % 2 ^ 32 = 0 := by rw [← hseq]; omega
  unfold takeSeq
  simp only [hnext, hheld, if_true, Bool.false_eq_true, if_false, releaseAll, release, hhere, hnone, List.nil_append]

theorem arrive_next (h : PacketNext s port k key u) : arrive s port k = (u, [(key, k)]) := by
  have htake := takeSeq_next h
  obtain ⟨⟨hhears, heth, hrack, hok, hcrc, rfl, htrust, -⟩, -⟩ := h
  have hracks : ¬ (k.eth = true ∧ (k.dstRack ≠ ownRack s ∨ k.srcRack = ownRack s)) := fun hbad =>
    (hrack hbad.1).elim fun hdst hsrc => hbad.2.elim (fun hne => hne hdst) fun he => hsrc he
  have htrusted : ¬ (k.ty ≠ 0x19 ∧ ¬ trustedKey s (keyOfPk k) = true) := fun hbad => htrust.elim hbad.1 hbad.2
  dsimp only [arrive]
  rw [portTranslate_of_headerOk hok, if_neg (by simp [hhears, heth]), if_neg hracks, if_neg (by simp [hok, hcrc]), if_neg htrusted,
    htake]

/-- A packet that passes and is next in its flow is counted and applied, and acknowledged where that is due (R337, R338, R340). -/
theorem receive_next (h : PacketNext s port k key u) (ecc : List EccEvent) :
    receive s [(port, k)] ecc = ackIfDue (applyReady u [(key, k)] ecc) key := by
  have hkey : key = keyOfPk k := h.1.2.2.2.2.2.1
  dsimp only [receive, List.foldl_cons, List.foldl_nil]
  rw [arrive_next h, List.nil_append, hkey]
  rfl

theorem rxRow_next (h : PacketNext s port k key u) {mine : Bool} (hmine : mine = true) (ecc : List EccEvent) :
    rxRow s port k mine ecc = ackIfDue (applyReady u [(key, k)] ecc) key := by
  rw [rxRow, if_pos (.inl hmine), receive_next h]

theorem applyReady_live (h : stalePk u k = false) (hty : toHome k = false) (ecc : List EccEvent) :
    applyReady u [(key, k)] ecc = applyPk u key k ecc := by
  simp [applyReady, h, hty, homeCycle, List.eraseDups]

theorem applyReady_toHome (h : stalePk u k = false) (hty : toHome k = true) (ecc : List EccEvent) :
    applyReady u [(key, k)] ecc = homeCycle u [(key, k)] := by
  simp [applyReady, h, hty]

/-- Counting a packet changes its flow and counters. -/
theorem countApplied_frame (s : State) (key : Nat) (k : Packet) :
    ∃ d flows, countApplied s key k = { s with dict := d, fab := { s.fab with flows := flows } } := by
  unfold countApplied
  dsimp only
  split <;> exact ⟨_, _, rfl⟩

/-- An acknowledgement changes flows, ports and what is sent outside. -/
theorem ackIfDue_frame (s : State) (key : Nat) :
    ∃ o flows ports, ackIfDue s key = { s with out := o, fab := { s.fab with flows := flows, ports := ports } } := by
  unfold ackIfDue
  split
  · obtain ⟨o, ports, hack⟩ := sendAck_frame s key
    exact ⟨_, _, _, hack⟩
  · exact ⟨_, _, _, rfl⟩

end Next

/-! ### What sending leaves of the home's and the target's records -/

/-- What the target of atomics and the home of lines hold: the ledger, the directory and the pointer of the contest. -/
def homeParts (s : State) : Tbl Ledger × Tbl Dir × Nat := (s.fab.ledger, s.fab.dir, s.fab.rrPtr)

theorem dirOf_of_homeParts {s t : State} (h : homeParts t = homeParts s) (l : Nat) : dirOf t l = dirOf s l :=
  congrArg (fun x : Tbl Ledger × Tbl Dir × Nat => tgetD x.2.1 l {}) h

theorem homeParts_of_fab {s t : State} (h : t.fab = s.fab) : homeParts t = homeParts s := by rw [homeParts, homeParts, h]

theorem homeParts_foldl {α : Type} {f : State → α → State} (hf : ∀ u a, homeParts (f u a) = homeParts u) (l : List α) (s : State) :
    homeParts (l.foldl f s) = homeParts s := by
  induction l generalizing s with
  | nil => rfl
  | cons a l ih => exact (ih _).trans (hf s a)

theorem homeParts_raise (s : State) (f : Flt) : homeParts (raise s f) = homeParts s := homeParts_of_fab (raise_fab s f)

theorem homeParts_portSend (s : State) (p dev : Nat) (k : Packet) : homeParts (portSend s p dev k) = homeParts s := by
  obtain ⟨o, ports, h⟩ := portSend_frame s p dev k
  rw [h]
  rfl

theorem homeParts_stopFar (s : State) (q n code : Nat) : homeParts (stopFar s q n code) = homeParts s := by
  unfold stopFar
  split
  · rfl
  split
  · rfl
  · rfl

theorem homeParts_takeLate (s : State) (x : Sent) (target code : Nat) : homeParts (takeLate s x target code) = homeParts s := by
  unfold takeLate
  exact (homeParts_stopFar ..).trans (homeParts_raise s _)

theorem homeParts_unknownAtomics (s : State) (dev : Nat) : homeParts (unknownAtomics s dev) = homeParts s := by
  unfold unknownAtomics
  refine Eq.trans (homeParts_foldl (f := fun t (x : Nat × AtomSlot) => stopFar t x.2.queue x.2.seq 0xA00D)
    (fun u x => homeParts_stopFar ..) _ _) ?_
  exact homeParts_foldl (fun u _ => homeParts_raise u _) _ s

theorem homeParts_failFlow (s : State) (key : Nat) : homeParts (failFlow s key) = homeParts s := by
  unfold failFlow
  refine (homeParts_unknownAtomics ..).trans (Eq.trans (homeParts_foldl (f := fun t x => takeLate t x (keyDev key) 0xA009)
    (fun u x => homeParts_takeLate ..) _ _) ?_)
  exact homeParts_raise s _

theorem homeParts_pumpFlow (n : Nat) (s : State) (key : Nat) : homeParts (pumpFlow n s key) = homeParts s := by
  induction n generalizing s with
  | zero => rfl
  | succ n ih =>
    unfold pumpFlow
    dsimp only
    split
    · rfl
    split
    · rfl
    split
    · exact homeParts_failFlow s key
    · refine (ih _).trans ?_
      split
      · exact homeParts_portSend (setFlow s key _) _ _ _
      · exact homeParts_portSend (setFlow s key _) _ _ _

theorem homeParts_sendPk (s : State) (key q n : Nat) (k : Packet) : homeParts (sendPk s key q n k) = homeParts s := by
  unfold sendPk
  split
  · exact (homeParts_takeLate ..).trans (homeParts_raise s _)
  · exact homeParts_pumpFlow 1 (setFlow s key _) key

theorem homeParts_ackIfDue (s : State) (key : Nat) : homeParts (ackIfDue s key) = homeParts s := by
  obtain ⟨o, flows, ports, h⟩ := ackIfDue_frame s key
  rw [h]
  rfl

theorem homeParts_atomicReply (s : State) (key : Nat) (k : Packet) (n old : Nat) (bad : Bool) :
    homeParts (atomicReply s key k n old bad) = homeParts s := homeParts_sendPk ..

theorem homeParts_cohSend (s : State) (ty dev l owner epoch op : Nat) (data : List Nat) (bad : Bool) :
    homeParts (cohSend s ty dev l owner epoch op data bad) = homeParts s := homeParts_sendPk ..

theorem homeParts_cohAll (s : State) (ty l set owner epoch : Nat) : homeParts (cohAll s ty l set owner epoch) = homeParts s := by
  refine homeParts_foldl (fun u d => ?_) _ s
  split
  · exact homeParts_cohSend ..
  · rfl

/-! ### The home of a line -/

/-- An entry that is not in I is listed as it is set. -/
theorem dirOf_setDir_of_state {d : Dir} (h : d.state ≠ 0) (s : State) (l : Nat) : dirOf (setDir s l d) l = d := by
  have hlisted : ¬ (d.state = 0 ∧ ¬ d.busy = true) := fun hfree => h hfree.1
  rw [dirOf, setDir, if_neg hlisted]
  exact tgetD_tput_self ..

theorem dirOf_setDir_free {s : State} (h : tsorted s.fab.dir = true) (l : Nat) : dirOf (setDir s l {}) l = {} := by
  rw [dirOf, setDir, if_pos ⟨rfl, Bool.false_ne_true⟩]
  exact (tgetD_tdel l l {} h).trans (if_pos rfl)

/-- The state in which the home serves a request: the next contest starts behind its sender (R360). -/
def served (s : State) (dev : Nat) : State := { s with fab := { s.fab with rrPtr := (dev + 1) % 64 } }

/-- One request for a line of the region, alone in its cycle, is served where no transaction is in progress on the line. -/
theorem homeCycle_get {s : State} {key : Nat} {k : Packet} (hty : k.ty = 0x10 ∨ k.ty = 0x11) (hin : cohIn s (raOff k.addr) = true)
    (hidle : (dirOf s (pkLine k)).busy = false) :
    homeCycle s [(key, k)] = homeStart (served s k.src) (pkLine k) (if k.ty = 0x11 then 2 else 1) k.src k.owner k.epoch := by
  have hgets : homeGets s (pkLine k) [(key, k)] =
      homeStart (served s k.src) (pkLine k) (if k.ty = 0x11 then 2 else 1) k.src k.owner k.epoch := by
    rw [homeGets, if_neg (by simp [hidle])]
    rfl
  rcases hty with hty | hty <;>
  · rw [← hgets]
    simp [homeCycle, hty, hin, List.eraseDups_cons]

/-- The write-back of a line by the device that holds it modified, alone in its cycle (R359). -/
theorem homeCycle_put {s : State} {key : Nat} {k : Packet} (hty : k.ty = 0x16) (hstate : (dirOf s (pkLine k)).state = 2)
    (howner : (dirOf s (pkLine k)).ownerDev = k.src) (hidle : (dirOf s (pkLine k)).busy = false) (hkey : keyActive s k.owner = true) :
    homeCycle s [(key, k)] = setDir (wr s k.owner (pkLine k * 256) k.payload) (pkLine k) {} := by
  have hput : homePut s (pkLine k) k.src k.owner k.payload = setDir (wr s k.owner (pkLine k * 256) k.payload) (pkLine k) {} := by
    simp [homePut, hstate, howner, hidle, hkey]
  rw [← hput]
  simp [homeCycle, hty, List.eraseDups]

theorem dirOf_homeGrant_shared (s : State) (l dev owner epoch : Nat) (data : Option (List Nat)) :
    dirOf (homeGrant s l 1 dev owner epoch 0 data) l = { state := 1, sharers := 2 ^ dev, owner := owner } := by
  rw [homeGrant, if_neg (by decide)]
  refine (dirOf_of_homeParts (homeParts_cohSend ..) l).trans ((dirOf_setDir_of_state ?_ s l).trans ?_)
  · exact Nat.one_ne_zero
  · rw [if_pos rfl, Nat.zero_or]

theorem dirOf_homeGrant_modified (s : State) (l dev owner epoch sharers : Nat) (data : Option (List Nat)) :
    dirOf (homeGrant s l 2 dev owner epoch sharers data) l = { state := 2, ownerDev := dev, owner := owner } := by
  rw [homeGrant, if_neg (by decide)]
  exact (dirOf_of_homeParts (homeParts_cohSend ..) l).trans (dirOf_setDir_of_state (Nat.succ_ne_zero 1) s l)

theorem rrPtr_homeGrant (s : State) (l want dev owner epoch sharers : Nat) (data : Option (List Nat)) :
    (homeGrant s l want dev owner epoch sharers data).fab.rrPtr = s.fab.rrPtr := by
  unfold homeGrant
  split
  · rfl
  · exact congrArg (fun x : Tbl Ledger × Tbl Dir × Nat => x.2.2) (homeParts_cohSend ..)

/-- Of one sharer, the others than a device are itself, or none where it is that device. -/
theorem two_pow_and_others {d dev : Nat} (hdev : dev < 64) :
    2 ^ d &&& (2 ^ 64 - 1 - 2 ^ (dev % 64)) = if d = dev ∨ 64 ≤ d then 0 else 2 ^ d := by
  have hmask : 2 ^ 64 - 1 - 2 ^ (dev % 64) = 2 ^ 64 - (2 ^ dev + 1) := by rw [Nat.mod_eq_of_lt hdev]; omega
  refine Nat.eq_of_testBit_eq fun i => ?_
  rw [hmask, Nat.testBit_and, Nat.testBit_two_pow_sub_succ (Nat.pow_lt_pow_right (by decide) hdev)]
  split <;> simp only [Nat.testBit_two_pow, Nat.zero_testBit] <;> grind

section Home
variable {s : State} {l dev owner epoch : Nat}

theorem homeStart_shared_of_free (h : dirOf s l = {}) : homeStart s l 1 dev owner epoch = homeGrant s l 1 dev owner epoch 0 none := by
  simp [homeStart, h]

/-- A shared line is granted modified where no other device shares it, or asked back from the others first (R359). -/
theorem homeStart_modified_of_state (hstate : (dirOf s l).state = 1) :
    homeStart s l 2 dev owner epoch =
      if (dirOf s l).sharers &&& (2 ^ 64 - 1 - 2 ^ (dev % 64)) = 0 then homeGrant s l 2 dev owner epoch 0 none
      else cohAll (setDir s l { dirOf s l with
        busy := true
        want := 2
        requester := dev
        reqOwner := owner
        reqEpoch := epoch
        waitFor := (dirOf s l).sharers &&& (2 ^ 64 - 1 - 2 ^ (dev % 64)) }) 0x13 l
        ((dirOf s l).sharers &&& (2 ^ 64 - 1 - 2 ^ (dev % 64))) (dirOf s l).owner epoch := by
  have hnot : ¬ ((dirOf s l).state = 2 ∧ ¬ ((2 : Nat) ≠ 0 ∧ (dirOf s l).ownerDev = dev)) := fun h => absurd (hstate.symm.trans h.1) (by decide)
  exact (if_neg hnot).trans (if_pos ⟨hstate, by decide⟩)

/-- A line that nobody else holds is granted modified at once (R359). -/
theorem homeStart_modified_of_alone (hdev : dev < 64)
    (h : (dirOf s l).state = 0 ∨ (dirOf s l).state = 1 ∧ (dirOf s l).sharers = 2 ^ dev) :
    homeStart s l 2 dev owner epoch = homeGrant s l 2 dev owner epoch 0 none := by
  rcases h with hfree | ⟨hshared, hmine⟩
  · simp [homeStart, hfree]
  · have hothers := two_pow_and_others (d := dev) hdev
    rw [if_pos (.inl rfl), ← hmine] at hothers
    exact (homeStart_modified_of_state hshared).trans (if_pos hothers)

/-- A line that another device shares is asked back from it first (R359). -/
theorem homeStart_modified_of_shared {d : Nat} (hdev : dev < 64) (hd : d < 64) (hne : d ≠ dev) (hstate : (dirOf s l).state = 1)
    (hshared : (dirOf s l).sharers = 2 ^ d) :
    homeStart s l 2 dev owner epoch = cohAll (setDir s l { dirOf s l with
      busy := true, want := 2, requester := dev, reqOwner := owner, reqEpoch := epoch, waitFor := 2 ^ d }) 0x13 l (2 ^ d)
      (dirOf s l).owner epoch := by
  have hothers := two_pow_and_others (d := d) hdev
  rw [if_neg (by omega)] at hothers
  rw [homeStart_modified_of_state hstate, hshared, hothers]
  exact if_neg (Nat.two_pow_pos d).ne'

end Home

/-! ### Stores and atomics at their target -/

theorem applyStore_of_admitted {s : State} {key : Nat} {k : Packet} (h : farBad s k (pkOff k) k.payload.length = none) :
    applyStore s key k = wr s k.owner (pkOff k) k.payload := by
  simp only [applyStore, farWrite, h]

/-- An atomic in a free slot, sound and clean: memory holds the result and the ledger the old value (R353). -/
theorem applyAtomic_of_free {s : State} {key : Nat} {k : Packet} {v : Nat} {e : Ledger}
    (hfree : tget? s.fab.ledger (ledgerKey k) = none) (hok : farBad s k (pkOff k) (atomicBytes k) = none)
    (hwidth : atomicBytes k = 4 ∨ atomicBytes k = 8) (halign : pkOff k % atomicBytes k = 0)
    (hclean : poisonAt s (pkOff k) (atomicBytes k) = false)
    (hv : atomicResult k.op (atomicBytes k) (rdNat s k.owner (pkOff k) (atomicBytes k)) (leNat (k.payload.take (atomicBytes k)))
      (leNat (k.payload.drop (atomicBytes k))) = some v)
    (he : e = Ledger.mk k.owner k.epoch k.crc (rdNat s k.owner (pkOff k) (atomicBytes k)) (atomicBytes k)) :
    applyAtomic s key k = atomicReply
      { wr s k.owner (pkOff k) (natLe (atomicBytes k) v) with fab := { s.fab with ledger := tput s.fab.ledger (ledgerKey k) e } }
      key k e.width e.old false := by
  have hsound : ¬ (poisonAt s (pkOff k) (atomicBytes k) = true ∨ ¬ (atomicBytes k = 4 ∨ atomicBytes k = 8) ∨
      pkOff k % atomicBytes k ≠ 0) := by
    simp [hclean, hwidth, halign]
  subst he
  simp only [applyAtomic, hfree, hok, hv, if_neg hsound, wr_fab]

/-- The same atomic again: the ledger answers for it (R353). -/
theorem applyAtomic_of_taken {s : State} {key : Nat} {k : Packet} {e : Ledger} (h : tget? s.fab.ledger (ledgerKey k) = some e)
    (howner : e.owner = k.owner) (hepoch : e.epoch = k.epoch) (hcrc : e.crc = k.crc) :
    applyAtomic s key k = atomicReply (bump s 0x2B0705 1) key k e.width e.old false := by
  simp only [applyAtomic, h, howner, hepoch, hcrc, and_self, if_true]

/-! ### O53 -/

section Packets
variable {s : State} {port : Nat} {k : Packet} {key : Nat} {u : State}

/-- A packet applied by its type, and then acknowledged where that is due. -/
theorem rxRow_applies (h : PacketNext s port k key u) {ty : Nat} (hty : k.ty = ty) (hlive : toHome k = false) :
    rxRow s port k (k.ty == ty) [] = ackIfDue (applyPk u key k []) key := by
  rw [rxRow_next h (beq_iff_eq.2 hty), applyReady_live h.2.2.2.2 hlive]

theorem receive_home (h : PacketNext s port k key u) (hhome : toHome k = true) :
    receive s [(port, k)] [] = ackIfDue (homeCycle u [(key, k)]) key := by
  rw [receive_next h, applyReady_toHome h.2.2.2.2 hhome]

theorem exec_getS (h : PacketNext s port k key u) (hty : k.ty = 0x10) :
    exec (.getS port k []) s = .next (ackIfDue (homeCycle u [(key, k)]) key) := by
  have hhome : toHome k = true := by simp [toHome, hty]
  change execGetS port k [] s = _
  rw [execGetS, if_pos hty, rivalsOf, List.filter_cons_of_pos hhome]
  exact congrArg Host.Outcome.next (receive_home h hhome)

theorem exec_getM (h : PacketNext s port k key u) (hty : k.ty = 0x11) :
    exec (.getM port k []) s = .next (ackIfDue (homeCycle u [(key, k)]) key) := by
  have hhome : toHome k = true := by simp [toHome, hty]
  change execGetM port k [] s = _
  rw [execGetM, if_pos hty, rivalsOf, List.filter_cons_of_pos hhome]
  exact congrArg Host.Outcome.next (receive_home h hhome)

theorem exec_putM (h : PacketNext s port k key u) (hty : k.ty = 0x16) :
    exec (.putM port k) s = .next (ackIfDue (homeCycle u [(key, k)]) key) := by
  refine congrArg Host.Outcome.next ?_
  rw [rxRow, if_pos (.inl (beq_iff_eq.2 hty)), receive_home h (by simp [toHome, hty])]

theorem store_writes (h : PacketNext s port k key u) (hty : k.ty = 0x03) (hok : farBad u k (pkOff k) k.payload.length = none) :
    Runs (.store port k) s (fun t => t.mem = (wr u k.owner (pkOff k) k.payload).mem ∧ t.queues = s.queues ∧ t.syu = s.syu ∧
      t.log = s.log) := by
  refine ⟨_, congrArg Host.Outcome.next (rxRow_applies h hty (by simp [toHome, hty])), ?_⟩
  have happly : applyPk u key k [] = wr u k.owner (pkOff k) k.payload := by
    rw [← applyStore_of_admitted (key := key) hok]
    simp only [applyPk, hty]
  obtain ⟨o, flows, ports, hack⟩ := ackIfDue_frame (wr u k.owner (pkOff k) k.payload) key
  obtain ⟨d, flows', hcount⟩ := countApplied_frame s key k
  obtain ⟨-, -, hu, -⟩ := h
  rw [happly, hack]
  refine ⟨rfl, ?_, ?_, ?_⟩
  · rw [wr_queues, hu, hcount]
  · rw [wr_syu, hu, hcount]
  · rw [wr_log, hu, hcount]

theorem atomic_applies (h : PacketNext s port k key u) (hty : k.ty = 0x04) :
    exec (.atomicPacket port k) s = .next (ackIfDue (applyAtomic u key k) key) := by
  refine congrArg Host.Outcome.next ((rxRow_applies h hty (by simp [toHome, hty])).trans ?_)
  simp only [applyPk, hty]

theorem atomic_again (h : PacketNext s port k key u) (hty : k.ty = 0x04) {e : Ledger} (htaken : tget? u.fab.ledger (ledgerKey k) = some e)
    (howner : e.owner = k.owner) (hepoch : e.epoch = k.epoch) (hcrc : e.crc = k.crc) :
    Runs (.atomicPacket port k) s (fun t => t = ackIfDue (atomicReply (bump u 0x2B0705 1) key k e.width e.old false) key ∧
      tget? t.fab.ledger (ledgerKey k) = some e) := by
  refine ⟨_, atomic_applies h hty, ?_⟩
  rw [applyAtomic_of_taken htaken howner hepoch hcrc]
  have hparts : homeParts (ackIfDue (atomicReply (bump u 0x2B0705 1) key k e.width e.old false) key) = homeParts u :=
    (homeParts_ackIfDue ..).trans (homeParts_atomicReply ..)
  exact ⟨rfl, (congrArg (fun x : Tbl Ledger × Tbl Dir × Nat => tget? x.1 (ledgerKey k)) hparts).trans htaken⟩

theorem release_frees (h : PacketNext s port k key u) (hty : k.ty = 0x06) :
    Runs (.atomicRelease port k) s (fun t => t.fab.ledger = tdel s.fab.ledger (ledgerKey k) ∧ t.mem = s.mem ∧ t.queues = s.queues ∧
      t.log = s.log) := by
  refine ⟨_, congrArg Host.Outcome.next (rxRow_applies h hty (by simp [toHome, hty])), ?_⟩
  have happly : applyPk u key k [] = applyRelease u k := by simp only [applyPk, hty]
  obtain ⟨o, flows, ports, hack⟩ := ackIfDue_frame (applyRelease u k) key
  obtain ⟨d, flows', hcount⟩ := countApplied_frame s key k
  obtain ⟨-, -, hu, -⟩ := h
  rw [happly, hack, hu, hcount]
  exact ⟨rfl, rfl, rfl, rfl⟩

theorem getS_grants (h : PacketNext s port k key u) (hty : k.ty = 0x10) (hin : cohIn u (raOff k.addr) = true)
    (hfree : dirOf u (pkLine k) = {}) :
    Runs (.getS port k []) s (fun t => dirOf t (pkLine k) = { state := 1, sharers := 2 ^ k.src, owner := k.owner } ∧
      t.fab.rrPtr = (k.src + 1) % 64) := by
  have hcycle : homeCycle u [(key, k)] = homeGrant (served u k.src) (pkLine k) 1 k.src k.owner k.epoch 0 none := by
    rw [homeCycle_get (.inl hty) hin (by rw [hfree]), hty]
    exact homeStart_shared_of_free (s := served u k.src) hfree
  refine ⟨_, exec_getS h hty, ?_, ?_⟩
  · rw [dirOf_of_homeParts (homeParts_ackIfDue ..), hcycle, dirOf_homeGrant_shared]
  · obtain ⟨o, flows, ports, hack⟩ := ackIfDue_frame (homeCycle u [(key, k)]) key
    rw [hack, hcycle]
    exact rrPtr_homeGrant ..

theorem getM_grants (h : PacketNext s port k key u) (hty : k.ty = 0x11) (hin : cohIn u (raOff k.addr) = true)
    (hidle : (dirOf u (pkLine k)).busy = false) (hsrc : k.src < 64)
    (halone : (dirOf u (pkLine k)).state = 0 ∨ (dirOf u (pkLine k)).state = 1 ∧ (dirOf u (pkLine k)).sharers = 2 ^ k.src) :
    Runs (.getM port k []) s (fun t => dirOf t (pkLine k) = { state := 2, ownerDev := k.src, owner := k.owner }) := by
  have hcycle : homeCycle u [(key, k)] = homeGrant (served u k.src) (pkLine k) 2 k.src k.owner k.epoch 0 none := by
    rw [homeCycle_get (.inr hty) hin hidle, if_pos hty]
    exact homeStart_modified_of_alone (s := served u k.src) hsrc halone
  refine ⟨_, exec_getM h hty, ?_⟩
  beta_reduce
  rw [dirOf_of_homeParts (homeParts_ackIfDue ..), hcycle, dirOf_homeGrant_modified]

theorem getM_waits {d : Nat} (h : PacketNext s port k key u) (hty : k.ty = 0x11) (hin : cohIn u (raOff k.addr) = true)
    (hidle : (dirOf u (pkLine k)).busy = false) (hsrc : k.src < 64) (hd : d < 64) (hne : d ≠ k.src)
    (hstate : (dirOf u (pkLine k)).state = 1) (hshared : (dirOf u (pkLine k)).sharers = 2 ^ d) :
    Runs (.getM port k []) s (fun t => (dirOf t (pkLine k)).busy = true ∧ (dirOf t (pkLine k)).requester = k.src ∧
      (dirOf t (pkLine k)).waitFor = 2 ^ d ∧ (dirOf t (pkLine k)).want = 2) := by
  have hstart := homeStart_modified_of_shared (s := served u k.src) (l := pkLine k) (owner := k.owner) (epoch := k.epoch) hsrc hd hne
    hstate hshared
  refine ⟨_, exec_getM h hty, ?_⟩
  beta_reduce
  rw [dirOf_of_homeParts (homeParts_ackIfDue ..), homeCycle_get (.inr hty) hin hidle, if_pos hty, hstart,
    dirOf_of_homeParts (homeParts_cohAll ..), dirOf_setDir_of_state]
  · exact ⟨rfl, rfl, rfl, rfl⟩
  · exact ne_of_eq_of_ne hstate Nat.one_ne_zero

theorem putM_writes_back (h : PacketNext s port k key u) (hty : k.ty = 0x16) (hstate : (dirOf u (pkLine k)).state = 2)
    (howner : (dirOf u (pkLine k)).ownerDev = k.src) (hidle : (dirOf u (pkLine k)).busy = false) (hkey : keyActive u k.owner = true)
    (hsorted : tsorted s.fab.dir = true) :
    Runs (.putM port k) s (fun t => dirOf t (pkLine k) = {} ∧ t.mem = (wr u k.owner (pkLine k * 256) k.payload).mem ∧
      t.queues = s.queues) := by
  have hcycle := homeCycle_put (key := key) hty hstate howner hidle hkey
  obtain ⟨d, flows', hcount⟩ := countApplied_frame s key k
  refine ⟨_, exec_putM h hty, ?_⟩
  obtain ⟨-, -, hu, -⟩ := h
  refine ⟨?_, ?_⟩
  · rw [dirOf_of_homeParts (homeParts_ackIfDue ..), hcycle, dirOf_setDir_free]
    rw [wr_fab, hu, hcount]
    exact hsorted
  · obtain ⟨o, flows, ports, hack⟩ := ackIfDue_frame (homeCycle u [(key, k)]) key
    rw [hack, hcycle]
    refine ⟨rfl, ?_⟩
    change (wr u k.owner (pkLine k * 256) k.payload).queues = s.queues
    rw [wr_queues, hu, hcount]

end Packets

/-- Settles O53: a packet that is next in its flow is applied alone, and what it does at its target, or at the home of its line, stands
beside the acknowledgement that may follow. -/
theorem remoteAccessesActOnce : Obligations.RemoteAccessesActOnce := by
  intro s port k key u h
  refine ⟨store_writes h, fun hty v e hfree hok hwidth halign hclean hv he => ?_, fun hty e => atomic_again h hty, release_frees h,
    getS_grants h, getM_grants h, fun hty d => getM_waits h hty, fun hty hstate howner hidle _ => putM_writes_back h hty hstate howner hidle⟩
  rw [atomic_applies h hty, applyAtomic_of_free hfree hok hwidth halign hclean hv he]

end Sys2Proof.Machine

/-!
PROOFS. Memory errors and repairs end (O33): a raised fault fails no part and comes between a repair and the next one without letting
it begin; the ends of repairs; what the patrol finds.
-/
namespace Sys2Proof.Machine

/-! ### A raised fault leaves the failed pseudo-channels -/

theorem takeGranule_failedPc (o g : Nat) (m : Mem) (n : Nat) : (takeGranule o g m n).failedPc = m.failedPc := by
  unfold takeGranule
  split
  · rfl
  · split <;> rfl

theorem wrMem_failedPc (m : Mem) (o g a : Nat) (b : List Nat) : (wrMem m o g a b).failedPc = m.failedPc := by
  have htaken : ∀ l : List Nat, (l.foldl (takeGranule o g) m).failedPc = m.failedPc := fun l =>
    List.foldlRecOn (motive := fun t : Mem => t.failedPc = m.failedPc) l _ rfl fun t ht n _ => (takeGranule_failedPc o g t n).trans ht
  unfold wrMem
  split
  · rfl
  · dsimp only
    split
    · rfl
    · exact htaken _

theorem writeMem_failedPc (m : Mem) (o g a : Nat) (b : List Nat) : (writeMem m o g a b).1.failedPc = m.failedPc := by
  unfold writeMem
  split
  · exact wrMem_failedPc m o g a b
  · refine List.foldlRecOn (motive := fun t : Mem => t.failedPc = m.failedPc) _ _ rfl fun t ht n _ => ?_
    unfold wrParts
    dsimp only
    split
    · exact ht
    · exact (wrMem_failedPc ..).trans ht

theorem wr_failedPc (s : State) (o a : Nat) (b : List Nat) : (wr s o a b).mem.failedPc = s.mem.failedPc := by
  unfold wr
  dsimp only
  split <;> exact writeMem_failedPc ..

theorem storeRecord_failedPc (s : State) (r : Nat) : (storeRecord s r).mem.failedPc = s.mem.failedPc := by
  unfold storeRecord
  dsimp only
  split
  · rw [noticeOf_mem, wr_failedPc]
  · rw [noticeOf_mem]

theorem takeRecord_failedPc (s : State) (r : Nat) : (takeRecord s r).mem.failedPc = s.mem.failedPc := by
  unfold takeRecord
  dsimp only
  split
  · rfl
  split
  · rw [storeRecord_failedPc, storeRecord_failedPc]
  · exact storeRecord_failedPc s r

theorem raiseDev_failedPc (s : State) (c r : Nat) (l : List (Nat × Nat)) : (raiseDev s c r l).mem.failedPc = s.mem.failedPc := by
  unfold raiseDev raise
  dsimp only
  split
  · rw [ringRecord, if_pos (.inl rfl), takeRecord_failedPc]
  · rfl

/-! ### Pseudo-channels that fail -/

theorem length_filter_insertKey (p : Nat → Bool) (l : List Nat) (x : Nat) :
    ((insertKey l x).filter p).length ≤ (l.filter p).length + 1 := by
  induction l with
  | nil => exact List.length_filter_le p [x]
  | cons y r ih =>
    unfold insertKey
    split
    · rw [List.filter_cons]
      split
      · exact Nat.le_refl _
      · exact Nat.le_succ _
    split
    · exact Nat.le_succ _
    · simp only [List.filter_cons]
      split
      · exact Nat.succ_le_succ ih
      · exact ih

/-- With under 15 others of its stack failed, a pseudo-channel that fails takes no stack with it (R259). -/
theorem failPc_alone {s : State} {pc : Nat} (hin : pc ∉ s.mem.failedPc)
    (hfew : (s.mem.failedPc.filter (fun x => x / 64 == pc / 64)).length < 15) (cause : Nat) :
    failPc s pc cause = raiseDev { s with mem := { s.mem with failedPc := insertKey s.mem.failedPc pc } } 0x7005 srcMc
      [(pc / 64, 3), (pc, 9), (Config.causeCode 0x7005 cause, 8)] := by
  have hlen := length_filter_insertKey (fun x => x / 64 == pc / 64) s.mem.failedPc pc
  unfold failPc
  rw [if_neg (by rwa [List.contains_iff_mem])]
  dsimp only
  rw [raiseDev_failedPc]
  exact if_neg (Nat.not_le.2 (Nat.lt_of_le_of_lt hlen (Nat.succ_lt_succ hfew)))

theorem exec_pcRetrainFailure {s : State} {pc : Nat} (hpc : pc < 512) (hrails : s.power.railState = 2) :
    exec (.pcRetrainFailure pc) s = .next (
      if tgetD s.mc.retrainFails pc 0 + 1 < 3 then
        setMc s (fun m => { m with retrainFails := tput m.retrainFails pc (tgetD s.mc.retrainFails pc 0 + 1) })
      else failPc (setMc s (fun m => { m with retrainFails := tdel m.retrainFails pc })) pc 1) := by
  refine congrArg Host.Outcome.next ?_
  dsimp only
  rw [if_neg (by omega)]

/-! ### Repairs -/

section Repairs
variable {s : State} {n : Nat}

theorem nextRepair_of_off (h : ent s 0x280103 = 0) : nextRepair s = s := if_pos (.inr h)

/-- A repair by request that ends well, with no candidate taken next. -/
theorem exec_repairDone_good (hrun : s.mc.repairing = some n) (hn : n < 2 ^ 64)
    (hoff : ent (repairDone (setMc s (fun m => { m with repairing := none })) n) 0x280103 = 0) :
    exec (.repairDone 2) s = .next (setEnt (repairDone (setMc s (fun m => { m with repairing := none })) n) 0x280605 2) := by
  refine congrArg Host.Outcome.next ?_
  simp only [hrun, Nat.mod_eq_of_lt hn, if_neg (Nat.not_le.2 hn), if_true]
  exact nextRepair_of_off (by rwa [ent_setEnt_ne _ _ (by decide)])

theorem repairDone_hard (h : rqKind n = 2) : repairDone s n = setMc s (fun m => { m with
    rowsUsed := tupd m.rowsUsed (rqGroup n) 0 (· + 1)
    candidates := m.candidates.filter (fun x => rqRow x != rqRow n)
    tracker := m.tracker.filter (fun x => x.1 != rqRow n) }) := by
  simp [repairDone, h]

theorem repairDone_lane (h : rqKind n = 3) : repairDone s n =
    setMc (storeCopies s (fun c => { c with laneRepairs := c.laneRepairs ++ [n] }))
      (fun m => { m with lanesUsed := tupd m.lanesUsed (rqPc n) 0 (· + 1) }) := if_pos h

/-- Storing the copies writes no more than the two slots. -/
theorem storeCopies_frame (s : State) (f : Copy → Copy) :
    ∃ a b, storeCopies s f = { s with th := { s.th with copyA := a, copyB := b } } := by
  unfold storeCopies
  dsimp only
  split <;> exact ⟨_, _, rfl⟩

/-- The copy written last is the newest one after it (R455, R456). -/
theorem newestCopy_storeCopies {f : Copy → Copy} (hf : ∀ c : Copy, (f { c with valid := true }).valid = true) (s : State) :
    newestCopy (storeCopies s f) = { (f { newestCopy s with valid := true }) with seq := (newestCopy s).seq + 2 } := by
  unfold storeCopies
  dsimp only
  split
  · rw [newestCopy, if_pos ⟨hf _, .inr (Nat.lt_succ_self _)⟩]
  · exact if_neg fun h => h.2.elim (fun hinvalid => hinvalid (hf _)) (Nat.not_lt.2 (Nat.le_succ _))

theorem exec_repairDone_failed (hrun : s.mc.repairing = some n) (hn : n < 2 ^ 64) (hoff : ent s 0x280103 = 0) {k : Nat} (hk : k ≠ 2) :
    exec (.repairDone k) s = .next (raiseDev { s with
      dict := tput s.dict 0x280605 (.num 4)
      mc := { s.mc with
        repairing := none
        candidates := s.mc.candidates.filter (fun x => rqRow x != rqRow n) } } 0x7007 srcMc [(n, 64)]) := by
  refine congrArg Host.Outcome.next ?_
  simp only [hrun, Nat.mod_eq_of_lt hn, if_neg (Nat.not_le.2 hn), if_neg hk]
  refine nextRepair_of_off ?_
  rw [ent_raiseDev (by decide), ent_setEnt_ne _ _ (by decide)]
  exact hoff

theorem hardRow_repaired (hrun : s.mc.repairing = some n) (hn : n < 2 ^ 64) (hoff : ent s 0x280103 = 0) (h : rqKind n = 2) :
    exec (.repairDone 2) s = .next { s with
      dict := tput s.dict 0x280605 (.num 2)
      mc := { s.mc with
        repairing := none
        rowsUsed := tput s.mc.rowsUsed (rqGroup n) (tgetD s.mc.rowsUsed (rqGroup n) 0 + 1)
        candidates := s.mc.candidates.filter (fun x => rqRow x != rqRow n)
        tracker := s.mc.tracker.filter (fun x => x.1 != rqRow n) } } := by
  rw [exec_repairDone_good hrun hn (by rw [repairDone_hard h]; exact hoff), repairDone_hard h]
  rfl

theorem lane_repaired (hrun : s.mc.repairing = some n) (hn : n < 2 ^ 64) (hoff : ent s 0x280103 = 0) (h : rqKind n = 3) :
    Runs (.repairDone 2) s (fun t => t.mc = { s.mc with
        repairing := none
        lanesUsed := tput s.mc.lanesUsed (rqPc n) (tgetD s.mc.lanesUsed (rqPc n) 0 + 1) } ∧
      (newestCopy t).laneRepairs = (newestCopy s).laneRepairs ++ [n] ∧ t.dict = tput s.dict 0x280605 (.num 2) ∧
      t = { s with
        dict := t.dict
        mc := t.mc
        th := { s.th with
          copyA := t.th.copyA
          copyB := t.th.copyB } }) := by
  have hdone := repairDone_lane (s := setMc s (fun m => { m with repairing := none })) h
  have hnewest := newestCopy_storeCopies (f := fun c => { c with laneRepairs := c.laneRepairs ++ [n] }) (fun _ => rfl)
    (setMc s (fun m => { m with repairing := none }))
  obtain ⟨a, b, hcopies⟩ := storeCopies_frame (setMc s (fun m => { m with repairing := none }))
    (fun c => { c with laneRepairs := c.laneRepairs ++ [n] })
  rw [hcopies] at hdone hnewest
  refine ⟨_, exec_repairDone_good hrun hn (by rw [hdone]; exact hoff), ?_⟩
  rw [hdone]
  exact ⟨rfl, congrArg Copy.laneRepairs hnewest, rfl, rfl⟩

end Repairs

/-! ### The patrol -/

theorem raiseOwner_zero (s : State) (c r : Nat) (l : List (Nat × Nat)) : raiseOwner s c r 0 l = raiseDev s c r l := rfl

section Patrol
variable {s : State}

theorem exec_patrolScrub_on (hon : ent s 0x280101 ≠ 0) (hrails : s.power.railState = 2) (l : List EccEvent) (b : Bool) :
    exec (.patrolScrub l b) s = .next (
      if b then setMc (bump (l.foldl (fun t e => eccFound t 0x7002 0 e) s) 0x280204 1) (fun m => { m with tracker := [], badRows := [] })
      else l.foldl (fun t e => eccFound t 0x7002 0 e) s) := by
  refine congrArg Host.Outcome.next ?_
  rw [if_neg (by simp [hon, hrails])]

theorem exec_patrolScrub_off (h : ent s 0x280101 = 0) (l : List EccEvent) (b : Bool) : exec (.patrolScrub l b) s = .next s :=
  congrArg Host.Outcome.next (if_pos (.inl h))

/-- An uncorrectable error at a clean offset, in the first bad row of a pass: it is poisoned, counted and raised (R256, R257). -/
theorem eccFound_first {a : Nat} (ha : a < 2 ^ 39) (hclean : poisonAt s a 1 = false) (hfirst : s.mc.badRows = []) :
    eccFound s 0x7002 0 ⟨a, false⟩ = setMc (raiseDev (bump (poisonS s a) 0x280202 1) 0x7002 srcMc
      [(a, 39), (stackOf a, 3), (pcOf a, 9), (rowOf a, 14)]) (fun m => { m with badRows := [rowKeyOf a] }) := by
  have hfew := List.length_filter_le (fun k => k / 2 ^ 20 == pcOf a) [rowKeyOf a]
  simp only [eccFound, hbmBytes, Nat.mod_eq_of_lt ha, hclean, setMc, raiseOwner_zero, raiseDev_mc, bump, setEnt_mc, poisonS, hfirst,
    insertKey]
  exact if_neg (Nat.not_le.2 (Nat.lt_of_le_of_lt hfew (by rw [List.length_singleton]; decide)))

end Patrol

/-- Settles O33: with the automatic repair off no repair follows the one that ends, and one error alone fails no pseudo-channel. -/
theorem memoryErrorsAndRepairsEnd : Obligations.MemoryErrorsAndRepairsEnd := by
  intro s
  refine ⟨fun pc hpc hrails => ⟨fun hfew => ?_, fun hthird hin hothers =>
    ⟨Config.causeCode 0x7005 1, ?_⟩⟩, fun n hrun hn hoff =>
    ⟨hardRow_repaired hrun hn hoff, lane_repaired hrun hn hoff, fun k => exec_repairDone_failed hrun hn hoff⟩, fun hnone k => ?_,
    fun hon hrails => ⟨exec_patrolScrub_on hon hrails [] true, fun a ha hclean hfirst => ⟨_, rfl, ?_⟩⟩,
    fun h => exec_patrolScrub_off h, fun b hb => ?_⟩
  · rw [exec_pcRetrainFailure hpc hrails, if_pos (by omega)]
    rfl
  · rw [exec_pcRetrainFailure hpc hrails, if_neg (by omega)]
    exact congrArg Host.Outcome.next (failPc_alone (s := setMc s fun m => { m with retrainFails := tdel m.retrainFails pc }) hin hothers 1)
  · exact congrArg Host.Outcome.next (by simp only [hnone])
  · rw [exec_patrolScrub_on hon hrails]
    exact congrArg Host.Outcome.next (eccFound_first ha hclean hfirst)
  · exact congrArg Host.Outcome.next (if_pos hb)

end Sys2Proof.Machine

/-!
PROOFS. The Bobbin Pool Manager: buffers taken, acquired and released by queues (R285 to R289), and pools built, refilled and
scanned (R279, R281, R282, R294).
-/
namespace Sys2Proof.Machine

/-! ### Pools and records after a change -/

@[simp] theorem recAt_setRec_self (s : State) (i : Nat) (r : BufRec) : recAt (setRec s i r) i = r :=
  tgetD_tput_self s.pools.recs i r {}

/-- Setting a record leaves every other. -/
theorem recAt_setRec_ne (s : State) {i j : Nat} (r : BufRec) (h : j ≠ i) : recAt (setRec s i r) j = recAt s j :=
  tgetD_tput_ne s.pools.recs r {} h

@[simp] theorem recAt_setPool (s : State) (p i : Nat) (y : Pool) : recAt (setPool s p y) i = recAt s i := rfl

/-- The second of two writes of a pool stands, whatever record is set between them. -/
theorem setPool_setRec_setPool (s : State) (p i : Nat) (y z : Pool) (r : BufRec) :
    setPool (setRec (setPool s p y) i r) p z = setPool (setRec s i r) p z :=
  congrArg (fun l => { s with pools := { s.pools with pools := l, recs := tput s.pools.recs i r } }) (tput_tput s.pools.pools p y z)

theorem poolOf_congr {s t : State} (h : t.pools = s.pools) (p : Nat) : poolOf t p = poolOf s p := by rw [poolOf, poolOf, h]

theorem recAt_congr {s t : State} (h : t.pools = s.pools) (i : Nat) : recAt t i = recAt s i := by rw [recAt, recAt, h]

/-! ### One buffer from a head cache -/

/-- A pool whose top cached buffer is popped, the rest of the cache being `c` (R281). -/
def poppedPool (y : Pool) (c : List Nat) : Pool := { y with cache := c, free := y.free - 1 }

/-- A pool whose top cached buffer is popped and given to its requester (R286). -/
def grantedPool (y : Pool) (c : List Nat) : Pool := { poppedPool y c with held := y.held + 1, low := min y.low (y.free - 1) }

/-- The record of a buffer of a pool given to its requester (R286). -/
def grantedRec (s : State) (p owner epoch : Nat) (r : BufRec) : BufRec :=
  { r with alloc := uptimeMs s, epoch := epoch, refs := 1, owner := owner, state := 1, reported := false, pool := p }

/-- The pools and records once buffer `i`, popped from the cache of a pool, is given to its requester. -/
def grantedState (s : State) (p owner epoch i : Nat) (c : List Nat) : State :=
  let y := poolOf s p
  let k := pdFirst y.desc + i
  setPool (setRec s k (grantedRec s p owner epoch (recAt s k))) p (grantedPool y c)

@[simp] theorem poolOf_grantedState_self (s : State) (p owner epoch i : Nat) (c : List Nat) :
    poolOf (grantedState s p owner epoch i c) p = grantedPool (poolOf s p) c := poolOf_setPool_self ..
@[simp] theorem recAt_grantedState_self (s : State) (p owner epoch i : Nat) (c : List Nat) :
    recAt (grantedState s p owner epoch i c) (pdFirst (poolOf s p).desc + i) =
      grantedRec s p owner epoch (recAt s (pdFirst (poolOf s p).desc + i)) := recAt_setRec_self ..

theorem poolOf_grantedState_ne (s : State) {p j : Nat} (owner epoch i : Nat) (c : List Nat) (h : j ≠ p) :
    poolOf (grantedState s p owner epoch i c) j = poolOf s j := poolOf_setPool_ne _ _ h
theorem recAt_grantedState_ne (s : State) {p i j : Nat} (owner epoch : Nat) (c : List Nat) (h : j ≠ pdFirst (poolOf s p).desc + i) :
    recAt (grantedState s p owner epoch i c) j = recAt s j := recAt_setRec_ne s _ h

/-- The buffer's first granule cleared under its requester's key as well, and its allocation counted (R286). -/
def clearedState (s : State) (p owner epoch i : Nat) (c : List Nat) : State :=
  bump (wr (grantedState s p owner epoch i c) owner (bufPtr (poolOf s p).desc i) (List.replicate 256 0)) 0x290301 1

theorem clearedState_queues (s : State) (p owner epoch i : Nat) (c : List Nat) :
    (clearedState s p owner epoch i c).queues = s.queues := wr_queues ..
theorem clearedState_mc (s : State) (p owner epoch i : Nat) (c : List Nat) : (clearedState s p owner epoch i c).mc = s.mc := wr_mc ..
theorem clearedState_pools (s : State) (p owner epoch i : Nat) (c : List Nat) :
    (clearedState s p owner epoch i c).pools = (grantedState s p owner epoch i c).pools := wr_pools ..
theorem clearedState_mem (s : State) (p owner epoch i : Nat) (c : List Nat) :
    (clearedState s p owner epoch i c).mem = (wr s owner (bufPtr (poolOf s p).desc i) (List.replicate 256 0)).mem :=
  wr_mem_congr (s := s) (t := grantedState s p owner epoch i c) rfl rfl ..

theorem grantBuf_popped (s : State) (p owner epoch i : Nat) (c : List Nat) :
    grantBuf p owner epoch (setPool s p (poppedPool (poolOf s p) c)) i =
      wr (grantedState s p owner epoch i c) owner (bufPtr (poolOf s p).desc i) (List.replicate 256 0) := by
  simp only [grantBuf, poolOf_setPool_self, recAt_setPool, setPool_setRec_setPool]
  rfl

/-- An enabled pool holds, on top of its head cache, a buffer whose record is free and sound. -/
structure CachedBuf (s : State) (p i : Nat) (c : List Nat) : Prop where
  enabled : (poolOf s p).state = 1
  cached : (poolOf s p).cache = i :: c
  clean : recPoisoned s (pdFirst (poolOf s p).desc + i) = false
  free : (recAt s (pdFirst (poolOf s p).desc + i)).state = 0

section Cached
variable {s : State} {p i : Nat} {c : List Nat} (hbuf : CachedBuf s p i c)
include hbuf

theorem popBuf_of_cached : popBuf s p = (setPool s p (poppedPool (poolOf s p) c), some i) := by
  simp only [popBuf, hbuf.cached, List.isEmpty_cons, Bool.false_eq_true, if_false, if_neg (not_not.2 hbuf.enabled), hbuf.clean,
    if_neg (not_not.2 hbuf.free), poppedPool]

/-- A request of one buffer is served by the pool it names where that admits it (R285). -/
theorem walkChain_of_cached (hadmits : poolAdmits (poolOf s p) 1 false = true) (fuel : Nat) :
    walkChain 1 false (fuel + 1) s none p = (setPool s p (poppedPool (poolOf s p) c), some (p, [i])) := by
  simp only [walkChain, hbuf.enabled, hadmits, beq_self_eq_true, Bool.and_self, if_true, popBufs, popBuf_of_cached hbuf]
  rfl

theorem allocBufs_of_cached (hadmits : poolAdmits (poolOf s p) 1 false = true) (owner epoch : Nat) :
    allocBufs s p 1 false owner epoch =
      (clearedState s p owner epoch i c, some [(handleOf s p i, bufPtr (poolOf s p).desc i)]) := by
  have hpools := clearedState_pools s p owner epoch i c
  have hhandle : handleOf (clearedState s p owner epoch i c) p i = handleOf s p i := by
    simp only [handleOf, poolOf_congr hpools, recAt_congr hpools, poolOf_grantedState_self, grantedPool, poppedPool,
      recAt_grantedState_self, grantedRec]
  have hplace : bufPtr (poolOf (clearedState s p owner epoch i c) p).desc i = bufPtr (poolOf s p).desc i := by
    simp only [poolOf_congr hpools, poolOf_grantedState_self, grantedPool, poppedPool]
  rw [← hhandle, ← hplace]
  simp only [allocBufs, walkChain_of_cached hbuf hadmits, List.foldl_cons, List.foldl_nil, grantBuf_popped, Bool.false_eq_true, if_false,
    if_true, List.map_cons, List.map_nil, clearedState]

end Cached

/-- A request for which the named pool has too few free buffers finds none where no fallback follows (R285). -/
theorem allocBufs_of_short {s : State} {p n : Nat} {recovery : Bool} (hadmits : poolAdmits (poolOf s p) n recovery = false)
    (hlast : pdChained (poolOf s p).desc = false) (owner epoch : Nat) :
    allocBufs s p n recovery owner epoch = (bump s 0x290305 1, none) := by
  have hnone : ¬ (n ≠ 0 ∧ ([] : List Nat).length = n) := fun h => h.1 h.2.symm
  simp only [allocBufs, walkChain, hadmits, Bool.and_false, Bool.false_eq_true, if_false, hnone, hlast]

/-! ### POOL_ALLOCATE -/

/-- A POOL_ALLOCATE of one buffer passes the checks of R287 in a state. -/
structure TakeOk (s : State) (x : Queue) (o : Op) : Prop where
  epoch : o.epoch = ownerEpoch s o.owner
  one : plCount o.body = 1
  ptr : ptrOk s o.owner (plPtr o.body) 16 .write = true
  dev : pdDev (poolOf s (plPool o.body)).desc = false
  part : pdPart (poolOf s (plPool o.body)).desc = x.partition
  enabled : (poolOf s (plPool o.body)).state = 1

section Take
variable {s : State} {x : Queue} {o : Op} (hok : TakeOk s x o)
include hok

theorem poolTake_of_none {u : State} (ha : allocBufs s (plPool o.body) 1 false o.owner o.epoch = (u, none)) (q : Nat) (h : Head) :
    poolTake q s x o h = endOp u q o 0x02 := by
  simp [poolTake, ← hok.epoch, hok.one, hok.ptr, hok.dev, hok.part, hok.enabled, ha]

theorem poolTake_of_one {u : State} {a b : Nat} (ha : allocBufs s (plPool o.body) 1 false o.owner o.epoch = (u, some [(a, b)])) (q : Nat)
    (h : Head) :
    poolTake q s x o h =
      endOp (modOp (wr u o.owner (plPtr o.body) (natLe 8 a ++ natLe 8 b)) q o.seq (fun y => { y with detail := 1 })) q o 0x01 := by
  simp [poolTake, ← hok.epoch, hok.one, hok.ptr, hok.dev, hok.part, hok.enabled, ha]

end Take

/-! ### POOL_ACQUIRE and POOL_RELEASE -/

/-- The record of the buffer that a handle names. -/
def handleRec (s : State) (h : Nat) : Nat := pdFirst (poolOf s (hdPool h)).desc + hdIndex h

/-- An operation on a valid handle whose record reads clean passes the checks of R289 in a state. -/
structure RefOk (s : State) (x : Queue) (o : Op) : Prop where
  epoch : o.epoch = ownerEpoch s o.owner
  dev : pdDev (poolOf s (hdPool (plHandle o.body))).desc = false
  part : pdPart (poolOf s (hdPool (plHandle o.body))).desc = x.partition
  clean : recPoisoned s (handleRec s (plHandle o.body)) = false
  valid : handleOk s (plHandle o.body) = true

/-- The pool of a valid handle has not failed (R278). -/
theorem poolOf_state_of_handleOk {s : State} {h : Nat} (hvalid : handleOk s h = true) : (poolOf s (hdPool h)).state ≠ 4 := by
  intro hfailed
  simp [handleOk, hfailed] at hvalid

theorem readRec_of_clean {s : State} {h : Nat} (hclean : recPoisoned s (handleRec s h) = false) : readRec s h = s :=
  if_neg fun hbad => Bool.false_ne_true (hclean.symm.trans hbad.2.2)

section Refs
variable {s : State} {x : Queue} {o : Op} (hok : RefOk s x o)
include hok

theorem poolRef_acquires (hheld : (recAt s (handleRec s (plHandle o.body))).state = 1)
    (hroom : (recAt s (handleRec s (plHandle o.body))).refs < 65535) (q : Nat) (h : Head) :
    poolRef true q s x o h = endOp (bump (setRec s (handleRec s (plHandle o.body)) { recAt s (handleRec s (plHandle o.body)) with
      refs := (recAt s (handleRec s (plHandle o.body))).refs + 1 }) 0x290303 1) q o 0x01 := by
  have hread := readRec_of_clean hok.clean
  unfold handleRec at hheld hroom ⊢
  simp [poolRef, ← hok.epoch, hok.dev, hok.part, hread, poolOf_state_of_handleOk hok.valid, hok.valid, hheld, Nat.not_le.2 hroom]

theorem poolRef_releases (q : Nat) (h : Head) : poolRef false q s x o h = endOp (dropRef s (plHandle o.body)) q o 0x01 := by
  simp [poolRef, ← hok.epoch, hok.dev, hok.part, readRec_of_clean hok.clean, poolOf_state_of_handleOk hok.valid, hok.valid]

end Refs

/-- One of several references released. -/
theorem dropRef_of_several {s : State} {h : Nat} (hrefs : 1 < (recAt s (handleRec s h)).refs) :
    dropRef s h = setRec s (handleRec s h) { recAt s (handleRec s h) with refs := (recAt s (handleRec s h)).refs - 1 } :=
  if_neg (Nat.not_le.2 hrefs)

/-- A record whose buffer is free again, one generation on (R289). -/
def freedRec (r : BufRec) : BufRec := { r with gen := (r.gen + 1) % 2 ^ 16, state := 0, refs := 0, owner := 0 }

/-- The last reference released in a pool that rebuilds, which places the buffer itself (R282, R289). -/
theorem dropRef_of_last {s : State} {h : Nat} (hrefs : (recAt s (handleRec s h)).refs = 1) (hrebuilds : (poolOf s (hdPool h)).state = 3) :
    dropRef s h = setPool (bump (setRec s (handleRec s h) (freedRec (recAt s (handleRec s h)))) 0x290302 1) (hdPool h)
      { poolOf s (hdPool h) with held := (poolOf s (hdPool h)).held - 1, free := (poolOf s (hdPool h)).free + 1 } := by
  have hfree : dropRef s h = freeBuf s (hdPool h) (hdIndex h) := if_pos (Nat.le_of_eq hrefs)
  have hplaced : ¬ (poolOf s (hdPool h)).state = 1 := by omega
  rw [hfree]
  exact if_neg hplaced

/-! ### Ends of pool operations -/

section Ends
variable {s t : State} {q op sub : Nat} {n : Need} {x : Queue} {o : Op} {h : Head}

/-- The end of a head that has changed no queue since it started. -/
theorem endOp_of_startHead {v : State} (e : startHead s q op sub n = .go x o h t) (hv : v.queues = t.queues) (st : Nat) :
    Finished (endOp v q o st) q o.seq st ∧ OtherQueues q s (endOp v q o st) :=
  ⟨finished_endOp (by rw [opAt_congr hv]; exact startHead_opAt e),
    otherQueues_of_startHead e ((otherQueues_of_queues_eq hv).trans (otherQueues_modOp _ _ _ _))⟩

theorem pools_of_startHead (e : startHead s q op sub n = .go x o h t) : t.pools = s.pools := by rw [startHead_frame e]
theorem mem_of_startHead (e : startHead s q op sub n = .go x o h t) : t.mem = s.mem := by rw [startHead_frame e]

end Ends

/-! ### Pool operations that have started -/

section Started
variable {s t : State} {q sub : Nat} {n : Need} {x : Queue} {o : Op} {h : Head} (e : startHead s q 0x07 sub n = .go x o h t)
include e

/-- The checks of R287 hold in the state in which the head has started as they do before. -/
theorem takeOk_of_startHead (hepoch : o.epoch = ownerEpoch s o.owner) (hcount : plCount o.body = 1)
    (hptr : ptrOk t o.owner (plPtr o.body) 16 .write = true) (hdev : pdDev (poolOf s (plPool o.body)).desc = false)
    (hpart : pdPart (poolOf s (plPool o.body)).desc = x.partition) (henabled : (poolOf s (plPool o.body)).state = 1) :
    TakeOk t x o := by
  have hpool := poolOf_congr (pools_of_startHead e) (plPool o.body)
  refine ⟨?_, hcount, hptr, hpool ▸ hdev, hpool ▸ hpart, hpool ▸ henabled⟩
  rw [startHead_frame e]
  exact hepoch

theorem cachedBuf_of_startHead {p i : Nat} {c : List Nat} (hbuf : CachedBuf s p i c) : CachedBuf t p i c := by
  obtain ⟨henabled, hcached, hclean, hfree⟩ := hbuf
  rw [startHead_frame e]
  exact ⟨henabled, hcached, hclean, hfree⟩

/-- The checks of R289 hold in the state in which the head has started as they do before. -/
theorem refOk_of_startHead (hok : RefOk s x o) : RefOk t x o := by
  obtain ⟨hepoch, hdev, hpart, hclean, hvalid⟩ := hok
  rw [startHead_frame e]
  exact ⟨hepoch, hdev, hpart, hclean, hvalid⟩

theorem handleRec_of_startHead (a : Nat) : handleRec t a = handleRec s a := by
  rw [handleRec, handleRec, poolOf_congr (pools_of_startHead e)]

theorem recAt_handleRec_of_startHead (a : Nat) : recAt t (handleRec t a) = recAt s (handleRec s a) := by
  rw [recAt_congr (pools_of_startHead e), handleRec_of_startHead e]

/-- The end of an operation that has changed pools, records and counters alone. -/
theorem poolOp_ends {v : State} {l : Pools} (hv : Counted { t with pools := l } v) (st : Nat) :
    Finished (endOp v q o st) q o.seq st ∧ OtherQueues q s (endOp v q o st) ∧
      endOp v q o st = { s with queues := (endOp v q o st).queues, dict := (endOp v q o st).dict, pools := l } := by
  obtain ⟨d, rfl⟩ := hv
  obtain ⟨hfin, hother⟩ := endOp_of_startHead (v := { t with pools := l, dict := d }) e rfl st
  refine ⟨hfin, hother, ?_⟩
  rw [startHead_frame e]
  rfl

/-- The end of an operation that has set one record: the conclusion that acquiring and releasing share. -/
theorem recordOp_ends {v : State} {i : Nat} {r : BufRec} (hv : Counted (setRec t i r) v) :
    Finished (endOp v q o 0x01) q o.seq 0x01 ∧ recAt (endOp v q o 0x01) i = r ∧
      (∀ j, j ≠ i → recAt (endOp v q o 0x01) j = recAt s j) ∧ (endOp v q o 0x01).pools.pools = s.pools.pools ∧
      OtherQueues q s (endOp v q o 0x01) ∧ endOp v q o 0x01 = { s with
        queues := (endOp v q o 0x01).queues
        dict := (endOp v q o 0x01).dict
        pools := (endOp v q o 0x01).pools } := by
  obtain ⟨hfin, hother, hframe⟩ := poolOp_ends e (l := (setRec t i r).pools) hv 0x01
  have hpools : (endOp v q o 0x01).pools = (setRec t i r).pools := (congrArg State.pools hframe).trans rfl
  refine ⟨hfin, (recAt_congr hpools i).trans (recAt_setRec_self t i r), fun j hj => ?_, ?_, hother, hpools ▸ hframe⟩
  · exact (recAt_congr hpools j).trans ((recAt_setRec_ne t r hj).trans (recAt_congr (pools_of_startHead e) j))
  · rw [hpools, ← pools_of_startHead e]
    rfl

/-- The end of an operation with a detail. -/
theorem detailOp_ends {v : State} (hv : v.queues = t.queues) (k : Nat) :
    let u := endOp (modOp v q o.seq (fun y => { y with detail := k })) q o 0x01
    Finished u q o.seq 0x01 ∧ (∃ z, opAt u q o.seq = some z ∧ z.detail = k) ∧ OtherQueues q s u := by
  obtain ⟨y, hy⟩ := startHead_opAt e
  have hdetail : opAt (modOp v q o.seq (fun y => { y with detail := k })) q o.seq = some { y with detail := k } :=
    opAt_modOp_some (fun _ => rfl) (by rw [opAt_congr hv, hy])
  have hother : OtherQueues q s v := otherQueues_of_startHead e (otherQueues_of_queues_eq hv)
  exact ⟨finished_endOp ⟨_, hdetail⟩, ⟨_, opAt_modOp_some (fun _ => rfl) hdetail, rfl⟩,
    (hother.trans (otherQueues_modOp _ _ _ _)).trans (otherQueues_modOp _ _ _ _)⟩

/-- What a granted buffer makes of pools and records does not depend on the start of the head. -/
theorem grantedState_pools_of_startHead (p owner epoch i : Nat) (c : List Nat) :
    (grantedState t p owner epoch i c).pools = (grantedState s p owner epoch i c).pools := by
  rw [startHead_frame e]
  rfl

/-- POOL_ALLOCATE of one buffer that the head cache holds: the buffer's first granule is cleared, then its handle and offset are written
(R286, R287). -/
theorem poolTake_ends {i : Nat} {c : List Nat} (hok : TakeOk t x o) (hbuf : CachedBuf s (plPool o.body) i c)
    (hadmits : poolAdmits (poolOf s (plPool o.body)) 1 false = true) :
    let u := poolTake q t x o h
    let y := poolOf s (plPool o.body)
    Finished u q o.seq 0x01 ∧ (∃ z, opAt u q o.seq = some z ∧ z.detail = 1) ∧ OtherQueues q s u ∧
      u.pools = (grantedState s (plPool o.body) o.owner o.epoch i c).pools ∧
      u.mem = (wr (wr t o.owner (bufPtr y.desc i) (List.replicate 256 0)) o.owner (plPtr o.body)
        (natLe 8 (handleOf s (plPool o.body) i) ++ natLe 8 (bufPtr y.desc i))).mem := by
  have hpools := pools_of_startHead e
  have hpool := poolOf_congr hpools (plPool o.body)
  have hone := allocBufs_of_cached (cachedBuf_of_startHead e hbuf) (hpool ▸ hadmits) o.owner o.epoch
  have hhandle : handleOf t (plPool o.body) i = handleOf s (plPool o.body) i := by
    rw [handleOf, handleOf, hpool, recAt_congr hpools]
  dsimp only
  rw [poolTake_of_one hok hone, hhandle, hpool]
  obtain ⟨hfin, hdetail, hother⟩ := detailOp_ends e ((wr_queues ..).trans (clearedState_queues t ..)) 1
  refine ⟨hfin, hdetail, hother, ?_, ?_⟩
  · exact ((wr_pools ..).trans (clearedState_pools ..)).trans (grantedState_pools_of_startHead e ..)
  · rw [← hpool]
    exact wr_mem_congr (clearedState_mem ..) ((clearedState_mc ..).trans (wr_mc ..).symm) ..

end Started

/-- Settles O36: the checks hold, so one buffer is popped from the head cache and granted, or none is, or one record changes; the last
release in a pool that rebuilds only counts the buffer as free. -/
theorem buffersAreTakenAndReleased : Obligations.BuffersAreTakenAndReleased := by
  intro s q x o h t p y i c r hepoch
  refine ⟨?_, ?_⟩
  · rintro e rfl rfl hcount hptr hdev hpart henabled
    have hok := takeOk_of_startHead e hepoch hcount hptr hdev hpart henabled
    have hexec : exec (.poolAllocate q) s = .next (poolTake q t x o h) := congrArg Host.Outcome.next (runHead_of_go e _)
    refine ⟨?_, fun hlast hshort => ?_⟩
    · rintro hcache - rfl hfree hclean hroom
      obtain ⟨hfin, hdetail, hother, hpools, hmem⟩ :=
        poolTake_ends e hok ⟨henabled, hcache, hclean, hfree⟩ (decide_eq_true hroom)
      refine ⟨_, hexec, hfin, hdetail, ?_, fun j hj => ?_, ?_, fun j hj => ?_, hmem, hother⟩
      · exact (poolOf_congr hpools _).trans (poolOf_grantedState_self ..)
      · exact (poolOf_congr hpools j).trans (poolOf_grantedState_ne s _ _ _ _ hj)
      · exact (recAt_congr hpools _).trans (recAt_grantedState_self ..)
      · exact (recAt_congr hpools j).trans (recAt_grantedState_ne s _ _ _ hj)
    · have hpool := poolOf_congr (pools_of_startHead e) (plPool o.body)
      have hnone := allocBufs_of_short (n := 1) (recovery := false) (hpool ▸ decide_eq_false (Nat.not_le.2 hshort)) (hpool ▸ hlast)
        o.owner o.epoch
      obtain ⟨hfin, hother, hframe⟩ := poolOp_ends e (l := t.pools) (counted_bump t 0x290305 1) 0x02
      rw [poolTake_of_none hok hnone] at hexec
      exact ⟨_, hexec, hfin, (pools_of_startHead e :), (mem_of_startHead e :), hother, hframe.trans (by rw [pools_of_startHead e])⟩
  · rintro rfl rfl rfl rfl hdev hpart hclean hvalid
    have hok : RefOk s x o := ⟨hepoch, hdev, hpart, hclean, hvalid⟩
    refine ⟨fun e hheld hroom => ?_, fun e hrefs => ?_, fun e hrefs hrebuilds => ?_⟩
    · have hrec := recAt_handleRec_of_startHead e (plHandle o.body)
      have hstep := poolRef_acquires (refOk_of_startHead e hok) (hrec ▸ hheld) (hrec ▸ hroom) q h
      rw [hrec, handleRec_of_startHead e] at hstep
      exact ⟨_, congrArg Host.Outcome.next ((runHead_of_go e _).trans hstep), recordOp_ends e (counted_bump ..)⟩
    · have hrec := recAt_handleRec_of_startHead e (plHandle o.body)
      have hstep := poolRef_releases (refOk_of_startHead e hok) q h
      rw [dropRef_of_several (hrec ▸ hrefs), hrec, handleRec_of_startHead e] at hstep
      exact ⟨_, congrArg Host.Outcome.next ((runHead_of_go e _).trans hstep), recordOp_ends e ⟨_, rfl⟩⟩
    · have hrec := recAt_handleRec_of_startHead e (plHandle o.body)
      have hpool := poolOf_congr (pools_of_startHead e) (hdPool (plHandle o.body))
      have hstep := poolRef_releases (refOk_of_startHead e hok) q h
      rw [dropRef_of_last (hrec ▸ hrefs) (hpool ▸ hrebuilds), hrec, handleRec_of_startHead e, hpool] at hstep
      obtain ⟨hfin, hother, hframe⟩ := poolOp_ends e ⟨_, rfl⟩ 0x01
      refine ⟨_, congrArg Host.Outcome.next ((runHead_of_go e _).trans hstep), hfin, ?_, ?_, fun j hj => ?_, fun j hj => ?_, hother,
        hframe⟩
      · exact recAt_setRec_self ..
      · exact poolOf_setPool_self ..
      · exact (recAt_setRec_ne t _ hj).trans (recAt_congr (pools_of_startHead e) j)
      · exact (poolOf_setPool_ne _ _ hj).trans (poolOf_congr (pools_of_startHead e) j)

/-! ### Building, refilling and scanning -/

/-- Links are bytes of memory: writing them leaves pools and records. -/
theorem writeLinks_pools (p : Nat) (s : State) (l : List Nat) : (writeLinks p s l).pools = s.pools := by
  induction s, l using writeLinks.induct p with
  | case1 s => rfl
  | case2 s i => exact wr_pools ..
  | case3 s i j l ih => exact ih.trans (wr_pools ..)

/-- The last link of a pool that builds, every buffer of it free: the list holds them all, in order (R279). -/
theorem exec_poolBuildDone_of_free {s : State} {p : Nat} (hbuilds : (poolOf s p).state = 2)
    (hfree : ∀ i, i < pdCount (poolOf s p).desc → (recAt s (pdFirst (poolOf s p).desc + i)).state = 0) :
    exec (.poolBuildDone p) s = .next (setPool (writeLinks p s (List.range (pdCount (poolOf s p).desc))) p { poolOf s p with
      state := 1
      head := (List.range (pdCount (poolOf s p).desc)).headD listEnd
      free := pdCount (poolOf s p).desc }) := by
  have hall : (List.range (pdCount (poolOf s p).desc)).filter (fun i => (recAt s (pdFirst (poolOf s p).desc + i)).state == 0) =
      List.range (pdCount (poolOf s p).desc) :=
    List.filter_eq_self.2 fun i hi => beq_iff_eq.2 (hfree i (List.mem_range.1 hi))
  have hruns : ¬ ((poolOf s p).state ≠ 2 ∧ (poolOf s p).state ≠ 3) := fun hidle => hidle.1 hbuilds
  have hnew : ¬ (poolOf s p).state = 3 := by omega
  refine congrArg Host.Outcome.next ?_
  simp only [if_neg hruns, if_neg hnew, hall, List.length_range]

/-- A pool that is not enabled, whose list in memory is empty or whose cache is full takes no buffer into its cache. -/
theorem refill_of_idle {s : State} {p : Nat}
    (h : (poolOf s p).state ≠ 1 ∨ (poolOf s p).head = listEnd ∨ 16 ≤ (poolOf s p).cache.length) (n : Nat) : refill p n s = s := by
  induction n with
  | zero => rfl
  | succ n ih => rw [refill, show refillOne s p = s from if_pos h, ih]

/-- A buffer whose record and link are sound is taken from the list into an empty cache (R281, R282). -/
theorem refillOne_of_sound {s : State} {p : Nat} (henabled : (poolOf s p).state = 1) (hcache : (poolOf s p).cache = [])
    (hlisted : (poolOf s p).head ≠ listEnd) (hclean : recPoisoned s (pdFirst (poolOf s p).desc + (poolOf s p).head) = false)
    (hlink : linkBad s p (poolOf s p) = none) :
    refillOne s p = setPool s p { poolOf s p with
      cache := [(poolOf s p).head]
      head := rdNat s 0 (bufPtr (poolOf s p).desc (poolOf s p).head) 3 } := by
  have hruns : ¬ ((poolOf s p).state ≠ 1 ∨ (poolOf s p).head = listEnd ∨ 16 ≤ (poolOf s p).cache.length) := by
    simp [henabled, hcache, hlisted]
  simp only [refillOne, if_neg hruns, hclean, Bool.false_eq_true, if_false, hlink]
  rw [hcache, List.nil_append]

/-- With no pool enabled a scan reads no record. -/
theorem scanPools_of_none {s : State} (h : ∀ x ∈ s.pools.pools, x.2.state ≠ 1) : scanPools s = [] := by
  have hnone : s.pools.pools.filter (fun x => x.2.state == 1) = [] :=
    List.filter_eq_nil_iff.2 fun x hx henabled => h x hx (beq_iff_eq.1 henabled)
  rw [scanPools, hnone]
  rfl

/-- Settles O37: with every record free the list built is all the buffers in order; a list of one buffer is empty once that is taken, so
that the rest of the refill idles; and a scan of no pools reads nothing. -/
theorem poolsBuildRefillAndAudit : Obligations.PoolsBuildRefillAndAudit := by
  rintro s p y rfl
  refine ⟨fun n hbuilds hcount hfree => ?_, fun hnew hold => congrArg Host.Outcome.next (if_pos ⟨hnew, hold⟩),
    fun henabled hcache hlisted hlink hclean hlast => congrArg Host.Outcome.next ?_,
    fun hidle => congrArg Host.Outcome.next (refill_of_idle hidle 16), fun hon hnone => ?_,
    fun hoff => congrArg Host.Outcome.next (if_pos hoff)⟩
  · have hexec := exec_poolBuildDone_of_free hbuilds fun i hi => hfree i (by omega)
    rw [hcount] at hexec
    have hpools := writeLinks_pools p s (List.range (n + 1))
    refine ⟨_, hexec, ?_, fun j hj => ?_, rfl, (congrArg Pools.recs hpools :)⟩
    · rw [poolOf_setPool_self, List.range_succ_eq_map]
      rfl
    · exact (poolOf_setPool_ne _ _ hj).trans (poolOf_congr hpools j)
  · rw [refill, refillOne_of_sound henabled hcache hlisted hclean hlink, hlast]
    exact refill_of_idle (.inr (.inl (by rw [poolOf_setPool_self]; rfl))) 15
  · refine congrArg Host.Outcome.next ?_
    rw [if_neg hon, scanPools_of_none hnone]
    rfl

end Sys2Proof.Machine

/-!
PROOFS. Operations of queues on objects of their own partition and device: signals, initialisation, freeing and arrivals (R299 to R304).
-/
namespace Sys2Proof.Machine

/-! ### Objects -/

theorem objOf_congr {s t : State} (h : t.syu.objs = s.syu.objs) (k : Nat) : objOf t k = objOf s k := by rw [objOf, objOf, h]

@[simp] theorem objOf_bump (s : State) (c n k : Nat) : objOf (bump s c n) k = objOf s k := rfl

theorem objOf_setObj_self (s : State) (k : Nat) {y : SyncObj} (h : y.state ≠ 0) : objOf (setObj s k y) k = y := by
  simp only [objOf, setObj, if_neg h, tgetD_tput_self]

theorem objOf_setObj_unset {s : State} (k : Nat) (h : tsorted s.syu.objs = true) : objOf (setObj s k {}) k = {} := by
  simp only [objOf, setObj, if_true, tgetD, tget_tdel_self k h, Option.getD_none]

theorem objOf_setObj_ne (s : State) {k j : Nat} (y : SyncObj) (h : j ≠ k) : objOf (setObj s k y) j = objOf s j := by
  unfold objOf setObj
  dsimp only
  split
  · rw [tgetD, tget_tdel_ne _ h, tgetD]
  · exact tgetD_tput_ne _ _ _ h

theorem syIndex_lt (b : Nat) : syIndex b < 2 ^ 18 := Nat.mod_lt _ (Nat.two_pow_pos _)

@[simp] theorem keyKind_syKey (b : Nat) : keyKind (syKey b) = syKind b := by
  have hindex := syIndex_lt b
  unfold keyKind syKey objKey
  omega

/-- Counters of the dictionary lie below the entries that give a partition its ranges and its step barrier (0x3028). -/
theorem pEnt_bump_of_lt (s : State) {k : Nat} (n sub p : Nat) (h : k < 0x302800) :
    pEnt (bump s k n) 0x3028 sub p = pEnt s 0x3028 sub p :=
  ent_bump_ne s n (by unfold pKey; omega)

theorem stepPart_bump_of_lt (s : State) {k : Nat} (n j : Nat) (h : k < 0x302800) : stepPart (bump s k n) j = stepPart s j := by
  have hent : pEnt (bump s k n) 0x3028 = pEnt s 0x3028 := funext₂ fun sub p => pEnt_bump_of_lt s n sub p h
  unfold stepPart objPart objIn objBase objCount hasStepBarrier
  rw [hent]

/-! ### Changes of an object that no watch names -/

/-- No watch names an object. -/
def Unwatched (s : State) (k : Nat) : Prop := ∀ w ∈ s.syu.watches, wsKey w.2.spec ≠ k

theorem evalWatches_of_unwatched {s : State} {k : Nat} (h : Unwatched s k) : evalWatches s k = s := by
  have hnone : s.syu.watches.filter (fun x => wsKey x.2.spec == k) = [] :=
    List.filter_eq_nil_iff.2 fun w hw hk => h w hw (beq_iff_eq.1 hk)
  rw [evalWatches, hnone, List.foldl_nil, ite_self]

/-- An object's new word fires nothing; the time of its last change is the old one or now (R319). -/
theorem touchObj_of_unwatched {s : State} {k : Nat} (h : Unwatched s k) (y : SyncObj) :
    ∃ m, touchObj s k y = setObj s k { y with changedAt := m } := by
  have hset (z : SyncObj) : evalWatches (setObj s k z) k = setObj s k z := evalWatches_of_unwatched h
  unfold touchObj
  dsimp only
  split
  · next hsame => exact ⟨_, (hset _).trans (congrArg _ hsame)⟩
  · exact ⟨_, hset _⟩

/-! ### What an operation on an object comes to -/

/-- What an operation on an object of this device and partition comes to (R300 to R304). -/
def syResult (sub q : Nat) (s : State) (o : Op) : Syn :=
  if sub = 1 then objInit s o.owner o.epoch (syKey o.body) (syArg o.body) (syRemoteOk o.body)
  else if sub = 2 then objFree s o.owner o.epoch (syKey o.body)
  else objSignal s (some (q, o)) sub (syKey o.body) (syArg o.body) 0xFFF

/-- An operation passes the checks before its object is looked at (R300): well-formed, of this device, in the partition's ranges. -/
def SyPasses (s : State) (sub : Nat) (x : Queue) (o : Op) : Prop :=
  syBad sub o.body = none ∧ syLocal s (syDevice o.body) = true ∧ objIn s x.partition (syKind o.body) (syIndex o.body) = true

/-- The end of an operation on an object, by what it came to. -/
def endSyn (s : State) (q : Nat) (o : Op) : Syn → State
  | .done t => endOp t q o 0x01
  | .discarded t => endOp t q o 0x02
  | .refused code items => syRefuse s q o code items

theorem syObject_of_passes {s : State} {sub q : Nat} {x : Queue} {o : Op} {h : Head} (hp : SyPasses s sub x o) :
    syObject sub q s x o h = endSyn s q o (syResult sub q s o) := by
  obtain ⟨hbad, hlocal, hin⟩ := hp
  dsimp only [syObject]
  rw [hbad]
  dsimp only
  rw [if_neg (not_not.2 hlocal), if_neg (not_not.2 hin), ← syResult]
  cases syResult sub q s o <;> rfl

section Signals
variable {s : State} {k : Nat} (who : Option (Nat × Op)) (arg dev : Nat)

theorem objSignal_of_dead (sub : Nat) (h : (objOf s k).state = 2 ∨ (objOf s k).state = 3) :
    objSignal s who sub k arg dev = .discarded (bump s 0x2A0209 1) := by
  dsimp only [objSignal]
  rw [if_neg (by omega), if_pos (by omega)]

/-- What a signal does to an object that is ready, after it has been counted (R300, R303, R304). -/
theorem objSignal_of_ready (sub : Nat) (h : (objOf s k).state = 1) :
    objSignal s who sub k arg dev = .done (
      if sub = 3 then objArrive (bump s 0x2A0201 1) who k (bits arg 0 16) (bits arg 16 16) (bit arg 32) dev
      else if sub = 4 then touchObj (bump s 0x2A0201 1) k { objOf s k with value := 1 }
      else if sub = 5 then touchObj (bump s 0x2A0201 1) k { objOf s k with value := 0 }
      else if sub = 6 then objAdd (bump s 0x2A0201 1) who k (toSigned 64 arg)
      else touchObj (bump s 0x2A0201 1) k { objOf s k with value := arg % 2 ^ 64 }) := by
  dsimp only [objSignal]
  rw [if_neg (by omega), if_neg (by omega)]

theorem objSignal_set (h : (objOf s k).state = 1) :
    objSignal s who 4 k arg dev = .done (touchObj (bump s 0x2A0201 1) k { objOf s k with value := 1 }) := by
  rw [objSignal_of_ready who arg dev 4 h, if_neg (by decide), if_pos rfl]

theorem objSignal_clear (h : (objOf s k).state = 1) :
    objSignal s who 5 k arg dev = .done (touchObj (bump s 0x2A0201 1) k { objOf s k with value := 0 }) := by
  rw [objSignal_of_ready who arg dev 5 h, if_neg (by decide), if_neg (by decide), if_pos rfl]

theorem objSignal_write (h : (objOf s k).state = 1) :
    objSignal s who 7 k arg dev = .done (touchObj (bump s 0x2A0201 1) k { objOf s k with value := arg % 2 ^ 64 }) := by
  rw [objSignal_of_ready who arg dev 7 h, if_neg (by decide), if_neg (by decide), if_neg (by decide), if_neg (by decide)]

/-- A sum that a counter can hold is its new value (R304). -/
theorem objSignal_add {v : Nat} (h : (objOf s k).state = 1) (hv : ((objOf s k).value : Int) + toSigned 64 arg = v)
    (hfits : v < 2 ^ 64) :
    objSignal s who 6 k arg dev = .done (touchObj (bump s 0x2A0201 1) k { objOf s k with value := v }) := by
  rw [objSignal_of_ready who arg dev 6 h, if_neg (by decide), if_neg (by decide), if_neg (by decide), if_pos rfl]
  dsimp only [objAdd]
  rw [objOf_bump, hv, if_neg (by omega), Int.toNat_natCast]

/-- An arrival in the barrier's phase that leaves participants to come (R303). -/
theorem objSignal_arrive_of_room (h : (objOf s k).state = 1) (hphase : bits arg 16 16 = (objOf s k).phase)
    (hroom : (objOf s k).arrived + bits arg 0 16 < (objOf s k).participants) :
    objSignal s who 3 k arg dev = .done (touchObj (bump s 0x2A0201 1) k { objOf s k with
      arrived := (objOf s k).arrived + bits arg 0 16
      reduce := (objOf s k).reduce && bit arg 32 }) := by
  rw [objSignal_of_ready who arg dev 3 h, if_pos rfl]
  dsimp only [objArrive]
  rw [objOf_bump, if_neg (not_not.2 hphase), if_neg hroom.not_gt, if_neg hroom.ne]

/-- The arrival that completes the phase of a barrier that is no step barrier (R303). -/
theorem objSignal_arrive_of_last (h : (objOf s k).state = 1) (hphase : bits arg 16 16 = (objOf s k).phase)
    (hstep : stepPart s k = none) (hlast : (objOf s k).arrived + bits arg 0 16 = (objOf s k).participants) :
    objSignal s who 3 k arg dev = .done (touchObj (bump s 0x2A0201 1) k { objOf s k with
      lastReduce := (objOf s k).reduce && bit arg 32
      phase := ((objOf s k).phase + 1) % 65536
      arrived := 0
      reduce := true }) := by
  rw [objSignal_of_ready who arg dev 3 h, if_pos rfl]
  dsimp only [objArrive]
  rw [objOf_bump, if_neg (not_not.2 hphase), if_neg hlast.not_gt, if_pos hlast]
  dsimp only [barrierDone]
  rw [stepPart_bump_of_lt s 1 k (by decide), hstep]

end Signals

/-- An object as SYNC_INIT leaves it, one that is not a step barrier (R301). -/
def initialObj (owner epoch kind arg : Nat) (remoteOk : Bool) : SyncObj where
  state := 1
  owner := owner
  epoch := epoch
  remoteOk := remoteOk
  value := if kind = 0 then 0 else if kind = 1 then arg % 2 else arg
  participants := if kind = 0 then arg % 65536 else 0
  reduce := decide (kind = 0)

theorem objInit_of_free {s : State} {owner epoch k arg : Nat} {remoteOk : Bool} (hthawed : (objOf s k).frozen = false)
    (hstep : stepPart s k = none)
    (hfree : (objOf s k).state = 0 ∨ (objOf s k).state = 3 ∨ ((objOf s k).owner = owner ∧ (objOf s k).epoch = epoch)) :
    objInit s owner epoch k arg remoteOk =
      .done (touchObj (bump s 0x2A0201 1) k (initialObj owner epoch (keyKind k) arg remoteOk)) := by
  have hok : ¬ ((objOf s k).frozen = true ∨
      (((objOf s k).state = 1 ∨ (objOf s k).state = 2) ∧ ¬ ((objOf s k).owner = owner ∧ (objOf s k).epoch = epoch))) := by
    rintro (hfrozen | ⟨hbound, hforeign⟩)
    · exact Bool.false_ne_true (hthawed.symm.trans hfrozen)
    · rcases hfree with hunset | habandoned | hown
      · omega
      · omega
      · exact hforeign hown
  dsimp only [objInit]
  rw [if_neg hok, hstep]
  by_cases hbarrier : keyKind k = 0
  · simp [initialObj, hbarrier]
  · simp [initialObj, hbarrier]

theorem objFree_of_idle {s : State} {owner epoch k : Nat} (hthawed : (objOf s k).frozen = false)
    (hbound : (objOf s k).state = 3 ∨ ((objOf s k).state ≠ 0 ∧ (objOf s k).owner = owner ∧ (objOf s k).epoch = epoch))
    (hwatches : watchCount s k = 0) (hsignals : pendingSignals s k = 0) :
    objFree s owner epoch k = .done (setObj (bump s 0x2A0201 1) k {}) := by
  have hidle : ¬ (¬ ((objOf s k).state = 3 ∨ ((objOf s k).state ≠ 0 ∧ (objOf s k).owner = owner ∧ (objOf s k).epoch = epoch)) ∨
      watchCount s k ≠ 0 ∨ pendingSignals s k ≠ 0) := by
    rintro (hforeign | hwatched | hsignalled)
    · exact hforeign hbound
    · exact hwatched hwatches
    · exact hsignalled hsignals
  dsimp only [objFree]
  rw [hthawed, if_neg Bool.false_ne_true, if_neg hidle]

/-! ### Ends of operations on objects -/

section Ends
variable {s t : State} {q op sub : Nat} {n : Need} {x : Queue} {o : Op} {h : Head}

theorem syu_of_startHead (e : startHead s q op sub n = .go x o h t) : t.syu = s.syu := by rw [startHead_frame e]

theorem objs_of_startHead (e : startHead s q op sub n = .go x o h t) : t.syu.objs = s.syu.objs :=
  congrArg Syu.objs (syu_of_startHead e)

/-- The end of an operation that has set an object and counted. -/
theorem setObj_ends (e : startHead s q op sub n = .go x o h t) (c k : Nat) (y : SyncObj) :
    let u := endOp (setObj (bump t c 1) k y) q o 0x01
    Finished u q o.seq 0x01 ∧ (∀ j, j ≠ k → objOf u j = objOf s j) ∧ OtherQueues q s u ∧
      u = { s with queues := u.queues, dict := u.dict, syu := u.syu } := by
  obtain ⟨hfin, hother⟩ := endOp_of_startHead (v := setObj (bump t c 1) k y) e rfl 0x01
  have hobjs := objs_of_startHead e
  refine ⟨hfin, fun j hj => ?_, hother, ?_⟩
  · exact (objOf_setObj_ne (bump t c 1) y hj).trans (objOf_congr hobjs j)
  · rw [startHead_frame e]
    rfl

/-- A row whose operation gives an object that no watch names a new word. -/
theorem touchObj_runs {i : Instr} (hexec : exec i s = .next (syObject sub q t x o h)) (e : startHead s q 0x06 sub n = .go x o h t)
    (hp : SyPasses t sub x o) (hw : Unwatched t (syKey o.body)) (y : SyncObj)
    (hr : syResult sub q t o = .done (touchObj (bump t 0x2A0201 1) (syKey o.body) y)) (hy : y.state ≠ 0) :
    Runs i s (fun u => Finished u q o.seq 0x01 ∧ (∃ m, objOf u (syKey o.body) = { y with changedAt := m }) ∧
      (∀ j, j ≠ syKey o.body → objOf u j = objOf s j) ∧ OtherQueues q s u ∧
      u = { s with queues := u.queues, dict := u.dict, syu := u.syu }) := by
  obtain ⟨m, hm⟩ := touchObj_of_unwatched (s := bump t 0x2A0201 1) hw y
  obtain ⟨hfin, hobjs, hother, hframe⟩ := setObj_ends e 0x2A0201 (syKey o.body) { y with changedAt := m }
  refine ⟨_, hexec, ?_⟩
  rw [syObject_of_passes hp, hr, hm]
  exact ⟨hfin, ⟨m, objOf_setObj_self (bump t 0x2A0201 1) _ hy⟩, hobjs, hother, hframe⟩

/-- The end of a signal that a dead object discards (R300, R312). -/
theorem discarded_ends (e : startHead s q 0x06 sub n = .go x o h t) (hp : SyPasses t sub x o)
    (hr : syResult sub q t o = .discarded (bump t 0x2A0209 1)) :
    let u := syObject sub q t x o h
    Finished u q o.seq 0x02 ∧ u.syu = s.syu ∧ ent u 0x2A0209 = min (ent t 0x2A0209 + 1) (2 ^ 64 - 1) ∧
      u = { s with queues := u.queues, dict := u.dict } := by
  obtain ⟨hfin, -⟩ := endOp_of_startHead (v := bump t 0x2A0209 1) e rfl 0x02
  have hsyu := syu_of_startHead e
  dsimp only
  rw [syObject_of_passes hp, hr]
  refine ⟨hfin, hsyu, ent_bump_self t 0x2A0209 1, ?_⟩
  rw [startHead_frame e]
  rfl

end Ends

/-! ### The rows of the signals -/

/-- The rows of the signals to flags and counters, with the subop of each (Table 13-6). -/
theorem exec_of_mem_signalRows {q sub : Nat} {c : Instr}
    (h : (sub, c) ∈ [(4, Instr.flagSet q), (5, .flagClear q), (6, .counterAdd q), (7, .counterWrite q)]) (s : State) :
    exec c s = .next (syExec sub q s) ∧ ¬ (sub = 1 ∨ sub = 2) := by
  simp only [List.mem_cons, Prod.mk.injEq, List.not_mem_nil, or_false] at h
  rcases h with ⟨rfl, rfl⟩ | ⟨rfl, rfl⟩ | ⟨rfl, rfl⟩ | ⟨rfl, rfl⟩ <;> exact ⟨rfl, by decide⟩

theorem syResult_of_signal {sub : Nat} (h : ¬ (sub = 1 ∨ sub = 2)) (q : Nat) (s : State) (o : Op) :
    syResult sub q s o = objSignal s (some (q, o)) sub (syKey o.body) (syArg o.body) 0xFFF := by
  rw [not_or] at h
  rw [syResult, if_neg h.1, if_neg h.2]

theorem syExec_of_go {s t : State} {q sub : Nat} {x : Queue} {o : Op} {h : Head}
    (e : startHead s q 0x06 sub .ready = .go x o h t) : syExec sub q s = syObject sub q t x o h := runHead_of_go e _

/-- Settles O8: a ready object takes the signal's value and no watch fires; a dead one counts a discarded signal. -/
theorem flagAndCounterOperations : Obligations.FlagAndCounterOperations := by
  refine ⟨fun s q x o h t v hlocal hin hw hready => ?_, ?_⟩
  · have hstate : (objOf t (syKey o.body)).state ≠ 0 := ne_of_eq_of_ne hready one_ne_zero
    refine ⟨?_, ?_, ?_, ?_⟩
    · rintro e hbad rfl
      exact touchObj_runs (i := .flagSet q) (congrArg _ (syExec_of_go e)) e ⟨hbad, hlocal, hin⟩ hw
        { objOf t (syKey o.body) with value := 1 } (objSignal_set _ _ _ hready) hstate
    · rintro e hbad rfl
      exact touchObj_runs (i := .flagClear q) (congrArg _ (syExec_of_go e)) e ⟨hbad, hlocal, hin⟩ hw
        { objOf t (syKey o.body) with value := 0 } (objSignal_clear _ _ _ hready) hstate
    · intro e hbad hsum hfits
      exact touchObj_runs (i := .counterAdd q) (congrArg _ (syExec_of_go e)) e ⟨hbad, hlocal, hin⟩ hw
        { objOf t (syKey o.body) with value := v } (objSignal_add _ _ _ hready hsum hfits) hstate
    · rintro e hbad rfl
      have hfits : syArg o.body % 2 ^ 64 = syArg o.body := Nat.mod_mod _ _
      exact touchObj_runs (i := .counterWrite q) (congrArg _ (syExec_of_go e)) e ⟨hbad, hlocal, hin⟩ hw
        { objOf t (syKey o.body) with value := syArg o.body } (hfits ▸ objSignal_write _ _ _ hready) hstate
  · intro s q x o h t sub c hrow e hbad hlocal hin hdead
    obtain ⟨hexec, hsub⟩ := exec_of_mem_signalRows hrow s
    have hr := (syResult_of_signal hsub q t o).trans (objSignal_of_dead _ _ _ sub hdead)
    exact ⟨_, hexec.trans (congrArg _ (syExec_of_go e)), discarded_ends e ⟨hbad, hlocal, hin⟩ hr⟩

/-- Settles O9: the checks of R301 and R302 hold, so the object is bound to the requester, or unset. -/
theorem objectsInitialisedAndFreed : Obligations.ObjectsInitialisedAndFreed := by
  intro s q x o h t hlocal hin hw hthawed
  refine ⟨fun e hbad hstep hfree => ?_, fun e hbad hsorted hbound hwatches hsignals => ?_⟩
  · exact touchObj_runs (i := .syncInit q) (congrArg _ (syExec_of_go e)) e ⟨hbad, hlocal, hin⟩ hw
      (initialObj o.owner o.epoch (syKind o.body) (syArg o.body) (syRemoteOk o.body))
      (keyKind_syKey o.body ▸ objInit_of_free hthawed hstep hfree) one_ne_zero
  · have hr : syResult 2 q t o = .done (setObj (bump t 0x2A0201 1) (syKey o.body) {}) :=
      objFree_of_idle hthawed hbound hwatches hsignals
    obtain ⟨hfin, hobjs, hother, hframe⟩ := setObj_ends e 0x2A0201 (syKey o.body) {}
    refine ⟨_, congrArg Host.Outcome.next (syExec_of_go e), ?_⟩
    rw [syObject_of_passes ⟨hbad, hlocal, hin⟩, hr]
    exact ⟨hfin, objOf_setObj_unset (s := bump t 0x2A0201 1) _ hsorted, hobjs, hother, hframe⟩

/-! ### Arrivals -/

/-- An arrival at a barrier that is no step barrier is an operation on its object. -/
theorem syArrive_of_plain {s : State} {q : Nat} {x : Queue} {o : Op} {h : Head} (hstep : stepPart s (syKey o.body) = none) :
    syArrive q s x o h = syObject 3 q s x o h := by
  have hnone : arrivesAt s x o.body = none := by rw [arrivesAt, hstep, Option.bind_none, ite_self]
  rw [syArrive, hnone]

/-- Settles O10: an arrival in the barrier's phase with room is the count and flag taken, or the phase's completion. -/
theorem barrierArrivals : Obligations.BarrierArrivals := by
  rintro s q x o h t b hlocal hin hw e hbad hstep rfl hready hphase
  have hexec : exec (.barrierArrive q) s = .next (syObject 3 q t x o h) :=
    congrArg Host.Outcome.next ((runHead_of_go e _).trans (syArrive_of_plain hstep))
  have hstate : (objOf t (syKey o.body)).state ≠ 0 := ne_of_eq_of_ne hready one_ne_zero
  refine ⟨fun hroom => ?_, fun hlast => ?_⟩
  · exact (touchObj_runs hexec e ⟨hbad, hlocal, hin⟩ hw _ (objSignal_arrive_of_room _ _ _ hready hphase hroom) hstate :)
  · exact (touchObj_runs hexec e ⟨hbad, hlocal, hin⟩ hw _ (objSignal_arrive_of_last _ _ _ hready hphase hstep hlast) hstate :)

end Sys2Proof.Machine

/-!
PROOFS. Watches, reads of objects, tasks and waits of queues (R300, R307 to R309, R313, R314, R420).
-/
namespace Sys2Proof.Machine

/-! ### Heads that start -/

section Start
variable {s t : State} {q op sub : Nat} {n : Need} {x : Queue} {o : Op} {h : Head}

/-- The end of a head that has changed no queue since it started, with a detail for its completion. -/
theorem endOp_detail_of_startHead {v : State} (e : startHead s q op sub n = .go x o h t) (hv : v.queues = t.queues) (k st : Nat) :
    let u := endOp (modOp v q o.seq (fun y => { y with detail := k })) q o st
    Finished u q o.seq st ∧ (∃ y, opAt u q o.seq = some y ∧ y.detail = k) ∧ OtherQueues q s u := by
  obtain ⟨y, hy⟩ := startHead_opAt e
  have hdetail : opAt (modOp v q o.seq (fun y => { y with detail := k })) q o.seq = some { y with detail := k } :=
    opAt_modOp_some (fun _ => rfl) ((opAt_congr hv q o.seq).trans hy)
  have hother : OtherQueues q s v := otherQueues_of_startHead e (otherQueues_of_queues_eq hv)
  exact ⟨finished_endOp ⟨_, hdetail⟩, ⟨_, opAt_modOp_some (fun _ => rfl) hdetail, rfl⟩,
    (hother.trans (otherQueues_modOp _ _ _ _)).trans (otherQueues_modOp _ _ _ _)⟩

end Start

/-! ### Registered watches -/

/-- A watch registered under its fresh ID and counted, before its condition is looked at (R307). -/
def withWatch (s : State) (w : Watch) : State :=
  bump { s with free := s.free + 1, syu := { s.syu with watches := tput s.syu.watches (freshWatch s) w } } 0x2A0202 1

section Register
variable {s : State} {w p : Nat} {b : Watcher}

theorem addWatch_of_unmet (h : wsReason w (objOf s (wsKey w)) = 0) :
    addWatch s ⟨w, b, p⟩ = (freshWatch s, withWatch s ⟨w, b, p⟩) :=
  congrArg (Prod.mk (freshWatch s)) (if_pos (.inl h))

theorem addWatch_of_met (h : wsReason w (objOf s (wsKey w)) = 1) (hheld : watchesHeld s (wsKey w) = false) :
    addWatch s ⟨w, b, p⟩ = (freshWatch s, fireWatch (withWatch s ⟨w, b, p⟩) (freshWatch s) ⟨w, b, p⟩ 1) := by
  have hfires : ¬ (wsReason w (objOf s (wsKey w)) = 0 ∨ watchesHeld s (wsKey w) = true) := by
    rw [h, hheld]
    decide
  dsimp only [addWatch]
  rw [if_neg hfires, h]
  rfl

/-- An engine's watch that fires leaves the table, and its queue's wait has ended (R308, R311). -/
theorem fireWatch_engine (id q r : Nat) (hby : b = .engine q) :
    fireWatch s id ⟨w, b, p⟩ r =
      { s with syu := { s.syu with watches := tdel s.syu.watches id, ended := tput s.syu.ended q r } } := by
  subst hby
  rfl

end Register

section Watches
variable {s : State} {q : Nat} {x : Queue} {o : Op} {h : Head} {w : Nat}

/-- A WATCH that passes the checks of R307 here registers its watch. -/
theorem syWatch_of_passes (hspec : sySpec s o = some w) (hbad : wsBad w = none) (hlocal : syLocal s (wsDevice w) = true)
    (hin : objIn s x.partition (wsKind w) (wsIndex w) = true) (hmine : queueInstance s (wsQueue w) = some (o.owner, o.epoch))
    (hroom : quotaUsed s x.partition < pEnt s 0x3028 7 x.partition) :
    syWatch q s x o h =
      let r := addWatch s { spec := w, by_ := .queue (wsQueue w) o.owner o.epoch, partition := x.partition }
      endOp (modOp r.2 q o.seq (fun y => { y with detail := r.1 })) q o 0x01 := by
  have hquota : ¬ pEnt s 0x3028 7 x.partition ≤ quotaUsed s x.partition := Nat.not_le.2 hroom
  simp only [syWatch, hspec, hbad, hlocal, hin, hmine, hquota, decide_true, not_true_eq_false, and_false, if_false]

theorem syUnwatch_of_own {y : Watch} {wq we : Nat} (hlocal : syLocal s (syDevice o.body) = true)
    (hy : tget? s.syu.watches (syArg o.body % 2 ^ 20) = some y) (hown : y.by_ = .queue wq o.owner we) :
    syUnwatch q s x o h = endOp (dropWatch s (syArg o.body % 2 ^ 20)) q o 0x01 := by
  simp only [syUnwatch, hlocal, hy, hown, not_true_eq_false, if_false, if_true]

end Watches

/-- Settles O11: the checks of R307 hold, so the watch stands in the table under the ID that the completion returns; UNWATCH removes
the entry. -/
theorem watchesRegisteredAndRemoved : Obligations.WatchesRegisteredAndRemoved := by
  intro s q x o h t w
  refine ⟨fun e hspec hbad hlocal hin hmine hroom hunmet => ?_, fun y wq we e hlocal hsorted hy hown => ?_⟩
  · have hobjs := objs_of_startHead e
    have hexec : exec (.watch q) s = .next (syWatch q t x o h) := congrArg Host.Outcome.next (runHead_of_go e _)
    rw [syWatch_of_passes hspec hbad hlocal hin hmine hroom, addWatch_of_unmet hunmet] at hexec
    obtain ⟨hfin, ⟨y, hy, hdetail⟩, hother⟩ := endOp_detail_of_startHead e (v := withWatch t _) rfl (freshWatch t) 0x01
    refine ⟨_, hexec, hfin, ⟨y, hy, ?_, fun j hj => ?_⟩, hobjs, hother, ?_⟩
    · rw [hdetail]
      exact tget_tput_self ..
    · rw [← syu_of_startHead e]
      exact tget_tput_ne t.syu.watches _ (hdetail ▸ hj)
    · rw [startHead_frame e]
      rfl
  · have hobjs := objs_of_startHead e
    have hexec : exec (.unwatch q) s = .next (syUnwatch q t x o h) := congrArg Host.Outcome.next (runHead_of_go e _)
    rw [syUnwatch_of_own hlocal hy hown] at hexec
    obtain ⟨hfin, hother⟩ := endOp_of_startHead e (v := dropWatch t (syArg o.body % 2 ^ 20)) rfl 0x01
    refine ⟨_, hexec, hfin, tget_tdel_self _ hsorted, fun j hj => ?_, hobjs, hother, ?_⟩
    · rw [← syu_of_startHead e]
      exact tget_tdel_ne t.syu.watches hj
    · rw [startHead_frame e]
      rfl

/-! ### Reads, tasks and waits -/

section Rows
variable {s : State} {q : Nat} {x : Queue} {o : Op} {h : Head}

theorem syRead_of_passes (hptr : ptrOk s o.owner (syPtr o.body) (objWordBytes (syKey o.body)) .write = true) (hkind : syKind o.body ≠ 3)
    (hlocal : syLocal s (syDevice o.body) = true) (hin : objIn s x.partition (syKind o.body) (syIndex o.body) = true) :
    syRead q s x o h =
      endOp (wr s o.owner (syPtr o.body) (natLe (objWordBytes (syKey o.body)) (objWord s (syKey o.body)))) q o 0x01 := by
  simp only [syRead, hptr, hkind, hlocal, hin, not_true_eq_false, if_false]

/-- What TASK_BEGIN records of the objects that an operation lists (R313). -/
def openedTask (s : State) (o : Op) : Task where
  owner := o.owner
  epoch := o.epoch
  entries := (taskList s o (syCount o.body)).map (fun k => (k, taskState s k))

theorem syTaskBegin_of_passes (hcount : syCount o.body ≤ 1024) (hptr : ptrOk s o.owner (syPtr o.body) (4 * syCount o.body) .read = true)
    (hclean : poisonAt s (syPtr o.body) (4 * syCount o.body) = false)
    (hlist : taskBad s x.partition (taskList s o (syCount o.body)) = none) (hnone : thas s.syu.tasks q = false)
    (hslot : s.syu.tasks.length < 4096) :
    syTaskBegin q s x o h =
      endOp { s with syu := { s.syu with tasks := tput s.syu.tasks q (openedTask s o) } } q o 0x01 := by
  have hshort : ¬ 1024 < syCount o.body := Nat.not_lt.2 hcount
  have hfull : ¬ 4096 ≤ s.syu.tasks.length := Nat.not_le.2 hslot
  simp only [syTaskBegin, hshort, hptr, hclean, hlist, hnone, hfull, not_true_eq_false, Bool.false_eq_true, or_self, if_false]
  rfl

/-- A task whose objects are all as recorded is closed with no residue (R314). -/
theorem syTaskEnd_of_same {k : Task} (hk : tget? s.syu.tasks q = some k) (hsame : ∀ e ∈ k.entries, taskState s e.1 = e.2) :
    syTaskEnd q s x o h = endOp { s with syu := { s.syu with tasks := tdel s.syu.tasks q } } q o 0x01 := by
  have hnone : k.entries.filter (fun e => taskState s e.1 != e.2) = [] :=
    List.filter_eq_nil_iff.2 fun e he => by simp [hsame e he]
  simp only [syTaskEnd, hk, hnone]
  rfl

theorem execWait_of_idle (h : goingHead s q 0x06 = none) : execWait q s = .next (runHead s q 0x06 0x0D .ready (syWait q)) := by
  rw [execWait, h]

theorem waitEnds_of_met (h : tget? s.syu.ended q = some 1) : waitEnds s q o = endOp (dropWaits s q) q o 0x01 := by
  rw [waitEnds, h]
  rfl

theorem syWait_of_passes {w : Nat} (hspec : sySpec s o = some w) (hbad : wsBad w = none) (hlocal : syLocal s (wsDevice w) = true)
    (hin : objIn s x.partition (wsKind w) (wsIndex w) = true) : syWait q s x o h = waitEnds (engineWatch s q w) q o := by
  simp only [syWait, hspec, hbad, hlocal, hin, if_true]

/-- The state in which an engine's watch has fired at its registration, because its condition holds. -/
theorem engineWatch_of_met {w : Nat} (hmet : wsReason w (objOf s (wsKey w)) = 1) (hheld : watchesHeld s (wsKey w) = false) :
    ∃ d l, engineWatch s q w = { s with
      dict := d
      free := s.free + 1
      syu := { s.syu with watches := l, ended := tput s.syu.ended q 1 } } := by
  rw [engineWatch, addWatch_of_met hmet hheld, fireWatch_engine _ q 1 rfl]
  exact ⟨_, _, rfl⟩

end Rows

/-- Settles O12: each operation passes its checks and ends done; a task with no object changed has no residue, and a watch whose
condition holds ends its wait at once. -/
theorem readsTasksAndWaits : Obligations.ReadsTasksAndWaits := by
  intro s q x o h t
  refine ⟨fun e hptr hkind hlocal hin => ?_, fun e hcount hptr hclean hlist hnone hslot => ?_, fun k e hsorted hk hsame => ?_,
    fun w hidle e hspec hbad hlocal hin hmet hheld hsorted => ?_⟩
  · have hexec : exec (.syncRead q) s = .next (syRead q t x o h) := congrArg Host.Outcome.next (runHead_of_go e _)
    rw [syRead_of_passes hptr hkind hlocal hin, objWordBytes, keyKind_syKey] at hexec
    obtain ⟨hfin, hother⟩ := endOp_of_startHead e (wr_queues t ..) 0x01
    obtain ⟨m, d, r, hwritten⟩ := written_wr t o.owner (syPtr o.body)
      (natLe (if syKind o.body = 1 then 8 else 16) (objWord t (syKey o.body)))
    refine ⟨_, hexec, hfin, rfl, hother, ?_⟩
    rw [hwritten, startHead_frame e]
    rfl
  · have hobjs := objs_of_startHead e
    have hexec : exec (.taskBegin q) s = .next (syTaskBegin q t x o h) := congrArg Host.Outcome.next (runHead_of_go e _)
    rw [syTaskBegin_of_passes hcount hptr hclean hlist hnone hslot] at hexec
    obtain ⟨hfin, hother⟩ := endOp_of_startHead e
      (v := { t with syu := { t.syu with tasks := tput t.syu.tasks q (openedTask t o) } }) rfl 0x01
    refine ⟨_, hexec, hfin, tget_tput_self .., hobjs, hother, ?_⟩
    rw [startHead_frame e]
    rfl
  · have hobjs := objs_of_startHead e
    have hexec : exec (.taskEnd q) s = .next (syTaskEnd q t x o h) := congrArg Host.Outcome.next (runHead_of_go e _)
    rw [syTaskEnd_of_same hk hsame] at hexec
    obtain ⟨hfin, hother⟩ := endOp_of_startHead e (v := { t with syu := { t.syu with tasks := tdel t.syu.tasks q } }) rfl 0x01
    refine ⟨_, hexec, hfin, tget_tdel_self q hsorted, hobjs, hother, ?_⟩
    rw [startHead_frame e]
    rfl
  · have hobjs := objs_of_startHead e
    have hexec : exec (.wait q) s = .next (syWait q t x o h) :=
      (execWait_of_idle hidle).trans (congrArg Host.Outcome.next (runHead_of_go e _))
    obtain ⟨d, l, hfired⟩ := engineWatch_of_met (q := q) hmet hheld
    rw [syWait_of_passes hspec hbad hlocal hin, hfired, waitEnds_of_met (tget_tput_self ..)] at hexec
    obtain ⟨hfin, hother⟩ := endOp_of_startHead e (v := dropWaits { t with
      dict := d
      free := t.free + 1
      syu := { t.syu with watches := l, ended := tput t.syu.ended q 1 } } q) rfl 0x01
    refine ⟨_, hexec, hfin, tget_tdel_self q (tsorted_tput q 1 hsorted), engineWaits_of_dropWaits rfl,
      hobjs, hother, ?_⟩
    rw [startHead_frame e]
    rfl

end Sys2Proof.Machine

/-!
PROOFS. The deadlock detector (R319, R320).
-/
namespace Sys2Proof.Machine

/-- The snapshot changes memory and counters alone. -/
theorem written_writeSnapshot (s : State) (p : Nat) (l : List (Nat × Nat)) : Written s (writeSnapshot s p l) := by
  unfold writeSnapshot
  dsimp only
  split
  · exact .refl s
  split
  · exact .refl s
  · exact written_wr ..

/-- A state with what the detector keeps of a partition's sample; a sample like none is not listed. -/
def keepStall (s : State) (p : Nat) (x : Stall) : State :=
  { s with syu := { s.syu with stalls := if x = {} then tdel s.syu.stalls p else tput s.syu.stalls p x } }

theorem stalls_keepStall (s : State) (p : Nat) {x : Stall} (h : x.stalled = true) :
    tget? (keepStall s p x).syu.stalls p = some x := by
  have hlisted : x ≠ {} := fun hx => Bool.false_ne_true ((congrArg Stall.stalled hx).symm.trans h)
  simp only [keepStall, if_neg hlisted, tget_tput_self]

/-- What a partition's stall that is seen twice does: the fault is raised and counted, and the snapshot written (R319, R320). -/
def declaredState (s : State) (p : Nat) (l : List (Nat × Nat)) : State :=
  writeSnapshot (bump (bump (raiseDev s 0x9008 srcSyu [(p, 5), (l.length, 32)]) 0x2A0208 1) (pKey 0x3028 0x0C p) 1) p l

theorem raised_declaredState (s : State) (p : Nat) (l : List (Nat × Nat)) :
    (declaredState s p l).log.raised = s.log.raised + 1 :=
  ((written_writeSnapshot ..).recorded.1).trans (raise_log_units s _).1

section Samples
variable {s : State} {p : Nat} {l : List (Nat × Nat)}

theorem samplePart_of_running (h : stalledHeads s p = none) : samplePart s p = keepStall s p {} := by
  rw [samplePart, h]
  rfl

theorem samplePart_of_first (h : stalledHeads s p = some l) (hfirst : (tgetD s.syu.stalls p {}).stalled = false) :
    samplePart s p = keepStall s p { stalled := true, words := stallWords s l } := by
  rw [samplePart, h]
  exact if_pos (.inl hfirst)

/-- A sample that finds the words of the one before: nothing where the stall is declared, and otherwise its declaration. -/
theorem samplePart_of_same (h : stalledHeads s p = some l) (hagain : (tgetD s.syu.stalls p {}).stalled = true)
    (hwords : (tgetD s.syu.stalls p {}).words = stallWords s l) :
    samplePart s p = if (tgetD s.syu.stalls p {}).declared = true then s
      else keepStall (declaredState s p l) p { tgetD s.syu.stalls p {} with declared := true } := by
  have hsame : ¬ ((tgetD s.syu.stalls p {}).stalled = false ∨ (tgetD s.syu.stalls p {}).words ≠ stallWords s l) := by
    simp [hagain, hwords]
  rw [samplePart, h]
  exact if_neg hsame

end Samples

/-- Settles O13: a sample forgets, keeps or declares, by what it finds and what is kept of the one before. -/
theorem deadlockDetectorSamples : Obligations.DeadlockDetectorSamples := by
  intro s
  refine ⟨fun hoff => congrArg Host.Outcome.next (if_pos hoff), fun hon => congrArg Host.Outcome.next (if_neg hon),
    fun p hruns hsorted => ?_, fun p l hstalled hfirst => ?_, fun p l hstalled hagain hwords => ?_⟩
  · rw [samplePart_of_running hruns]
    exact ⟨tget_tdel_self p hsorted, rfl⟩
  · rw [samplePart_of_first hstalled hfirst]
    exact ⟨stalls_keepStall s p rfl, rfl⟩
  · rw [samplePart_of_same hstalled hagain hwords]
    refine ⟨fun hdeclared => if_pos hdeclared, fun hnew => ?_⟩
    rw [hnew, if_neg Bool.false_ne_true]
    refine ⟨raised_declaredState s p l, ?_⟩
    have hkept := stalls_keepStall (declaredState s p l) p (x := { tgetD s.syu.stalls p {} with declared := true }) hagain
    rw [tgetD, hkept]
    rfl

end Sys2Proof.Machine

/-!
PROOFS. Messages held for want of ring space, and the holdoff of vectors (R310, R316, R407).
-/
namespace Sys2Proof.Machine

theorem toHost_of_up {s : State} (e : OutEv) (h : s.host.up = true) : toHost s e = emit s e := if_pos h

theorem queueOf_modQueue_some {s : State} {q : Nat} {x : Queue} (f : Queue → Queue) (h : queueOf s q = some x) :
    queueOf (modQueue s q f) q = some (f x) := by
  rw [queueOf_modQueue_self, h]
  rfl

theorem otherQueues_modQueue (s : State) (q : Nat) (f : Queue → Queue) : OtherQueues q s (modQueue s q f) :=
  fun _ hr => queueOf_modQueue_ne s f hr

/-! ### Vectors -/

/-- A vector's signal changes of the queues only the holdoff of its own (R407). -/
theorem queueOf_signalQueue {s : State} {q : Nat} (x : Queue) {y : Queue} (h : queueOf s q = some y) :
    ∃ b c, queueOf (signalQueue s q x) q = some { y with holdoff := b, signalDue := c } := by
  unfold signalQueue
  dsimp only
  split
  · exact ⟨_, _, h⟩
  split
  · exact ⟨_, _, queueOf_modQueue_some _ h⟩
  · rw [queueOf_congr (toHost_queues ..)]
    split
    · exact ⟨_, _, h⟩
    · exact ⟨_, _, queueOf_modQueue_some _ h⟩

theorem otherQueues_signalQueue (s : State) (q : Nat) (x : Queue) : OtherQueues q s (signalQueue s q x) := by
  unfold signalQueue
  dsimp only
  split
  · exact .refl q s
  split
  · exact otherQueues_modQueue _ _ _
  · refine OtherQueues.trans ?_ (otherQueues_of_queues_eq (toHost_queues ..))
    split
    · exact .refl q s
    · exact otherQueues_modQueue _ _ _

/-- The vector of a queue that holds nothing off goes out, and the holdoff starts where there is one (R407). -/
theorem signalQueue_of_free {s : State} {q : Nat} {x : Queue} (hvec : queueVector s x = true) (hfree : x.holdoff = false)
    (hup : s.host.up = true) :
    signalQueue s q x = emit (if ent s 0x210107 = 0 then s else modQueue s q (fun y => { y with holdoff := true }))
      (.msix (ownerFn s (qOwner x)) (bits x.ctx 261 11)) := by
  dsimp only [signalQueue]
  rw [if_neg (not_not.2 hvec), hfree, if_neg Bool.false_ne_true, toHost_of_up]
  split
  · exact hup
  · exact hup

/-! ### Messages -/

/-- A message written to its slot of a queue's ring, and counted where a watch sent it. -/
def messageWritten (s : State) (x : Queue) (m : Held) : State :=
  let t := ringWr s (qOwner x) (bit x.ctx 276) (bits x.ctx 384 64 + 32 * (bits m.msg 32 32 % msgSlots x)) (natLe 32 m.msg)
  if m.isWatch then bump t 0x2A0203 1 else t

theorem messageWritten_queues (s : State) (x : Queue) (m : Held) : (messageWritten s x m).queues = s.queues := by
  unfold messageWritten
  dsimp only
  split
  · exact ringWr_queues ..
  · exact ringWr_queues ..

/-- A message that lands is counted as posted; of the queues only its own changes, in that and in its holdoff (R310). -/
theorem landMsg_lands {s : State} {q : Nat} {x : Queue} (m : Held) (h : queueOf s q = some x) :
    (∃ b c, queueOf (landMsg s q m) q = some { x with posted := x.posted + 1, holdoff := b, signalDue := c }) ∧
      OtherQueues q s (landMsg s q m) := by
  have hwritten := messageWritten_queues s x m
  have hposted := queueOf_modQueue_some (fun y => { y with posted := y.posted + 1 }) ((queueOf_congr hwritten q).trans h)
  have hother := (otherQueues_of_queues_eq hwritten).trans
    (otherQueues_modQueue (messageWritten s x m) q (fun y => { y with posted := y.posted + 1 }))
  rw [landMsg, h]
  by_cases hempty : x.posted = x.consumed
  · simp only [if_pos hempty]
    exact ⟨queueOf_signalQueue x hposted, hother.trans (otherQueues_signalQueue _ _ _)⟩
  · simp only [if_neg hempty]
    exact ⟨⟨_, _, hposted⟩, hother⟩

theorem postHeld_of_room {s : State} {q : Nat} {x : Queue} {m : Held} {r : List Held} (h : queueOf s q = some x) (hheld : x.held = m :: r)
    (hroom : ringSpace x = true) (hthawed : (m.isWatch && msgFrozen s x) = false) :
    postHeld s q = landMsg (modQueue s q (fun y => { y with held := r })) q m := by
  rw [postHeld, h]
  dsimp only
  rw [hheld]
  dsimp only
  rw [hroom, hthawed]
  rfl

/-! ### The end of a holdoff -/

/-- A queue with its holdoff over and no vector due. -/
def holdoffEnded (s : State) (q : Nat) : State := modQueue s q (fun y => { y with holdoff := false, signalDue := false })

/-- The end of a holdoff whose owner's fault ring holds nothing off (R407). -/
theorem exec_msixHoldoffExpiry {s : State} {q : Nat} {x : Queue} (h : queueOf s q = some x)
    (hring : (ownerRec s (qOwner x)).ringHoldoff = false) :
    exec (.msixHoldoffExpiry q) s = .next
      (if x.signalDue = true then signalQueue (holdoffEnded s q) q { x with holdoff := false } else holdoffEnded s q) := by
  refine congrArg Host.Outcome.next ?_
  rw [h]
  dsimp only
  rw [hring, if_neg Bool.false_ne_true]
  rfl

/-- Settles O4: the message that lands leaves the rest held; a holdoff that ends signals the vector that is due, or none. -/
theorem heldMessagesAndVectors : Obligations.HeldMessagesAndVectors := by
  intro s q x h
  have hended : queueOf (holdoffEnded s q) q = some { x with holdoff := false, signalDue := false } := queueOf_modQueue_some _ h
  have hother : OtherQueues q s (holdoffEnded s q) := otherQueues_modQueue _ _ _
  refine ⟨fun m r hheld hroom hthawed => ?_, fun hring hnone => ?_, fun hring hdue hvec hup => ?_⟩
  · have hexec : exec (.messagePost q) s = .next (landMsg (modQueue s q (fun y => { y with held := r })) q m) :=
      congrArg Host.Outcome.next (postHeld_of_room h hheld hroom hthawed)
    obtain ⟨⟨b, c, hlanded⟩, hother⟩ := landMsg_lands m (queueOf_modQueue_some (fun y => { y with held := r }) h)
    exact ⟨_, hexec, ⟨_, hlanded, rfl, rfl, rfl, rfl⟩, (otherQueues_modQueue s q _).trans hother⟩
  · have hexec := exec_msixHoldoffExpiry h hring
    rw [hnone, if_neg Bool.false_ne_true] at hexec
    exact ⟨_, hexec, hended, hother, rfl⟩
  · have hexec := exec_msixHoldoffExpiry h hring
    have hsignal := signalQueue_of_free (s := holdoffEnded s q) (q := q) (x := { x with holdoff := false }) hvec rfl hup
    have hent : ent (holdoffEnded s q) 0x210107 = ent s 0x210107 := rfl
    rw [if_pos hdue, hsignal, hent] at hexec
    refine ⟨_, hexec, ?_⟩
    by_cases hzero : ent s 0x210107 = 0
    · rw [if_pos hzero, hzero]
      exact ⟨rfl, hended, hother, rfl⟩
    · rw [if_neg hzero, decide_eq_true hzero]
      exact ⟨rfl, queueOf_modQueue_some _ hended, hother.trans (otherQueues_modQueue _ _ _), rfl⟩

end Sys2Proof.Machine

/-!
PROOFS. Ports that train, come up, lose lanes and go down (R326 to R334, R363).
-/
namespace Sys2Proof.Machine

/-! ### What goes on behind a port leaves its record -/

theorem portOf_congr {s t : State} (h : t.fab.ports = s.fab.ports) (p : Nat) : portOf t p = portOf s p := by rw [portOf, portOf, h]

theorem raiseDev_raised (s : State) (c r : Nat) (l : List (Nat × Nat)) : (raiseDev s c r l).log.raised = s.log.raised + 1 :=
  (raise_log_units s _).1

@[simp] theorem portOf_raiseDev (s : State) (c r : Nat) (l : List (Nat × Nat)) (p : Nat) : portOf (raiseDev s c r l) p = portOf s p :=
  portOf_congr (congrArg Fabric.ports (raiseDev_fab s c r l)) p

/-- A reset noted changes the list of resets alone (R489). -/
theorem noteReset_frame (s : State) (x : Reset) : ∃ l, noteReset s x = { s with resets := l } := by
  unfold noteReset
  split
  · exact ⟨_, rfl⟩
  · exact ⟨_, rfl⟩

@[simp] theorem portOf_noteReset (s : State) (x : Reset) (p : Nat) : portOf (noteReset s x) p = portOf s p := by
  obtain ⟨l, h⟩ := noteReset_frame s x
  rw [h]
  rfl

@[simp] theorem noteReset_log (s : State) (x : Reset) : (noteReset s x).log = s.log := by
  obtain ⟨l, h⟩ := noteReset_frame s x
  rw [h]

theorem ports_raise (s : State) (f : Flt) : (raise s f).fab.ports = s.fab.ports := congrArg Fabric.ports (raise_fab s f)

theorem ports_foldl {α : Type} {f : State → α → State} (hf : ∀ u a, (f u a).fab.ports = u.fab.ports) (l : List α) (s : State) :
    (l.foldl f s).fab.ports = s.fab.ports := by
  induction l generalizing s with
  | nil => rfl
  | cons a l ih => exact (ih _).trans (hf s a)

theorem ports_stopFar (s : State) (q n code : Nat) : (stopFar s q n code).fab.ports = s.fab.ports := by
  unfold stopFar
  split
  · rfl
  split
  · rfl
  · rfl

theorem ports_takeLate (s : State) (x : Sent) (target code : Nat) : (takeLate s x target code).fab.ports = s.fab.ports := by
  unfold takeLate
  exact (ports_stopFar ..).trans (ports_raise s _)

theorem ports_unknownAtomics (s : State) (dev : Nat) : (unknownAtomics s dev).fab.ports = s.fab.ports := by
  unfold unknownAtomics
  refine Eq.trans (ports_foldl (f := fun t (x : Nat × AtomSlot) => stopFar t x.2.queue x.2.seq 0xA00D)
    (fun u x => ports_stopFar ..) _ _) ?_
  exact ports_foldl (fun u _ => ports_raise u _) _ s

theorem ports_failFlow (s : State) (key : Nat) : (failFlow s key).fab.ports = s.fab.ports := by
  unfold failFlow
  refine (ports_unknownAtomics ..).trans (Eq.trans (ports_foldl (f := fun t x => takeLate t x (keyDev key) 0xA009)
    (fun u x => ports_takeLate ..) _ _) ?_)
  exact ports_raise s _

/-- Flows that fail with their last port leave the ports as they are, and take no fault back (R341). -/
@[simp] theorem portOf_failUnreached (s : State) (p : Nat) : portOf (failUnreached s) p = portOf s p := by
  refine portOf_congr (ports_foldl (fun u f => ?_) _ s) p
  split
  · exact ports_failFlow u f.1
  · rfl

theorem raised_le_failUnreached (s : State) : s.log.raised ≤ (failUnreached s).log.raised := by
  refine raised_le_foldl (fun u f => ?_) _ s
  split
  · exact (raised_lt_failFlow u f.1).le
  · exact Nat.le_refl _

/-- A port that goes down for a fault trains again, marked as faulted (R334). -/
theorem retrainPort_of_raised {s t : State} (h : s.log.raised < t.log.raised) (p : Nat) :
    (portOf (retrainPort t p) p).state = 1 ∧ (portOf (retrainPort t p) p).faulted = true ∧
      s.log.raised < (retrainPort t p).log.raised := by
  refine ⟨?_, ?_, Nat.lt_of_lt_of_le h ?_⟩
  · simp [retrainPort, trainAgain]
  · simp [retrainPort]
  · refine Nat.le_trans (Nat.le_of_eq ?_) (raised_le_failUnreached _)
    simp

theorem portDown_fails {s t : State} (h : s.log.raised ≤ t.log.raised) (p : Nat) :
    (portOf (portDown t p) p).state = 1 ∧ (portOf (portDown t p) p).faulted = true ∧ s.log.raised < (portDown t p).log.raised :=
  retrainPort_of_raised (by rw [raiseDev_raised]; exact Nat.lt_succ_of_le h) p

@[simp] theorem portOf_askReplay (s : State) (port p : Nat) : portOf (askReplay s port) p = portOf s p := rfl

/-- A command that completes in a state of which something holds. -/
theorem runs_of_exec {c : Instr} {s t : State} {p : State → Prop} (h : exec c s = .next t) (hp : p t) : Runs c s p := ⟨t, h, hp⟩

/-! ### Training -/

/-- A port with the lanes that a training brought into service, at the rate of the training (R329). -/
def lanesUp (s : State) (port rate m : Nat) : State :=
  modPort s port (fun y => { y with
    lanes := m
    rate := if rate = 1 then 212500 else 106250 })

/-- A port holds the identity record it received (R332). -/
def peerHeld (s : State) (port r : Nat) : State := modPort s port (fun y => { y with peer := r % 2 ^ 512 })

/-- A record that passes brings the port up (R332). -/
theorem checkIdentity_of_passes {s : State} {port : Nat} (h : identityBad s port (portOf s port).peer = none) :
    checkIdentity s port = modPort s port (fun x => { x with
      state := if popCount x.lanes 32 = portLanes port then 3 else 4
      trainFails := 0
      faulted := false
      credits := if x.state = 3 ∨ x.state = 4 then x.credits else 256 }) := by
  rw [checkIdentity, h]

/-- A record that fails its check leaves the port refused, with a fault (R332). -/
theorem checkIdentity_refuses {s : State} {port : Nat} {b : Nat × Nat × Nat} (h : identityBad s port (portOf s port).peer = some b) :
    (portOf (checkIdentity s port) port).state = 5 ∧ s.log.raised < (checkIdentity s port).log.raised := by
  obtain ⟨w, e, g⟩ := b
  rw [checkIdentity, h]
  refine ⟨by simp, Nat.lt_of_lt_of_le ?_ (raised_le_failUnreached _)⟩
  rw [modPort_log, raiseDev_raised]
  exact Nat.lt_succ_self _

/-- Training of a port completes at the rate due with enough lanes (R329). -/
structure Trains (s : State) (port rate n m : Nat) : Prop where
  isPort : port < 21
  powered : portPowered s port = true
  training : (portOf s port).state = 1
  rateDue : rate = if (portOf s port).highRate = true ∨ 19 ≤ port then 1 else 0
  lanes : m = trainedLanes (portOf s port) (min n (portLanes port))
  enough : portMinLanes s port ≤ popCount m 32

section Training
variable {s : State} {port rate n m : Nat}

theorem exec_portTrainingComplete (h : Trains s port rate n m) :
    exec (.portTrainingComplete port rate n) s = .next (
      if 19 ≤ port then modPort (lanesUp s port rate m) port (fun y => { y with state := 3, trainFails := 0, faulted := false })
      else if (portOf s port).highRate = true then checkIdentity (lanesUp s port rate m) port
      else modPort (lanesUp s port rate m) port (fun y => { y with state := 2 })) := by
  obtain ⟨hport, hpower, htrains, hrate, rfl, hlanes⟩ := h
  refine congrArg Host.Outcome.next (if_neg ?_)
  simp only [hpower, htrains, ← hrate, not_true_eq_false, ne_eq, false_or, not_or]
  exact ⟨Nat.not_le.2 hport, Nat.not_lt.2 hlanes⟩

/-- An Ethernet port is up once it has trained. -/
theorem ethernetPort_trains (h : Trains s port rate n m) (heth : 19 ≤ port) :
    Runs (.portTrainingComplete port rate n) s (fun t => portOf t port = { portOf s port with
      lanes := m
      rate := 212500
      state := 3
      trainFails := 0
      faulted := false } ∧ t = { s with fab := { s.fab with ports := t.fab.ports } }) := by
  have hexec := exec_portTrainingComplete h
  have hrate := h.rateDue.trans (if_pos (.inr heth))
  rw [if_pos heth] at hexec
  exact runs_of_exec hexec ⟨by simp [lanesUp, hrate], rfl⟩

/-- A Skein or near port that trained at the lower rate goes to its identity check. -/
theorem skeinPort_trains_low (h : Trains s port rate n m) (hskein : port < 19) (hlow : (portOf s port).highRate = false) :
    Runs (.portTrainingComplete port rate n) s (fun t => portOf t port = { portOf s port with
      lanes := m
      rate := 106250
      state := 2 } ∧ t = { s with fab := { s.fab with ports := t.fab.ports } }) := by
  have hexec := exec_portTrainingComplete h
  have hrate : rate = 0 := h.rateDue.trans (if_neg (by simp [hlow, hskein]))
  rw [if_neg (Nat.not_le.2 hskein), hlow, if_neg Bool.false_ne_true] at hexec
  exact runs_of_exec hexec ⟨by simp [lanesUp, hrate], rfl⟩

/-- One that trained at the higher rate is up where the record it holds passes. -/
theorem skeinPort_trains_high (h : Trains s port rate n m) (hskein : port < 19) (hhigh : (portOf s port).highRate = true)
    (hpasses : identityBad s port (portOf s port).peer = none) :
    Runs (.portTrainingComplete port rate n) s (fun t => portOf t port = { portOf s port with
      lanes := m
      rate := 212500
      state := if popCount m 32 = portLanes port then 3 else 4
      trainFails := 0
      faulted := false
      credits := 256 }) := by
  have hexec := exec_portTrainingComplete h
  have hrate := h.rateDue.trans (if_pos (.inl hhigh))
  have hup : portOf (lanesUp s port rate m) port = { portOf s port with lanes := m, rate := 212500 } := by simp [lanesUp, hrate]
  have hsame : identityBad (lanesUp s port rate m) port (portOf (lanesUp s port rate m) port).peer = none := by
    rw [hup]
    exact hpasses
  rw [if_neg (Nat.not_le.2 hskein), if_pos hhigh, checkIdentity_of_passes hsame] at hexec
  refine runs_of_exec hexec ?_
  rw [portOf_modPort_self, hup]
  simp [h.training]

theorem exec_portTrainingFailed (hport : port < 21) (htrains : (portOf s port).state = 1 ∨ (portOf s port).state = 2) :
    exec (.portTrainingFailed port) s = .next (
      if 3 ≤ (portOf s port).trainFails + 1 then
        modPort (raiseDev s 0xA001 srcPort
            [(port, 5), (if (portOf s port).state = 2 then 2 else if (portOf s port).highRate then 3 else 1, 8)])
          port (fun y => { trainAgain y 6 with trainFails := 3, faulted := true })
      else modPort s port (fun y => { trainAgain y 1 with trainFails := y.trainFails + 1 })) :=
  congrArg Host.Outcome.next (if_neg (not_or.2 ⟨Nat.not_le.2 hport, not_not.2 htrains⟩))

theorem exec_identityRecordReceive {r : Nat} (hport : port < 19) (hstate : (portOf s port).state = 2 ∨ (portOf s port).state = 5) :
    exec (.identityRecordReceive port r) s = .next (
      if (portOf s port).state = 2 ∧ bit r 320 = true ∧ bit ownCaps 0 = true then
        modPort (peerHeld s port r) port (fun y => { y with state := 1, highRate := true, lanes := 0, rate := 0 })
      else checkIdentity (peerHeld s port r) port) :=
  congrArg Host.Outcome.next (if_neg (not_or.2 ⟨Nat.not_le.2 hport, not_not.2 hstate⟩))

/-- A refused port whose new record fails too stays refused. -/
theorem identityRecord_refused {r : Nat} {b : Nat × Nat × Nat} (hport : port < 19) (hstate : (portOf s port).state = 5)
    (hbad : identityBad s port (r % 2 ^ 512) = some b) :
    Runs (.identityRecordReceive port r) s (fun t => (portOf t port).state = 5 ∧ s.log.raised < t.log.raised) := by
  have hexec := exec_identityRecordReceive (r := r) hport (.inr hstate)
  rw [if_neg (by simp [hstate])] at hexec
  refine runs_of_exec hexec (checkIdentity_refuses (s := peerHeld s port r) (b := b) ?_)
  rw [peerHeld, portOf_modPort_self]
  exact hbad

end Training

/-! ### Flits -/

theorem pumpPort_rx (n : Nat) (x : Port) : (pumpPort n x).rxSeq = x.rxSeq ∧ (pumpPort n x).replayAsked = x.replayAsked := by
  induction n generalizing x with
  | zero => exact ⟨rfl, rfl⟩
  | succ n ih =>
    unfold pumpPort
    split
    · exact ⟨rfl, rfl⟩
    split
    · exact ⟨rfl, rfl⟩
    · exact ih _

theorem ackFlits_rx (x : Port) (ack : Nat) : (ackFlits x ack).rxSeq = x.rxSeq ∧ (ackFlits x ack).replayAsked = x.replayAsked := by
  unfold ackFlits
  dsimp only
  split
  · exact ⟨rfl, rfl⟩
  · exact ⟨rfl, rfl⟩

/-- Flits sent again are seen outside, and change nothing else (R327). -/
theorem resendFlits_frame (p seq ack : Nat) (s : State) (l : List (List Nat)) : ∃ o, resendFlits p seq ack s l = { s with out := o } := by
  induction l generalizing s seq with
  | nil => exact ⟨_, rfl⟩
  | cons b l ih => exact ih ..

section Flits
variable {s : State} {port : Nat}

/-- What a port makes of a flit that is next (R326 to R328). -/
def flitTaken (f : Flit) (y : Port) : Port :=
  pumpPort 4096 (ackFlits { y with
    rxSeq := (y.rxSeq + 1) % 4096
    replayAsked := 0
    credits := min 256 (y.credits + f.credit) } f.ack)

theorem flitTaken_rx (f : Flit) (y : Port) : (flitTaken f y).rxSeq = (y.rxSeq + 1) % 4096 ∧ (flitTaken f y).replayAsked = 0 := by
  obtain ⟨hseq, hasked⟩ := pumpPort_rx 4096 (ackFlits { y with
    rxSeq := (y.rxSeq + 1) % 4096
    replayAsked := 0
    credits := min 256 (y.credits + f.credit) } f.ack)
  obtain ⟨hseq', hasked'⟩ := ackFlits_rx { y with
    rxSeq := (y.rxSeq + 1) % 4096
    replayAsked := 0
    credits := min 256 (y.credits + f.credit) } f.ack
  exact ⟨hseq.trans hseq', hasked.trans hasked'⟩

theorem exec_linkFlitReceive_next {f : Flit} (hport : port < 19) (hup : portUp s port = true) (hok : f.ok = true)
    (hseq : f.seq = (portOf s port).rxSeq) : exec (.linkFlitReceive port f) s = .next (modPort s port (flitTaken f)) := by
  refine congrArg Host.Outcome.next ?_
  simp only [hup, hok, hseq, Nat.not_le.2 hport, not_true_eq_false, ne_eq, or_self, if_false]
  rfl

theorem exec_linkFlitReceive_bad {f : Flit} (hport : port < 19) (hup : portUp s port = true) (hbad : f.ok = false) :
    exec (.linkFlitReceive port f) s = .next (badFlit s port) := by
  refine congrArg Host.Outcome.next ?_
  simp only [hup, hbad, Nat.not_le.2 hport, not_true_eq_false, or_self, if_false, Bool.false_eq_true, not_false_eq_true, if_true]

/-- A replay asked for, and counted (R327). -/
def replayAskedFor (s : State) (port : Nat) : State :=
  modPort (askReplay s port) port (fun y => { y with replayAsked := y.replayAsked + 1 })

theorem badFlit_of_lt (h : (portOf s port).replayAsked < 15) : badFlit s port = replayAskedFor s port :=
  if_neg (by omega)

theorem badFlit_of_last (h : (portOf s port).replayAsked = 15) :
    badFlit s port = retrainPort (raiseDev (replayAskedFor s port) 0xA00E srcPort [(port, 5), ((portOf s port).rxSeq, 12)]) port :=
  if_pos (by omega)

/-- A request for a replay as the port takes it: counted, with the flits before the one named acknowledged (R327). -/
def replayCounted (s : State) (port n : Nat) : State :=
  modPort s port (fun y => { ackFlits y (n % 4096) with
    replays := satAdd 64 y.replays 1
    reqSeq := n
    reqCount := if y.reqSeq = n then y.reqCount + 1 else 1 })

theorem exec_replayRequest {n : Nat} (hport : port < 19) (hup : portUp s port = true) (hsame : (portOf s port).reqSeq = n) :
    ∃ o, exec (.replayRequest port n) s = .next (
      if 16 ≤ (portOf s port).reqCount + 1 then failUnreached (modPort (replayCounted s port n) port (fun y => trainAgain y 1))
      else { replayCounted s port n with out := o }) := by
  have hcount : (portOf (replayCounted s port n) port).reqCount = (portOf s port).reqCount + 1 := by
    rw [replayCounted, portOf_modPort_self]
    exact if_pos hsame
  obtain ⟨o, ho⟩ := resendFlits_frame port (((portOf (replayCounted s port n) port).txSeq + 4096 -
    (portOf (replayCounted s port n) port).replayBuf.length % 4096) % 4096) (((portOf (replayCounted s port n) port).rxSeq + 4095) % 4096)
    (replayCounted s port n) (portOf (replayCounted s port n) port).replayBuf
  refine ⟨o, congrArg Host.Outcome.next ((if_neg (by simp [hup, hport])).trans ?_)⟩
  rw [← ho, ← hcount]
  rfl

/-- A replay asked for fewer than sixteen times is counted, and sent. -/
theorem replayRequest_counted {n : Nat} (hport : port < 19) (hup : portUp s port = true) (hsame : (portOf s port).reqSeq = n)
    (hfew : (portOf s port).reqCount < 15) :
    Runs (.replayRequest port n) s (fun t => (portOf t port).replays = min ((portOf s port).replays + 1) (2 ^ 64 - 1) ∧
      (portOf t port).reqCount = (portOf s port).reqCount + 1 ∧ t.mem = s.mem ∧ t.log = s.log) := by
  obtain ⟨o, hexec⟩ := exec_replayRequest hport hup hsame
  rw [if_neg (by omega)] at hexec
  have hrecord : portOf { replayCounted s port n with out := o } port = _ := portOf_modPort_self s port _
  refine runs_of_exec hexec ?_
  rw [hrecord]
  exact ⟨rfl, if_pos hsame, rfl, rfl⟩

theorem replayRequest_retrains {n : Nat} (hport : port < 19) (hup : portUp s port = true) (hsame : (portOf s port).reqSeq = n)
    (hmany : 15 ≤ (portOf s port).reqCount) : Runs (.replayRequest port n) s (fun t => (portOf t port).state = 1) := by
  obtain ⟨o, hexec⟩ := exec_replayRequest hport hup hsame
  rw [if_pos (by omega)] at hexec
  exact runs_of_exec hexec (by simp [trainAgain])

end Flits

/-! ### Lanes -/

/-- A port that has lost a lane: the loss counted, and the lane retired with a fault at its eighth within an hour (R333, R334). -/
def laneDropped (s : State) (port lane : Nat) : State :=
  let x := portOf s port
  let hour := (tgetD x.lost lane []).filter (fun t => decide (s.clock.us < t + 3600000000)) ++ [s.clock.us]
  let s1 := modPort s port (fun y => { y with
    lanes := x.lanes - 2 ^ lane
    drops := satAdd 64 y.drops 1
    lost := tput y.lost lane hour })
  if 8 ≤ hour.length ∧ ¬ bit x.retired lane then
    modPort (raiseDev s1 0xA002 srcPort [(port, 5), (lane, 7)]) port (fun y => { y with retired := y.retired + 2 ^ lane })
  else s1

theorem laneDropped_port (s : State) (port lane : Nat) :
    (portOf (laneDropped s port lane) port).lanes = (portOf s port).lanes - 2 ^ lane ∧
    (portOf (laneDropped s port lane) port).drops = satAdd 64 (portOf s port).drops 1 ∧
    s.log.raised ≤ (laneDropped s port lane).log.raised := by
  unfold laneDropped
  dsimp only
  split
  · rw [portOf_modPort_self, portOf_raiseDev, portOf_modPort_self, modPort_log, raiseDev_raised]
    exact ⟨rfl, rfl, Nat.le_succ _⟩
  · rw [portOf_modPort_self]
    exact ⟨rfl, rfl, Nat.le_refl _⟩

section Lanes
variable {s : State} {port lane : Nat}

theorem exec_laneLossOfLock (hport : port < 21) (hup : portUp s port = true) (hlane : bit (portOf s port).lanes lane = true) :
    exec (.laneLossOfLock port lane) s = .next (
      if popCount ((portOf s port).lanes - 2 ^ lane) 32 < portMinLanes s port then portDown (laneDropped s port lane) port
      else askReplay (noteReset (modPort (laneDropped s port lane) port (fun y => { y with state := 4 }))
        { level := 1, target := port * 32 + lane, cause := causeLock }) port) :=
  congrArg Host.Outcome.next (if_neg (by simp [hup, hlane, hport]))

/-- Enough lanes are left: the port is up at reduced width. -/
theorem laneLoss_narrows (hport : port < 21) (hup : portUp s port = true) (hlane : bit (portOf s port).lanes lane = true)
    (hmany : portMinLanes s port ≤ popCount ((portOf s port).lanes - 2 ^ lane) 32) :
    Runs (.laneLossOfLock port lane) s (fun t => (portOf t port).state = 4 ∧ (portOf t port).lanes = (portOf s port).lanes - 2 ^ lane ∧
      (portOf t port).drops = min ((portOf s port).drops + 1) (2 ^ 64 - 1)) := by
  have hexec := exec_laneLossOfLock hport hup hlane
  rw [if_neg (Nat.not_lt.2 hmany)] at hexec
  obtain ⟨hlanes, hdrops, -⟩ := laneDropped_port s port lane
  refine runs_of_exec hexec ?_
  rw [portOf_askReplay, portOf_noteReset, portOf_modPort_self]
  exact ⟨rfl, hlanes, hdrops⟩

/-- Too few lanes are left: the port goes down. -/
theorem laneLoss_fails (hport : port < 21) (hup : portUp s port = true) (hlane : bit (portOf s port).lanes lane = true)
    (hfew : popCount ((portOf s port).lanes - 2 ^ lane) 32 < portMinLanes s port) :
    Runs (.laneLossOfLock port lane) s (fun t => (portOf t port).state = 1 ∧ (portOf t port).faulted = true ∧
      s.log.raised < t.log.raised) := by
  have hexec := exec_laneLossOfLock hport hup hlane
  rw [if_pos hfew] at hexec
  obtain ⟨-, -, hraised⟩ := laneDropped_port s port lane
  exact runs_of_exec hexec (portDown_fails hraised port)

theorem exec_laneRetrained (hport : port < 21) (hup : portUp s port = true) (hlane : lane < portLanes port)
    (hout : bit (portOf s port).lanes lane = false) (hretired : bit (portOf s port).retired lane = false) :
    exec (.laneRetrained port lane) s = .next (modPort s port (fun y => { y with
      lanes := y.lanes + 2 ^ lane
      state := if popCount (y.lanes + 2 ^ lane) 32 = portLanes port then 3 else 4 })) :=
  congrArg Host.Outcome.next (if_neg (by simp [hup, hport, hlane, hout, hretired]))

theorem exec_peerSilentTimeout (hport : port < 21) (hup : portUp s port = true) :
    exec (.peerSilentTimeout port) s = .next (portDown s port) :=
  congrArg Host.Outcome.next (if_pos ⟨hport, hup⟩)

end Lanes

/-! ### Pauses -/

theorem foldl_emit (f : List Nat → OutEv) (l : List (List Nat)) (s : State) :
    ∃ o, l.foldl (fun t d => emit t (f d)) s = { s with out := o } := by
  induction l generalizing s with
  | nil => exact ⟨_, rfl⟩
  | cons d l ih => exact ih _

theorem exec_priorityFlowControl_pauses {s : State} {port n : Nat} (hport : port = 19 ∨ port = 20) (hn : 0 < n) :
    exec (.priorityFlowControl port (ent s 0x2B0605) n) s = .next (modPort s port (fun x => { x with pause := ceilDiv (n * 512) 800 })) :=
  congrArg Host.Outcome.next ((if_neg (by simp [hport])).trans (if_neg hn.ne'))

theorem exec_priorityFlowControl_ends {s : State} {port : Nat} (hport : port = 19 ∨ port = 20) :
    exec (.priorityFlowControl port (ent s 0x2B0605) 0) s = .next (endPause s port) :=
  congrArg Host.Outcome.next ((if_neg (by simp [hport])).trans (if_pos rfl))

/-- The end of a pause: datagrams that waited are seen outside (R363). -/
theorem endPause_frame (s : State) (p : Nat) :
    ∃ o, endPause s p = { modPort s p (fun y => { y with pause := 0, txWait := [] }) with out := o } :=
  foldl_emit (fun d => .port p (d.headD 0) (d.drop 1)) ..

/-! ### O51 -/

/-- Settles O51: each event of a port comes to the change of its record that its equation above gives; where the port goes down, the
fault is raised before its flows fail, which takes none back. -/
theorem portsTrainAndFail : Obligations.PortsTrainAndFail := by
  refine ⟨?_, ?_, ?_, ?_, ?_, ?_, ?_⟩
  · rintro s port rate n m x rfl hport hpower hstate hrate hm hlanes
    have h : Trains s port rate n m := ⟨hport, hpower, hstate, hrate, hm, hlanes⟩
    exact ⟨ethernetPort_trains h, skeinPort_trains_low h, skeinPort_trains_high h⟩
  · rintro s port x rfl hport hstate
    have hexec := exec_portTrainingFailed hport hstate
    refine ⟨fun hfew => ?_, fun hmany => ?_⟩
    · rw [if_neg (by omega)] at hexec
      exact runs_of_exec hexec (by simp [trainAgain])
    · rw [if_pos (by omega)] at hexec
      exact runs_of_exec hexec (by simp [trainAgain, raiseDev_raised])
  · intro s port r hport
    refine ⟨fun hstate hcan => ?_, fun hstate b => identityRecord_refused hport hstate⟩
    have hexec := exec_identityRecordReceive (r := r) hport (.inl hstate)
    rw [if_pos ⟨hstate, hcan, by decide⟩] at hexec
    refine runs_of_exec hexec ?_
    rw [peerHeld, modPort_modPort, portOf_modPort_self]
    exact ⟨rfl, rfl, rfl, rfl⟩
  · rintro s port f x rfl hport hup
    refine ⟨fun hok hseq => ?_, fun hbad hfew => ?_, fun hbad hlast => ?_, fun n => replayRequest_counted hport hup,
      fun n => replayRequest_retrains hport hup⟩
    · refine runs_of_exec (exec_linkFlitReceive_next hport hup hok hseq) ?_
      rw [portOf_modPort_self]
      exact ⟨(flitTaken_rx f _).1, (flitTaken_rx f _).2, rfl⟩
    · refine runs_of_exec (exec_linkFlitReceive_bad hport hup hbad) ?_
      rw [badFlit_of_lt hfew]
      exact ⟨portOf_modPort_self (askReplay s port) port _, List.length_append, rfl⟩
    · refine runs_of_exec (exec_linkFlitReceive_bad hport hup hbad) ?_
      rw [badFlit_of_last hlast]
      exact retrainPort_of_raised (by rw [raiseDev_raised]; exact Nat.lt_succ_self _) port
  · rintro s port lane x rfl hport hup hlane
    exact ⟨fun hin => ⟨laneLoss_narrows hport hup hin, laneLoss_fails hport hup hin⟩,
      fun hout hretired => runs_of_exec (exec_laneRetrained hport hup hlane hout hretired) ⟨portOf_modPort_self .., rfl⟩,
      runs_of_exec (exec_peerSilentTimeout hport hup) (portDown_fails (Nat.le_refl _) port)⟩
  · intro s port n hport
    refine ⟨fun hn => ?_, ?_, fun priority hother => congrArg Host.Outcome.next (if_pos (.inr hother))⟩
    · refine runs_of_exec (exec_priorityFlowControl_pauses hport hn) ⟨?_, rfl⟩
      rw [portOf_modPort_self]
      rfl
    · refine runs_of_exec (exec_priorityFlowControl_ends hport) ?_
      obtain ⟨o, hend⟩ := endPause_frame s port
      have hrecord : portOf (endPause s port) port = { portOf s port with pause := 0, txWait := [] } := by
        rw [hend]
        exact portOf_modPort_self s port _
      rw [hrecord, hend]
      exact ⟨rfl, rfl, rfl⟩
  · intro s port a b f hdown
    have hnot : ¬ portUp s port = true := by rw [hdown]; exact Bool.false_ne_true
    exact ⟨congrArg Host.Outcome.next (if_pos (.inr hnot)), congrArg Host.Outcome.next (if_pos (.inr hnot)),
      congrArg Host.Outcome.next (if_pos (.inr (.inl hnot))), congrArg Host.Outcome.next (if_pos (.inr (.inl hnot))),
      congrArg Host.Outcome.next (if_neg fun h => hnot h.2),
      fun hstate => congrArg Host.Outcome.next (if_pos (.inr (.inr (.inl hstate))))⟩

end Sys2Proof.Machine

/-!
PROOFS. A packet whose header fails its check (R335), where the fault log has a page in memory (R482).
-/
namespace Sys2Proof.Machine

/-- A STORE whose header fails is discarded with a fault, on a port that hears it (R335). -/
theorem exec_store_of_badHeader {s : State} {port : Nat} {k : Packet} (hhears : portHears s port = true)
    (heth : k.eth = decide (19 ≤ port)) (hskein : k.eth = false) (hversion : k.version = 2) (hty : k.ty = 0x03) (hdue : (flowOf s (keyOfPk k)).ackDue < 64)
    (hbad : pkHeaderOk k = false) : exec (.store port k) s = .next (badPacket s k) := by
  have hkept : portTranslate s port k = k := if_neg fun h => absurd (hversion.symm.trans h.2) (by decide)
  have harrive : arrive s port k = (badPacket s k, []) := by
    dsimp only [arrive]
    rw [hkept, if_neg (by simp [hhears, heth]), if_neg (by simp [hskein]), if_pos (.inl (by simp [hbad]))]
  have hflow : flowOf (badPacket s k) (keyOfPk k) = flowOf s (keyOfPk k) :=
    flowOf_congr (congrArg Fabric.flows (raiseDev_fab s ..)) _
  have hacked : ackIfDue (badPacket s k) (keyOfPk k) = badPacket s k := if_neg (by rw [hflow]; exact Nat.not_le.2 hdue)
  refine congrArg Host.Outcome.next ((if_pos (.inl (beq_iff_eq.2 hty))).trans ?_)
  dsimp only [receive, List.foldl_cons, List.foldl_nil]
  rw [harrive]
  exact hacked

/-- The part after reset with port 0 up and a page of the fault log at 1 MiB with room for 64 records. -/
def pagedState : State :=
  { State.reset with
    fab := { ports := [(0, { state := 3 })] }
    log := { pages := [{ handle := 0, ptr := 2 ^ 20, first := 0, count := 0, cap := 64 }] } }

/-- A STORE of device 5 with the reserved compression mode. -/
def reservedStore : Packet := { ty := 0x03, src := 5, dst := 0, cmode := 3 }

/-- The record of the fault is written to the page: memory, which listed no byte, holds it. -/
theorem pagedState_recorded : (badPacket pagedState reservedStore).mem ≠ pagedState.mem := by decide +kernel

/-- Refutes O52: where the last page of the fault log has room, the record of the fault that a bad header raises is written there, so that
memory changes although the packet's data has no effect. -/
theorem not_packetsAreTakenInOrder : ¬ Obligations.PacketsAreTakenInOrder := by
  rintro ⟨-, -, hbad, -⟩
  obtain ⟨hdiscarded, -⟩ := hbad pagedState 0 reservedStore 5 (by decide +kernel) rfl rfl (fun h => absurd h Bool.false_ne_true)
    (by decide +kernel) rfl (by decide +kernel)
  obtain ⟨t, hexec, -, hmem, -⟩ := hdiscarded (.inl (by decide +kernel))
  have hrecorded : exec (.store 0 reservedStore) pagedState = .next (badPacket pagedState reservedStore) :=
    exec_store_of_badHeader (by decide +kernel) rfl rfl rfl rfl (by decide +kernel) (by decide +kernel)
  rw [← Host.Outcome.next.inj (hrecorded.symm.trans hexec)] at hmem
  exact pagedState_recorded hmem

end Sys2Proof.Machine

/-!
PROOFS. What partitions hold, read after a change; and what packets sent, watches that fire and placement images written leave of them.
-/
namespace Sys2Proof.Machine

/-! ### The record, the job and the layers of a partition -/

theorem partOf_congr {s t : State} (h : t.parts = s.parts) (p : Nat) : partOf t p = partOf s p := by rw [partOf, partOf, h]

@[simp] theorem partOf_modPart_self (s : State) (p : Nat) (f : Part → Part) : partOf (modPart s p f) p = f (partOf s p) :=
  tgetD_tupd_self s.parts p {} f

@[simp] theorem job_modJob_self (s : State) (p : Nat) (f : Job → Job) : (partOf (modJob s p f) p).job = (partOf s p).job.map f := by
  rw [modJob, partOf_modPart_self]

theorem job_modJob {s : State} {p : Nat} {j : Job} (h : (partOf s p).job = some j) (f : Job → Job) :
    (partOf (modJob s p f) p).job = some (f j) := by
  rw [job_modJob_self, h]
  rfl

theorem job_modLayer {s : State} {p : Nat} {j : Job} (h : (partOf s p).job = some j) (i : Nat) (f : Layer → Layer) :
    (partOf (modLayer s p i f) p).job = some { j with layers := j.layers.modify i f } :=
  job_modJob h _

@[simp] theorem modJob_localFinite (s : State) (p : Nat) (f : Job → Job) :
    (partOf (modJob s p f) p).localFinite = (partOf s p).localFinite := by
  rw [modJob, partOf_modPart_self]

/-- A layer of a job is one of its list. -/
theorem layerAt_of_getElem? {j : Job} {i : Nat} {l : Layer} (h : j.layers[i]? = some l) : layerAt j i = l := by
  rw [layerAt, h]
  rfl

/-- A job with a layer changed holds the change of that layer. -/
theorem layerAt_modify_self {j k : Job} {i : Nat} {f : Layer → Layer} (hk : k.layers = j.layers.modify i f)
    (h : i < j.layers.length) : layerAt k i = f (layerAt j i) := by
  have hj : j.layers[i]? = some j.layers[i] := List.getElem?_eq_getElem h
  rw [layerAt_of_getElem? hj]
  refine layerAt_of_getElem? ?_
  rw [hk, List.getElem?_modify_eq, hj]
  rfl

/-- Changes of one layer that agree on it make the same list. -/
theorem modify_layers_congr {j : Job} {i : Nat} {f g : Layer → Layer} (h : f (layerAt j i) = g (layerAt j i)) :
    j.layers.modify i f = j.layers.modify i g := by
  refine List.ext_getElem? fun n => ?_
  rw [List.getElem?_modify, List.getElem?_modify]
  split
  · next hn =>
    subst hn
    cases hl : j.layers[i]? with
    | none => rfl
    | some l =>
      rw [layerAt_of_getElem? hl] at h
      exact congrArg some h
  · rfl

/-- The layers of a job's own stage are among its layers. -/
theorem lt_length_of_stageLayers {j : Job} {i : Nat} (h : i ∈ stageLayers j) : i < j.layers.length :=
  List.mem_range.1 (List.mem_filter.1 h).1

theorem parts_foldl {α : Type} {f : State → α → State} (hf : ∀ u a, (f u a).parts = u.parts) (l : List α) (s : State) :
    (l.foldl f s).parts = s.parts := by
  induction l generalizing s with
  | nil => rfl
  | cons a l ih => exact (ih _).trans (hf s a)

/-! ### Packets -/

theorem stopFar_parts (s : State) (q n code : Nat) : (stopFar s q n code).parts = s.parts := by
  unfold stopFar
  split
  · rfl
  split
  · rfl
  · rfl

theorem takeLate_parts (s : State) (x : Sent) (target code : Nat) : (takeLate s x target code).parts = s.parts :=
  (stopFar_parts ..).trans (raise_parts s _)

theorem unknownAtomics_parts (s : State) (dev : Nat) : (unknownAtomics s dev).parts = s.parts :=
  Eq.trans (parts_foldl (f := fun t (x : Nat × AtomSlot) => stopFar t x.2.queue x.2.seq 0xA00D) (fun _ _ => stopFar_parts ..) _ _)
    (parts_foldl (fun u _ => raise_parts u _) _ s)

theorem failFlow_parts (s : State) (key : Nat) : (failFlow s key).parts = s.parts :=
  (unknownAtomics_parts ..).trans (Eq.trans
    (parts_foldl (f := fun t x => takeLate t x (keyDev key) 0xA009) (fun _ _ => takeLate_parts ..) _ _) (raise_parts s _))

theorem portSend_parts (s : State) (p dev : Nat) (k : Packet) : (portSend s p dev k).parts = s.parts := by
  obtain ⟨o, ports, h⟩ := portSend_frame s p dev k
  rw [h]

theorem pumpFlow_parts (n : Nat) (s : State) (key : Nat) : (pumpFlow n s key).parts = s.parts := by
  induction n generalizing s with
  | zero => rfl
  | succ n ih =>
    unfold pumpFlow
    dsimp only
    split
    · rfl
    split
    · rfl
    split
    · exact failFlow_parts s key
    · refine (ih _).trans ?_
      split
      · exact portSend_parts (setFlow s key _) _ _ _
      · exact portSend_parts (setFlow s key _) _ _ _

@[simp] theorem sendPk_parts (s : State) (key q n : Nat) (k : Packet) : (sendPk s key q n k).parts = s.parts := by
  unfold sendPk
  split
  · exact (takeLate_parts ..).trans (raise_parts s _)
  · exact pumpFlow_parts 1 (setFlow s key _) key

@[simp] theorem pleSend_parts (s : State) (o rack dev off group : Nat) (poisoned : Bool) (data : List Nat) :
    (pleSend s o rack dev off group poisoned data).parts = s.parts :=
  parts_foldl (fun _ _ => sendPk_parts ..) _ s

@[simp] theorem clSend_parts (s : State) (r : CollRun) (c : Coll) (j : Nat) (head data : List Nat) :
    (clSend s r c j head data).parts = s.parts :=
  parts_foldl (fun _ _ => sendPk_parts ..) _ s

@[simp] theorem sendParts_parts (s : State) (p : Nat) (j : Job) (c : Coll) (input result : List Nat) :
    (sendParts s p j c input result).parts = s.parts :=
  parts_foldl (fun _ _ => clSend_parts ..) _ s

/-! ### Watches -/

theorem signalQueue_parts (s : State) (q : Nat) (x : Queue) : (signalQueue s q x).parts = s.parts := by
  unfold signalQueue
  split
  · rfl
  split
  · rfl
  · dsimp only
    split <;> simp

theorem landMsg_parts (s : State) (q : Nat) (m : Held) : (landMsg s q m).parts = s.parts := by
  unfold landMsg
  split
  · rfl
  · dsimp only
    split <;> split <;> simp [signalQueue_parts]

theorem postMsg_parts (s : State) (q msg : Nat) (w : Bool) : (postMsg s q msg w).parts = s.parts := by
  unfold postMsg
  split
  · rfl
  · dsimp only
    split
    · simp [landMsg_parts]
    · split <;> simp

theorem fireWatch_parts (s : State) (id : Nat) (w : Watch) (reason : Nat) : (fireWatch s id w reason).parts = s.parts := by
  unfold fireWatch
  dsimp only
  split
  · exact postMsg_parts ..
  · rfl
  · exact sendPk_parts (dropWatch s id) ..

@[simp] theorem evalWatches_parts (s : State) (k : Nat) : (evalWatches s k).parts = s.parts := by
  unfold evalWatches
  split
  · rfl
  · refine parts_foldl (fun u a => ?_) _ s
    dsimp only
    split
    · exact fireWatch_parts ..
    · rfl

/-! ### Maps and images -/

@[simp] theorem writeMap_parts (s : State) (j : Job) (l : Layer) : (writeMap s j l).parts = s.parts := wr_parts ..

@[simp] theorem writeImage_parts (s : State) (p : Nat) : (writeImage s p).parts = s.parts := by
  have hbad (j : Job) (cause : Nat) : (imageBad s j cause).parts = s.parts := raise_parts ..
  unfold writeImage
  split
  · rfl
  dsimp only
  split
  · rfl
  split
  · exact hbad _ _
  split
  · exact hbad _ _
  split
  · exact hbad _ _
  · exact wr_parts ..

/-! ### Heads that start -/

theorem parts_of_startHead {s t : State} {q op sub : Nat} {n : Need} {x : Queue} {o : Op} {h : Head}
    (e : startHead s q op sub n = .go x o h t) : t.parts = s.parts := by rw [startHead_frame e]

/-- A head that starts and then has to wait changes of its queue alone. -/
theorem markerWaits_of_startHead {s t : State} {q op sub : Nat} {n : Need} {x : Queue} {o : Op} {h : Head}
    (e : startHead s q op sub n = .go x o h t) :
    (∃ y, opAt (markerWaits t q o) q o.seq = some y ∧ y.progress = .waiting) ∧ OtherQueues q s (markerWaits t q o) ∧
      markerWaits t q o = { s with
        queues := (markerWaits t q o).queues
        dict := (markerWaits t q o).dict } := by
  obtain ⟨y, hy⟩ := startHead_opAt e
  refine ⟨⟨_, opAt_modOp_some (fun _ => rfl) hy, rfl⟩, otherQueues_of_startHead e (otherQueues_modOp _ _ _ _), ?_⟩
  rw [startHead_frame e]
  rfl

theorem finished_stopOp {s : State} {q : Nat} {o : Op} {c r : Nat} {l : List (Nat × Nat)} (h : ∃ y, opAt s q o.seq = some y) :
    Finished (stopOp s q o c r l) q o.seq 0x11 :=
  finished_endOp (opAt_raiseOp_exists h)

theorem otherQueues_stopOp (s : State) (q : Nat) (o : Op) (c r : Nat) (l : List (Nat × Nat)) :
    OtherQueues q s (stopOp s q o c r l) :=
  (otherQueues_raiseOp _ _ _ _ _ _).trans (otherQueues_modOp _ _ _ _)

end Sys2Proof.Machine

/-!
PROOFS. Collectives (R377 to R381): how a run ends its operation, which contribution stops it, and the words of a reduction combined.
-/
namespace Sys2Proof.Machine

/-! ### The rows of the collectives -/

/-- The kinds of Table 12-4, each with the row that runs it. -/
def collectiveRows (q : Nat) (peers : List Contrib) : List (Nat × Instr) :=
  [(1, .allReduce q peers), (2, .reduceScatter q peers), (3, .allGather q peers), (4, .broadcast q peers), (5, .closing q peers)]

theorem exec_of_mem_collectiveRows {q kind : Nat} {peers : List Contrib} {i : Instr} (h : (kind, i) ∈ collectiveRows q peers) (s : State) :
    exec i s = .next (clExec kind peers q s) := by
  simp only [collectiveRows, List.mem_cons, Prod.mk.injEq, List.not_mem_nil, or_false] at h
  rcases h with ⟨rfl, rfl⟩ | ⟨rfl, rfl⟩ | ⟨rfl, rfl⟩ | ⟨rfl, rfl⟩ | ⟨rfl, rfl⟩ <;> rfl

/-- What the end of a collective makes of its operation (R380). -/
def collectiveEnd (t : State) (q : Nat) (o : Op) : CollEnd → State
  | .waits => markerWaits t q o
  | .stopped u code items => stopOp u q o code srcPle items
  | .done u _ st => doneOp (noteRows u q o.seq st) q o

/-- A head with a sound control block of its row's kind ends as its run does. -/
theorem exec_collective {s t : State} {q kind : Nat} {peers : List Contrib} {i : Instr} {x : Queue} {o : Op} {h : Head} {c : Coll}
    (hrow : (kind, i) ∈ collectiveRows q peers) (e : startHead s q 0x09 0 .ready = .go x o h t)
    (hc : clCheck t o x.partition = .ok c) (hk : c.kind = kind) :
    exec i s = .next (collectiveEnd t q o (clRun t ⟨q, o, x.partition, false⟩ c peers)) := by
  rw [exec_of_mem_collectiveRows hrow, clExec, e]
  dsimp only [clOp]
  rw [hc]
  dsimp only
  rw [if_neg (not_not.2 hk)]
  cases clRun t ⟨q, o, x.partition, false⟩ c peers <;> rfl

/-! ### Contributions that stop a collective -/

/-- What the contribution of the participant in position j stops a collective for, if for anything (R380). -/
def contribBad (c : Coll) (j : Nat) (x : Contrib) : Option (Nat × List (Nat × Nat)) :=
  if x.abort then some (0xD008, [(mbDev ((c.members[j]?).getD 0), 12)])
  else if x.step ≠ c.step ∨ x.id ≠ c.id then
    some (0xD007, [(c.step, 64), (c.id, 32), (x.step, 64), (x.id, 32), (mbDev ((c.members[j]?).getD 0), 12)])
  else if x.poisoned then some (0xD009, [(clAddr c, 39)])
  else none

theorem clBad_eq (c : Coll) (me : Nat) (peers : List Contrib) : clBad c me peers =
    (clOthers c me).findSome? (fun j => (peers.find? (fun x => x.member == j)).bind (contribBad c j)) := by
  refine congrArg (fun f => (clOthers c me).findSome? f) (funext fun j => ?_)
  cases peers.find? (fun x => x.member == j) <;> rfl

/-- The positions of the other participants rise. -/
theorem pairwise_clOthers (c : Coll) (me : Nat) : (clOthers c me).Pairwise (· < ·) :=
  List.pairwise_lt_range.filter _

theorem contribBad_of_sound {c : Coll} {y : Contrib} (k : Nat) (habort : y.abort = false) (hstep : y.step = c.step) (hid : y.id = c.id)
    (hpoison : y.poisoned = false) : contribBad c k y = none := by
  rw [contribBad, if_neg (by simp [habort]), if_neg (by simp [hstep, hid]), if_neg (by simp [hpoison])]

/-- The only contribution of a participant is the one that is found. -/
theorem find?_member_of_only {r : List Contrib} {y : Contrib} {k : Nat} (hy : y ∈ r) (hmember : y.member = k)
    (honly : ∀ w ∈ r, w.member = k → w = y) : r.find? (fun z => z.member == k) = some y := by
  obtain ⟨w, hw⟩ : ∃ w, r.find? (fun z => z.member == k) = some w :=
    Option.isSome_iff_exists.1 (List.find?_isSome.2 ⟨y, hy, beq_iff_eq.2 hmember⟩)
  have hk : (w.member == k) = true := List.find?_some (p := fun z : Contrib => z.member == k) hw
  rw [hw, honly w (List.mem_of_find?_eq_some hw) (beq_iff_eq.1 hk)]

/-- Where every participant before the one in position j has sent a sound contribution, that of j decides. -/
theorem clBad_of_contribBad {c : Coll} {me j : Nat} {x : Contrib} {r : List Contrib} {b : Nat × List (Nat × Nat)} (hj : j ∈ clOthers c me)
    (hx : x.member = j) (hsound : ∀ k ∈ clOthers c me, k < j → ∃ y, r.find? (fun z => z.member == k) = some y ∧ contribBad c k y = none)
    (hbad : contribBad c j x = some b) : clBad c me (x :: r) = some b := by
  obtain ⟨before, after, hsplit⟩ := List.append_of_mem hj
  rw [clBad_eq, List.findSome?_eq_some_iff]
  refine ⟨before, j, after, hsplit, ?_, fun k hk => ?_⟩
  · rw [List.find?_cons_of_pos (by simpa using hx)]
    exact hbad
  · have hlt : k < j := (List.pairwise_append.1 (hsplit ▸ pairwise_clOthers c me)).2.2 k hk j List.mem_cons_self
    obtain ⟨y, hfind, hgood⟩ := hsound k (hsplit ▸ List.mem_append_left _ hk) hlt
    rw [List.find?_cons_of_neg (by simp only [hx, beq_iff_eq]; omega), hfind]
    exact hgood

/-! ### Words combined in a tree -/

section Tree
variable {α : Type} {f : α → α → α}

theorem length_treeLevel_le (f : α → α → α) (l : List α) : (treeLevel f l).length ≤ l.length := by
  induction l using treeLevel.induct with
  | case1 a b r ih => simp only [treeLevel, List.length_cons]; omega
  | case2 l h => rw [treeLevel.eq_2 f l h]

/-- A level of the tree combines to what its list combines to, where the order of combination does not matter. -/
theorem foldl_treeLevel (hf : ∀ a b c, f (f a b) c = f a (f b c)) (l : List α) (z : α) : (treeLevel f l).foldl f z = l.foldl f z := by
  induction l using treeLevel.induct generalizing z with
  | case1 a b r ih => simp only [treeLevel, List.foldl_cons, ih, hf]
  | case2 l h => rw [treeLevel.eq_2 f l h]

/-- The tree of R378 over an associative operation is the elements combined one after the other. -/
theorem treeFold_eq_foldl (hf : ∀ a b c, f (f a b) c = f a (f b c)) {n : Nat} (a : α) {l : List α} (hn : l.length < n) :
    treeFold f n (a :: l) = some (l.foldl f a) := by
  induction n generalizing a l with
  | zero => omega
  | succ n ih =>
    cases l with
    | nil => rfl
    | cons b r =>
      have hlen : (treeLevel f r).length < n := (length_treeLevel_le f r).trans_lt (by simpa using hn)
      calc treeFold f (n + 1) (a :: b :: r) = treeFold f n (f a b :: treeLevel f r) := rfl
        _ = some ((treeLevel f r).foldl f (f a b)) := ih _ hlen
        _ = some ((b :: r).foldl f a) := by rw [foldl_treeLevel hf, List.foldl_cons]

theorem zipEach_assoc (hf : ∀ a b c, f (f a b) c = f a (f b c)) (a b c : List α) :
    zipEach f (zipEach f a b) c = zipEach f a (zipEach f b c) := by
  induction a generalizing b c with
  | nil => rfl
  | cons x a ih =>
    cases b with
    | nil => rfl
    | cons y b =>
      cases c with
      | nil => rfl
      | cons z c => exact congrArg₂ List.cons (hf x y z) (ih b c)

end Tree

/-- AND, OR and the sum that saturates are associative. -/
theorem wordOp_assoc (op a b c : Nat) : wordOp op (wordOp op a b) c = wordOp op a (wordOp op b c) := by
  unfold wordOp
  split
  · exact Nat.and_assoc a b c
  split
  · exact Nat.or_assoc a b c
  · unfold satAdd
    omega

/-- Settles O46: the operation ends as its run does; the first bad contribution in position order stops it; and the words' operations are
associative, so the tree's shape does not show. -/
theorem collectivesEnd : Obligations.CollectivesEnd := by
  refine ⟨fun s q kind peers x o h t c i hrow e hc hk => ?_, fun c me j x r hj hx hsound => ?_,
    fun op n a l _ hn => treeFold_eq_foldl (zipEach_assoc (wordOp_assoc op)) a hn⟩
  · have hexec := exec_collective hrow e hc hk
    refine ⟨fun u b st hrun hop => ?_, fun hrun => ?_, fun u code items hrun hop => ?_⟩
    · rw [hrun] at hexec
      exact ⟨_, hexec, finished_endOp (opAt_modOp_exists (fun _ => rfl) (Option.isSome_iff_exists.1 hop)), rfl, rfl, rfl, rfl,
        (otherQueues_modOp _ _ _ _).trans (otherQueues_modOp _ _ _ _)⟩
    · rw [hrun] at hexec
      exact ⟨_, hexec, markerWaits_of_startHead e⟩
    · rw [hrun] at hexec
      exact ⟨_, hexec, finished_stopOp (Option.isSome_iff_exists.1 hop), (raiseOp_log_units ..).1, otherQueues_stopOp _ _ _ _ _ _⟩
  · have hdecides {b : Nat × List (Nat × Nat)} : contribBad c j x = some b → clBad c me (x :: r) = some b := by
      refine clBad_of_contribBad hj hx fun k hk hlt => ?_
      obtain ⟨y, hy, hmember, habort, hstep, hid, hpoison, honly⟩ := hsound k hk hlt
      exact ⟨y, find?_member_of_only hy hmember honly, contribBad_of_sound k habort hstep hid hpoison⟩
    refine ⟨fun habort => ⟨_, hdecides (if_pos habort)⟩, fun habort hother => ?_, fun habort hstep hid hpoison => ?_⟩
    · exact ⟨_, hdecides ((if_neg (by simp [habort])).trans (if_pos hother))⟩
    · exact ⟨_, hdecides ((if_neg (by simp [habort])).trans ((if_neg (by simp [hstep, hid])).trans (if_pos hpoison)))⟩

end Sys2Proof.Machine

/-!
PROOFS. Placement as every member computes it (R370, R375, R386, R388, R467, R468, R472): join records, PLACE_INIT, the first expert maps
and the agreement round of a step.
-/
namespace Sys2Proof.Machine

/-! ### Join records -/

theorem testBit_bits {i lsb w : Nat} (x : Nat) (hlo : lsb ≤ i) (hhi : i < lsb + w) : (bits x lsb w).testBit (i - lsb) = x.testBit i := by
  rw [bits, Nat.testBit_mod_two_pow, Nat.testBit_shiftRight, Nat.add_sub_cancel' hlo, decide_eq_true (by omega), Bool.true_and]

/-- The fields of Table 14-13 cover a record. -/
theorem joinFields_cover {i : Nat} (h : i < 512) : ∃ f ∈ joinFields, f.1 ≤ i ∧ i < f.1 + f.2 := by
  simp only [joinFields, List.mem_cons, List.not_mem_nil, or_false, exists_eq_or_imp, exists_eq_left]
  omega

/-- Two numbers of n bits that agree on each of them are one. -/
theorem eq_of_testBit_of_lt {x y n : Nat} (hx : x < 2 ^ n) (hy : y < 2 ^ n) (h : ∀ i, i < n → x.testBit i = y.testBit i) : x = y := by
  refine Nat.eq_of_testBit_eq fun i => ?_
  rcases Nat.lt_or_ge i n with hi | hi
  · exact h i hi
  · have hle : 2 ^ n ≤ 2 ^ i := Nat.pow_le_pow_right Nat.zero_lt_two hi
    rw [Nat.testBit_lt_two_pow (hx.trans_le hle), Nat.testBit_lt_two_pow (hy.trans_le hle)]

/-- Two records of 64 bytes without a field in which they differ are one. -/
theorem joinDiff_eq_none_iff {x y : Nat} (hx : x < 2 ^ 512) (hy : y < 2 ^ 512) : joinDiff x y = none ↔ x = y := by
  refine ⟨fun h => eq_of_testBit_of_lt hx hy fun i hi => ?_, ?_⟩
  · have hfields : ∀ f ∈ joinFields, bits x f.1 f.2 = bits y f.1 f.2 := by simpa [joinDiff] using h
    obtain ⟨f, hf, hlo, hhi⟩ := joinFields_cover hi
    rw [← testBit_bits x hlo hhi, hfields f hf, testBit_bits y hlo hhi]
  · rintro rfl
    simp [joinDiff]

theorem forall_mem_indexed {α : Type} (l : List α) (n : Nat) (p : α → Prop) : (∀ x ∈ indexed n l, p x.2) ↔ ∀ r ∈ l, p r := by
  conv_rhs => rw [← map_snd_indexed l n]
  exact List.forall_mem_map.symm

/-- What lets records pass: the digests, then every field, then the clocks (R375, R468). -/
theorem joinBad_eq_none_iff (p own : Nat) (l : List Nat) : joinBad p own l = none ↔
    (∀ r ∈ l, bits r 480 32 = bits own 480 32) ∧ (∀ r ∈ l, joinDiff own r = none) ∧ ∀ r ∈ l, bit r 331 = true := by
  have hdigest : (indexed 0 l).find? (fun x => bits x.2 480 32 != bits own 480 32) = none ↔
      ∀ r ∈ l, bits r 480 32 = bits own 480 32 := by
    rw [List.find?_eq_none, ← forall_mem_indexed l 0]
    simp
  have hfield : (indexed 0 l).findSome? (fun x => (joinDiff own x.2).map (fun f => (x.1, f))) = none ↔ ∀ r ∈ l, joinDiff own r = none := by
    rw [List.findSome?_eq_none_iff, ← forall_mem_indexed l 0]
    simp
  have hlocked : (indexed 0 l).find? (fun x => !bit x.2 331) = none ↔ ∀ r ∈ l, bit r 331 = true := by
    rw [List.find?_eq_none, ← forall_mem_indexed l 0]
    simp
  rw [← hdigest, ← hfield, ← hlocked, joinBad]
  cases (indexed 0 l).find? (fun x => bits x.2 480 32 != bits own 480 32) with
  | some x => simp
  | none => cases (indexed 0 l).findSome? (fun x => (joinDiff own x.2).map (fun f => (x.1, f))) with
    | some x => simp
    | none => cases (indexed 0 l).find? (fun x => !bit x.2 331) <;> simp

/-- Records pass exactly where each is this device's own with its clock locked. -/
theorem joinBad_eq_none_iff_own {own : Nat} (p : Nat) {l : List Nat} (hown : own < 2 ^ 512) (hl : ∀ r ∈ l, r < 2 ^ 512) :
    joinBad p own l = none ↔ ∀ r ∈ l, r = own ∧ bit r 331 = true := by
  rw [joinBad_eq_none_iff]
  constructor
  · rintro ⟨-, hdiff, hlocked⟩ r hr
    exact ⟨((joinDiff_eq_none_iff hown (hl r hr)).1 (hdiff r hr)).symm, hlocked r hr⟩
  · intro h
    exact ⟨fun r hr => by rw [(h r hr).1], fun r hr => (joinDiff_eq_none_iff hown (hl r hr)).2 (h r hr).1.symm,
      fun r hr => (h r hr).2⟩

/-! ### PLACE_INIT -/

section PlaceInit
variable {s t : State} {q : Nat} {peers : List Join} {x : Queue} {o : Op} {h : Head} {d : JobDesc}

/-- A job description passes the checks of PLACE_INIT before the records are exchanged, and no job stands in its way (R370). -/
def PlaceChecks (t : State) (x : Queue) (o : Op) (d : JobDesc) : Prop :=
  isTile (bits o.body 432 40) = false ∧ ptrOk t o.owner (bits o.body 432 40) 64 .read = true ∧
    (partOf t x.partition).jobState = 0 ∧ placeCheck t o.owner (bits o.body 432 40) = .ok d

/-- A sound job description goes on to the exchange of records. -/
theorem exec_placeInit (e : startHead s q 0x0A 1 .ready = .go x o h t) (hsound : PlaceChecks t x o d) :
    exec (.placeInit q peers) s = .next (placeJoin t q o x.partition d peers) := by
  obtain ⟨htile, hptr, hstate, hcheck⟩ := hsound
  refine congrArg Host.Outcome.next ((runHead_of_go e _).trans ?_)
  dsimp only [placeInit]
  rw [if_neg (by simp [htile, hptr]), if_neg (by simp [hstate]), hcheck]

/-- The records that a member has: its own, and those received, in rank order (R375). -/
def joinsOf (t : State) (d : JobDesc) (own : Nat) (peers : List Join) : List (Option Nat) :=
  (List.range d.members.length).map (fun r => if r = jobRank t d then some own else (peers.find? (fun y => y.rank == r)).map (·.record))

variable {p own : Nat} {l : List Nat}

/-- With a record missing the operation waits, the partition joining. -/
theorem placeJoin_of_missing {r : Nat} (hr : r < d.members.length) (hother : r ≠ jobRank t d)
    (hmissing : peers.any (fun y => y.rank == r) = false) : placeJoin t q o p d peers =
      modOp (modPart t p (fun y => { y with jobState := 1 })) q o.seq (fun y => { y with
        progress := .waiting
        stage := 1
        runs := o.runs }) := by
  refine if_pos ?_
  rw [List.any_map, List.any_eq_true]
  refine ⟨r, List.mem_range.2 hr, ?_⟩
  have hnone : peers.find? (fun y => y.rank == r) = none := by simpa using hmissing
  simp [hother, hnone]

theorem filterMap_id_map_some (l : List Nat) : (l.map some).filterMap id = l := by simp

/-- Records that pass place the job (R370). -/
theorem placeJoin_of_agreed {j : Job} (hown : own = joinRecord t p (jobDigest d.hdr d.members d.recs d.regions))
    (hl : joinsOf t d own peers = l.map some) (hgood : joinBad p own l = none) (hj : jobOf t o.owner d = some j) :
    placeJoin t q o p d peers = doneOp (placeJob (sendJoin t o d own) p j) q o := by
  subst hown
  rw [joinsOf] at hl
  dsimp only [placeJoin]
  rw [hl, if_neg (by simp), filterMap_id_map_some, hgood]
  dsimp only
  rw [hj]

/-- Records that differ refuse the operation; one whose own record is not what most members hold has joined no group (R468). -/
theorem placeJoin_of_refused {b : Nat × List (Nat × Nat)} (hown : own = joinRecord t p (jobDigest d.hdr d.members d.recs d.regions))
    (hl : joinsOf t d own peers = l.map some) (hbad : joinBad p own l = some b) :
    placeJoin t q o p d peers = refusePlace (if own ≠ joinReference l
      then modPart (sendJoin t o d own) p (fun y => { y with joinState := 3 }) else sendJoin t o d own) q o p b := by
  subst hown
  rw [joinsOf] at hl
  dsimp only [placeJoin]
  rw [hl, if_neg (by simp), filterMap_id_map_some, hbad]

/-- A job placed is the partition's, in force and joined. -/
theorem partOf_placeJob (s : State) (p : Nat) (j : Job) :
    (partOf (placeJob s p j) p).job = some j ∧ (partOf (placeJob s p j) p).jobState = 2 ∧ (partOf (placeJob s p j) p).joinState = 1 := by
  have hparts : partOf (placeJob s p j) p = { partOf s p with
      job := some j
      jobState := 2
      joinState := 1 } := by
    rw [placeJob, partOf_congr (writeImage_parts ..), partOf_congr (parts_foldl (fun _ _ => writeMap_parts ..) _ _), partOf_modPart_self]
  rw [hparts]
  exact ⟨rfl, rfl, rfl⟩

theorem partOf_refusePlace (s : State) (q : Nat) (o : Op) (p : Nat) (b : Nat × List (Nat × Nat)) :
    partOf (refusePlace s q o p b) p = { partOf s p with jobState := 0 } := by
  rw [refusePlace, partOf_congr (refuseOp_parts ..), partOf_modPart_self]

end PlaceInit

/-! ### The agreement round of a step -/

theorem foldl_and_le (l : List Nat) (a : Nat) : l.foldl (· &&& ·) a ≤ a ∧ ∀ w ∈ l, l.foldl (· &&& ·) a ≤ w := by
  induction l generalizing a with
  | nil => simp
  | cons w l ih =>
    obtain ⟨hfold, hall⟩ := ih (a &&& w)
    rw [List.foldl_cons]
    exact ⟨hfold.trans Nat.and_le_left, List.forall_mem_cons.2 ⟨hfold.trans Nat.and_le_right, hall⟩⟩

theorem foldl_and_of_forall_eq {l : List Nat} {a : Nat} (h : ∀ w ∈ l, w = a) : l.foldl (· &&& ·) a = a := by
  induction l with
  | nil => rfl
  | cons w l ih =>
    obtain ⟨hw, hl⟩ := List.forall_mem_cons.1 h
    rw [List.foldl_cons, hw, Nat.and_self, ih hl]

/-- The AND of words is the complement of the AND of their complements, which is their OR, exactly where they are all one (R472). -/
theorem and_eq_compl_and_compl_iff {m d : Nat} {l : List Nat} (hd : d ≤ m) (hl : ∀ w ∈ l, w ≤ m) :
    l.foldl (· &&& ·) d = m - (l.map (m - ·)).foldl (· &&& ·) (m - d) ↔ ∀ w ∈ l, w = d := by
  constructor
  · intro heq w hw
    obtain ⟨hand, handAll⟩ := foldl_and_le l d
    obtain ⟨hcompl, hcomplAll⟩ := foldl_and_le (l.map (m - ·)) (m - d)
    have hlow := handAll w hw
    have hhigh := hcomplAll (m - w) (List.mem_map_of_mem hw)
    have hw' := hl w hw
    omega
  · intro hsame
    have hcompl : ∀ w ∈ l.map (m - ·), w = m - d := by simpa using fun w hw => congrArg (m - ·) (hsame w hw)
    rw [foldl_and_of_forall_eq hsame, foldl_and_of_forall_eq hcompl, Nat.sub_sub_self hd]

/-- The word that a participant has sent, in the round whose words begin at a base. -/
def wordFrom (peers : List Contrib) (base k : Nat) : Option Nat :=
  (peers.find? (fun y => y.member == base + k)).map (fun y => leNat (y.data.take 4))

/-- With a word of every member, none poisoned or aborting, a round comes to their AND (R381). -/
theorem closeWord_of_words {ranks : List Nat} {base : Nat} {peers : List Contrib} {w : Nat → Nat} (own : Nat)
    (hgood : ∀ y ∈ peers, y.poisoned = false ∧ y.abort = false) (hw : ∀ k ∈ ranks, wordFrom peers base k = some (w k)) :
    closeWord own ranks base peers = some ((ranks.map w).foldl (· &&& ·) own) := by
  unfold closeWord
  induction ranks generalizing own with
  | nil => rfl
  | cons k r ih =>
    obtain ⟨hk, hr⟩ := List.forall_mem_cons.1 hw
    obtain ⟨y, hy, hword⟩ := Option.map_eq_some_iff.1 hk
    obtain ⟨hpoison, habort⟩ := hgood y (List.mem_of_find?_eq_some hy)
    rw [List.map_cons, List.foldl_cons, List.foldl_cons, ← ih (own &&& w k) hr, hy]
    dsimp only
    rw [if_neg (by simp [hpoison, habort]), hword]

/-- Ranks of the other members of a job. -/
def otherRanks (j : Job) : List Nat := (List.range j.members.length).filter (fun r => decide (r ≠ j.rank))

theorem mem_otherRanks {j : Job} {r : Nat} : r ∈ otherRanks j ↔ r < j.members.length ∧ r ≠ j.rank := by
  simp [otherRanks]

/-- The agreement round with both words there: it is noted whether the first is the complement of the second (R472). -/
theorem agreeRound_of_words {s : State} {p d a b : Nat} {j : Job} {peers : List Contrib}
    (ha : closeWord d (otherRanks j) 0 peers = some a) (hb : closeWord (0xFFFFFFFF - d) (otherRanks j) j.members.length peers = some b) :
    ∃ v, agreeRound s p j d peers = some v ∧ (partOf v p).agreed = some (a == 0xFFFFFFFF - b) := by
  rw [otherRanks] at ha hb
  dsimp only [agreeRound]
  rw [ha, hb]
  refine ⟨_, rfl, ?_⟩
  split
  · rw [partOf_modPart_self]
  · rw [partOf_congr (bump_parts ..), agreeRound.raiseDevPart, partOf_congr (raiseDev_parts ..), partOf_modPart_self]

/-- The round finds agreement exactly where every member's digest is this device's (R472). -/
theorem agreeRound_agrees_iff {s : State} {p d : Nat} {j : Job} {peers : List Contrib} {ds : Nat → Nat} (hd : d < 2 ^ 32)
    (hds : ∀ r, ds r < 2 ^ 32) (hgood : ∀ y ∈ peers, y.poisoned = false ∧ y.abort = false)
    (hword : ∀ r ∈ otherRanks j, wordFrom peers 0 r = some (ds r) ∧ wordFrom peers j.members.length r = some (0xFFFFFFFF - ds r)) :
    ∃ v, agreeRound s p j d peers = some v ∧ ((partOf v p).agreed = some true ↔ ∀ r ∈ otherRanks j, ds r = d) := by
  obtain ⟨v, hv, hagreed⟩ := agreeRound_of_words (s := s) (p := p) (closeWord_of_words d hgood fun r hr => (hword r hr).1)
    (closeWord_of_words (0xFFFFFFFF - d) hgood fun r hr => (hword r hr).2)
  refine ⟨v, hv, ?_⟩
  have hcompl : (otherRanks j).map (fun r => 0xFFFFFFFF - ds r) = ((otherRanks j).map ds).map (0xFFFFFFFF - ·) := by simp
  have hbound : ∀ w ∈ (otherRanks j).map ds, w ≤ 0xFFFFFFFF := List.forall_mem_map.2 fun r _ => Nat.le_of_lt_succ (hds r)
  rw [hagreed, hcompl, Option.some_inj, beq_iff_eq, and_eq_compl_and_compl_iff (Nat.le_of_lt_succ hd) hbound, List.forall_mem_map]

/-- The head that waits to arrive, of a placed job with no gradient due and no work of the step left: the digest is frozen, and the
arrival follows where the round has every word (R382, R472). -/
theorem sendArrival_of_idle {s u : State} {p q : Nat} {x : Queue} {o : Op} {j : Job} {peers : List Contrib} (grads : List (List Contrib))
    (harrival : waitingArrival s p = some (q, x, o)) (hj : (partOf s p).job = some j) (hsize : 1 < groupSize s p) (hdue : j.gradDue = [])
    (hu : u = modJob (modPart s p (fun y => { y with frozen := some (((partOf s p).frozen).getD (stepDigest s p)) })) p
      (fun y => { y with gradDue := [] })) (hidle : pleWorks u j = false) :
    sendArrival p peers grads s = ((agreeRound u p j (((partOf s p).frozen).getD (stepDigest s p)) peers).map
      (fun v => arriveAll v p q x o j)).getD u := by
  subst hu
  dsimp only [sendArrival]
  rw [harrival, hj]
  dsimp only
  rw [if_neg (Nat.not_le.2 hsize), hdue, List.flatMap_nil]
  dsimp only [runGrads]
  rw [hidle, if_neg Bool.false_ne_true]
  cases agreeRound _ p j (((partOf s p).frozen).getD (stepDigest s p)) peers <;> rfl

end Sys2Proof.Machine

/-!
PROOFS. The procedure of R388: counts of replicas, their order, the members and slots that they get, and the first placement (R386).
-/
namespace Sys2Proof.Machine

/-! ### Choices and sorting -/

/-- A fold that at each element keeps its choice or takes the element, where that has a property, chooses an element with the property. -/
theorem choice_of_foldl {α : Type} {g : Option α → α → Option α} {P : α → Prop} {l : List α} {y : α}
    (hg : ∀ b, ∀ x ∈ l, g b x = b ∨ g b x = some x ∧ P x) (h : l.foldl g none = some y) : y ∈ l ∧ P y := by
  have hfold : ∀ (r : List α) (b : Option α), (∀ x ∈ r, x ∈ l) → (∀ z, b = some z → z ∈ l ∧ P z) →
      ∀ z, r.foldl g b = some z → z ∈ l ∧ P z := by
    intro r
    induction r with
    | nil => exact fun b _ hb z hz => hb z hz
    | cons x r ih =>
      intro b hr hb
      obtain ⟨hx, hr⟩ := List.forall_mem_cons.1 hr
      refine ih _ hr fun z hz => ?_
      rcases hg b x hx with hkeep | ⟨htake, hP⟩
      · exact hb z (hkeep.symm.trans hz)
      · rw [htake, Option.some_inj] at hz
        exact hz ▸ ⟨hx, hP⟩
  exact hfold l none (fun _ hx => hx) (fun _ hz => by cases hz) y h

/-- A fold whose state no element changes. -/
theorem foldl_of_fixed {α β : Type} {g : β → α → β} {b : β} {l : List α} (h : ∀ x ∈ l, g b x = b) : l.foldl g b = b := by
  induction l with
  | nil => rfl
  | cons x l ih =>
    obtain ⟨hx, hl⟩ := List.forall_mem_cons.1 h
    rw [List.foldl_cons, hx, ih hl]

section Sorting
variable {α : Type} (f : α → α → Bool)

theorem insertBy_perm (x : α) (l : List α) : (insertBy f x l).Perm (x :: l) := by
  induction l with
  | nil => exact .refl _
  | cons y l ih =>
    unfold insertBy
    split
    · exact .refl _
    · exact (ih.cons y).trans (.swap x y l)

theorem sortBy_perm (l : List α) : (sortBy f l).Perm l := by
  induction l with
  | nil => exact .refl _
  | cons x l ih => exact (insertBy_perm f x _).trans (ih.cons x)

/-- A list in order is sorted as it stands. -/
theorem sortBy_of_pairwise {l : List α} (h : l.Pairwise (fun x y => f x y = true)) : sortBy f l = l := by
  induction l with
  | nil => rfl
  | cons x l ih =>
    obtain ⟨hx, hl⟩ := List.pairwise_cons.1 h
    rw [sortBy, ih hl]
    cases l with
    | nil => rfl
    | cons y r => exact if_pos (hx y List.mem_cons_self)

end Sorting

/-! ### Counts of replicas -/

/-- The expert that gains a replica has fewer than four (R388). -/
theorem count_lt_of_nextReplica {loads counts : List Nat} {e : Nat} (h : nextReplica loads counts = some e) : (counts[e]?).getD 1 < 4 := by
  refine (choice_of_foldl (P := fun e => (counts[e]?).getD 1 < 4) (fun b x _ => ?_) h).2
  dsimp only
  split
  · exact .inl rfl
  next hfew =>
  split
  · exact .inr ⟨rfl, Nat.lt_of_not_le hfew⟩
  split
  · exact .inr ⟨rfl, Nat.lt_of_not_le hfew⟩
  · exact .inl rfl

/-- Counts from one to four stay so, as many as there are experts. -/
theorem replicaCounts_spec (loads : List Nat) (n : Nat) {counts : List Nat} (h : ∀ k ∈ counts, 1 ≤ k ∧ k ≤ 4) :
    (replicaCounts loads n counts).length = counts.length ∧ ∀ k ∈ replicaCounts loads n counts, 1 ≤ k ∧ k ≤ 4 := by
  induction n generalizing counts with
  | zero => exact ⟨rfl, h⟩
  | succ n ih =>
    unfold replicaCounts
    split
    · exact ⟨rfl, h⟩
    next e he =>
    split
    · exact ⟨rfl, h⟩
    have hlt := count_lt_of_nextReplica he
    have hset : ∀ k ∈ counts.set e ((counts[e]?).getD 1 + 1), 1 ≤ k ∧ k ≤ 4 := fun k hk =>
      (List.mem_or_eq_of_mem_set hk).elim (h k) fun hk => by omega
    obtain ⟨hlen, hall⟩ := ih hset
    exact ⟨hlen.trans List.length_set, hall⟩

/-! ### Replicas in their slots -/

/-- What the placing of replicas keeps: slots in range, below those that their member hosts, none used twice, and the replicas of an expert
at distinct members (R388). -/
structure Placing (d c : Nat) (a : Asg) : Prop where
  hosts : a.hosted.length = d
  inRange : ∀ y ∈ a.map.flatten, y.1 < d ∧ y.2 < c
  hosted : ∀ y ∈ a.map.flatten, y.2 < (a.hosted[y.1]?).getD 0
  nodup : a.map.flatten.Nodup
  members : ∀ m ∈ a.map, (m.map (·.1)).Nodup

/-- One member looked at for a replica of an expert: kept out where it is full or holds the expert, else taken where it is the first or has
less load than the one chosen so far (R388). -/
def pickStep (c e : Nat) (a : Asg) (b : Option Nat) (d : Nat) : Option Nat :=
  if c ≤ (a.hosted[d]?).getD 0 ∨ (((a.map[e]?).getD []).map (·.1)).contains d then b
  else match b with
    | none => some d
    | some f => if (a.load[d]?).getD 0 < (a.load[f]?).getD 0 then some d else b

theorem pickMember_eq (c e : Nat) (a : Asg) : pickMember c e a = (List.range a.hosted.length).foldl (pickStep c e a) none := rfl

/-- The member for a replica exists, has room, and does not hold the expert. -/
theorem pickMember_spec {c e d : Nat} {a : Asg} (h : pickMember c e a = some d) :
    d < a.hosted.length ∧ (a.hosted[d]?).getD 0 < c ∧ d ∉ ((a.map[e]?).getD []).map (·.1) := by
  rw [pickMember_eq] at h
  refine (choice_of_foldl (P := fun d => (a.hosted[d]?).getD 0 < c ∧ d ∉ ((a.map[e]?).getD []).map (·.1)) (fun b x _ => ?_) h).imp_left
    List.mem_range.1
  unfold pickStep
  split
  · exact .inl rfl
  next hroom =>
  rw [not_or, Nat.not_le, List.contains_iff_mem] at hroom
  split
  · exact .inr ⟨rfl, hroom⟩
  split
  · exact .inr ⟨rfl, hroom⟩
  · exact .inl rfl

/-- One entry more at the end of a list of lists is one element more of all of them. -/
theorem flatten_set_append_perm {α : Type} (l : List (List α)) {e : Nat} (z : α) (he : e < l.length) :
    (l.set e ((l[e]?).getD [] ++ [z])).flatten.Perm (z :: l.flatten) := by
  induction l generalizing e with
  | nil => cases he
  | cons m l ih =>
    cases e with
    | zero => simp
    | succ e =>
      have htail := (ih (Nat.lt_of_succ_lt_succ he)).append_left m
      simpa using htail.trans List.perm_middle

/-- Where a replica is placed, it takes its member's next slot. -/
theorem placeOne_some {c : Nat} {a b : Asg} {x : Nat × Nat × Nat} (h : placeOne c (some a) x = some b) :
    ∃ d, pickMember c x.2.1 a = some d ∧
      b.hosted = a.hosted.set d ((a.hosted[d]?).getD 0 + 1) ∧
      b.map = a.map.set x.2.1 ((a.map[x.2.1]?).getD [] ++ [(d, (a.hosted[d]?).getD 0)]) := by
  obtain ⟨d, hd, rfl⟩ := Option.map_eq_some_iff.1 h
  exact ⟨d, hd, rfl, rfl⟩

theorem Placing.placeOne {d c : Nat} {a b : Asg} {x : Nat × Nat × Nat} (ha : Placing d c a) (hx : x.2.1 < a.map.length)
    (h : placeOne c (some a) x = some b) : Placing d c b := by
  obtain ⟨k, hpick, hhosted, hmap⟩ := placeOne_some h
  obtain ⟨hk, hroom, hnew⟩ := pickMember_spec hpick
  have hperm := hmap ▸ flatten_set_append_perm a.map (k, (a.hosted[k]?).getD 0) hx
  have hgrown (i : Nat) : (a.hosted[i]?).getD 0 + (if i = k then 1 else 0) = (b.hosted[i]?).getD 0 := by
    rw [hhosted, List.getElem?_set]
    by_cases hi : i = k
    · subst hi
      simp [hk]
    · simp [hi, Ne.symm hi]
  refine ⟨hhosted ▸ List.length_set.trans ha.hosts, ?_, ?_, ?_, ?_⟩
  · refine fun y hy => (List.mem_cons.1 (hperm.mem_iff.1 hy)).elim (fun hy => ?_) (ha.inRange y)
    rw [hy]
    exact ⟨ha.hosts ▸ hk, hroom⟩
  · intro y hy
    rw [← hgrown]
    rcases List.mem_cons.1 (hperm.mem_iff.1 hy) with rfl | hy
    · simp
    · exact Nat.lt_add_right _ (ha.hosted y hy)
  · refine hperm.nodup_iff.2 (List.nodup_cons.2 ⟨fun hy => ?_, ha.nodup⟩)
    exact Nat.lt_irrefl _ (ha.hosted _ hy)
  · intro m hm
    rw [hmap] at hm
    rcases List.mem_or_eq_of_mem_set hm with hm | rfl
    · exact ha.members m hm
    · have hold : (((a.map[x.2.1]?).getD []).map (·.1)).Nodup := by
        rw [List.getElem?_eq_getElem hx]
        exact ha.members _ (List.getElem_mem hx)
      rw [List.map_append]
      exact hold.append (List.nodup_singleton k) (by simpa using hnew)

theorem foldl_placeOne_none (c : Nat) (l : List (Nat × Nat × Nat)) : l.foldl (placeOne c) none = none := foldl_of_fixed fun _ _ => rfl

/-- Replicas placed one after the other keep what placing keeps; an expert's entry grows by one for each replica of its own. -/
theorem placing_foldl {d c : Nat} {l : List (Nat × Nat × Nat)} {a r : Asg} (ha : Placing d c a) (hl : ∀ x ∈ l, x.2.1 < a.map.length)
    (h : l.foldl (placeOne c) (some a) = some r) : Placing d c r ∧ r.map.length = a.map.length ∧
      ∀ e, e < a.map.length → ((r.map[e]?).getD []).length = ((a.map[e]?).getD []).length + l.countP (fun x => x.2.1 == e) := by
  induction l generalizing a with
  | nil => cases h; exact ⟨ha, rfl, fun _ _ => rfl⟩
  | cons x l ih =>
    obtain ⟨hx, hl⟩ := List.forall_mem_cons.1 hl
    rw [List.foldl_cons] at h
    cases hb : placeOne c (some a) x with
    | none => rw [hb, foldl_placeOne_none] at h; cases h
    | some b =>
      rw [hb] at h
      obtain ⟨k, -, -, hmap⟩ := placeOne_some hb
      have hlen : b.map.length = a.map.length := hmap ▸ List.length_set
      obtain ⟨hr, hrlen, hcount⟩ := ih (ha.placeOne hx hb) (hlen ▸ hl) h
      refine ⟨hr, hrlen.trans hlen, fun e he => ?_⟩
      rw [hcount e (hlen ▸ he), hmap, List.getElem?_set, List.countP_cons]
      by_cases hxe : x.2.1 = e
      · subst hxe
        simp [hx]
        omega
      · simp [hxe]

/-! ### The procedure as a whole -/

/-- The replicas to be placed, as (weight, expert, replica), in expert order. -/
def replicaItems (loads counts : List Nat) : List (Nat × Nat × Nat) :=
  (List.range loads.length).flatMap (fun x => (List.range ((counts[x]?).getD 1)).map (fun h =>
    (shareOf ((loads[x]?).getD 0) ((counts[x]?).getD 1) h, x, h)))

/-- The counts of replicas that loads come to on d members of c slots. -/
def countsOf (loads : List Nat) (d c : Nat) : List Nat := replicaCounts loads (d * c - loads.length) (List.replicate loads.length 1)

/-- No replica placed: every member and every expert empty. -/
def emptyAsg (e d : Nat) : Asg := ⟨List.replicate d 0, List.replicate d 0, List.replicate e []⟩

theorem placeExperts_eq (loads : List Nat) (d c : Nat) : placeExperts loads d c =
    ((sortBy itemBefore (replicaItems loads (countsOf loads d c))).foldl (placeOne c) (some (emptyAsg loads.length d))).map
      (fun r => (r.map, r.load.foldl max 0)) := rfl

theorem placing_emptyAsg (e d c : Nat) : Placing d c (emptyAsg e d) := by
  have hempty : (emptyAsg e d).map.flatten = [] := by simp [emptyAsg]
  refine ⟨by simp [emptyAsg], ?_, ?_, by simp [hempty], fun m hm => ?_⟩
  · simp [hempty]
  · simp [hempty]
  · rw [List.eq_of_mem_replicate hm]
    exact List.nodup_nil

theorem expert_lt_of_mem_replicaItems {loads counts : List Nat} {x : Nat × Nat × Nat} (h : x ∈ replicaItems loads counts) :
    x.2.1 < loads.length := by
  obtain ⟨e, he, hx⟩ := List.mem_flatMap.1 h
  obtain ⟨i, -, rfl⟩ := List.mem_map.1 hx
  exact List.mem_range.1 he

/-- Every expert has as many replicas to be placed as it counts. -/
theorem countP_replicaItems {loads counts : List Nat} {e : Nat} (he : e < loads.length) :
    (replicaItems loads counts).countP (fun x => x.2.1 == e) = (counts[e]?).getD 1 := by
  have hown (x : Nat) : ((List.range ((counts[x]?).getD 1)).map (fun h =>
      (shareOf ((loads[x]?).getD 0) ((counts[x]?).getD 1) h, x, h))).countP (fun y => y.2.1 == e) =
        if x = e then (counts[e]?).getD 1 else 0 := by
    rw [List.countP_map]
    by_cases hx : x = e
    · subst hx
      simp [Function.comp_def]
    · simp [Function.comp_def, hx]
  rw [replicaItems, List.countP_flatMap, Function.comp_def, funext hown, List.sum_map_eq_nsmul_single e _ (fun x hx _ => if_neg hx), if_pos rfl,
    List.count_eq_one_of_mem List.nodup_range (List.mem_range.2 he), one_smul]

/-- What the procedure places (R388). -/
theorem placeExperts_spec {loads : List Nat} {d c : Nat} {r : List (List (Nat × Nat)) × Nat} (h : placeExperts loads d c = some r) :
    r.1.length = loads.length ∧ r.1.flatten.Nodup ∧ (∀ y ∈ r.1.flatten, y.1 < d ∧ y.2 < c) ∧
      ∀ m ∈ r.1, 1 ≤ m.length ∧ m.length ≤ 4 ∧ (m.map (·.1)).Nodup := by
  rw [placeExperts_eq] at h
  obtain ⟨a, ha, rfl⟩ := Option.map_eq_some_iff.1 h
  have hperm := sortBy_perm itemBefore (replicaItems loads (countsOf loads d c))
  have hempty : (emptyAsg loads.length d).map.length = loads.length := List.length_replicate
  obtain ⟨hplaced, hlen, hcount⟩ := placing_foldl (placing_emptyAsg loads.length d c)
    (fun x hx => hempty.symm ▸ expert_lt_of_mem_replicaItems (hperm.mem_iff.1 hx)) ha
  rw [hempty] at hlen hcount
  refine ⟨hlen, hplaced.nodup, hplaced.inRange, fun m hm => ?_⟩
  obtain ⟨e, he, rfl⟩ := List.getElem_of_mem hm
  have hreplicas := hcount e (hlen ▸ he)
  obtain ⟨hcounts, hbounds⟩ := replicaCounts_spec loads (d * c - loads.length) (counts := List.replicate loads.length 1)
    (fun k hk => by rw [List.eq_of_mem_replicate hk]; decide)
  have hin : e < (countsOf loads d c).length := by rw [countsOf, hcounts, List.length_replicate, ← hlen]; exact he
  obtain ⟨hlow, hhigh⟩ := hbounds _ (List.getElem_mem hin)
  rw [hperm.countP_eq, countP_replicaItems (hlen ▸ he), List.getElem?_eq_getElem he, List.getElem?_eq_getElem hin] at hreplicas
  have hnone : (((emptyAsg loads.length d).map[e]?).getD []).length = 0 := by
    simp [emptyAsg, hlen ▸ he]
  rw [hnone, Nat.zero_add, Option.getD_some, Option.getD_some] at hreplicas
  exact ⟨hreplicas ▸ hlow, hreplicas ▸ hhigh, hplaced.members _ hm⟩

/-! ### The first placement -/

/-- Without loads no expert gains a replica. -/
theorem replicaCounts_of_zero (e n : Nat) : replicaCounts (List.replicate e 0) n (List.replicate e 1) = List.replicate e 1 := by
  cases n with
  | zero => rfl
  | succ n =>
    unfold replicaCounts
    split
    · rfl
    · exact if_pos (by rw [List.getElem?_replicate]; split <;> rfl)

theorem replicaItems_of_zero (e : Nat) :
    replicaItems (List.replicate e 0) (List.replicate e 1) = (List.range e).map (fun x => (0, x, 0)) := by
  rw [replicaItems, List.length_replicate]
  refine Eq.trans (List.flatMap_congr fun x hx => ?_) List.map_eq_flatMap.symm
  simp [List.mem_range.1 hx, shareOf]

/-- The first n experts placed c to a member in member order. -/
def firstAsg (e d c n : Nat) : Asg :=
  ⟨(List.range d).map (fun k => min c (n - k * c)), List.replicate d 0,
    (List.range e).map (fun i => if i < n then [(i / c, i % c)] else [])⟩

/-- Of members of no load, a replica of an expert that none holds goes to the first with room. -/
theorem pickMember_of_unloaded {c e d n : Nat} {a : Asg} (hload : a.load = List.replicate n 0) (hnone : (a.map[e]?).getD [] = [])
    (hd : d < a.hosted.length) (hroom : (a.hosted[d]?).getD 0 < c) (hfull : ∀ k, k < d → c ≤ (a.hosted[k]?).getD 0) :
    pickMember c e a = some d := by
  obtain ⟨before, after, hsplit⟩ := List.append_of_mem (List.mem_range.2 hd)
  have hbefore : ∀ k ∈ before, k < d := fun k hk =>
    (List.pairwise_append.1 (hsplit ▸ List.pairwise_lt_range (n := a.hosted.length))).2.2 k hk d List.mem_cons_self
  have hzero (k : Nat) : (a.load[k]?).getD 0 = 0 := by
    rw [hload, List.getElem?_replicate]
    split <;> rfl
  have hskip : before.foldl (pickStep c e a) none = none := foldl_of_fixed fun k hk => if_pos (.inl (hfull k (hbefore k hk)))
  have htake : pickStep c e a none d = some d := if_neg (by simpa [hnone] using hroom)
  have hkeep : after.foldl (pickStep c e a) (some d) = some d := by
    refine foldl_of_fixed fun k _ => ?_
    unfold pickStep
    split
    · rfl
    · exact if_neg (by rw [hzero, hzero]; exact Nat.lt_irrefl 0)
  rw [pickMember_eq, hsplit, List.foldl_append, hskip, List.foldl_cons, htake, hkeep]

/-- What member k hosts of the first n experts, with one expert more. -/
theorem firstHosted_succ {c : Nat} (n k : Nat) (hc : 0 < c) :
    (if n / c = k then n % c + 1 else min c (n - k * c)) = min c (n + 1 - k * c) := by
  have hdiv : n / c * c + n % c = n := Nat.div_add_mod' n c
  have hmod := Nat.mod_lt n hc
  rcases Nat.lt_trichotomy k (n / c) with hk | rfl | hk
  · have hle : (k + 1) * c ≤ n / c * c := Nat.mul_le_mul_right c hk
    rw [if_neg hk.ne', Nat.succ_mul] at *
    omega
  · rw [if_pos rfl]
    omega
  · have hle : (n / c + 1) * c ≤ k * c := Nat.mul_le_mul_right c hk
    rw [if_neg hk.ne, Nat.succ_mul] at *
    omega

theorem placeOne_firstAsg {e d c n : Nat} (hn : n < e) (he : e ≤ d * c) :
    placeOne c (some (firstAsg e d c n)) (0, n, 0) = some (firstAsg e d c (n + 1)) := by
  have hc : 0 < c := Nat.pos_of_ne_zero fun h => by subst h; omega
  have hmember : n / c < d := Nat.div_lt_of_lt_mul (Nat.mul_comm d c ▸ hn.trans_le he)
  have hdiv : n / c * c + n % c = n := Nat.div_add_mod' n c
  have hmod := Nat.mod_lt n hc
  have hhosted (k : Nat) (hk : k < d) : ((firstAsg e d c n).hosted[k]?).getD 0 = min c (n - k * c) := by
    simp [firstAsg, hk]
  have hnext : ((firstAsg e d c n).hosted[n / c]?).getD 0 = n % c := by
    rw [hhosted _ hmember]
    omega
  have hnone : ((firstAsg e d c n).map[n]?).getD [] = [] := by simp [firstAsg, hn]
  have hpick : pickMember c n (firstAsg e d c n) = some (n / c) := by
    refine pickMember_of_unloaded (n := d) rfl hnone (by simpa [firstAsg] using hmember) (hnext ▸ hmod) fun k hk => ?_
    rw [hhosted k (hk.trans hmember)]
    have hle : (k + 1) * c ≤ n / c * c := Nat.mul_le_mul_right c hk
    rw [Nat.succ_mul] at hle
    omega
  rw [placeOne, hpick, Option.map_some, hnext, hnone]
  refine congrArg some ?_
  simp only [firstAsg, Asg.mk.injEq, List.nil_append]
  refine ⟨List.ext_getElem (by simp) fun k hk _ => ?_, List.ext_getElem (by simp) fun k hk _ => ?_,
    List.ext_getElem (by simp) fun i hi _ => ?_⟩
  · simpa [List.getElem_set] using firstHosted_succ n k hc
  · simp [hmember]
  · by_cases hin : n = i
    · simp [hin]
    · have hlt : i ≤ n ↔ i < n := by omega
      simp [hin, hlt]

/-- The first n experts placed one after the other. -/
theorem foldl_firstAsg {e d c n : Nat} (hn : n ≤ e) (he : e ≤ d * c) :
    ((List.range n).map (fun x => (0, x, 0))).foldl (placeOne c) (some (emptyAsg e d)) = some (firstAsg e d c n) := by
  induction n with
  | zero => simp [emptyAsg, firstAsg]
  | succ n ih =>
    rw [List.range_succ, List.map_append, List.foldl_append, ih (Nat.le_of_succ_le hn)]
    exact placeOne_firstAsg hn he

/-- The first placement: without loads, expert e is at member e / c in its slot e mod c (R386). -/
theorem placeExperts_first {e d c : Nat} (he : e ≤ d * c) :
    placeExperts (List.replicate e 0) d c = some ((List.range e).map (fun i => [(i / c, i % c)]), 0) := by
  have hsorted : ((List.range e).map fun x => ((0 : Nat), x, (0 : Nat))).Pairwise (fun x y => itemBefore x y = true) :=
    List.pairwise_map.2 (List.pairwise_lt_range.imp fun h => by simp [itemBefore, h])
  rw [placeExperts_eq, countsOf, List.length_replicate, replicaCounts_of_zero, replicaItems_of_zero, sortBy_of_pairwise _ hsorted,
    foldl_firstAsg (Nat.le_refl e) he]
  have hmap : (firstAsg e d c e).map = (List.range e).map (fun i => [(i / c, i % c)]) :=
    List.map_congr_left fun i hi => if_pos (List.mem_range.1 hi)
  have hmax : (firstAsg e d c e).load.foldl max 0 = 0 := foldl_of_fixed fun k hk => by rw [List.eq_of_mem_replicate hk]; rfl
  rw [Option.map_some, hmap, hmax]

end Sys2Proof.Machine

/-!
PROOFS. Placement is agreed and made (O47).
-/
namespace Sys2Proof.Machine

section PlaceInit
variable {s t : State} {q : Nat} {peers : List Join} {x : Queue} {o : Op} {h : Head} {d : JobDesc} {own : Nat} {l : List Nat}

/-- A member whose record is missing keeps PLACE_INIT waiting, the partition joining. -/
theorem placeInit_waits {r : Nat} (e : startHead s q 0x0A 1 .ready = .go x o h t) (hsound : PlaceChecks t x o d)
    (hr : r < d.members.length) (hother : r ≠ jobRank t d) (hmissing : peers.any (fun y => y.rank == r) = false) :
    Runs (.placeInit q peers) s (fun u => (∃ y, opAt u q o.seq = some y ∧ y.progress = .waiting ∧ y.stage = 1) ∧
      (partOf u x.partition).jobState = 1 ∧ OtherQueues q s u ∧ u.mem = s.mem) := by
  refine ⟨_, (exec_placeInit e hsound).trans (congrArg _ (placeJoin_of_missing hr hother hmissing)), ?_, ?_, ?_, ?_⟩
  · obtain ⟨y, hy⟩ := startHead_opAt e
    exact ⟨_, opAt_modOp_some (s := modPart t _ _) (fun _ => rfl) ((opAt_congr rfl ..).trans hy), rfl, rfl⟩
  · rw [partOf_congr (modOp_parts ..), partOf_modPart_self]
  · exact otherQueues_of_startHead e ((otherQueues_of_queues_eq (t := modPart t _ _) rfl).trans (otherQueues_modOp _ _ _ _))
  · exact (modOp_mem ..).trans ((modPart_mem ..).trans (mem_of_startHead e))

/-- Records that pass place the job in the partition. -/
theorem placeInit_places {j : Job} (e : startHead s q 0x0A 1 .ready = .go x o h t) (hsound : PlaceChecks t x o d)
    (hown : own = joinRecord t x.partition (jobDigest d.hdr d.members d.recs d.regions)) (hl : joinsOf t d own peers = l.map some)
    (hgood : joinBad x.partition own l = none) (hj : jobOf t o.owner d = some j) :
    Runs (.placeInit q peers) s (fun u => u = doneOp (placeJob (sendJoin t o d own) x.partition j) q o ∧
      (partOf u x.partition).job = some j ∧ (partOf u x.partition).jobState = 2 ∧ (partOf u x.partition).joinState = 1) := by
  refine ⟨_, (exec_placeInit e hsound).trans (congrArg _ (placeJoin_of_agreed hown hl hgood hj)), rfl, ?_⟩
  rw [doneOp, partOf_congr (endOp_parts ..)]
  exact partOf_placeJob ..

/-- Records that differ leave no job; a member of a record of its own has joined no group (R468). -/
theorem placeInit_refused {b : Nat × List (Nat × Nat)} (e : startHead s q 0x0A 1 .ready = .go x o h t) (hsound : PlaceChecks t x o d)
    (hown : own = joinRecord t x.partition (jobDigest d.hdr d.members d.recs d.regions)) (hl : joinsOf t d own peers = l.map some)
    (hbad : joinBad x.partition own l = some b) :
    Runs (.placeInit q peers) s (fun u => (partOf u x.partition).jobState = 0 ∧
      (own ≠ joinReference l → (partOf u x.partition).joinState = 3)) := by
  refine ⟨_, (exec_placeInit e hsound).trans (congrArg _ (placeJoin_of_refused hown hl hbad)), ?_, fun halone => ?_⟩
  · rw [partOf_refusePlace]
  · rw [partOf_refusePlace, if_pos halone, partOf_modPart_self]

end PlaceInit

/-- Settles O47: PLACE_INIT waits for records, places or refuses by what they come to; records pass where each is this device's own; the
rounds' two words agree where every digest is one; the arrival follows them; and without loads replicas go to the members in order. -/
theorem placementIsAgreedAndMade : Obligations.PlacementIsAgreedAndMade := by
  refine ⟨fun s q peers x o h t d own e htile hptr hstate hcheck hown => ?_, fun p own l hown hl => joinBad_eq_none_iff_own p hown hl,
    fun s p q x o j peers grads u harrival hj hsize hdue hu hidle => ?_, fun s p j d peers ds hd hds hgood hword => ?_,
    fun e d c he => placeExperts_first he⟩
  · have hsound : PlaceChecks t x o d := ⟨htile, hptr, hstate, hcheck⟩
    exact ⟨fun r hr hother hmissing => placeInit_waits e hsound hr hother hmissing,
      fun l hl => ⟨fun j hgood hj => placeInit_places e hsound hown hl hgood hj, fun b hbad => placeInit_refused e hsound hown hl hbad⟩⟩
  · have hexec : exec (.stepArrivalSend p peers grads) s = .next (sendArrival p peers grads s) := rfl
    rw [hexec, sendArrival_of_idle grads harrival hj hsize hdue hu hidle]
    exact ⟨fun v hv => by rw [hv]; rfl, fun hnone => by rw [hnone]; rfl⟩
  · have hwords : ∀ r ∈ otherRanks j, wordFrom peers 0 r = some (ds r) ∧ wordFrom peers j.members.length r = some (0xFFFFFFFF - ds r) :=
      fun r hr => by
        obtain ⟨hlt, hne⟩ := mem_otherRanks.1 hr
        rw [wordFrom, wordFrom, Nat.zero_add]
        exact hword r hlt hne
    obtain ⟨v, hv, hagrees⟩ := agreeRound_agrees_iff (s := s) (p := p) hd hds hgood hwords
    exact ⟨v, hv, hagrees.trans (by simp only [mem_otherRanks, and_imp])⟩

end Sys2Proof.Machine

/-!
PROOFS. Layer markers (R383, R385, R396, R398, R399): entered and left forward and backward.
-/
namespace Sys2Proof.Machine

section Markers
variable {s t : State} {q i sub : Nat} {peers : List (List Contrib)} {x : Queue} {o : Op} {h : Head} {j : Job}

/-- A row of the markers runs the head of its direction. -/
theorem markerExec_of_go {back : Bool} (e : startHead s q 0x0A sub .ready = .go x o h t) (hdir : bit o.body 503 = back)
    (f : State → Queue → Op → Head → State) : markerExec sub back q s f = f t x o h := by
  rw [markerExec, e]
  exact if_pos hdir

theorem log_of_startHead {n : Need} {op : Nat} (e : startHead s q op sub n = .go x o h t) : t.log = s.log := by rw [startHead_frame e]

/-! ### Entered forward -/

theorem enterForward_of_busy (hm : markerOf t x.partition o = .ok (j, i)) (hbusy : bufferBusy t j i = true) :
    enterForward peers q t x o h = markerWaits t q o := by
  dsimp only [enterForward]
  rw [hm]
  exact if_pos hbusy

/-- A layer between its forward markers, recording where class B is to be recomputed (R399). -/
def enteredForward (s : State) (p i : Nat) : State :=
  modLayer s p i (fun l => { l with
    inForward := true
    recording := (l.choices[1]?).getD 3 == 2
    recorded := []
    recordBad := false
    recStep := stepNumber s p })

theorem enterForward_of_gathered {v : State} {r : List (List Contrib)} (hm : markerOf t x.partition o = .ok (j, i))
    (hfree : bufferBusy t j i = false) (hgather : gatherLayer t x.partition q o i false peers = .done v r)
    (hahead : nextLayers j i (pEnt v 0x3038 8 x.partition) false = []) :
    enterForward peers q t x o h = doneOp (enteredForward v x.partition i) q o := by
  have hahead' : nextLayers j i (pEnt (enteredForward v x.partition i) 0x3038 8 x.partition) false = [] := hahead
  rw [enteredForward] at hahead' ⊢
  dsimp only [enterForward]
  rw [hm]
  dsimp only
  rw [if_neg (by simp [hfree]), hgather]
  dsimp only
  rw [hahead']
  rfl

/-! ### Left forward -/

/-- A layer past its forward markers, its gathered data released unless it is kept. -/
def leftForward (s : State) (p i : Nat) : State :=
  modLayer (takeGroup s).2 p i (fun y => { y with
    inForward := false
    recording := false
    gathered := y.gathered && lyKeep y.rec_
    offloaded := offClasses y
    returning := false
    group := (takeGroup s).1 })

theorem exitForward_of_fit (hm : markerOf t x.partition o = .ok (j, i)) (hoff : offClasses (layerAt j i) = [])
    (hfit : (layerAt j i).recording = true → recordedBad (layerAt j i) = none) :
    exitForward q t x o h = doneOp (leftForward t x.partition i) q o := by
  have hnone : (if (layerAt j i).recording then recordedBad (layerAt j i) else none) = none := by
    split
    · next hr => exact hfit hr
    · rfl
  dsimp only [exitForward]
  rw [hm]
  dsimp only
  rw [hnone, hoff]
  rfl

theorem exitForward_of_unfit {k : Nat} (hm : markerOf t x.partition o = .ok (j, i)) (hoff : offClasses (layerAt j i) = [])
    (hrec : (layerAt j i).recording = true) (hbad : recordedBad (layerAt j i) = some k) :
    exitForward q t x o h = doneOp (leftForward (noRecompute t x.partition j i k) x.partition i) q o := by
  dsimp only [exitForward]
  rw [hm]
  dsimp only
  rw [if_pos hrec, hbad, hoff]
  rfl

/-- A layer left forward with nothing to off-load. -/
theorem job_leftForward {p : Nat} (hj : (partOf s p).job = some j) (hoff : offClasses (layerAt j i) = []) :
    (partOf (leftForward s p i) p).job = some { j with layers := j.layers.modify i (fun l => { l with
      inForward := false
      recording := false
      gathered := l.gathered && lyKeep l.rec_
      offloaded := []
      returning := false
      group := 0xF000 + s.card.groups % 4096 }) } := by
  have hj' : (partOf (takeGroup s).2 p).job = some j := hj
  rw [leftForward, job_modLayer hj']
  refine congrArg (fun l => some { j with layers := l }) (modify_layers_congr ?_)
  rw [hoff]
  rfl

/-- A layer that cannot be recomputed is one fault, and the partition's finite flag is cleared (R399). -/
theorem noRecompute_spec (s : State) (p : Nat) (j : Job) (i k : Nat) :
    (noRecompute s p j i k).log.raised = s.log.raised + 1 ∧ (noRecompute s p j i k).queues = s.queues ∧
      (partOf (noRecompute s p j i k) p).localFinite = false := by
  refine ⟨(raise_log_units ..).1, raise_queues .., ?_⟩
  rw [noRecompute, clearLocalFinite, partOf_congr (bump_parts ..), partOf_modPart_self]

/-! ### Entered backward -/

theorem returnsDone_of_offloaded {p : Nat} (hj : (partOf s p).job = some j) (hoff : (layerAt j i).offloaded ≠ [])
    (hret : (layerAt j i).returning = false) : returnsDone s p i = none := by
  dsimp only [returnsDone]
  rw [hj]
  dsimp only
  rw [if_neg (by simpa using hoff), Option.bind_some, if_neg (by simp [hret])]

theorem returnsDone_of_none {p : Nat} (hj : (partOf s p).job = some j) (hoff : (layerAt j i).offloaded = []) :
    returnsDone s p i = some s := by
  dsimp only [returnsDone]
  rw [hj]
  exact if_pos (by rw [hoff]; rfl)

/-- Class B that is not recomputed asks for nothing (R399). -/
theorem rerunState_of_kept {p : Nat} (hj : (partOf s p).job = some j) (hkept : (layerAt j i).choices[1]? ≠ some 2) :
    rerunState s p i = some s := by
  dsimp only [rerunState]
  rw [hj]
  refine if_pos (.inl fun h2 => hkept ?_)
  cases hc : (layerAt j i).choices[1]? with
  | none => rw [hc] at h2; cases h2
  | some n => rw [hc] at h2; exact congrArg some h2

theorem enterBackward_of_offloaded (hm : markerOf t x.partition o = .ok (j, i)) (hfree : bufferBusy t j i = false)
    (hreturns : returnsDone t x.partition i = none) :
    enterBackward peers q t x o h = markerWaits (askReturns t x.partition i) q o := by
  dsimp only [enterBackward]
  rw [hm]
  dsimp only
  rw [if_neg (by simp [hfree]), hreturns]

theorem enterBackward_of_gathered {v : State} {r : List (List Contrib)} (hm : markerOf t x.partition o = .ok (j, i))
    (hfree : bufferBusy t j i = false) (hreturns : returnsDone t x.partition i = some t) (hrerun : rerunState t x.partition i = some t)
    (hgather : gatherLayer t x.partition q o i true peers = .done v r)
    (hahead : nextLayers j i (pEnt v 0x3038 8 x.partition) true = []) :
    enterBackward peers q t x o h = doneOp (modLayer v x.partition i (fun l => { l with inBackward := true })) q o := by
  have hahead' : nextLayers j i (pEnt (modLayer v x.partition i (fun l => { l with inBackward := true })) 0x3038 8 x.partition) true = [] :=
    hahead
  dsimp only [enterBackward]
  rw [hm]
  dsimp only
  rw [if_neg (by simp [hfree]), hreturns]
  dsimp only
  rw [hrerun]
  dsimp only
  rw [hgather]
  dsimp only
  rw [hahead']
  rfl

/-! ### Left backward -/

/-- A layer past its backward markers, the gradients of its role 0x3 and 0x5 regions due (R385, R393). -/
def leftBackward (s : State) (p i : Nat) (j : Job) : State :=
  modJob (modLayer s p i (fun y => { y with
    inBackward := false
    gathered := false })) p (fun y => { y with gradDue := y.gradDue ++
      ((indexed 0 (layerAt j i).regions).filter (fun r => rgRole r.2 == 3 || rgRole r.2 == 5)).map (fun r => (i, r.1)) })

theorem exitBackward_of_marker (hm : markerOf t x.partition o = .ok (j, i)) :
    exitBackward q t x o h = doneOp (leftBackward t x.partition i j) q o := by
  dsimp only [exitBackward]
  rw [hm]
  rfl

/-! ### What the rows of the markers come to -/

theorem layerEnterForward_waits (e : startHead s q 0x0A 2 .ready = .go x o h t) (hdir : bit o.body 503 = false)
    (hm : markerOf t x.partition o = .ok (j, i)) (hbusy : bufferBusy t j i = true) :
    Runs (.layerEnterForward q peers) s (fun u => (∃ y, opAt u q o.seq = some y ∧ y.progress = .waiting) ∧ OtherQueues q s u ∧
      u = { s with
        queues := u.queues
        dict := u.dict }) :=
  ⟨_, congrArg Host.Outcome.next ((markerExec_of_go e hdir _).trans (enterForward_of_busy hm hbusy)), markerWaits_of_startHead e⟩

theorem layerExitForward_fit (e : startHead s q 0x0A 3 .ready = .go x o h t) (hdir : bit o.body 503 = false)
    (hm : markerOf t x.partition o = .ok (j, i)) (hj : (partOf t x.partition).job = some j) (hoff : offClasses (layerAt j i) = [])
    (hfit : (layerAt j i).recording = true → recordedBad (layerAt j i) = none) :
    Runs (.layerExitForward q peers) s (fun u => Finished u q o.seq 0x01 ∧ OtherQueues q s u ∧ u.mem = s.mem ∧ u.log = s.log ∧
      (partOf u x.partition).job = some { j with layers := j.layers.modify i (fun l => { l with
        inForward := false
        recording := false
        gathered := l.gathered && lyKeep l.rec_
        offloaded := []
        returning := false
        group := 0xF000 + t.card.groups % 4096 }) }) := by
  obtain ⟨hfin, hother⟩ := endOp_of_startHead (v := leftForward t x.partition i) e rfl 0x01
  have hmem := mem_of_startHead e
  have hlog := log_of_startHead e
  exact ⟨_, congrArg Host.Outcome.next ((markerExec_of_go e hdir _).trans (exitForward_of_fit hm hoff hfit)), hfin, hother, hmem, hlog,
    job_leftForward hj hoff⟩

theorem layerExitForward_unfit {k : Nat} (e : startHead s q 0x0A 3 .ready = .go x o h t) (hdir : bit o.body 503 = false)
    (hm : markerOf t x.partition o = .ok (j, i)) (hoff : offClasses (layerAt j i) = []) (hrec : (layerAt j i).recording = true)
    (hbad : recordedBad (layerAt j i) = some k) :
    Runs (.layerExitForward q peers) s (fun u => Finished u q o.seq 0x01 ∧ OtherQueues q s u ∧
      u.log.raised = s.log.raised + 1 ∧ (partOf u x.partition).localFinite = false) := by
  obtain ⟨hraised, hqueues, hfinite⟩ := noRecompute_spec t x.partition j i k
  obtain ⟨hfin, hother⟩ := endOp_of_startHead (v := leftForward (noRecompute t x.partition j i k) x.partition i) e hqueues 0x01
  refine ⟨_, congrArg Host.Outcome.next ((markerExec_of_go e hdir _).trans (exitForward_of_unfit hm hoff hrec hbad)), hfin, hother, log_of_startHead e ▸ hraised, ?_⟩
  exact (modJob_localFinite ..).trans hfinite

theorem layerExitBackward_runs (e : startHead s q 0x0A 3 .ready = .go x o h t) (hdir : bit o.body 503 = true)
    (hm : markerOf t x.partition o = .ok (j, i)) (hj : (partOf t x.partition).job = some j) :
    Runs (.layerExitBackward q peers) s (fun u => Finished u q o.seq 0x01 ∧ OtherQueues q s u ∧ u.mem = s.mem ∧ u.log = s.log ∧
      (partOf u x.partition).job = some { j with
        layers := j.layers.modify i (fun l => { l with
          inBackward := false
          gathered := false })
        gradDue := j.gradDue ++ ((indexed 0 (layerAt j i).regions).filter (fun r => rgRole r.2 == 3 || rgRole r.2 == 5)).map
          (fun r => (i, r.1)) }) := by
  obtain ⟨hfin, hother⟩ := endOp_of_startHead (v := leftBackward t x.partition i j) e rfl 0x01
  have hmem := mem_of_startHead e
  have hlog := log_of_startHead e
  exact ⟨_, congrArg Host.Outcome.next ((markerExec_of_go e hdir _).trans (exitBackward_of_marker hm)), hfin, hother, hmem, hlog,
    job_modJob (job_modLayer hj _ _) _⟩

end Markers

/-- Settles O48: each marker that names a layer of the stage comes to the wait or the end that its equation above gives. -/
theorem layersAreEnteredAndLeft : Obligations.LayersAreEnteredAndLeft := by
  intro s q i peers x o h t j hm hj
  refine ⟨fun e hdir => ⟨fun hbusy => layerEnterForward_waits e hdir hm hbusy, fun v r hfree hgather hahead => ?_⟩,
    fun e hdir hoff hfit => layerExitForward_fit e hdir hm hj hoff hfit,
    fun k e hdir hoff hrec hbad => layerExitForward_unfit e hdir hm hoff hrec hbad,
    fun e hdir hfree => ⟨fun hoff hret => ?_, fun v r hoff hkept hgather hahead => ?_⟩,
    fun e hdir => layerExitBackward_runs e hdir hm hj⟩
  · exact ⟨_, congrArg Host.Outcome.next ((markerExec_of_go e hdir _).trans (enterForward_of_gathered hm hfree hgather hahead)), rfl⟩
  · exact ⟨_, congrArg Host.Outcome.next ((markerExec_of_go e hdir _).trans
      (enterBackward_of_offloaded hm hfree (returnsDone_of_offloaded hj hoff hret))), rfl⟩
  · exact ⟨_, congrArg Host.Outcome.next ((markerExec_of_go e hdir _).trans (enterBackward_of_gathered hm hfree (returnsDone_of_none hj hoff)
      (rerunState_of_kept hj hkept) hgather hahead)), rfl⟩

end Sys2Proof.Machine

/-!
PROOFS. Decisions and re-shards (R387, R389, R392, R394, R400): a decision on the group's loads, and the second round of a re-shard.
-/
namespace Sys2Proof.Machine

/-! ### Decisions -/

section Decision
variable {s : State} {p layer : Nat} {peers : List (List Nat)} {j : Job} {own : List Nat}

/-- A layer whose snapshot has gone out to the group (R387). -/
def snapSent (s : State) (p layer : Nat) (peers : List (List Nat)) (j : Job) (own : List Nat) : State :=
  bump (modLayer (sendParts s p j (histColl s p j layer own.length) (own.flatMap (natLe 8)) ((sumLoads own peers).flatMap (natLe 8)))
    p layer (fun y => { y with snap := none })) 0x2C0101 1

/-- A decision of an adaptive layer: a snapshot here, and one of its length from every other member of the group (R387). -/
structure Decides (s : State) (p layer : Nat) (peers : List (List Nat)) (j : Job) (own : List Nat) : Prop where
  job : (partOf s p).job = some j
  adaptive : (adaptiveLayers j).contains layer = true
  snap : (layerAt j layer).snap = some own
  members : peers.length + 1 = (jobGroup j).length
  lengths : ∀ y ∈ peers, y.length = own.length

/-- What the procedure of R388 makes of the group's loads. -/
def decision (layer : Nat) (peers : List (List Nat)) (j : Job) (own : List Nat) : Option (List (List (Nat × Nat)) × Nat) :=
  placeExperts (sumLoads own peers) (jobGroup j).length (lySlots (layerAt j layer).rec_)

/-- Whether a decision is adopted under a threshold (R389). -/
def decisionGains (layer : Nat) (peers : List (List Nat)) (j : Job) (own : List Nat) (newMax threshold : Nat) : Bool :=
  gainEnough newMax (mapLoad (sumLoads own peers) (jobGroup j).length (layerAt j layer).map) threshold

theorem decidePlacement_of_none (h : decision layer peers j own = none) (hd : Decides s p layer peers j own) :
    decidePlacement p layer peers s = bump (snapSent s p layer peers j own) 0x2C0103 1 := by
  rw [decision] at h
  dsimp only [decidePlacement]
  rw [hd.job]
  dsimp only
  rw [if_pos hd.adaptive, hd.snap]
  dsimp only
  rw [if_neg (by simpa [hd.members] using hd.lengths), h]
  rfl

theorem decidePlacement_of_some {r : List (List (Nat × Nat)) × Nat} (h : decision layer peers j own = some r)
    (hd : Decides s p layer peers j own) : decidePlacement p layer peers s =
      if decisionGains layer peers j own r.2 (pEnt (snapSent s p layer peers j own) 0x3038 3 p)
      then modLayer (snapSent s p layer peers j own) p layer (fun y => { y with pending := some r })
      else bump (snapSent s p layer peers j own) 0x2C0103 1 := by
  rw [decision] at h
  dsimp only [decidePlacement]
  rw [hd.job]
  dsimp only
  rw [if_pos hd.adaptive, hd.snap]
  dsimp only
  rw [if_neg (by simpa [hd.members] using hd.lengths), h]
  rfl

/-- The threshold of R389 is no counter. -/
theorem threshold_bump (s : State) (p : Nat) : pEnt (bump s 0x2C0103 1) 0x3038 3 p = pEnt s 0x3038 3 p :=
  ent_bump_ne s 1 (by unfold pKey; omega)

theorem Decides.lt_length (hd : Decides s p layer peers j own) : layer < j.layers.length :=
  lt_length_of_stageLayers (List.mem_filter.1 (List.contains_iff_mem.1 hd.adaptive)).1

/-- The snapshot that went out is used up; nothing else of the layer changes. -/
theorem job_snapSent (hj : (partOf s p).job = some j) :
    (partOf (snapSent s p layer peers j own) p).job = some { j with layers := j.layers.modify layer (fun y => { y with snap := none }) } := by
  unfold snapSent
  have hsent := sendParts_parts s p j (histColl s p j layer own.length) (own.flatMap (natLe 8)) ((sumLoads own peers).flatMap (natLe 8))
  generalize sendParts s p j (histColl s p j layer own.length) (own.flatMap (natLe 8)) ((sumLoads own peers).flatMap (natLe 8)) = t at hsent ⊢
  rw [partOf_congr (bump_parts ..)]
  refine job_modLayer ?_ layer _
  rw [partOf_congr hsent, hj]

/-- What a decision leaves of its layer: no snapshot, the map in force, and what pends. -/
def Decided (t : State) (p layer : Nat) (j : Job) (pending : Option (List (List (Nat × Nat)) × Nat)) : Prop :=
  ∃ k, (partOf t p).job = some k ∧ (layerAt k layer).snap = none ∧ (layerAt k layer).map = (layerAt j layer).map ∧
    (layerAt k layer).pending = pending

theorem decided_of_kept (hd : Decides s p layer peers j own) :
    Decided (bump (snapSent s p layer peers j own) 0x2C0103 1) p layer j (layerAt j layer).pending := by
  have hlayer := layerAt_modify_self (k := { j with layers := j.layers.modify layer (fun y => { y with snap := none }) }) rfl hd.lt_length
  refine ⟨_, (congrArg Part.job (partOf_congr (bump_parts ..) p)).trans (job_snapSent hd.job), ?_, ?_, ?_⟩ <;> rw [hlayer]

theorem decided_of_pending (hd : Decides s p layer peers j own) (r : List (List (Nat × Nat)) × Nat) :
    Decided (modLayer (snapSent s p layer peers j own) p layer (fun y => { y with pending := some r })) p layer j (some r) := by
  have hlayer := layerAt_modify_self (k := { j with layers := j.layers.modify layer (fun y => { y with snap := none }) }) rfl hd.lt_length
  have hlength : layer < (j.layers.modify layer (fun y => { y with snap := none })).length := by
    rw [List.length_modify]
    exact hd.lt_length
  have hpending := layerAt_modify_self (j := { j with layers := j.layers.modify layer (fun y => { y with snap := none }) })
    (k := { j with layers := (j.layers.modify layer (fun y => { y with snap := none })).modify layer (fun y => { y with pending := some r }) })
    rfl hlength
  refine ⟨_, job_modLayer (job_snapSent hd.job) _ _, ?_, ?_, ?_⟩ <;> rw [hpending, hlayer]

/-- A decision ends in one of three ways: with no placement, with one that gains enough and pends, or with one that does not. -/
theorem decidePlacement_decided (hd : Decides s p layer peers j own) : ∃ pending,
    Decided (decidePlacement p layer peers s) p layer j pending ∧
    (∀ r, decision layer peers j own = some r →
      decisionGains layer peers j own r.2 (pEnt (decidePlacement p layer peers s) 0x3038 3 p) = true → pending = some r) ∧
    (∀ r, decision layer peers j own = some r →
      decisionGains layer peers j own r.2 (pEnt (decidePlacement p layer peers s) 0x3038 3 p) = false → pending = (layerAt j layer).pending) ∧
    (decision layer peers j own = none → pending = (layerAt j layer).pending) := by
  cases hr : decision layer peers j own with
  | none =>
    rw [decidePlacement_of_none hr hd]
    exact ⟨_, decided_of_kept hd, nofun, nofun, fun _ => rfl⟩
  | some r =>
    cases hg : decisionGains layer peers j own r.2 (pEnt (snapSent s p layer peers j own) 0x3038 3 p) with
    | true =>
      rw [decidePlacement_of_some hr hd, if_pos hg]
      refine ⟨_, decided_of_pending hd r, fun r' h _ => h, fun r' h hno => ?_, nofun⟩
      obtain rfl := Option.some.inj h
      exact absurd (hg.symm.trans hno) (by decide)
    | false =>
      rw [decidePlacement_of_some hr hd, if_neg (by rw [hg]; decide), threshold_bump]
      refine ⟨_, decided_of_kept hd, fun r' h hyes => ?_, fun _ _ _ => rfl, nofun⟩
      obtain rfl := Option.some.inj h
      exact absurd (hg.symm.trans hyes) (by decide)

/-- Without a snapshot there is nothing to decide. -/
theorem decidePlacement_of_no_snap (peers : List (List Nat)) (hj : (partOf s p).job = some j) (hsnap : (layerAt j layer).snap = none) :
    decidePlacement p layer peers s = s := by
  dsimp only [decidePlacement]
  rw [hj]
  dsimp only
  rw [hsnap, ite_self]

end Decision

/-! ### The second round of a re-shard -/

section Reshard
variable {s t u : State} {p : Nat} {j : Job}

/-- Whatever job a partition has, it keeps the layers, what is still to be adopted and the generation. -/
def KeepsMaps (p : Nat) (s t : State) : Prop :=
  ∀ j, (partOf s p).job = some j → ∃ k, (partOf t p).job = some k ∧ k.layers = j.layers ∧ k.adopting = j.adopting ∧
    k.generation = j.generation

theorem KeepsMaps.trans (h : KeepsMaps p s t) (k : KeepsMaps p t u) : KeepsMaps p s u := by
  intro j hj
  obtain ⟨a, ha, hla, haa, hga⟩ := h j hj
  obtain ⟨b, hb, hlb, hab, hgb⟩ := k a ha
  exact ⟨b, hb, hlb.trans hla, hab.trans haa, hgb.trans hga⟩

theorem keepsMaps_of_parts (p : Nat) (h : t.parts = s.parts) : KeepsMaps p s t :=
  fun j hj => ⟨j, by rw [partOf_congr h, hj], rfl, rfl, rfl⟩

theorem KeepsMaps.refl (p : Nat) (s : State) : KeepsMaps p s s := keepsMaps_of_parts p rfl

theorem keepsMaps_modJob (s : State) (p : Nat) {f : Job → Job}
    (hf : ∀ j, (f j).layers = j.layers ∧ (f j).adopting = j.adopting ∧ (f j).generation = j.generation) : KeepsMaps p s (modJob s p f) :=
  fun j hj => ⟨f j, job_modJob hj f, hf j⟩

theorem KeepsMaps.foldl {α : Type} {f : State → α → State} (hf : ∀ u a, KeepsMaps p u (f u a)) (l : List α) (s : State) :
    KeepsMaps p s (l.foldl f s) := by
  induction l generalizing s with
  | nil => exact .refl p s
  | cons a l ih => exact (hf s a).trans (ih _)

/-- A vote withdrawn. -/
theorem keepsMaps_vote (s : State) (p : Nat) : KeepsMaps p s (modJob s p (fun y => { y with vote := false })) :=
  keepsMaps_modJob s p fun _ => ⟨rfl, rfl, rfl⟩

theorem copyMarked_parts (s : State) (o dst src n : Nat) : (copyMarked s o dst src n).parts = s.parts := by
  refine (parts_foldl (fun u i => ?_) _ _).trans (wr_parts ..)
  split <;> rfl

/-- Slots moved into place are counted (R392). -/
theorem keepsMaps_takeSlots (s : State) (p i : Nat) (mv : List ((Nat × Nat) × (Nat × Nat))) : KeepsMaps p s (takeSlots p i mv s) := by
  unfold takeSlots
  split
  · exact .refl p s
  next j _ =>
  refine KeepsMaps.foldl (fun u x => ?_) _ s
  refine KeepsMaps.trans (t := (slotRegions (layerAt j i)).foldl (fun v r => copyMarked v j.owner
    (rgBase r.1 + rgStride r.1 * x.1.2) (transitAt j (layerAt j i) (incomingRank mv x.1.1 x.1.2) + r.2) (rgSize r.1)) u) ?_ ?_
  · exact keepsMaps_of_parts p (parts_foldl (fun _ _ => copyMarked_parts ..) _ u)
  · exact keepsMaps_modJob _ p fun _ => ⟨rfl, rfl, rfl⟩

/-- Counting a poisoned read changes no partition. -/
theorem countPoisonAt_parts (s : State) (a : Nat) : (copySlot.countPoisonAt s a).parts = s.parts := by
  unfold copySlot.countPoisonAt
  split
  · rfl
  · exact bump_parts ..

/-- A slot copied may withdraw the vote; maps stay. -/
theorem keepsMaps_copySlot (s : State) (p i : Nat) (mv : List ((Nat × Nat) × (Nat × Nat))) (x : (Nat × Nat) × (Nat × Nat)) :
    KeepsMaps p s (copySlot p i mv s x) := by
  unfold copySlot
  split
  · exact .refl p s
  refine KeepsMaps.foldl (fun v r => ?_) _ s
  extract_lets src n bad read data
  have hread : KeepsMaps p v read := by
    unfold read
    split
    · exact (keepsMaps_of_parts p (countPoisonAt_parts v src)).trans (keepsMaps_vote _ p)
    · exact .refl p v
  refine hread.trans ?_
  split
  · split
    · exact keepsMaps_of_parts p (wr_parts ..)
    · exact keepsMaps_vote read p
  · split
    · exact (keepsMaps_of_parts p (raise_parts read _)).trans (keepsMaps_vote _ p)
    · exact keepsMaps_of_parts p (pleSend_parts ..)

/-- Round 1 for the next layer takes its vote and copies slots (R392). -/
theorem keepsMaps_roundOne (s : State) (p : Nat) : KeepsMaps p s (roundOne s p) := by
  unfold roundOne
  split
  · exact .refl p s
  split
  · exact .refl p s
  extract_lets l mv g voted bound bounded
  have hvoted : KeepsMaps p s voted := KeepsMaps.trans (t := g.2) (keepsMaps_of_parts p rfl) (keepsMaps_modJob g.2 p fun _ => ⟨rfl, rfl, rfl⟩)
  have hbounded : KeepsMaps p voted bounded := KeepsMaps.foldl
    (fun v _ => (keepsMaps_of_parts p (raise_parts v _)).trans (keepsMaps_vote _ p)) _ voted
  exact hvoted.trans (hbounded.trans (KeepsMaps.foldl (fun v x => keepsMaps_copySlot v p _ mv x) _ bounded))

/-- A new map in force is its layer's map; the adoption has changed one. -/
theorem job_takeMap (hj : (partOf s p).job = some j) (i : Nat) (new : List (List (Nat × Nat))) (newMax : Nat) :
    (partOf (takeMap s p i new newMax) p).job =
      some { j with layers := j.layers.modify i (fun l => { l with map := new, maxLoad := newMax }), changed := true } := by
  rw [takeMap, partOf_congr (bump_parts ..), job_modJob (job_modLayer hj i _)]

/-- The end of an adoption counts the generation where it changed a map (R400). -/
theorem job_endAdoption (hj : (partOf s p).job = some j) : ∃ k, (partOf (endAdoption s p) p).job = some k ∧ k.layers = j.layers ∧
    k.adopting = j.adopting ∧ k.generation = (if j.changed then (j.generation + 1) % 2 ^ 32 else j.generation) := by
  rw [endAdoption, hj]
  dsimp only
  split
  · rw [partOf_congr (writeImage_parts ..), job_modJob hj]
    exact ⟨_, rfl, rfl, rfl, rfl⟩
  · exact ⟨j, hj, rfl, rfl, rfl⟩

/-- What follows a layer's second round: the end of the adoption, or round 1 for the next layer. -/
def nextAdoption (s : State) (p : Nat) (rest : List (Nat × List (List (Nat × Nat)) × Nat)) : State :=
  let t := modJob s p (fun y => { y with adopting := rest })
  if rest.isEmpty then releaseBarrier (endAdoption t p) p else roundOne t p

theorem job_nextAdoption (hj : (partOf s p).job = some j) (rest : List (Nat × List (List (Nat × Nat)) × Nat)) :
    ∃ k, (partOf (nextAdoption s p rest) p).job = some k ∧ k.layers = j.layers ∧ k.adopting = rest ∧
      k.generation = (if rest = [] ∧ j.changed = true then (j.generation + 1) % 2 ^ 32 else j.generation) := by
  have htaken := job_modJob hj (fun y => { y with adopting := rest })
  cases rest with
  | nil =>
    obtain ⟨k, hk, hlayers, hadopting, hgeneration⟩ := job_endAdoption htaken
    refine ⟨k, ?_, hlayers, hadopting, by simpa using hgeneration⟩
    exact (congrArg Part.job (partOf_congr (evalWatches_parts ..) p)).trans hk
  | cons a rest =>
    obtain ⟨k, hk, hlayers, hadopting, hgeneration⟩ := keepsMaps_roundOne _ p _ htaken
    exact ⟨k, hk, hlayers, hadopting, by simpa using hgeneration⟩

/-- The votes of the whole group, this member's own in its place (R392). -/
def groupVotes (s : State) (j : Job) (votes : List Nat) : List Nat :=
  votes.take (groupPlace j) ++ [b2n (j.vote && !groupErr s j.group)] ++ votes.drop (groupPlace j)

/-- All votes are 1 where the others' and the own are. -/
theorem groupVotes_all (s : State) (j : Job) (votes : List Nat) :
    (groupVotes s j votes).all (· == 1) = (votes.all (· == 1) && (j.vote && !groupErr s j.group)) := by
  have hown : (b2n (j.vote && !groupErr s j.group) == 1) = (j.vote && !groupErr s j.group) := by
    cases j.vote && !groupErr s j.group <;> rfl
  rw [groupVotes, List.all_append, List.all_append, List.all_cons, List.all_nil, hown, Bool.and_true, Bool.and_right_comm,
    ← List.all_append, List.take_append_drop]

/-- A layer's second round with all votes there and the own copies acknowledged, past the packets of its votes. -/
theorem secondRound_of_votes {i newMax : Nat} {new : List (List (Nat × Nat))} {rest : List (Nat × List (List (Nat × Nat)) × Nat)}
    {votes : List Nat} (hj : (partOf s p).job = some j) (ha : j.adopting = (i, new, newMax) :: rest)
    (hl : votes.length + 1 = (jobGroup j).length) (hg : groupAcked s j.group = true) :
    ∃ t items, t.parts = s.parts ∧ secondRound p votes s = nextAdoption
      (if (groupVotes s j votes).all (· == 1) then
        writeMap (takeMap (takeSlots p i (mapMoves (layerAt j i).map new) t) p i new newMax) j { layerAt j i with map := new }
      else pleFault t j 0xD00D items) p rest := by
  unfold secondRound
  rw [hj]
  dsimp only
  rw [ha]
  dsimp only
  rw [if_neg (by simp [hl, hg])]
  exact ⟨bump (sendParts ..) .., _, (bump_parts ..).trans (sendParts_parts ..), rfl⟩

/-- With nothing to adopt there is no second round. -/
theorem secondRound_of_no_adoption (votes : List Nat) (hj : (partOf s p).job = some j) (ha : j.adopting = []) :
    secondRound p votes s = s := by
  unfold secondRound
  rw [hj]
  dsimp only
  rw [ha]

/-- A second round waits for every vote and for the own copies (R392). -/
theorem secondRound_of_missing {i newMax : Nat} {new : List (List (Nat × Nat))} {rest : List (Nat × List (List (Nat × Nat)) × Nat)}
    {votes : List Nat} (hj : (partOf s p).job = some j) (ha : j.adopting = (i, new, newMax) :: rest)
    (hwait : votes.length + 1 ≠ (jobGroup j).length ∨ groupAcked s j.group = false) : secondRound p votes s = s := by
  unfold secondRound
  rw [hj]
  dsimp only
  rw [ha]
  dsimp only
  rw [if_pos (by simpa using hwait)]

/-- A layer whose map is adopted: the map is in force. -/
theorem job_adopted (hj : (partOf s p).job = some j) (i : Nat) (mv : List ((Nat × Nat) × (Nat × Nat))) (new : List (List (Nat × Nat)))
    (newMax : Nat) (l : Layer) : ∃ k, (partOf (writeMap (takeMap (takeSlots p i mv s) p i new newMax) j l) p).job = some k ∧
      k.layers = j.layers.modify i (fun y => { y with map := new, maxLoad := newMax }) ∧ k.generation = j.generation ∧ k.changed = true := by
  obtain ⟨k, hk, hlayers, -, hgeneration⟩ := keepsMaps_takeSlots s p i mv j hj
  refine ⟨_, (congrArg Part.job (partOf_congr (wr_parts ..) p)).trans (job_takeMap hk i new newMax), ?_, hgeneration, rfl⟩
  rw [← hlayers]

/-- What a layer's second round leaves: the next layer to adopt; where all vote 1 the new map in force, else the layers as they were. -/
theorem secondRound_job {i newMax : Nat} {new : List (List (Nat × Nat))} {rest : List (Nat × List (List (Nat × Nat)) × Nat)}
    {votes : List Nat} (hj : (partOf s p).job = some j) (ha : j.adopting = (i, new, newMax) :: rest)
    (hl : votes.length + 1 = (jobGroup j).length) (hg : groupAcked s j.group = true) :
    ∃ k, (partOf (secondRound p votes s) p).job = some k ∧ k.adopting = rest ∧
      ((groupVotes s j votes).all (· == 1) = true → i < j.layers.length →
        (layerAt k i).map = new ∧ k.generation = (if rest = [] then (j.generation + 1) % 2 ^ 32 else j.generation)) ∧
      ((groupVotes s j votes).all (· == 1) = false → k.layers = j.layers ∧
        k.generation = (if rest = [] ∧ j.changed = true then (j.generation + 1) % 2 ^ 32 else j.generation)) := by
  obtain ⟨t, items, ht, hround⟩ := secondRound_of_votes hj ha hl hg
  have htj : (partOf t p).job = some j := by rw [partOf_congr ht, hj]
  rw [hround]
  cases hall : (groupVotes s j votes).all (· == 1) with
  | true =>
    rw [if_pos rfl]
    obtain ⟨a, ha, halayers, hageneration, hachanged⟩ := job_adopted htj i (mapMoves (layerAt j i).map new) new newMax { layerAt j i with map := new }
    obtain ⟨k, hk, hklayers, hkadopting, hkgeneration⟩ := job_nextAdoption ha rest
    refine ⟨k, hk, hkadopting, fun _ hi => ⟨?_, ?_⟩, nofun⟩
    · rw [layerAt_modify_self (hklayers.trans halayers) hi]
    · simpa [hageneration, hachanged] using hkgeneration
  | false =>
    rw [if_neg Bool.false_ne_true]
    have hfault : (partOf (pleFault t j 0xD00D items) p).job = some j := (congrArg Part.job (partOf_congr (raise_parts ..) p)).trans htj
    obtain ⟨k, hk, hklayers, hkadopting, hkgeneration⟩ := job_nextAdoption hfault rest
    exact ⟨k, hk, hkadopting, nofun, fun _ => ⟨hklayers, hkgeneration⟩⟩

/-- Some vote is 0 where another's or the own is. -/
theorem groupVotes_all_eq_false {votes : List Nat}
    (h : votes.all (· == 1) = false ∨ j.vote = false ∨ groupErr s j.group = true) : (groupVotes s j votes).all (· == 1) = false := by
  rw [groupVotes_all]
  rcases h with h | h | h <;> simp [h]

end Reshard

/-- Settles O49: the procedure of R388 keeps a partial placement proper at every pick; a decision and a second round come to the ends
that their equations above give. -/
theorem decisionsAndReshards : Obligations.DecisionsAndReshards := by
  refine ⟨fun loads d c r h => placeExperts_spec h, fun s p layer peers j own hj hadaptive hsnap hmembers hlengths => ?_,
    fun s p layer peers votes j hj => ⟨fun hsnap => congrArg Host.Outcome.next (decidePlacement_of_no_snap peers hj hsnap),
      fun ha => congrArg Host.Outcome.next (secondRound_of_no_adoption votes hj ha), fun i new m rest ha => ⟨fun hwait => ?_, fun hl hg => ?_⟩⟩⟩
  · obtain ⟨pending, ⟨k, hk, hused, hmap, hpending⟩, hgain, hsmall, hnone⟩ :=
      decidePlacement_decided ⟨hj, hadaptive, hsnap, hmembers, hlengths⟩
    exact ⟨_, rfl, k, hk, hused, hmap, fun r hr h => hpending.trans (hgain r hr h), fun r hr h => hpending.trans (hsmall r hr h),
      fun h => hpending.trans (hnone h)⟩
  · exact congrArg Host.Outcome.next (secondRound_of_missing hj ha hwait)
  · obtain ⟨k, hk, hadopting, hadopted, hkept⟩ := secondRound_job hj ha hl hg
    refine ⟨_, rfl, k, hk, hadopting, fun ⟨hvotes, hvote, herr⟩ hi => hadopted ?_ hi, fun hzero => hkept (groupVotes_all_eq_false hzero)⟩
    rw [groupVotes_all, hvotes, hvote, herr]
    rfl

end Sys2Proof.Machine

/-!
PROOFS. A step takes the command at the front of the queue (R441, log entry 1), and the microsecond that passes where none waits.
-/
namespace Sys2Proof.Machine

/-- Settles O59: a step leaves the queue without its first, and what is left ends the same lists. -/
theorem stepsKeepTheQueueInOrder : Obligations.StepsKeepTheQueueInOrder :=
  ⟨fun _ _ h => (step_keeps h).1, fun _ _ _ hl h => (step_keeps h).1 ▸ (List.tail_suffix _).trans hl⟩

/-! ### The microsecond of an empty queue -/

/-- Ports send and resume: nothing but the fabric and what leaves the device changes. -/
def PortsMove (s t : State) : Prop := t = { s with fab := t.fab, out := t.out }

theorem PortsMove.refl (s : State) : PortsMove s s := rfl

theorem PortsMove.trans {s t u : State} (h : PortsMove s t) (k : PortsMove t u) : PortsMove s u := by
  rw [PortsMove] at *
  rw [k, h]

theorem PortsMove.foldl {α : Type} {f : State → α → State} (hf : ∀ u a, PortsMove u (f u a)) (l : List α) (s : State) :
    PortsMove s (l.foldl f s) := by
  induction l generalizing s with
  | nil => exact .refl s
  | cons a l ih => exact (hf s a).trans (ih _)

theorem portsMove_modPort (s : State) (p : Nat) (f : Port → Port) : PortsMove s (modPort s p f) := rfl

theorem portsMove_endPause (s : State) (p : Nat) : PortsMove s (endPause s p) := by
  obtain ⟨o, h⟩ := endPause_frame s p
  rw [h]
  rfl

theorem portsMove_portTick (s : State) (p : Nat) : PortsMove s (portTick s p) := by
  have hsent : PortsMove s (if (portOf s p).queued = 0 then s else modPort s p (fun y => { y with queued := y.queued - portMicro y })) := by
    split
    · exact .refl s
    · exact portsMove_modPort s p _
  unfold portTick
  dsimp only
  split
  · exact hsent
  split
  · exact hsent.trans (portsMove_endPause _ p)
  · exact hsent.trans (portsMove_modPort _ p _)

/-- A microsecond with the Thallus's domain powered: the clock goes on, ports send, and each second its counts start again. -/
theorem idleTick_of_domain {s : State} (h : s.power.domain = true) :
    idleTick s = { s with clock := { s.clock with ns := (s.clock.ns + tickNs s) % 2 ^ 64, us := s.clock.us + 1 }
                          fab := (idleTick s).fab, th := (idleTick s).th, out := (idleTick s).out } := by
  have hports := PortsMove.foldl portsMove_portTick (List.range 21)
    { s with clock := { s.clock with ns := (s.clock.ns + tickNs s) % 2 ^ 64, us := s.clock.us + 1 } }
  unfold idleTick
  rw [if_neg (by simp [h])]
  dsimp only
  generalize (List.range 21).foldl portTick _ = u at hports ⊢
  rw [PortsMove] at hports
  split
  · rw [hports]
    rfl
  · rw [hports]

/-- Settles O55: `step` matches on the queue, every command answers a next state, and with none the microsecond passes. -/
theorem stepTakesTheFrontCommand : Obligations.StepTakesTheFrontCommand := by
  refine ⟨fun _ _ _ => rfl, fun c s => (exec_keeps c s).imp fun _ h => h.1, fun s hnone => ⟨idleTick s, ?_, ?_⟩⟩
  · rw [step, hnone]
  · rcases Bool.eq_false_or_eq_true s.power.domain with hon | hoff
    · rw [idleTick_of_domain hon, hon]
      exact ⟨rfl, rfl, rfl, rfl, rfl, rfl, rfl, hnone⟩
    · have hstill : idleTick s = s := if_pos (by simp [hoff])
      rw [hstill, hoff]
      exact ⟨rfl, rfl, rfl, rfl, rfl, rfl, rfl, hnone⟩

end Sys2Proof.Machine

/-!
PROOFS. Doorbells, the reading and acceptance of descriptors, and retirement (R406, R416, R417, R430).
-/
namespace Sys2Proof.Machine

/-! ### Acts towards the host -/

/-- A state is another one but for what was sent to the host or waits for its link. -/
def SentOnly (s t : State) : Prop := t = { s with host := { s.host with held := t.host.held }, out := t.out }

theorem sentOnly_toHost (s : State) (e : OutEv) : SentOnly s (toHost s e) := by
  unfold SentOnly toHost
  split <;> rfl

theorem sentOnly_issueRead (s : State) (q : Nat) : SentOnly s (issueRead s q) := by
  unfold issueRead
  split
  · rfl
  split
  · exact sentOnly_toHost s _
  · rfl

theorem SentOnly.queues_eq {s t : State} (h : SentOnly s t) : t.queues = s.queues := (congrArg State.queues h).trans rfl

/-- What was sent stays sent. -/
theorem out_issueRead (s : State) (q : Nat) : s.out <+: (issueRead s q).out := by
  unfold issueRead
  split
  · exact List.prefix_rfl
  split
  · exact out_toHost s _
  · exact List.prefix_rfl

/-- One queue changed, and a slot read or none sent out for it: what is left to say of the state that results. -/
theorem sentOnly_modQueue {s t : State} {q : Nat} {x : Queue} (f : Queue → Queue) (hx : queueOf s q = some x)
    (ht : SentOnly (modQueue s q f) t) :
    queueOf t q = some (f x) ∧ OtherQueues q s t ∧ t = { s with queues := t.queues, host := t.host, out := t.out } := by
  have hq : t.queues = (modQueue s q f).queues := ht.queues_eq
  refine ⟨(queueOf_congr hq q).trans (queueOf_modQueue_some f hx), (otherQueues_modQueue s q f).trans (otherQueues_of_queues_eq hq), ?_⟩
  rw [SentOnly] at ht
  rw [ht]
  rfl

/-! ### Doorbells -/

/-- A doorbell that passes the checks of R406 comes to its queue. -/
theorem doorbell_of_taken {s : State} {fn v : Nat} {x : Queue} (f : State → Nat → Queue → Nat → State) (hserves : deviceServes s = true)
    (hzero : bits v 52 11 = 0) (howner : doorbellOwner s fn (bits v 32 20) = true) (hx : queueOf s (bits v 32 20) = some x) :
    doorbell s fn 8 v f = f s (bits v 32 20) x (bits v 0 32) := by
  simp only [doorbell, hserves, hzero, howner, hx, not_true_eq_false, ne_eq, or_self, if_false]

theorem doorbell_of_malformed {s : State} {fn size v : Nat} (f : State → Nat → Queue → Nat → State) (hserves : deviceServes s = true)
    (hbad : size ≠ 8 ∨ bits v 52 11 ≠ 0) : doorbell s fn size v f = bump s 0x210406 1 := by
  dsimp only [doorbell]
  rw [if_neg (not_not.2 hserves), if_pos hbad]

theorem doorbell_of_foreign {s : State} {fn v : Nat} (f : State → Nat → Queue → Nat → State) (hserves : deviceServes s = true)
    (hzero : bits v 52 11 = 0) (hforeign : doorbellOwner s fn (bits v 32 20) = false) :
    doorbell s fn 8 v f = raiseDev (bump s 0x210406 1) 0xB005 srcQueue [(fn, 11), (bits v 32 20, 20)] := by
  dsimp only [doorbell]
  rw [if_neg (not_not.2 hserves), if_neg (by simp [hzero]), if_pos (by simp [hforeign])]

theorem exec_submitDoorbell {s : State} {fn size v : Nat} (h : size ≠ 8 ∨ bit v 63 = false) :
    exec (.submitDoorbell fn size v) s = .next (doorbell s fn size v submit) :=
  congrArg Host.Outcome.next (if_neg fun ⟨h8, h63⟩ => h.elim (· h8) fun h => Bool.false_ne_true (h.symm.trans h63))

theorem exec_consumedDoorbell {s : State} {fn size v : Nat} (h : size ≠ 8 ∨ bit v 63 = true) :
    exec (.consumedDoorbell fn size v) s = .next (doorbell s fn size v consume) :=
  congrArg Host.Outcome.next (if_neg fun ⟨h8, h63⟩ => h.elim (· h8) h63)

/-- What a submit doorbell does is to set the target and to send a slot read or none. -/
theorem sentOnly_submit (s : State) (q : Nat) (x : Queue) (v : Nat) :
    SentOnly (modQueue s q (fun y => { y with target := extend32 x.nextSeq v, reading := true, stopped := false })) (submit s q x v) := by
  unfold submit
  dsimp only
  split
  · rfl
  · exact sentOnly_issueRead _ q

/-- Settles O1: a doorbell taken comes to its queue alone, and a submit doorbell may send a slot read. -/
theorem doorbellsMoveTheQueue : Obligations.DoorbellsMoveTheQueue := by
  intro s fn v x hserves hzero howner hx
  refine ⟨fun h63 => ⟨_, exec_submitDoorbell (.inr h63), ?_⟩, fun h63 hroom => ⟨_, exec_consumedDoorbell (.inr h63), ?_⟩⟩
  · rw [doorbell_of_taken submit hserves hzero howner hx]
    exact sentOnly_modQueue _ hx (sentOnly_submit s _ x _)
  · have hconsumed : consume s (bits v 32 20) x (bits v 0 32) =
        modQueue s (bits v 32 20) (fun y => { y with consumed := extend32 x.consumed (bits v 0 32) + 1 }) := if_pos hroom
    rw [doorbell_of_taken consume hserves hzero howner hx, hconsumed]
    exact ⟨queueOf_modQueue_some _ hx, otherQueues_modQueue s _ _, rfl⟩

/-- Settles O2: a malformed doorbell comes to the count, a foreign one to the count and the fault. -/
theorem doorbellsDiscarded : Obligations.DoorbellsDiscarded := by
  intro s fn size v hserves
  refine ⟨fun hbad => ⟨?_, ent_bump_self s 0x210406 1⟩, fun hbad => ?_, fun hzero hforeign h63 => ⟨_, exec_submitDoorbell (.inr h63), ?_⟩⟩
  · rw [exec_submitDoorbell (hbad.imp_right And.right), doorbell_of_malformed submit hserves (hbad.imp_right And.left)]
  · rw [exec_consumedDoorbell (hbad.imp_right And.right), doorbell_of_malformed consume hserves (hbad.imp_right And.left)]
  · rw [doorbell_of_foreign submit hserves hzero hforeign]
    exact ⟨rfl, raiseDev_queues ..⟩

/-! ### Reading and acceptance -/

/-- The operation that a slot read of `b` brings to the journal (R416). -/
def readOp (s : State) (x : Queue) (b : List Nat) : Op :=
  { seq := nextSlot x, hdr := leNat (b.take 64), body := leNat (b.drop 64), owner := qOwner x, epoch := ownerEpoch s (qOwner x) }

theorem padTo_of_length {n : Nat} {b : List Nat} (h : b.length = n) : padTo n b = b := by
  rw [padTo, List.take_append_of_le_length (Nat.le_of_eq h.symm), List.take_of_length_le (Nat.le_of_eq h)]

/-- A slot of a host ring that holds the number expected is journalled (R416). -/
theorem exec_descriptorReadReturn {s : State} {q : Nat} {x : Queue} {b : List Nat} (hx : queueOf s q = some x)
    (hreads : x.reading = true ∧ nextSlot x ≤ x.target ∧ deviceServes s = true ∧ journalRoom s x.partition = true)
    (hring : bit x.ctx 277 = false) (hlen : b.length = 128) (hseq : slotSeqOk x (leNat (b.take 64)) (nextSlot x) = true) :
    exec (.descriptorReadReturn q (.bytes b)) s = .next (issueRead (modQueue s q (fun y => { y with
      journalled := y.journalled ++ [readOp s x b]
      reading := decide (nextSlot x < y.target) })) q) := by
  have hbytes : slotBytes s x (.bytes b) = some b := by
    rw [slotBytes, hring, if_neg Bool.false_ne_true]
    exact congrArg some (padTo_of_length hlen)
  refine congrArg Host.Outcome.next ?_
  rw [hx]
  dsimp only
  rw [if_neg (not_not.2 hreads), hbytes]
  dsimp only
  rw [if_neg (not_not.2 hseq)]
  rfl

/-- The first journalled operation is accepted, and counted for the device and its path (R417). -/
theorem exec_descriptorAccept {s : State} {q : Nat} {x : Queue} {o : Op} {r : List Op} (hx : queueOf s q = some x)
    (hj : x.journalled = o :: r) (haccepts : journalAccepts s = true) (hserves : deviceServes s = true)
    (howner : ownerState s (qOwner x) ≠ .resetting) :
    exec (.descriptorAccept q) s = .next (bump (bump (modQueue s q (fun y => { y with
      journalled := r
      ops := y.ops ++ [{ o with epoch := ownerEpoch s o.owner }]
      nextSeq := y.nextSeq + 1
      watermarkDue := true })) 0x210401 1) (pKey 0x3000 8 x.partition) 1) := by
  refine congrArg Host.Outcome.next ?_
  rw [hx]
  dsimp only
  rw [hj]
  dsimp only
  rw [if_neg (not_or.2 ⟨not_not.2 ⟨haccepts, hserves⟩, howner⟩)]

theorem exec_watermarkWrite {s : State} {q : Nat} {x : Queue} (hx : queueOf s q = some x) (hdue : x.watermarkDue = true) :
    exec (.watermarkWrite q) s = .next (hostWr (modQueue s q (fun y => { y with watermarkDue := false })) (qOwner x)
      (bits x.ctx 320 64) (natLe 8 (x.nextSeq - 1))) := by
  refine congrArg Host.Outcome.next ?_
  rw [hx]
  exact if_pos hdue

/-- The entries of a partition lie past those of the device. -/
theorem ne_pKey {k : Nat} (h : k < 0x300000) (sub p : Nat) : k ≠ pKey 0x3000 sub p := by
  unfold pKey
  omega

/-- Settles O3: reading, acceptance and the watermark each change their queue, and count or send what goes with it. -/
theorem descriptorsAreReadAndAccepted : Obligations.DescriptorsAreReadAndAccepted := by
  intro s q x hx
  refine ⟨fun b hreading htarget hserves hroom hring hlen hseq => ?_, fun o r hj haccepts hserves howner => ?_, fun hdue hup => ?_⟩
  · exact ⟨_, exec_descriptorReadReturn hx ⟨hreading, htarget, hserves, hroom⟩ hring hlen hseq,
      sentOnly_modQueue _ hx (sentOnly_issueRead _ q)⟩
  · refine ⟨_, exec_descriptorAccept hx hj haccepts hserves howner, queueOf_modQueue_some _ hx, ?_, otherQueues_modQueue s q _, rfl⟩
    rw [ent_bump_ne _ _ (ne_pKey (by decide) _ _), ent_bump_self]
    rfl
  · rw [Runs, exec_watermarkWrite hx hdue, hostWr, toHost_of_up _ (show (modQueue s q _).host.up = true from hup)]
    exact ⟨_, rfl, rfl, queueOf_modQueue_some _ hx, otherQueues_modQueue s q _, rfl⟩

/-! ### Retirement -/

/-- The operations of a queue that no retirement frees yet: not completed, or with their record waiting (R430). -/
def keptOps (x : Queue) : List Op := x.ops.filter (fun o => !(o.progress == .completed && !recordHeld x o))

theorem exec_journalRetire {s : State} {q : Nat} {x : Queue} (hx : queueOf s q = some x) (hup : s.host.up = true)
    (hany : x.ops.any (fun o => o.progress == .completed && !recordHeld x o) = true) :
    exec (.journalRetire q) s = .next (issueRead (modQueue (emit s (.flushRead q)) q (fun y => { y with ops := keptOps x })) q) := by
  have hfewer : (keptOps x).length ≠ x.ops.length := fun hall => by
    obtain ⟨o, ho, hdone⟩ := List.any_eq_true.1 hany
    have hkept := List.length_filter_eq_length_iff.1 hall o ho
    rw [hdone] at hkept
    exact Bool.false_ne_true hkept
  refine congrArg Host.Outcome.next ?_
  rw [hx]
  exact if_neg (not_or.2 ⟨hfewer, not_not.2 hup⟩)

/-- Settles O5: retirement keeps the other operations behind the flushing read; the mirrored copy changes the journal's record alone. -/
theorem journalRetiresAndIsMirrored : Obligations.JournalRetiresAndIsMirrored := by
  refine ⟨fun s q x hx hup hany => ?_, fun s n hcopy => congrArg Host.Outcome.next (by rw [hcopy])⟩
  obtain ⟨hq, hother, hframe⟩ := sentOnly_modQueue (s := emit s (.flushRead q)) (fun y => { y with ops := keptOps x }) hx
    (sentOnly_issueRead _ q)
  exact ⟨_, exec_journalRetire hx hup hany, hq, (out_issueRead _ q).subset (List.mem_append_right _ (List.mem_singleton_self _)), hother, hframe⟩

end Sys2Proof.Machine

/-!
PROOFS. Starting a queue's head, and the operations that administer queues (R411 to R414, R420, R463).
-/
namespace Sys2Proof.Machine

/-- A head whose units have not failed and whose lines are home starts (R359, R463, R464). -/
theorem startAwake_ready {s : State} {q : Nat} {x : Queue} {o : Op} {h : Head} (hfresh : o.rerun = false)
    (hfronds : ∀ f ∈ heldNeeds h.opcode, frondState s f ≠ .failed) (hlines : memoryOp h.opcode = true → homeHeld s o.owner = false) :
    startAwake s q x o h .ready = .go x { o with progress := .started } h
      (modOp s q o.seq (fun y => { y with progress := .started, rerun := false, runs := y.runs + 1 })) := by
  have hnone : (heldNeeds h.opcode).find? (fun f => frondState s f == .failed) = none :=
    List.find?_eq_none.2 fun f hf => by simp [hfronds f hf]
  have hhome : ¬ (memoryOp h.opcode = true ∧ homeHeld s o.owner = true) := fun ⟨hm, hheld⟩ =>
    Bool.false_ne_true ((hlines hm).symm.trans hheld)
  unfold startAwake
  rw [hnone]
  dsimp only
  rw [if_neg hhome, hfresh]
  rfl

/-- Settles O6: no check of R411, R418, R427, R463 or R476 stops the head. -/
theorem headStartsWhen : Obligations.HeadStartsWhen := by
  intro s q sub x o hx ho haccepted hfresh hserves howner hhold hpart hdesc hgated htwo htouched hsub hfronds hlines
  have hmay : mayStart s x = true := by simp [mayStart, hserves, howner, hhold, hpart]
  have hgate : gateOf s x.partition o (headOf x o) = .run := if_pos (by simp [hgated])
  unfold startHead
  rw [hx]
  dsimp only
  rw [ho]
  dsimp only
  rw [if_neg (by simp [hmay, haccepted]), hdesc]
  dsimp only
  rw [if_neg (by simp [htouched]), if_neg (by simpa using fun h0 => hsub.resolve_left h0)]
  unfold startGate
  rw [hgate]
  dsimp only
  rw [if_neg (by simp [switchBad, htwo]), if_neg (by simp [switchDone, htwo])]
  exact startAwake_ready hfresh hfronds hlines

/-! ### The administration of queues -/

/-- A change of a listed key keeps a table's form. -/
theorem tsorted_tmod {α : Type} {t : Tbl α} (k : Nat) (f : α → α) (h : tsorted t = true) : tsorted (tmod t k f) = true := by
  unfold tmod
  split
  · exact tsorted_tput k _ h
  · exact h

/-- A head that has started leaves every table of queues in its form. -/
theorem tsorted_of_startHead {s t : State} {q op sub : Nat} {n : Need} {x : Queue} {o : Op} {h : Head}
    (e : startHead s q op sub n = .go x o h t) (hs : tsorted s.queues = true) : tsorted t.queues = true := by
  obtain ⟨-, ⟨o', -, -, -, rfl⟩, -⟩ := startHead_go e
  refine tsorted_tmod q _ ?_
  split <;> exact hs

section Administration
variable {s t : State} {q : Nat} {x : Queue} {o : Op} {h : Head}

theorem runs_nop (e : startHead s q 0x0D 0 .ready = .go x o h t) :
    Runs (.nop q) s (fun u => Finished u q o.seq 0x01 ∧ OtherQueues q s u ∧ u = { s with queues := u.queues, dict := u.dict }) := by
  refine ⟨_, congrArg Host.Outcome.next (runHead_of_go e _), finished_endOp (startHead_opAt e),
    otherQueues_of_startHead e (otherQueues_modOp _ _ _ _), ?_⟩
  rw [startHead_frame e]
  rfl

/-- A queue made beside the running one leaves that queue's operations. -/
theorem opAt_makeQueue (u : State) {c : Nat} (own : Nat) (hne : bits c 300 20 ≠ q) (n : Nat) : opAt (makeQueue u own c) q n = opAt u q n := by
  rw [opAt, opAt, queueOf, makeQueue, tget_tput_ne _ _ hne.symm]
  rfl

theorem runs_queueCreate (e : startHead s q 0x0E 0 .ready = .go x o h t) (hadmin : onAdmin t q o = true)
    (hsound : contextBad t o.owner o.body = none) (hne : bits o.body 300 20 ≠ q) :
    Runs (.queueCreate q) s (fun u => Finished u q o.seq 0x01 ∧
      queueOf u (bits o.body 300 20) =
        some { ctx := setBits o.body 272 2 (min (bits o.body 272 2) 2), partition := ownerPart s o.owner } ∧
      (∀ r, r ≠ q → r ≠ bits o.body 300 20 → queueOf u r = queueOf s r) ∧ u = { s with queues := u.queues, dict := u.dict }) := by
  have hmade : queueMake q t x o h =
      endOp (modOp (makeQueue t o.owner o.body) q o.seq (fun y => { y with detail := min (bits o.body 272 2) 2 })) q o 0x01 := by
    rw [queueMake, if_neg (not_not.2 hadmin), hsound]
  have howners : ownerPart t o.owner = ownerPart s o.owner := by
    rw [startHead_frame e]
    rfl
  refine ⟨_, congrArg Host.Outcome.next ((runHead_of_go e _).trans hmade), finished_endOp ?_, ?_, fun r hr hr' => ?_, ?_⟩
  · refine opAt_modOp_exists (by intro; rfl) ?_
    rw [opAt_makeQueue t o.owner hne]
    exact startHead_opAt e
  · rw [endOp, modOp, queueOf_modQueue_ne _ _ hne, modOp, queueOf_modQueue_ne _ _ hne, ← howners]
    exact tget_tput_self _ _ _
  · rw [endOp, modOp, queueOf_modQueue_ne _ _ hr, modOp, queueOf_modQueue_ne _ _ hr, ← otherQueues_startHead e r hr]
    exact tget_tput_ne _ _ hr'
  · rw [startHead_frame e]
    rfl

theorem runs_queueDestroy (e : startHead s q 0x0F 0 .ready = .go x o h t) (hadmin : onAdmin t q o = true) (hne : bits o.body 492 20 ≠ q)
    (hidle : ∀ y, queueOf s (bits o.body 492 20) = some y → qOwner y = o.owner ∧ qHead y = none)
    (hthere : (queueOf s (bits o.body 492 20)).isSome = true) (hsorted : tsorted s.queues = true) :
    Runs (.queueDestroy q) s (fun u => Finished u q o.seq 0x01 ∧ queueOf u (bits o.body 492 20) = none ∧
      (∀ r, r ≠ q → r ≠ bits o.body 492 20 → queueOf u r = queueOf s r) ∧
      u = { s with queues := u.queues, dict := u.dict, syu := { s.syu with tasks := tdel s.syu.tasks (bits o.body 492 20) } }) := by
  obtain ⟨y, hy⟩ := Option.isSome_iff_exists.1 hthere
  obtain ⟨howner, hhead⟩ := hidle y hy
  have hended : queueEnd q t x o h = endOp { t with
      queues := tdel t.queues (bits o.body 492 20)
      syu := { t.syu with tasks := tdel t.syu.tasks (bits o.body 492 20) } } q o 0x01 := by
    rw [queueEnd, if_neg (not_not.2 hadmin), otherQueues_startHead e _ hne, hy]
    exact if_pos ⟨howner, by rw [hhead]; rfl⟩
  refine ⟨_, congrArg Host.Outcome.next ((runHead_of_go e _).trans hended), finished_endOp ?_, ?_, fun r hr hr' => ?_, ?_⟩
  · rw [opAt, queueOf, tget_tdel_ne _ hne.symm]
    exact startHead_opAt e
  · rw [endOp, modOp, queueOf_modQueue_ne _ _ hne]
    exact tget_tdel_self _ (tsorted_of_startHead e hsorted)
  · rw [endOp, modOp, queueOf_modQueue_ne _ _ hr, ← otherQueues_startHead e r hr]
    exact tget_tdel_ne _ hr'
  · rw [startHead_frame e]
    rfl

theorem runs_queueQuery (e : startHead s q 0x10 0 .ready = .go x o h t) (hptr : ptrOk t o.owner (bits o.body 452 40) 64 .write = true) :
    Runs (.queueQuery q) s (fun u => Finished u q o.seq 0x01 ∧
      u.mem = (wr t o.owner (bits o.body 452 40) (natLe 64 (contextOf t (bits o.body 492 20)))).mem ∧ OtherQueues q s u ∧
      u = { s with queues := u.queues, dict := u.dict, mem := u.mem, units := u.units }) := by
  have hshown : queueShow q t x o h =
      endOp (wr t o.owner (bits o.body 452 40) (natLe 64 (contextOf t (bits o.body 492 20)))) q o 0x01 := if_pos hptr
  obtain ⟨m, r, d, hwritten⟩ := written_wr t o.owner (bits o.body 452 40) (natLe 64 (contextOf t (bits o.body 492 20)))
  refine ⟨_, congrArg Host.Outcome.next ((runHead_of_go e _).trans hshown), finished_endOp ?_, rfl,
    otherQueues_of_startHead e ((otherQueues_of_queues_eq (wr_queues ..)).trans (otherQueues_modOp _ _ _ _)), ?_⟩
  · rw [opAt_congr (wr_queues ..)]
    exact startHead_opAt e
  · rw [hwritten, startHead_frame e]
    rfl

end Administration

/-- Settles O7: each of the four operations finishes with its effect on the queues or on memory. -/
theorem queueAdministration : Obligations.QueueAdministration :=
  fun _ _ _ _ _ _ => ⟨runs_nop, runs_queueCreate, runs_queueDestroy, runs_queueQuery⟩

end Sys2Proof.Machine

/-!
PROOFS. The completion of an operation with its record (R310, R424).
-/
namespace Sys2Proof.Machine

/-! ### A message to a ring of the host -/

/-- Queues change, and what is sent to the host: a message, its landing, and the vector that signals it. -/
def Posted (s t : State) : Prop := t = { s with queues := t.queues, host := { s.host with held := t.host.held }, out := t.out }

theorem Posted.trans {s t u : State} (h : Posted s t) (k : Posted t u) : Posted s u := by
  rw [Posted] at *
  rw [k, h]

theorem posted_modQueue (s : State) (q : Nat) (f : Queue → Queue) : Posted s (modQueue s q f) := rfl

theorem SentOnly.posted {s t : State} (h : SentOnly s t) : Posted s t := by
  rw [SentOnly] at h
  rw [h]
  rfl

theorem posted_signalQueue (s : State) (q : Nat) (x : Queue) : Posted s (signalQueue s q x) := by
  have hoff : Posted s (if ent s 0x210107 = 0 then s else modQueue s q (fun y => { y with holdoff := true })) := by
    split
    · rfl
    · exact posted_modQueue ..
  unfold signalQueue
  dsimp only
  split
  · rfl
  split
  · exact posted_modQueue ..
  · exact hoff.trans (sentOnly_toHost _ _).posted

theorem out_signalQueue (s : State) (q : Nat) (x : Queue) : s.out <+: (signalQueue s q x).out := by
  unfold signalQueue
  dsimp only
  split
  · exact List.prefix_rfl
  split
  · exact List.prefix_rfl
  · refine List.IsPrefix.trans ?_ (out_toHost _ _)
    split <;> exact List.prefix_rfl

/-- The write of a message of the device's own to a ring of the host (R424). -/
def ringWrite (s : State) (x : Queue) (msg : Nat) : OutEv :=
  .hostWrite (ownerFn s (qOwner x)) (if qOwner x = 0 then 0 else ownerPasid s (qOwner x))
    (bits x.ctx 384 64 + 32 * (bits msg 32 32 % msgSlots x)) (natLe 32 msg)

theorem landMsg_host {s : State} {q : Nat} {x : Queue} (msg : Nat) (h : queueOf s q = some x) (hring : bit x.ctx 276 = false) :
    Posted s (landMsg s q ⟨msg, false⟩) ∧ (s.host.up = true → ringWrite s x msg ∈ (landMsg s q ⟨msg, false⟩).out) := by
  have hwritten : Posted s (toHost s (ringWrite s x msg)) := (sentOnly_toHost ..).posted
  have hsent (hup : s.host.up = true) : ringWrite s x msg ∈ (toHost s (ringWrite s x msg)).out := by
    rw [toHost_of_up _ hup]
    exact List.mem_append_right _ (List.mem_singleton_self _)
  have hlanded : landMsg s q ⟨msg, false⟩ = if x.posted = x.consumed
      then signalQueue (modQueue (toHost s (ringWrite s x msg)) q (fun y => { y with posted := y.posted + 1 })) q x
      else modQueue (toHost s (ringWrite s x msg)) q (fun y => { y with posted := y.posted + 1 }) := by
    unfold landMsg
    rw [h]
    dsimp only
    rw [ringWr, hring]
    rfl
  rw [hlanded]
  split
  · exact ⟨(hwritten.trans (posted_modQueue ..)).trans (posted_signalQueue ..), fun hup => (out_signalQueue ..).subset (hsent hup)⟩
  · exact ⟨hwritten.trans (posted_modQueue ..), hsent⟩

/-- What becomes of a queue whose next message of the device's own is posted: it lands, or is held behind earlier ones or for want
of space (R310). -/
def MessageTaken (s t : State) (x z : Queue) (msg : Nat) : Prop :=
  z.msgSeq = (x.msgSeq + 1) % 2 ^ 32 ∧ z.completedSeq = x.completedSeq ∧ z.journalled = x.journalled ∧ z.nextSeq = x.nextSeq ∧
  z.ops = x.ops ∧
  (x.held = [] → ringSpace x = true → z.posted = x.posted + 1 ∧
    (s.host.up = true → ringWrite s x (msg + fld x.msgSeq 32 32) ∈ t.out)) ∧
  (x.held ≠ [] ∨ ringSpace x = false → z.held = x.held ++ [⟨msg + fld x.msgSeq 32 32, false⟩])

theorem postMsg_host {s : State} {q : Nat} {x : Queue} (msg : Nat) (h : queueOf s q = some x) (hring : bit x.ctx 276 = false) :
    Posted s (postMsg s q msg false) ∧ OtherQueues q s (postMsg s q msg false) ∧
    ∃ z, queueOf (postMsg s q msg false) q = some z ∧ MessageTaken s (postMsg s q msg false) x z msg := by
  have hcounted := queueOf_modQueue_some (fun y => { y with msgSeq := (y.msgSeq + 1) % 2 ^ 32 }) h
  have hother := otherQueues_modQueue s q (fun y => { y with msgSeq := (y.msgSeq + 1) % 2 ^ 32 })
  by_cases hlands : x.held = [] ∧ ringSpace x = true
  · obtain ⟨hempty, hroom⟩ := hlands
    have hpost : postMsg s q msg false =
        landMsg (modQueue s q (fun y => { y with msgSeq := (y.msgSeq + 1) % 2 ^ 32 })) q ⟨msg + fld x.msgSeq 32 32, false⟩ := by
      unfold postMsg
      rw [h]
      dsimp only
      rw [if_pos (by simp [hempty, hroom])]
    obtain ⟨⟨b, c, hz⟩, hrest⟩ := landMsg_lands ⟨msg + fld x.msgSeq 32 32, false⟩ hcounted
    obtain ⟨hposted, hsent⟩ := landMsg_host (msg + fld x.msgSeq 32 32) hcounted hring
    rw [hpost]
    refine ⟨(posted_modQueue ..).trans hposted, hother.trans hrest, _, hz, rfl, rfl, rfl, rfl, rfl, fun _ _ => ⟨rfl, hsent⟩, fun hwaits => ?_⟩
    exact absurd hwaits (by simp [hempty, hroom])
  · have hpost : postMsg s q msg false = modQueue (modQueue s q (fun y => { y with msgSeq := (y.msgSeq + 1) % 2 ^ 32 })) q
        (fun y => { y with held := y.held ++ [⟨msg + fld x.msgSeq 32 32, false⟩] }) := by
      unfold postMsg
      rw [h]
      dsimp only
      rw [if_neg (by simpa using hlands)]
      rfl
    rw [hpost]
    exact ⟨(posted_modQueue ..).trans (posted_modQueue ..), hother.trans (otherQueues_modQueue _ q _), _, queueOf_modQueue_some _ hcounted,
      rfl, rfl, rfl, rfl, rfl, fun hempty hroom => absurd ⟨hempty, hroom⟩ hlands, fun _ => rfl⟩

/-! ### The completion -/

/-- An operation's record posted, and the operation completed under its number. -/
def recordPosted (s : State) (q : Nat) (o : Op) : State :=
  modQueue (modOp (postMsg s q (completionOf s o) false) q o.seq (fun y => { y with progress := .completed })) q
    (fun y => { y with completedSeq := o.seq })

/-- The completion with its counts, before units are freed. -/
def completionPosted (s : State) (q : Nat) (x : Queue) (o : Op) : State :=
  let v := bump (bump (recordPosted s q o) 0x210402 1) (pKey 0x3000 9 x.partition) 1
  if o.status = 0x10 ∨ o.status = 0x11 then bump v 0x210404 1 else v

theorem postCompletion_of_found {s : State} {q : Nat} {x : Queue} {o : Op} (h : queueOf s q = some x)
    (ho : x.ops.find? (fun y => y.seq == o.seq) = some o) : postCompletion s q o.seq = completionPosted s q x o := by
  have hboth : (queueOf s q).bind (fun x => (x.ops.find? (fun y => y.seq == o.seq)).map (fun o => (x, o))) = some (x, o) := by
    rw [h, Option.bind_some, ho]
    rfl
  rw [postCompletion, hboth]
  rfl

theorem settleCards_of_ops_nil {s : State} (h : s.card.ops = []) : settleCards s = s := by
  rw [settleCards, h]
  rfl

theorem settleOps_of_shadow_nil {s : State} (h : s.shadow = []) : settleOps s = s := by
  rw [settleOps, pendingOf, h]
  rfl

theorem recordOp_of_no_job {s : State} {x : Queue} (h : (partOf s x.partition).job = none) (o : Op) (k : Head) : recordOp s x o k = s := by
  rw [recordOp, h]

/-- A finished head that commits, signals, checks and records nothing comes to its completion record (R424). -/
theorem exec_operationComplete {s : State} {q : Nat} {x : Queue} {o : Op} (hx : queueOf s q = some x) (ho : qHead x = some o)
    (hgoes : ¬ (o.progress ≠ .finished ∨ ¬ opAcked s q o.seq ∨ ¬ deviceServes s ∨ ownerState s (qOwner x) = .resetting ∨ 2 ^ 20 ≤ q))
    (hfound : x.ops.find? (fun y => y.seq == o.seq) = some o) (hpre : ownerState s (qOwner x) ≠ .preempting) (hcards : s.card.ops = [])
    (hshadow : s.shadow = []) (hjob : (partOf s x.partition).job = none) (hsig : sigKey (headOf x o) = none)
    (htwo : (headOf x o).twoPhase = false) (hcheck : (headOf x o).check = false)
    (hsame : (completionPosted s q x o).shadow = s.shadow ∧ (completionPosted s q x o).owners = s.owners) :
    exec (.operationComplete q) s = .next (freeUnits (completionPosted s q x o) q) := by
  have hcommit : (if o.status = 0x01 ∧ ¬ switchDone s q o (headOf x o) then commitSwitch s q o (headOf x o) else s) = s := by
    rw [commitSwitch, htwo, if_neg Bool.false_ne_true, ite_self]
  have hsignal : applySignal s q x o = s := by rw [applySignal, hsig]
  have hfinite : clearsFinite (headOf x o).check o = false := by rw [clearsFinite, hcheck, Bool.false_and]
  refine congrArg Host.Outcome.next ?_
  rw [settleCards_of_ops_nil hcards, hx]
  dsimp only
  rw [ho]
  dsimp only
  rw [if_neg hgoes, hcommit, recordOp_of_no_job hjob, hsignal, hfinite, if_neg Bool.false_ne_true, postCompletion_of_found hx hfound,
    settleOps_of_shadow_nil (s := freeUnits _ q) (hsame.1.trans hshadow)]
  refine if_neg fun ⟨hpreempting, _⟩ => hpre ?_
  rwa [ownerState, ownerRec, freeUnits_owners, hsame.2] at hpreempting

/-- The completion's counts are of the dictionary alone, and its own counter goes up by one. -/
theorem completionPosted_frame (s : State) (q : Nat) (x : Queue) (o : Op) :
    completionPosted s q x o = { recordPosted s q o with dict := (completionPosted s q x o).dict } ∧
    ent (completionPosted s q x o) 0x210402 = satAdd 64 (ent (recordPosted s q o) 0x210402) 1 := by
  have hpart : 0x210402 ≠ pKey 0x3000 9 x.partition := ne_pKey (by decide) _ _
  have hstopped : 0x210402 ≠ (0x210404 : Nat) := by decide
  unfold completionPosted
  dsimp only
  split
  · exact ⟨rfl, by rw [ent_bump_ne _ _ hstopped, ent_bump_ne _ _ hpart, ent_bump_self]⟩
  · exact ⟨rfl, by rw [ent_bump_ne _ _ hpart, ent_bump_self]⟩

/-- The queue once its record is posted: as the message left it, the operation completed. -/
theorem queueOf_recordPosted {s : State} {q : Nat} {o : Op} {z : Queue} (hz : queueOf (postMsg s q (completionOf s o) false) q = some z) :
    queueOf (recordPosted s q o) q =
      some { z with ops := modSeq z.ops o.seq (fun y => { y with progress := .completed }), completedSeq := o.seq } :=
  queueOf_modQueue_some _ (queueOf_modQueue_some _ hz)

/-- Settles O38: the record is the queue's next message; the head is then completed under its number, and its units are free. -/
theorem completionsArePosted : Obligations.CompletionsArePosted := by
  intro s q x o hx ho hfinished hfound hacked hserves hnotreset hnotpre hq hcards hshadow hjob hsig htwo hcheck hring
  obtain ⟨hposted, hother, z, hz, hmsg, -, hjournalled, hnext, hops, hlands, hholds⟩ := postMsg_host (completionOf s o) hx hring
  obtain ⟨hframe, hcount⟩ := completionPosted_frame s q x o
  have hposted : Posted s (recordPosted s q o) := hposted.trans ((posted_modQueue ..).trans (posted_modQueue ..))
  rw [Posted] at hposted
  have hqueues : (freeUnits (completionPosted s q x o) q).queues = (recordPosted s q o).queues := (congrArg State.queues hframe).trans rfl
  have hself := (queueOf_congr hqueues q).trans (queueOf_recordPosted hz)
  have hout : (completionPosted s q x o).out = (recordPosted s q o).out := (congrArg State.out hframe).trans rfl
  have hgoes : ¬ (o.progress ≠ .finished ∨ ¬ opAcked s q o.seq ∨ ¬ deviceServes s ∨ ownerState s (qOwner x) = .resetting ∨ 2 ^ 20 ≤ q) := by
    simpa [hfinished, hacked, hserves, hnotreset] using hq
  refine ⟨_, exec_operationComplete hx ho hgoes hfound hnotpre hcards hshadow hjob hsig htwo hcheck ?_, ?_, ⟨_, hself, rfl, hmsg,
    hjournalled, hnext, fun hempty hroom => ?_, hholds⟩, ?_, ?_, ?_⟩
  · rw [hframe, hposted]
    exact ⟨rfl, rfl⟩
  · refine ⟨{ o with progress := .completed }, ?_, rfl, rfl⟩
    rw [opAt, hself, Option.bind_some, hops, find_modSeq _ _ _ (by intro; rfl), hfound]
    rfl
  · obtain ⟨hcounted, hsent⟩ := hlands hempty hroom
    exact ⟨hcounted, fun hup => hout ▸ hsent hup⟩
  · have hdict : ent (recordPosted s q o) 0x210402 = ent s 0x210402 := ent_congr ((congrArg State.dict hposted).trans rfl) _
    exact hcount.trans (hdict ▸ rfl)
  · exact (hother.trans ((otherQueues_modOp _ q _ _).trans (otherQueues_modQueue _ q _))).trans (otherQueues_of_queues_eq hqueues)
  · rw [freeUnits, hframe, hposted]

end Sys2Proof.Machine

/-!
PROOFS. Fronds that wake, fail and power down, and clocks that are lost (R461 to R464).
-/
namespace Sys2Proof.Machine

/-! ### One frond set -/

@[simp] theorem frondState_setFrond_self (s : State) (f : Nat) (x : Frond) : frondState (setFrond s f x) f = x :=
  tgetD_tput_self s.fronds.st f x .off

theorem frondState_setFrond_ne (s : State) {f g : Nat} (x : Frond) (h : g ≠ f) : frondState (setFrond s f x) g = frondState s g :=
  tgetD_tput_ne s.fronds.st x .off h

theorem queue_setFrond (s : State) (f : Nat) (x : Frond) : (setFrond s f x).fronds.queue = s.fronds.queue.filter (· != f) := rfl

theorem not_mem_queue_setFrond (s : State) (f : Nat) (x : Frond) : f ∉ (setFrond s f x).fronds.queue := by
  simp [setFrond]

theorem setFrond_frame (s : State) (f : Nat) (x : Frond) : setFrond s f x = { s with fronds := (setFrond s f x).fronds } := rfl

/-! ### A vector core's frond -/

/-- A raised fault leaves the Vector Engine's holder (R481). -/
theorem vcHolder_raiseDev (s : State) (c r : Nat) (l : List (Nat × Nat)) : vcHolder (raiseDev s c r l) = vcHolder s := by
  obtain ⟨k, hunits⟩ := (raise_log_units s { code := c, src := r, items := l }).2
  simp only [vcHolder, raiseDev, hunits, queueOf_congr (raise_queues s _)]

theorem loseCore_of_idle {s : State} (h : vcHolder s = none) (c : Nat) : loseCore s c = s := by
  rw [loseCore, h]

theorem frondPort_of_lt {f : Nat} (h : f < 67) : frondPort f = none := by
  unfold frondPort
  rw [if_neg (by omega), if_neg (by omega), if_neg (by omega)]

/-- A vector core's frond is lost with nothing stopped where no operation holds the engine (R464). -/
theorem loseFrond_of_core {s : State} {f : Nat} (hlo : 8 ≤ f) (hhi : f < 40) (hidle : vcHolder s = none) :
    loseFrond s f = setFrond s f .failed := by
  unfold loseFrond
  dsimp only
  rw [if_neg (by omega), if_pos hhi, loseCore_of_idle hidle, if_neg (by omega), if_neg (by omega), if_neg (by omega), if_neg (by omega),
    if_neg (by omega), if_neg (by omega), frondPort_of_lt (by omega)]

/-! ### Wakes and power-downs -/

theorem frondWaking_iff (s : State) (f : Nat) : frondWaking s f = true ↔ f ∈ s.fronds.queue.take 4 := List.contains_iff_mem

theorem exec_frondWakeDone {s : State} {f : Nat} (h : f ∈ s.fronds.queue.take 4) :
    exec (.frondWakeDone f) s = .next (bump (setFrond s f .on) 0x200505 1) :=
  congrArg Host.Outcome.next (if_pos ((frondWaking_iff s f).2 h))

theorem exec_frondWakeFail {s : State} {f : Nat} (h : f ∈ s.fronds.queue.take 4) :
    exec (.frondWakeFail f) s = .next (raiseDev (loseFrond s f) 0xC009 srcThallus [(f, 7)]) :=
  congrArg Host.Outcome.next (if_pos ((frondWaking_iff s f).2 h))

/-- A demand frond that is on, idle, and holds neither band nor cache slice is put off (R462). -/
theorem exec_frondIdlePowerdown {s : State} {f : Nat} (hdemand : demandFrond f = true) (hon : frondState s f = .on)
    (hidle : frondIdle s f = true) (hband : 8 ≤ f) (hslice : f < 51) : exec (.frondIdlePowerdown f) s = .next (setFrond s f .off) := by
  have hgoes : ¬ (¬ demandFrond f = true ∨ frondState s f ≠ .on ∨ ¬ frondIdle s f = true) := by simp [hdemand, hon, hidle]
  refine congrArg Host.Outcome.next ((if_neg hgoes).trans ?_)
  dsimp only
  rw [if_neg (by omega), if_neg (by omega)]

/-- Settles O29: a wake that ends or fails and a power-down each set their own frond. -/
theorem frondsWakeAndPowerDown : Obligations.FrondsWakeAndPowerDown := by
  intro s f
  refine ⟨fun hf => ⟨_, exec_frondWakeDone hf, frondState_setFrond_self s f .on, fun g hg => frondState_setFrond_ne s .on hg, rfl,
      ent_bump_self .., rfl⟩,
    fun hf hlo hhi hidle => ⟨_, exec_frondWakeFail hf, setFrond s f .failed, frondState_setFrond_self .., fun g hg =>
      frondState_setFrond_ne s .failed hg, rfl, rfl, ?_⟩,
    fun hf => ?_, fun hidle hon => ?_⟩
  · rw [loseFrond_of_core hlo hhi hidle]
  · have hnot : ¬ frondWaking s f = true := fun h => hf ((frondWaking_iff s f).1 h)
    exact ⟨congrArg Host.Outcome.next (if_neg hnot), congrArg Host.Outcome.next (if_neg hnot)⟩
  · have hexec : exec (.frondIdlePowerdown f) s = .next (setFrond s f .off) := by
      rcases hidle with ⟨hlo, hhi, hnone⟩ | ⟨hlo, hhi, hnone⟩
      · refine exec_frondIdlePowerdown ?_ hon ?_ hlo (by omega)
        · simp only [demandFrond, Bool.or_eq_true, decide_eq_true_eq]
          omega
        · rw [frondIdle, if_neg (by omega), if_pos hhi, hnone]
          rfl
      · refine exec_frondIdlePowerdown ?_ hon ?_ (by omega) (by omega)
        · simp only [demandFrond, Bool.or_eq_true, decide_eq_true_eq]
          omega
        · rw [frondIdle, if_neg (by omega), if_neg (by omega), if_neg (by omega), if_neg (by omega), if_pos hhi, hnone]
          rfl
    exact ⟨_, hexec, frondState_setFrond_self .., fun g hg => frondState_setFrond_ne s .off hg, rfl⟩

/-! ### Clock loss -/

/-- A domain other than ck_ref, the Thallus's, a SerDes PLL's and the PCIe link's stops its fronds alone (R461). -/
theorem exec_pllLockLoss_of_fronds {s : State} {d : Nat} (hdomain : s.power.domain = true) (hrails : s.power.railState = 2)
    (hd : 2 ≤ d ∧ d < 96) : exec (.pllLockLoss d) s = .next
      (let t := (domainFronds d).foldl loseFrond (raiseDev s 0xC00E srcThallus [(d, 16)])
       if d = 2 then { t with th := { t.th with ckRuns := false } } else t) := by
  have hgoes : ¬ (d = 0 ∨ 112 ≤ d ∨ ¬ s.power.domain = true ∨ 3 ≤ d ∧ s.power.railState ≠ 2) := by
    simp only [hdomain, hrails, ne_eq, not_true_eq_false, and_false, or_false]
    omega
  refine congrArg Host.Outcome.next ((if_neg hgoes).trans ?_)
  dsimp only
  rw [if_pos hrails, if_neg (show ¬ (d = 108 ∨ d = 1) by omega), if_neg (show ¬ (96 ≤ d ∧ d ≤ 107) by omega)]

theorem domainFronds_of_core {d : Nat} (hlo : 13 ≤ d) (hhi : d ≤ 44) : domainFronds d = [d - 5] := by
  unfold domainFronds
  rw [if_neg (by omega), if_neg (by omega), if_neg (by omega), if_neg (by omega), if_pos ⟨hlo, hhi⟩]

/-- Settles O28: the Thallus's domain names no frond, a vector core's its own, and two numbers no clock that can be lost. -/
theorem clockLossStopsItsUnits : Obligations.ClockLossStopsItsUnits := by
  intro s hdomain hrails
  refine ⟨exec_pllLockLoss_of_fronds hdomain hrails (by decide), fun d hlo hhi hidle v hv => ?_, fun d hd => ?_⟩
  · have hexec := exec_pllLockLoss_of_fronds hdomain hrails (d := d) (by omega)
    have hholder : vcHolder v = none := by rw [hv, vcHolder_raiseDev, hidle]
    have hfronds : ∀ g, frondState v g = frondState s g := fun g => by rw [frondState, hv, raiseDev_fronds, frondState]
    rw [domainFronds_of_core hlo hhi, List.foldl_cons, List.foldl_nil, ← hv, loseFrond_of_core (by omega) (by omega) hholder] at hexec
    dsimp only at hexec
    rw [if_neg (by omega)] at hexec
    exact ⟨_, hexec, frondState_setFrond_self .., fun g hg => (frondState_setFrond_ne v .failed hg).trans (hfronds g),
      not_mem_queue_setFrond v (d - 5) .failed, rfl⟩
  · exact congrArg Host.Outcome.next (if_pos (hd.imp_right Or.inl))

end Sys2Proof.Machine

/-!
PROOFS. Input power, main rails, the module's contact and buttons (R506 to R511, R517 to R522).
-/
namespace Sys2Proof.Machine

/-! ### The main rails off -/

theorem railsAreOff_railsOff (s : State) (st : Nat) : RailsAreOff (railsOff s st) st := ⟨rfl, rfl, rfl, rfl, rfl, rfl, rfl, rfl, rfl, rfl⟩

/-- A fault raised while the recorder takes no record is kept for it (R526). -/
theorem raise_of_recorderOff {s : State} (f : Flt) (h : recorderOn s = false) : raise s f = { s with
    log := { s.log with raised := s.log.raised + 1 }
    th := { s.th with ckRuns := true }
    power := { s.power with kept := s.power.kept ++ [recordOf s f] } } := by
  unfold raise
  dsimp only
  rw [h, if_neg Bool.false_ne_true]

theorem recorderOn_of_railsOff {s : State} (hrails : s.power.railState ≠ 2) (hmain : s.startup.main = none) : recorderOn s = false := by
  simp [recorderOn, hrails, hmain]

/-- A fault of the module raised with the rails off and no phase running: the rails stay off, and power keeps its record besides. -/
theorem railsOff_raiseModule {t : State} {st : Nat} (h : RailsAreOff t st) (hst : st ≠ 2) (hmain : t.startup.main = none) (code : Nat)
    (items : List (Nat × Nat)) : RailsAreOff (raiseModule t code items) st ∧
      ∃ l, (raiseModule t code items).power = { t.power with kept := l } ∧ (raiseModule t code items).startup = t.startup := by
  obtain ⟨hstate, hup, hcells, htags, hpoison, hqueues, hparts, hlink, hready, hrack⟩ := h
  have hraise := raise_of_recorderOff { code := code, src := srcModule, items := items } (recorderOn_of_railsOff (hstate ▸ hst) hmain)
  rw [raiseModule, raiseDev, hraise]
  exact ⟨⟨hstate, hup, hcells, htags, hpoison, hqueues, hparts, hlink, hready, hrack⟩, _, rfl, rfl⟩

/-- A cold start leaves what R473 says of it, whatever ran before. -/
theorem coldBegun_coldBegin (s : State) (phase cause : Nat) : ColdBegun (coldBegin s phase cause) phase cause :=
  ⟨⟨rfl, rfl, rfl, rfl, rfl, rfl, rfl, rfl, rfl, rfl⟩, rfl, rfl, rfl, rfl, rfl, rfl, rfl, rfl, rfl, rfl, rfl, rfl⟩

theorem coldReset_begins {s : State} (cause : Nat) (hdomain : s.power.domain = true)
    (hphase : s.startup.stopped = true ∨ ∀ m, s.startup.main = some m → 4 ≤ m) : coldReset s cause = coldBegin s 1 cause := by
  refine if_neg ?_
  rintro (hoff | ⟨hearly, hgoes⟩)
  · exact hoff hdomain
  · obtain ⟨m, hm, hlt⟩ := (Option.any_eq_true _ _).1 hearly
    have := hphase.resolve_left hgoes m hm
    exact absurd (of_decide_eq_true hlt) (by omega)

/-! ### A waiting phase P3 -/

/-- P3 released from its wait begins the sequence of the rails (R506). -/
theorem releaseRails_begins {s : State} (hmain : s.startup.main = some 3) (hwaits : s.startup.p3Waits = true) (hmay : railsMayStart s = true) :
    releaseRails s = { s with
      startup := { s.startup with p3Waits := false }
      power := { s.power with
        railState := 1
        railsUp := 0 } } := by
  rw [releaseRails, if_pos ⟨hmain, hwaits, hmay⟩, beginRails, hmay, ← hmain]
  rfl

/-! ### Readings of the input out of bounds -/

/-- An input fault with the rails on takes them off, keeps the reading, and raises its code with it (R508). -/
theorem inputFault_railsOff {s : State} (hon : railsOn s = true) (code v : Nat) :
    RailsAreOff (inputFault s code v) 3 ∧ (inputFault s code v).power.inputFaulted = true ∧
    (inputFault s code v).power.inputMv = s.power.inputMv ∧ (inputFault s code v).power.inputMa = s.power.inputMa ∧
    ∃ u, inputFault s code v = raiseDev u code srcModule [(v, 32)] := by
  have hfault : inputFault s code v = raiseModule (setPower (railsOff s 3) (fun m => { m with inputFaulted := true })) code [(v, 32)] := by
    rw [inputFault, if_pos hon]
  obtain ⟨hoff, l, hpower, -⟩ := railsOff_raiseModule (t := setPower (railsOff s 3) (fun m => { m with inputFaulted := true }))
    (railsAreOff_railsOff s 3) (by decide) rfl code [(v, 32)]
  rw [hfault]
  exact ⟨hoff, by rw [hpower]; rfl, by rw [hpower]; rfl, by rw [hpower]; rfl, _, rfl⟩

/-- Settles O26: a start is `coldBegin`, and where rails go off the fault that says so only adds its record to what power keeps. -/
theorem inputPowerAndRails : Obligations.InputPowerAndRails := by
  intro s
  refine ⟨fun mv hoff hmv => ?_, fun hon => ?_, fun mv hon hlo hhi hseated hmain hwaits => ?_, fun n hmain hwaits hgoes hn hlt => ?_,
    fun n mv hon hpos hn => ?_, fun mv hdomain hon hmv => ?_, fun mv hdomain hon hmv => ?_, fun ma hdomain hon hma => ?_,
    fun hfaulted hlo hhi hdomain hphase => ?_⟩
  · have hexec : exec (.inputValid mv) s = .next (coldBegin (setPower s (fun m => { m with domain := true, inputMv := mv })) 0 causeInput) :=
      congrArg Host.Outcome.next (if_neg (not_or.2 ⟨by simp [hoff], Nat.not_le.2 hmv⟩))
    exact ⟨_, hexec, coldBegun_coldBegin _ _ _, rfl, rfl⟩
  · have hexec : exec .inputLoss s = .next (inputGone s) := congrArg Host.Outcome.next (if_pos hon)
    exact ⟨_, hexec, ⟨rfl, rfl, rfl, rfl, rfl, rfl, rfl, rfl, rfl, rfl⟩, rfl, rfl, rfl, rfl, rfl, rfl, rfl, rfl, rfl, rfl, rfl⟩
  · have hmay : railsMayStart (setPower s (fun m => { m with inputMv := mv })) = true := by
      simp [railsMayStart, setPower, hlo, hhi, hseated]
    have hgoes : ¬ (¬ s.power.domain = true ∨ mv < 46000 ∨ 56000 < mv) := by
      simp only [hon, not_true_eq_false, false_or]
      omega
    exact congrArg Host.Outcome.next ((if_neg hgoes).trans (releaseRails_begins hmain hwaits hmay))
  · have hnext : ¬ (s.startup.main ≠ some 3 ∨ s.startup.p3Waits = true ∨ s.startup.stopped = true ∨ 7 < n + 1 ∨ n + 1 ≠ s.power.railsUp + 1) := by
      simp only [hmain, hwaits, hgoes, hn, ne_eq, not_true_eq_false, Bool.false_eq_true, false_or, or_false]
      omega
    exact congrArg Host.Outcome.next (if_neg hnext)
  · have hgoes : ¬ (¬ railsOn s = true ∨ n = 0 ∨ s.power.railsUp < n) := by
      simp only [hon, not_true_eq_false, false_or]
      omega
    have hoff : RailsAreOff { railsOff s 3 with
        power := { (railsOff s 3).power with railFaults := (railsOff s 3).power.railFaults ||| 2 ^ (n - 1) }
        startup := { (railsOff s 3).startup with stopped := true } } 3 := railsAreOff_railsOff s 3
    obtain ⟨hraised, l, hpower, hstartup⟩ := railsOff_raiseModule hoff (by decide) rfl 0xE004 [(n, 8), (mv, 16)]
    exact ⟨_, congrArg Host.Outcome.next (if_neg hgoes), hraised, by rw [hpower]; rfl, by rw [hstartup], by rw [hstartup]; rfl, _, rfl⟩
  · have hgoes : ¬ (¬ s.power.domain = true ∨ ¬ railsOn s = true ∨ 44000 ≤ mv) := by simp [hdomain, hon, hmv]
    obtain ⟨hoff, hfault, hin, -, hraised⟩ := inputFault_railsOff (s := setPower s (fun m => { m with inputMv := mv })) hon 0xE001 mv
    exact ⟨_, congrArg Host.Outcome.next (if_neg hgoes), hoff, hfault, hin, hraised⟩
  · have hgoes : ¬ (¬ s.power.domain = true ∨ mv ≤ 57000) := by simp [hdomain, hmv]
    obtain ⟨hoff, hfault, hin, -, hraised⟩ := inputFault_railsOff (s := setPower s (fun m => { m with inputMv := mv })) hon 0xE002 mv
    exact ⟨_, congrArg Host.Outcome.next (if_neg hgoes), hoff, hfault, hin, hraised⟩
  · have hgoes : ¬ (¬ s.power.domain = true ∨ ma ≤ 80000) := by simp [hdomain, hma]
    obtain ⟨hoff, hfault, -, hin, hraised⟩ := inputFault_railsOff (s := setPower s (fun m => { m with inputMa := ma })) hon 0xE003 ma
    exact ⟨_, congrArg Host.Outcome.next (if_neg hgoes), hoff, hfault, hin, hraised⟩
  · have hexec : exec .inputRecoveryRestart s = .next (coldReset s causeRecovery) := congrArg Host.Outcome.next (if_pos ⟨hfaulted, hlo, hhi⟩)
    rw [Runs, hexec, coldReset_begins _ hdomain hphase]
    exact ⟨_, rfl, coldBegun_coldBegin _ _ _⟩

end Sys2Proof.Machine

/-!
PROOFS. The module's contact, button and cages, and a sample of sound readings (R465, R466, R512 to R522).
-/
namespace Sys2Proof.Machine

/-! ### A sample of sound readings -/

theorem readingOk_of_sound {t : Int} (hlo : -4000 ≤ t) (hhi : t ≤ 15000) : readingOk (some t) = some t := if_pos ⟨hlo, hhi⟩

/-- Every reading of a list below a bound over the coldest one: so is its hottest. -/
theorem hottest_lt {b : Int} (hb : -4000 < b) : ∀ {l : List Int}, (∀ t ∈ l, t < b) → (hottest l).1 < b
  | [], _ => hb
  | [_], h => h _ List.mem_cons_self
  | t :: u :: r, h => by
    have hr : (hottest (u :: r)).1 < b := hottest_lt hb fun v hv => h v (List.mem_cons_of_mem t hv)
    have ht : t < b := h t List.mem_cons_self
    simp only [hottest]
    split
    · exact hr
    · exact ht

theorem map_range_getElem? {α β : Type} (f : Option α → β) (l : List α) :
    (List.range l.length).map (fun k => f l[k]?) = l.map (fun x => f (some x)) := by
  refine List.ext_getElem (by simp) fun k hk _ => ?_
  have hlt : k < l.length := by simpa using hk
  simp [List.getElem?_eq_getElem hlt]

/-- With every sensor's reading sound the readings are kept, and no sensor fails (R515). -/
theorem takeReadings_of_sound {s : State} {x : Sample} {die hbm : List Int} {inlet outlet : Int} (hdie : x.die = die.map some)
    (hn : die.length = 16) (hsound : ∀ v ∈ die, readingOk (some v) = some v) (hhbm : x.hbm = hbm.map some) (hm : hbm.length = 8)
    (hin : readingOk x.inlet = some inlet) (hout : readingOk x.outlet = some outlet) :
    takeReadings s x = { s with power := { s.power with
      inputMv := x.mv
      inputMa := x.ma
      powerW := x.avgW
      dieTemps := die
      hbmTemps := hbm
      inlet := inlet
      outlet := outlet
      cageMw := [x.cages.headD 0, (x.cages.drop 1).headD 0] } } := by
  have hread : (List.range 16).map (fun k => readingOk ((x.die[k]?).getD none)) = die.map some := by
    have := map_range_getElem? (fun r => readingOk (r.getD none)) x.die
    rw [show x.die.length = 16 by simp [hdie, hn]] at this
    rw [this, hdie, List.map_map]
    exact List.map_congr_left fun v hv => hsound v hv
  have hstacks : (List.range 8).map (fun k => ((x.hbm[k]?).getD none).getD ((s.power.hbmTemps[k]?).getD 0)) = hbm := by
    have hgood : ∀ k ∈ List.range 8, ((x.hbm[k]?).getD none).getD ((s.power.hbmTemps[k]?).getD 0) = (hbm[k]?).getD 0 := fun k hk => by
      have hlt : k < hbm.length := by simpa [hm] using hk
      simp [hhbm, List.getElem?_eq_getElem hlt]
    have hall := map_range_getElem? (fun r => r.getD 0) hbm
    rw [hm] at hall
    rw [List.map_congr_left hgood, hall]
    simp
  have hfold : (List.range 16).foldl (fun t k => if (((die.map some)[k]?).getD none).isNone then sensorFails t k else t) s = s :=
    foldl_of_fixed fun k hk => by
      have hlt : k < die.length := by simpa [hn] using hk
      simp [List.getElem?_eq_getElem hlt]
  unfold takeReadings
  dsimp only
  rw [hread, hfold, hstacks, hin, hout]
  simp [setPower]

/-- A stack that reports its temperature has no absent sample any more (R259). -/
theorem absentStack_of_report {s : State} {x : Sample} {k : Nat} (h : ((x.hbm[k]?).getD none).isSome = true) :
    absentStack s x k = { s with mc := { s.mc with tempAbsent := tdel s.mc.tempAbsent k } } := if_pos h

/-- Stacks that all report change nothing but the count of absent samples. -/
theorem absentStacks_of_reports {x : Sample} {l : List Nat} (h : ∀ k ∈ l, ((x.hbm[k]?).getD none).isSome = true) (s : State) :
    ∃ w, l.foldl (fun t k => absentStack t x k) s = { s with mc := { s.mc with tempAbsent := w } } := by
  induction l generalizing s with
  | nil => exact ⟨_, rfl⟩
  | cons k l ih =>
    rw [List.foldl_cons, absentStack_of_report (h k List.mem_cons_self)]
    exact ih (fun j hj => h j (List.mem_cons_of_mem k hj)) _

theorem bit_of_zero (i : Nat) : bit 0 i = false := Nat.zero_testBit i

/-- With no level held, none is entered while every reading stands below its threshold (R512). -/
theorem judgeLevels_of_low {s : State} (hheld : s.power.levels = 0) (hlow : ∀ r ∈ levelRows s, r.1 < r.2.1) : judgeLevels s = s := by
  refine foldl_of_fixed fun r hr => ?_
  have hmem : r.2 ∈ levelRows s := by
    simp only [levelRows, indexed, List.mem_cons, List.not_mem_nil, or_false] at hr ⊢
    rcases hr with rfl | rfl | rfl | rfl | rfl | rfl <;> simp
  have hbelow : levelAt false r.2.1 r.2.2.1 = false := by simpa [levelAt] using hlow r.2 hmem
  simp [hheld, bit_of_zero, hbelow]

/-- With no reading at its critical level none is noted, and the rails stay (R514). -/
theorem judgeCritical_of_low {s : State} (hlow : ∀ r ∈ criticals s, r.2 = false) :
    judgeCritical s = { s with power := { s.power with critical := 0 } } := by
  have hrow : ∀ r ∈ indexed 0 (criticals s), r.2.2 = false := fun r hr => by
    refine hlow r.2 ?_
    simp only [criticals, indexed, List.mem_cons, List.not_mem_nil, or_false] at hr ⊢
    rcases hr with rfl | rfl | rfl | rfl <;> simp
  have hnow : (indexed 0 (criticals s)).foldl (fun n r => if r.2.2 then n + 2 ^ r.1 else n) 0 = 0 :=
    foldl_of_fixed fun r hr => by simp [hrow r hr]
  have hnone : (indexed 0 (criticals s)).find? (fun r => r.2.2 && bit s.power.critical r.1) = none :=
    List.find?_eq_none.2 fun r hr => by simp [hrow r hr]
  unfold judgeCritical
  dsimp only
  rw [hnow, hnone]
  exact ite_self _

/-- Within the input's limits and with no level held a governed clock rises by 25 MHz where there is room (R465, R507). -/
theorem governClocks_of_room {s : State} {x : Sample} (hheld : s.power.levels = 0) (hw : x.avgW ≤ ent s 0x200601) (hma : x.avgMa ≤ 62500) :
    governClocks s x = { s with power := { s.power with
      ckMx := min (entAt s 0x220301 0) (if x.avgW * 100 < 95 * ent s 0x200601 then s.power.ckMx + 25 else s.power.ckMx)
      ckVx := min (entAt s 0x250105 1) (if x.avgW * 100 < 95 * ent s 0x200601 then s.power.ckVx + 25 else s.power.ckVx) } } := by
  unfold governClocks
  simp [hheld, bit_of_zero, Nat.not_lt.2 hw, Nat.not_lt.2 hma, govern, setPower]

/-- Below every level and within the input's limits a sample judges no level and raises the governed clocks alone. -/
theorem judged_of_room {s : State} {x : Sample} (hheld : s.power.levels = 0) (hlow : ∀ r ∈ levelRows s, r.1 < r.2.1)
    (hcool : ∀ r ∈ criticals s, r.2 = false) (hw : x.avgW ≤ ent s 0x200601) (hma : x.avgMa ≤ 62500) :
    judgeCritical (governClocks (judgeLevels s) x) = { s with power := { s.power with
      critical := 0
      ckMx := min (entAt s 0x220301 0) (if x.avgW * 100 < 95 * ent s 0x200601 then s.power.ckMx + 25 else s.power.ckMx)
      ckVx := min (entAt s 0x250105 1) (if x.avgW * 100 < 95 * ent s 0x200601 then s.power.ckVx + 25 else s.power.ckVx) } } := by
  rw [judgeLevels_of_low hheld hlow, governClocks_of_room hheld hw hma]
  exact judgeCritical_of_low hcool

/-- Settles O27: in a sample each of its four steps leaves what its readings do not concern. -/
theorem moduleButtonsCagesAndSensors : Obligations.ModuleButtonsCagesAndSensors := by
  intro s
  refine ⟨fun hseated hon => ?_, fun hlo hhi hmain hwaits => ?_, fun ms hdomain hlo hhi => ⟨fun hidle => ?_, fun hasked => ?_⟩,
    fun hdomain hon => ?_, fun p hp hen hplug hpow hstate hfails => ?_, fun cage mw hcage hdomain hmw => ?_, ?_⟩
  · have hexec : exec .seatedOpen s = .next (railsOff (setPower s (fun m => { m with seated := false })) 0) := by
      refine congrArg Host.Outcome.next ((if_neg (not_not.2 hseated)).trans ?_)
      dsimp only
      rw [if_pos hon]
    exact ⟨_, hexec, railsAreOff_railsOff _ _, rfl, rfl⟩
  · have hmay : railsMayStart (setPower s (fun m => { m with seated := true })) = true := by simp [railsMayStart, setPower, hlo, hhi]
    exact congrArg Host.Outcome.next (releaseRails_begins hmain hwaits hmay)
  · have hgoes : ¬ (¬ s.power.domain = true ∨ ms < 1000 ∨ 5000 ≤ ms) := by
      simp only [hdomain, not_true_eq_false, false_or]
      omega
    exact ⟨_, congrArg Host.Outcome.next ((if_neg hgoes).trans (if_pos hidle))⟩
  · have hgoes : ¬ (¬ s.power.domain = true ∨ ms < 1000 ∨ 5000 ≤ ms) := by
      simp only [hdomain, not_true_eq_false, false_or]
      omega
    exact congrArg Host.Outcome.next ((if_neg hgoes).trans ((if_neg (by omega)).trans (if_pos hasked)))
  · have hdown : railsDown (bump s 0x200A05 1) 0 = railsOff (bump s 0x200A05 1) 0 :=
      if_pos (by rw [show railsOn (bump s 0x200A05 1) = true from hon]; rfl)
    have hexec : exec .buttonHold s = .next (raiseModule (setPower (railsDown (bump s 0x200A05 1) 0) (fun m => { m with removal := 3 }))
        0xE00F [(s.power.removal, 8)]) := congrArg Host.Outcome.next (if_neg (not_not.2 hdomain))
    rw [hdown] at hexec
    obtain ⟨hoff, l, hpower, -⟩ := railsOff_raiseModule (t := setPower (railsOff (bump s 0x200A05 1) 0) (fun m => { m with removal := 3 }))
      (railsAreOff_railsOff _ 0) (by decide) rfl 0xE00F [(s.power.removal, 8)]
    exact ⟨_, hexec, hoff, by rw [hpower]; rfl, _, rfl⟩
  · have hgoes : ¬ (21 ≤ p ∨ ¬ (portOf s p).enable = true ∨ ¬ (portOf s p).plugged = true ∨ ¬ portPowered s p = true ∨
        (portOf s p).state ≠ 6 ∨ 3 ≤ (portOf s p).trainFails) := by
      simp only [hen, hplug, hpow, hstate, ne_eq, not_true_eq_false, false_or]
      omega
    exact congrArg Host.Outcome.next (if_neg hgoes)
  · have hgoes : ¬ (2 ≤ cage ∨ ¬ s.power.domain = true) := by
      simp only [hdomain, not_true_eq_false, or_false]
      omega
    exact congrArg Host.Outcome.next ((if_neg hgoes).trans (if_pos hmw))
  · intro x die hbm inlet outlet hdomain hserving hmain hdie hdn hdr hhbm hhn hhr hxin hxout hilo hihi hiwarn holo hohi howarn hheld hw hma
    have hgoes : ¬ (¬ s.power.domain = true ∨ ¬ s.th.serving = true ∨ s.startup.main = some 0 ∨ s.startup.main = some 1) := by
      simp [hdomain, hserving, hmain]
    have hlast : ∀ t : Int, -4000 ≤ t → t < 9000 → readingOk (some t) = some t := fun t hlo hhi => readingOk_of_sound hlo (by omega)
    have hread := takeReadings_of_sound (s := { s with th := { s.th with ckRuns := true } }) (x := x) hdie hdn
      (fun v hv => hlast v (hdr v hv).1 (hdr v hv).2) hhbm hhn ((congrArg readingOk hxin).trans (hlast inlet hilo (by omega)))
      ((congrArg readingOk hxout).trans (hlast outlet holo (by omega)))
    have hreports : ∀ k ∈ List.range 8, ((x.hbm[k]?).getD none).isSome = true := fun k hk => by
      have hlt : k < hbm.length := by simpa [hhn] using hk
      simp [hhbm, List.getElem?_eq_getElem hlt]
    have hd : (hottest die).1 < 9000 := hottest_lt (by decide) fun v hv => (hdr v hv).2
    have hh : (hottest hbm).1 < 8500 := hottest_lt (by decide) fun v hv => (hhr v hv).2
    obtain ⟨w, hstacks⟩ : ∃ w, (if s.power.railState = 2 then (List.range 8).foldl (fun t k => absentStack t x k)
          (takeReadings { s with th := { s.th with ckRuns := true } } x) else takeReadings { s with th := { s.th with ckRuns := true } } x) =
        { s with
          th := { s.th with ckRuns := true }
          power := { s.power with
            inputMv := x.mv
            inputMa := x.ma
            powerW := x.avgW
            dieTemps := die
            hbmTemps := hbm
            inlet := inlet
            outlet := outlet
            cageMw := [x.cages.headD 0, (x.cages.drop 1).headD 0] }
          mc := { s.mc with tempAbsent := w } } := by
      rw [hread]
      split
      · exact absentStacks_of_reports hreports _
      · exact ⟨s.mc.tempAbsent, rfl⟩
    have hexec : exec (.sensorSample x) s = .next (judgeCritical (governClocks (judgeLevels _) x)) :=
      congrArg Host.Outcome.next ((if_neg hgoes).trans (congrArg (fun u => judgeCritical (governClocks (judgeLevels u) x)) hstacks))
    refine ⟨_, hexec.trans (congrArg Host.Outcome.next (judged_of_room hheld ?_ ?_ hw hma)), rfl, rfl⟩
    · simp only [levelRows, List.forall_mem_cons]
      exact ⟨hd, by omega, hh, by omega, hiwarn, howarn, List.forall_mem_nil _⟩
    · simp only [criticals, List.forall_mem_cons, decide_eq_false_iff_not]
      exact ⟨by omega, by omega, by omega, by omega, List.forall_mem_nil _⟩

end Sys2Proof.Machine

/-!
PROOFS. The ends and bounds of the start-up phases (R473 to R475); the host link, its functions and its configuration requests
(R404, R408, R474).
-/
namespace Sys2Proof.Machine

/-! ### Start-up phases -/

/-- The running phase of P0 to P7 ends with what `mainPhaseEnd` does, where that moves the start-up on. -/
theorem exec_startupPhaseEnd_main {s : State} {phase : Nat} {x : PhaseEnd} (hgoes : s.startup.stopped = false) (hdomain : s.power.domain = true)
    (hle : phase ≤ 7) (hmain : s.startup.main = some phase) (hmoves : (mainPhaseEnd s phase x).startup.main ≠ s.startup.main) :
    exec (.startupPhaseEnd phase x) s = .next (noteTime (mainPhaseEnd s phase x) phase x.us) := by
  have hne : mainPhaseEnd s phase x ≠ s := fun h => hmoves (congrArg (fun t => t.startup.main) h)
  exact congrArg Host.Outcome.next ((if_neg (by simp [hgoes, hdomain])).trans ((if_pos ⟨hle, hmain⟩).trans (if_neg hne)))

theorem writeKept_of_nil {s : State} (h : s.power.kept = []) : writeKept s = s := by
  rw [writeKept, h, List.foldl_nil, ← h]

/-- The seven rails up and nothing kept: P3 ends into P4. -/
theorem mainPhaseEnd_three {s : State} (x : PhaseEnd) (hwaits : s.startup.p3Waits = false) (hup : s.power.railsUp = 7) (hkept : s.power.kept = []) :
    mainPhaseEnd s 3 x = { s with
      power := { s.power with railState := 2 }
      startup := { s.startup with main := some 4 } } := by
  have hgoes : ¬ (s.startup.p3Waits = true ∨ s.power.railsUp < 7) := by simp [hwaits, hup]
  have hkeeps : ({ s with power := { s.power with railState := 2 } } : State).power.kept = [] := hkept
  refine (if_neg hgoes).trans ?_
  rw [writeKept_of_nil hkeeps]
  rfl

/-- P8 and P9 end into the phase that follows, beside the main phases. -/
theorem exec_startupPhaseEnd_back {s : State} {k : Nat} (x : PhaseEnd) (hgoes : s.startup.stopped = false) (hdomain : s.power.domain = true)
    (hk : k = 8 ∨ k = 9) (hback : s.startup.back = some k) :
    exec (.startupPhaseEnd k x) s = .next (noteTime (setBack s (some (k + 1))) k x.us) :=
  congrArg Host.Outcome.next ((if_neg (by simp [hgoes, hdomain])).trans
    ((if_neg fun h => by omega).trans (if_pos ⟨hback, by omega, by omega⟩)))

/-- P10 ends once the time is locked. -/
theorem exec_startupPhaseEnd_ten {s : State} (x : PhaseEnd) (hgoes : s.startup.stopped = false) (hdomain : s.power.domain = true)
    (hback : s.startup.back = some 10) (hlock : s.clock.locked = true) : exec (.startupPhaseEnd 10 x) s =
      .next (noteTime { s with startup := { s.startup with back := none, rackReady := true } } 10 x.us) :=
  congrArg Host.Outcome.next ((if_neg (by simp [hgoes, hdomain])).trans
    ((if_neg fun h => absurd h.1 (by decide)).trans ((if_neg fun h => absurd h.2.2 (by decide)).trans (if_pos ⟨hback, rfl, hlock⟩))))

/-- The end of a phase that does not run changes nothing. -/
theorem exec_startupPhaseEnd_other {s : State} {k : Nat} (x : PhaseEnd) (hmain : s.startup.main ≠ some k) (hback : s.startup.back ≠ some k) :
    exec (.startupPhaseEnd k x) s = .next s := by
  refine congrArg Host.Outcome.next (ite_eq_left_iff.2 fun _ => ?_)
  refine (if_neg fun h => hmain h.2).trans ((if_neg fun h => hback h.1).trans (if_neg fun h => ?_))
  obtain ⟨hten, rfl, -⟩ := h
  exact hback hten

/-- A running phase but P3 passes its bound: the fault says so, and P0 to P4 stop the start-up. -/
theorem exec_startupPhaseTimeout {s : State} {k : Nat} (hgoes : s.startup.stopped = false) (hdomain : s.power.domain = true)
    (hruns : s.startup.main = some k ∨ s.startup.back = some k) (hk : k ≠ 3) (hlate : ¬ (4 < k ∧ k ≤ 7)) : exec (.startupPhaseTimeout k) s =
      .next (if k ≤ 4 then stopStart (raiseDev s 0xC00C srcThallus [(k, 8), (phaseBound k, 32)])
        else raiseDev s 0xC00C srcThallus [(k, 8), (phaseBound k, 32)]) := by
  have hcond : ¬ (s.startup.stopped = true ∨ ¬ s.power.domain = true ∨ ¬ (s.startup.main = some k ∨ s.startup.back = some k) ∨
      k = 3 ∧ s.startup.p3Waits = true) := by simp [hgoes, hdomain, hruns, hk]
  refine congrArg Host.Outcome.next ((if_neg hcond).trans ?_)
  by_cases hearly : k ≤ 4
  · rw [if_pos hearly, if_pos hearly]
  · rw [if_neg hearly, if_neg hearly, if_neg fun h => hlate ⟨by omega, h.1⟩]

/-- The bounds of P0 to P2 in Table 14-14. -/
theorem phaseBound_of_early {k : Nat} (h : k ≤ 2) : phaseBound k = if k = 0 then 5000 else if k = 1 then 60000 else 15000 := by
  interval_cases k <;> rfl

/-- Settles O30: a phase's end and its bound, each by the kind of the phase. -/
theorem startUpPhases : Obligations.StartUpPhases := by
  intro s x hgoes hdomain
  refine ⟨fun hmain => ?_, fun hmain hwaits hup hkept => ?_, fun k hk hback => exec_startupPhaseEnd_back x hgoes hdomain hk hback,
    fun hback hlock => exec_startupPhaseEnd_ten x hgoes hdomain hback hlock, fun k hmain hback => exec_startupPhaseEnd_other x hmain hback,
    fun k hk hmain => ?_, fun k hlo hhi hback => ?_⟩
  · exact exec_startupPhaseEnd_main hgoes hdomain (by decide) hmain fun h => absurd (Option.some.inj (h.trans hmain)) Nat.one_ne_zero
  · rw [exec_startupPhaseEnd_main hgoes hdomain (by decide) hmain (by simp [mainPhaseEnd_three x hwaits hup hkept, hmain]),
      mainPhaseEnd_three x hwaits hup hkept]
    rfl
  · rw [Runs, exec_startupPhaseTimeout hgoes hdomain (Or.inl hmain) (by omega) (by omega), if_pos (by omega), phaseBound_of_early hk]
    exact ⟨_, rfl, _, rfl, rfl⟩
  · rw [exec_startupPhaseTimeout hgoes hdomain (Or.inr hback) (by omega) (by omega), if_neg (by omega)]

/-! ### The host link and its functions -/

/-- Settles O32: each clause is one branch of its command. -/
theorem linkFunctionsAndConfiguration : Obligations.LinkFunctionsAndConfiguration := by
  intro s
  refine ⟨fun g w hperst hrails hglo hghi hwlo hwhi hbetter => ?_, fun g w hup => ?_, fun n hn hup => ⟨fun hfits => ?_, fun hover => ?_⟩, fun hup => ?_⟩
  · have hgoes : ¬ (s.host.perst = true ∨ s.power.railState ≠ 2 ∨ g < 4 ∨ 6 < g ∨ w = 0 ∨ 16 < w) := by
      simp only [hperst, hrails, ne_eq, not_true_eq_false, Bool.false_eq_true, false_or]
      omega
    have hsilent : ¬ (s.host.up = true ∧ linkWorse s.host g w = true) := by
      rintro ⟨hwas, hworse⟩
      obtain ⟨hg, hw⟩ := hbetter.resolve_left (by simp [hwas])
      have := of_decide_eq_true hworse
      omega
    exact congrArg Host.Outcome.next ((if_pos rfl).trans ((if_neg hgoes).trans (if_neg hsilent)))
  · exact congrArg Host.Outcome.next ((if_neg Bool.false_ne_true).trans (if_pos hup))
  · have hbudget : vfBudget s n = none := if_neg (Nat.not_lt.2 hfits)
    have hgoes : ¬ (1024 < n ∨ ¬ s.host.up = true) := by simp [hup, Nat.not_lt.2 hn]
    refine congrArg Host.Outcome.next ((if_neg hgoes).trans ?_)
    simp [hbudget]
  · have hbudget : vfBudget s n = some (2016 / ent s 0x210005) := if_pos hover
    have hgoes : ¬ (1024 < n ∨ ¬ s.host.up = true) := by simp [hup, Nat.not_lt.2 hn]
    refine congrArg Host.Outcome.next ((if_neg hgoes).trans ?_)
    simp [hbudget]
  · exact congrArg Host.Outcome.next (if_pos hup)

end Sys2Proof.Machine

/-!
PROOFS. Resets of the device, of owners and of engines: where they begin and how they end (R475, R487 to R500).
-/
namespace Sys2Proof.Machine

/-! ### A fault of the device while the recorder takes records -/

/-- A fault of the device has no owner's ring to go to (R484). -/
theorem raiseDev_of_recorderOn {s : State} (h : recorderOn s = true) (c r : Nat) (l : List (Nat × Nat)) :
    raiseDev s c r l = takeRecord { s with
      log := { s.log with raised := s.log.raised + 1 }
      th := { s.th with ckRuns := true } } (recordOf s { code := c, src := r, items := l }) := by
  unfold raiseDev raise
  dsimp only
  rw [if_pos h, ringRecord, if_pos (Or.inl rfl)]

theorem raiseDev_power_of_recorderOn {s : State} (h : recorderOn s = true) (c r : Nat) (l : List (Nat × Nat)) :
    (raiseDev s c r l).power = s.power := by
  rw [raiseDev_of_recorderOn h, takeRecord_power]

theorem recorderOn_of_rails {s : State} (h : s.power.railState = 2) : recorderOn s = true := by simp [recorderOn, h]

/-! ### A warm start -/

/-- A state but for the values in force and pending of entries, as a change of class settles them (R13). -/
def SameButEntries (s t : State) : Prop :=
  ∃ d w p, t = { s with
    dict := d
    shadow := w
    placeVals := p }

theorem sameButEntries_refl (s : State) : SameButEntries s s := ⟨_, _, _, rfl⟩

theorem SameButEntries.trans {s t u : State} (h : SameButEntries s t) (k : SameButEntries t u) : SameButEntries s u := by
  obtain ⟨d, w, p, rfl⟩ := h
  obtain ⟨d', w', p', rfl⟩ := k
  exact ⟨d', w', p', rfl⟩

theorem sameButEntries_applyShadow (s : State) (k : Nat) : SameButEntries s (applyShadow s k) := by
  unfold applyShadow
  split
  · exact sameButEntries_refl s
  · exact ⟨_, _, _, rfl⟩

theorem sameButEntries_settleReset (s : State) (f : EEff) (part : Option Nat) : SameButEntries s (settleReset s f part) := by
  have hall (l : List Nat) (t : State) : SameButEntries t (l.foldl applyShadow t) := by
    induction l generalizing t with
    | nil => exact sameButEntries_refl t
    | cons k l ih => exact (sameButEntries_applyShadow t k).trans (ih _)
  exact hall _ s

/-- A warm start keeps what the main rails hold and starts at P4 (R475). -/
theorem warmBegun_warmBegin (s : State) (cause : Nat) : WarmBegun s (warmBegin s cause) cause ∧
    (warmBegin s cause).host.perst = s.host.perst ∧ (warmBegin s cause).host.up = s.host.up := by
  unfold warmBegin
  dsimp only
  obtain ⟨d, w, p, hsettled⟩ := (sameButEntries_settleReset _ .resetWarm none).trans (sameButEntries_settleReset _ .resetPart none)
  rw [hsettled]
  exact ⟨⟨rfl, rfl, rfl, List.mem_append_right _ List.mem_cons_self, rfl, rfl, rfl, rfl, rfl, rfl, rfl, rfl, rfl, rfl, rfl, rfl, rfl, rfl⟩,
    rfl, rfl⟩

/-- Resets below the device's take in no reset of the device (R489). -/
theorem resetAbsorbed_of_below {s : State} {r : Reset} (hr : r.level = 6) (h : ∀ x ∈ s.resets, x.level < 6) : resetAbsorbed s r = false := by
  refine List.any_eq_false.2 fun x hx => ?_
  have := h x hx
  have hne : (x.level == r.level) = false := beq_eq_false_iff_ne.2 (by omega)
  have hholds : decide (r.level < x.level) = false := decide_eq_false (by omega)
  simp [resetHolds, hne, hholds]

/-- With the rails good, no phase running and no reset of the device in progress, a warm reset begins. -/
theorem warmReset_begins {s : State} (cause : Nat) (hrails : s.power.railState = 2) (hmain : s.startup.main = none)
    (hresets : ∀ x ∈ s.resets, x.level < 6) : warmReset s cause = warmBegin s cause := by
  refine if_neg ?_
  rw [resetAbsorbed_of_below rfl hresets]
  simp [hrails, hmain]

theorem warmReset_warmBegun {s : State} (cause : Nat) (hrails : s.power.railState = 2) (hmain : s.startup.main = none)
    (hresets : ∀ x ∈ s.resets, x.level < 6) : WarmBegun s (warmReset s cause) cause := by
  rw [warmReset_begins cause hrails hmain hresets]
  exact (warmBegun_warmBegin s cause).1

/-! ### Resets of owners -/

theorem ownerReset_begins {s : State} {o cause : Nat} (habsorbed : resetAbsorbed s ⟨4, o, cause⟩ = false) (hactive : ownerState s o = .active) :
    ownerReset s o cause = ownerResetBegin s o cause := by
  refine if_neg ?_
  rw [habsorbed, hactive]
  simp

/-- Settles O31: every source of a reset of the device comes to `warmReset`, and a VF's to `ownerReset` of each owner. -/
theorem deviceResetSources : Obligations.DeviceResetSources := by
  intro s
  refine ⟨fun hrails hmain hresets => ⟨?_, fun hup => ?_, fun r hr hlevel => ?_⟩, rfl, fun vf hpos hle hserves => ⟨fun hother => ?_,
    fun o x hown hfn hactive habsorbed => ?_⟩, fun r hr => ?_, fun hnone => ?_⟩
  · obtain ⟨hbegun, hperst, hdown⟩ := warmBegun_warmBegin { s with host := { s.host with perst := true, up := false } } causePerst
    exact ⟨_, congrArg Host.Outcome.next (warmReset_begins (s := { s with host := { s.host with perst := true, up := false } }) causePerst
      hrails hmain hresets), hbegun, hperst, hdown⟩
  · exact ⟨⟨_, congrArg Host.Outcome.next (if_pos hup), warmReset_warmBegun _ hrails hmain hresets⟩,
      ⟨_, congrArg Host.Outcome.next (if_pos hup), warmReset_warmBegun _ hrails hmain hresets⟩⟩
  · obtain ⟨y, hy⟩ : ∃ y, s.resets.find? (fun r => r.level == 3 || r.level == 5) = some y :=
      Option.isSome_iff_exists.1 (List.find?_isSome.2 ⟨r, hr, by simpa using hlevel⟩)
    have hexec : execResetBoundExpired s =
        .next (warmReset (raiseDev s 0xC016 srcThallus [(y.level, 8), (y.target, 12)]) causeOverrun) := by rw [execResetBoundExpired, hy]
    refine ⟨_, hexec, _, y, List.mem_of_find?_eq_some hy, rfl, warmReset_warmBegun _ ?_ ?_ ?_⟩
    · rw [raiseDev_power_of_recorderOn (recorderOn_of_rails hrails), hrails]
    · rw [raiseDev_startup, hmain]
    · rwa [raiseDev_resets]
  · have hgoes : ¬ (vf = 0 ∨ s.host.numVfs < vf ∨ ¬ deviceServes s = true) := by
      simp only [hserves, not_true_eq_false, or_false]
      omega
    have hnobody : (s.owners.map (·.1)).filter (fun o => ownerFn s o == vf) = [] := by
      refine List.filter_eq_nil_iff.2 fun o ho => ?_
      obtain ⟨x, hx, rfl⟩ := List.mem_map.1 ho
      simpa using hother x hx
    refine congrArg Host.Outcome.next ((if_neg hgoes).trans ?_)
    rw [hnobody, List.foldl_nil]
  · have hgoes : ¬ (vf = 0 ∨ s.host.numVfs < vf ∨ ¬ deviceServes s = true) := by
      simp only [hserves, not_true_eq_false, or_false]
      omega
    have hstate : ownerState s o = .active := by
      have hrec : ownerRec s o = x := by
        simp [ownerRec, hown, tgetD, tget?]
      rw [ownerState, hrec, hactive]
    refine ⟨_, congrArg Host.Outcome.next ((if_neg hgoes).trans ?_), rfl⟩
    rw [show (s.owners.map (·.1)).filter (fun o => ownerFn s o == vf) = [o] by simp [hown, hfn], List.foldl_cons, List.foldl_nil,
      ownerReset_begins habsorbed hstate]
  · have hexec : execResetComplete s = .next (completeReset s r) := by rw [execResetComplete, hr]
    exact ⟨_, hexec, rfl⟩
  · exact show execResetComplete s = .next s by rw [execResetComplete, hnone]

/-! ### The end of an owner's reset -/

/-- What a fault ring's record leaves of its owner (R484). -/
def OwnersButRings (s t : State) : Prop :=
  ∀ o, ownerState t o = ownerState s o ∧ (ownerRec t o).reset = (ownerRec s o).reset ∧ (ownerRec t o).report = (ownerRec s o).report ∧
    ownerEpoch t o = ownerEpoch s o

theorem ownersButRings_of_owners {s t : State} (h : t.owners = s.owners) : OwnersButRings s t := fun o => by
  simp only [ownerState, ownerEpoch, ownerRec, h, and_self]

theorem OwnersButRings.trans {s t u : State} (h : OwnersButRings s t) (k : OwnersButRings t u) : OwnersButRings s u := fun o => by
  obtain ⟨hst, hre, hrp, hep⟩ := h o
  obtain ⟨kst, kre, krp, kep⟩ := k o
  exact ⟨kst.trans hst, kre.trans hre, krp.trans hrp, kep.trans hep⟩

/-- A change of an owner that leaves its state, reset, report and epoch. -/
theorem ownersButRings_modOwner (s : State) (p : Nat) {f : Owner → Owner} (hf : ∀ x, (f x).state = x.state ∧ (f x).reset = x.reset ∧
    (f x).report = x.report ∧ (f x).epoch = x.epoch) : OwnersButRings s (modOwner s p f) := fun o => by
  by_cases ho : o = p
  · subst ho
    simpa [ownerState, ownerEpoch, ownerRec] using hf (tgetD s.owners o {})
  · simp [ownerState, ownerEpoch, ownerRec, tgetD_tupd_ne _ _ _ _ ho]

theorem ownersButRings_ringRecord (s : State) (o r : Nat) : OwnersButRings s (ringRecord s o r) := by
  have hring (w : State) (hw : w.owners = s.owners) : OwnersButRings s (modOwner w o (fun x => { x with ringCount := x.ringCount + 1 })) :=
    (ownersButRings_of_owners hw).trans (ownersButRings_modOwner w o fun _ => ⟨rfl, rfl, rfl, rfl⟩)
  unfold ringRecord
  dsimp only
  split
  · exact ownersButRings_of_owners rfl
  have hcounted := (hring (ringWr s o (bit (ownerRec s o).ring 15)
    (bits (ownerRec s o).ring 192 64 + 32 * ((ownerRec s o).ringCount % 2 ^ bits (ownerRec s o).ring 10 4)) (natLe 32 r)) (ringWr_owners ..)).trans
    (ownersButRings_of_owners (hostWr_owners _ o (bits (ownerRec s o).ring 128 64) (natLe 8 ((ownerRec s o).ringCount + 1))))
  split
  · exact hcounted
  split
  · exact hcounted.trans (ownersButRings_modOwner _ o fun _ => ⟨rfl, rfl, rfl, rfl⟩)
  · refine (hcounted.trans (ownersButRings_modOwner _ o ?_)).trans (ownersButRings_of_owners (toHost_owners ..))
    exact fun _ => ⟨rfl, rfl, rfl, rfl⟩

theorem ownersButRings_raise (s : State) (f : Flt) : OwnersButRings s (raise s f) := by
  unfold raise
  dsimp only
  split
  · refine OwnersButRings.trans (ownersButRings_of_owners ?_) (ownersButRings_ringRecord _ f.owner (recordOf s f))
    rw [takeRecord_owners]
  · exact ownersButRings_of_owners rfl

/-- A reset that completes leaves the owners, the queues and the pools, and the other resets (R487). -/
theorem completeReset_keeps_owners (s : State) (r : Reset) : OwnersButRings s (completeReset s r) ∧
    (completeReset s r).resets = s.resets.erase r ∧ (completeReset s r).queues = s.queues ∧ (completeReset s r).pools = s.pools := by
  unfold completeReset
  dsimp only
  split
  · exact ⟨ownersButRings_of_owners rfl, rfl, rfl, rfl⟩
  · refine ⟨(ownersButRings_of_owners ?_).trans (ownersButRings_raise _ _), ?_, ?_, ?_⟩
    · rfl
    · rw [raise_resets]
      rfl
    · rw [raise_queues]
      rfl
    · rw [raise_pools]
      rfl

/-- Where no queue is an owner's, the end of its reset is its report, its state and the reset's own end. -/
theorem ownerResetEnd_of_no_queue {s : State} {o : Nat} {x : Reset} (r : OwnerReset) (hqueues : ∀ y ∈ s.queues, qOwner y.2 ≠ o)
    (hreset : s.resets.find? (fun y => y.level == 4 && y.target == o) = some x) : ownerResetEnd s o r =
      completeReset (modOwner s o (fun y => { y with report := resetReport s o r, reset := none, state := .active })) x := by
  have hnone : s.queues.filter (fun y => qOwner y.2 == o) = [] := List.filter_eq_nil_iff.2 fun y hy => by simpa using hqueues y hy
  have hempty (t : State) (ht : t.queues = s.queues) : ownerQueues t o = [] := by rw [ownerQueues, ht, hnone, List.map_nil]
  have hlost : loseQueues s 1 (fun y => qOwner y == o) = s := by rw [loseQueues, hnone, List.map_nil, List.foldl_nil]
  unfold ownerResetEnd
  dsimp only
  rw [hlost, modOwner_resets, hreset]
  dsimp only
  refine (congrArg (List.foldl queueGoesOn _) (hempty _ ?_)).trans List.foldl_nil
  exact (completeReset_keeps_owners _ x).2.2.1

theorem execRevocationWalkDone_of_walking {s : State} {o : Nat} {r : OwnerReset} (hr : (ownerRec s o).reset = some r) (hwalks : r.walking = true) :
    execRevocationWalkDone o s = .next (ownerResetEnd (revokeOwner s o).1 o
      { r with buffersFreed := (revokeOwner s o).2.1, buffersRevoked := (revokeOwner s o).2.2 }) := by
  rw [execRevocationWalkDone, hr]
  exact congrArg Host.Outcome.next (if_neg (not_not.2 hwalks))

/-- The census done with no lease of the ended epoch: the copy groups go, and the walk begins (R495). -/
theorem execDrainCensusComplete_of_drained {s : State} {o : Nat} {r : OwnerReset} (hr : (ownerRec s o).reset = some r) (hwaits : r.walking = false)
    (hopen : censusOpen s o r = 0) (hleases : ∀ l ∈ s.card.leases, l.owner = o → l.epoch = ownerEpoch s o) :
    execDrainCensusComplete o s = .next { s with
      fab := { s.fab with groups := tfilter s.fab.groups (fun _ g => g.owner != o) }
      owners := tput s.owners o { ownerRec s o with reset := some { r with
        walking := true
        slotMaps := 0
        census := min (s.clock.ns - r.startedAt) (2 ^ 32 - 1) } } } := by
  have hgoes : ¬ (r.walking = true ∨ censusOpen s o r ≠ 0) := by simp [hwaits, hopen]
  have hmaps : s.card.leases.filter (fun l => l.owner == o && l.epoch != ownerEpoch s o) = [] :=
    List.filter_eq_nil_iff.2 fun l hl => by
      simpa using hleases l hl
  rw [execDrainCensusComplete, hr]
  refine congrArg Host.Outcome.next ((if_neg hgoes).trans ?_)
  dsimp only
  rw [hmaps]
  rfl

/-- An engine of Table 15-5 is reset where no reset in progress takes that in (R487). -/
theorem engineReset_begins {s : State} {unit inst cause : Nat} (hnamed : engineNamed unit inst = true) (hnone : s.resets = []) :
    engineReset s unit inst cause = stopEngine (addReset s ⟨3, unit * 256 + inst, cause⟩) unit inst := by
  refine if_neg ?_
  simp [hnamed, resetAbsorbed, hnone]

theorem partitionReset_begins {s : State} {p cause : Nat} (hp : p < 32) (h : resetAbsorbed s ⟨5, p, cause⟩ = false) :
    partitionReset s p cause = partitionStop (addReset s ⟨5, p, cause⟩) p := by
  refine if_neg ?_
  simp [h, Nat.not_le.2 hp]

theorem resetAbsorbed_raiseDev (s : State) (c r : Nat) (l : List (Nat × Nat)) (x : Reset) :
    resetAbsorbed (raiseDev s c r l) x = resetAbsorbed s x := by
  simp only [resetAbsorbed, resetHolds, ownerPart, ownerRec, raiseDev_resets, raiseDev_startup, raiseDev_owners]

/-- Settles O34: without queues, pools and leases of the owner each step of its reset is the record it keeps. -/
theorem ownerResetsDrainAndEnd : Obligations.OwnerResetsDrainAndEnd := by
  intro s o
  refine ⟨fun hnone => ⟨?_, ?_, ?_⟩, fun r hr => ⟨execDrainCensusComplete_of_drained hr, fun hwalks hpools hqueues c hresets => ?_,
    fun hwaits habsorbed => ?_⟩, fun unit i hfree => ?_, fun unit i q hheld hnamed hresets => ?_⟩
  · exact show execDrainCensusComplete o s = .next s by rw [execDrainCensusComplete, hnone]
  · exact show execRevocationWalkDone o s = .next s by rw [execRevocationWalkDone, hnone]
  · exact show execCensusTimeout o s = .next s by rw [execCensusTimeout, hnone]
  · have hwalk : revokeOwner s o = (s, 0, 0) := by rw [revokeOwner, hpools, List.foldl_nil]
    have hexec := execRevocationWalkDone_of_walking hr hwalks
    rw [hwalk, ownerResetEnd_of_no_queue (x := ⟨4, o, c⟩) _ hqueues (by simp [hresets])] at hexec
    obtain ⟨hown, hres, hqs, hps⟩ := completeReset_keeps_owners (modOwner s o (fun y => { y with
      report := resetReport s o { r with buffersFreed := 0, buffersRevoked := 0 }
      reset := none
      state := .active })) ⟨4, o, c⟩
    obtain ⟨hst, hre, hrp, hep⟩ := hown o
    refine ⟨_, hexec, ?_, ?_, ?_, ?_, ?_, hqs, hps⟩
    · rw [hst]
      simp [ownerState, ownerRec]
    · rw [hre]
      simp [ownerRec]
    · rw [hrp]
      simp [ownerRec]
    · rw [hep]
      simp [ownerEpoch, ownerRec]
    · rw [hres, modOwner_resets, hresets]
      simp
  · have hexec : execCensusTimeout o s = .next (partitionReset (raiseDev s 0xC015 srcThallus [(o, 12), (censusOpen s o r, 16)])
        (ownerPart s o) causeCensus) := by
      rw [execCensusTimeout, hr]
      exact congrArg Host.Outcome.next (if_neg (by simp [hwaits]))
    refine hexec.trans (congrArg Host.Outcome.next (partitionReset_begins ?_ ?_))
    · exact Nat.mod_lt _ (by decide)
    · rwa [resetAbsorbed_raiseDev]
  · exact show execEngineWatchdog unit i s = .next s by rw [execEngineWatchdog, hfree]
  · have hexec : execEngineWatchdog unit i s = .next (engineReset (raiseDev s 0xC014 unit [(unit, 7), (i, 8), (q, 20)]) unit i causeUnit) := by
      rw [execEngineWatchdog, hheld]
    exact hexec.trans (congrArg Host.Outcome.next (engineReset_begins hnamed ((raiseDev_resets ..).trans hresets)))

end Sys2Proof.Machine

/-!
PROOFS. The fault recorder: records on the die and in pages (R480 to R483, R485).
-/
namespace Sys2Proof.Machine

/-! ### A record's fields -/

/-- A record of the device (Table 15-1): no operation, no owner, no partition. -/
theorem recordOf_dev (s : State) (code src : Nat) (items : List (Nat × Nat)) : recordOf s { code := code, src := src, items := items } =
    s.clock.ns % 2 ^ 64 * 2 ^ 192 + (2 ^ 64 - 1) * 2 ^ 128 + (packItems items 0).1 % 2 ^ 64 * 2 ^ 64 + code % 2 ^ 16 * 2 ^ 48 +
    0xFFFFF * 2 ^ 28 + 0x1F * 2 ^ 11 + src % 2 ^ 7 * 2 ^ 4 + b2n (packItems items 0).2 * 2 ^ 3 + 2 := by
  have hcut : b2n (packItems items 0).2 % 2 ^ 1 = b2n (packItems items 0).2 := by cases (packItems items 0).2 <;> rfl
  simp only [recordOf, fld, Nat.shiftLeft_eq, hcut, if_true]
  simp [b2n]

/-- The fields of a record of the device, each where Table 15-1 has it. -/
theorem recordOf_dev_fields (s : State) {code src : Nat} (items : List (Nat × Nat)) (hcode : code < 2 ^ 16) (hsrc : src < 2 ^ 7) {r : Nat}
    (hr : r = recordOf s { code := code, src := src, items := items }) :
    bits r 48 16 = code ∧ bits r 4 7 = src ∧ bits r 16 12 = 0 ∧ bits r 28 20 = 0xFFFFF ∧ bits r 128 64 = 2 ^ 64 - 1 ∧
    bits r 192 64 = s.clock.ns % 2 ^ 64 ∧ bit r 2 = false ∧ bits r 11 5 = 0x1F ∧ bits r 64 64 = (packItems items 0).1 % 2 ^ 64 := by
  have hcut : b2n (packItems items 0).2 ≤ 1 := by cases (packItems items 0).2 <;> decide
  have htime : s.clock.ns % 2 ^ 64 < 2 ^ 64 := Nat.mod_lt _ (by decide)
  have hdetail : (packItems items 0).1 % 2 ^ 64 < 2 ^ 64 := Nat.mod_lt _ (by decide)
  rw [recordOf_dev, Nat.mod_eq_of_lt hcode, Nat.mod_eq_of_lt hsrc] at hr
  generalize s.clock.ns % 2 ^ 64 = ns at *
  generalize (packItems items 0).1 % 2 ^ 64 = detail at *
  generalize b2n (packItems items 0).2 = cut at *
  simp only [bits_eq_div_mod, bit, Nat.testBit_eq_decide_div_mod_eq, decide_eq_false_iff_not]
  refine ⟨by omega, by omega, by omega, by omega, by omega, by omega, by omega, by omega, by omega⟩

/-! ### Records taken -/

/-- A notice leaves everything but the Thallus and what is sent out (R485). -/
theorem noticeOf_frame (s : State) (r : Nat) : noticeOf s r = { s with
    th := (noticeOf s r).th
    out := (noticeOf s r).out } := by
  unfold noticeOf sendFrame
  split
  · split <;> rfl
  · rfl

/-- With room on the die, no loss to report and no page with room, a record goes to the die under the next number (R482, R483). -/
theorem takeRecord_to_die {s : State} (hroom : s.log.onDie < 4096) (hlost : s.log.lostSince = 0) (hpages : pageRoom s.log.pages = none) (r : Nat) :
    takeRecord s r = noticeOf { s with log := { s.log with
      records := tput s.log.records s.log.next r
      next := s.log.next + 1
      onDie := s.log.onDie + 1 } } r := by
  rw [takeRecord, if_neg (Nat.not_le.2 hroom), if_neg (by simp [hlost]), storeRecord]
  dsimp only
  rw [hpages]

/-- Settles O35: the record goes to the die by `storeRecord`, and `fillPage` moves the records of the die in their order. -/
theorem faultsAreRecordedInOrder : Obligations.FaultsAreRecordedInOrder := by
  refine ⟨fun s code src items hon hroom hlost hpages hcode hsrc => ?_, fun s => ⟨fun hnone => ?_, ?_⟩⟩
  · have hraise := (raiseDev_of_recorderOn hon code src items).trans (takeRecord_to_die (s := { s with
      log := { s.log with raised := s.log.raised + 1 }
      th := { s.th with ckRuns := true } }) hroom hlost hpages _)
    have hlog : (raiseDev s code src items).log = { s.log with
        raised := s.log.raised + 1
        records := tput s.log.records s.log.next (recordOf s { code := code, src := src, items := items })
        next := s.log.next + 1
        onDie := s.log.onDie + 1 } := by
      rw [hraise, noticeOf_log]
    dsimp only
    refine ⟨by rw [hlog], by rw [hlog], by rw [hlog], fun k hk => ?_, ⟨recordOf s { code := code, src := src, items := items }, ?_,
      recordOf_dev_fields s items hcode hsrc rfl⟩, ?_⟩
    · rw [hlog]
      exact tget_tput_ne _ _ hk
    · rw [hlog]
      exact tget_tput_self ..
    · rw [hlog, hraise]
      exact noticeOf_frame ..
  · exact congrArg Host.Outcome.next (if_pos (Or.inl hnone))
  · intro t h a hheld hrails hfew hlost hbuf n cap hcap hn
    have hgoes : ¬ (s.log.onDie = 0 ∨ s.power.railState ≠ 2) := by simp [hheld, hrails]
    refine congrArg Host.Outcome.next ((if_neg hgoes).trans ?_)
    rw [takePage, if_neg (Nat.not_le.2 hfew)]
    dsimp only
    rw [hbuf]
    dsimp only
    rw [fillPage]
    dsimp only
    rw [wr_log, if_pos hlost, hn, hcap]

end Sys2Proof.Machine

/-!
PROOFS. Requests that raise a fault (R439, R452, R519), where the fault log has a page in memory (R482).
-/
namespace Sys2Proof.Machine

/-! ### A mailbox request in a part whose fault log has a page -/

/-- The bytes of a request of the mailbox: its opcode, entry key and value (Table 14-2). -/
def requestBytes (op key : Nat) (v : List Nat) : List Nat := natLe 8 (fld op 56 8 + fld key 24 24 + fld v.length 0 16) ++ v

/-- The request as the mailbox reads it. -/
def requestPdu (op key : Nat) (v : List Nat) : Pdu := parsePdu (padTo 8192 (requestBytes op key v))

/-- A state that has taken a request of the mailbox in. -/
def requestTaken (s : State) (op key : Nat) (v : List Nat) : State :=
  { s with th := { s.th with mbRequest := requestBytes op key v, ckRuns := true } }

theorem delivers_request {s : State} {op key : Nat} {v : List Nat} (hserves : mailboxServes s = true) (hfree : s.th.mbStatus ≠ 1)
    (hheader : mbBad (requestPdu op key v) = false) :
    Delivers s (.mailbox 1 (requestBytes op key v)) .host (requestPdu op key v) (requestTaken s op key v) :=
  ⟨rfl, rfl, rfl, hserves, hfree, hheader, rfl⟩

/-- The part after reset with a page of the fault log at 1 MiB with room for 64 records, and a service session of the host where asked. -/
def loggingState (session : Option Path) : State :=
  { State.reset with
    th := { State.reset.th with session := session, fw1 := { erased := true } }
    log := { pages := [{ handle := 0, ptr := 2 ^ 20, first := 0, count := 0, cap := 64 }] } }

theorem mem_of_answeredOnly {v t : State} (h : AnsweredOnly v t) : t.mem = v.mem := by
  rw [AnsweredOnly] at h
  rw [h]

/-! ### A record in a page changes memory -/

theorem mem_wr (s : State) (o a : Nat) (b : List Nat) : (wr s o a b).mem = (writeMem s.mem o (keyGen s o) a b).1 := by
  unfold wr
  dsimp only
  split <;> rfl

/-- Bytes written in HBM put their first granule under the key that wrote it. -/
theorem tag_writeMem {m : Mem} {o g a : Nat} {b : List Nat} (hgood : m.failedPc = [] ∧ m.failedStack = []) (hhbm : isTile a = false)
    (hb : b ≠ []) : ∃ t, tget? (writeMem m o g a b).1.tags (a / 256) = some t := by
  have hlen : b.length ≠ 0 := fun h => hb (List.length_eq_zero_iff.1 h)
  have hfirst : a / 256 ∈ granulesOf a b.length := by
    rw [granulesOf, if_neg hlen]
    exact List.mem_map.2 ⟨0, List.mem_range.2 (by omega), rfl⟩
  obtain ⟨t, ht, -⟩ := tag_takeGranules (o := o) (g := g) (m := m) hfirst
  refine ⟨t, ?_⟩
  rw [writeMem, if_pos (Or.inr hgood), wrMem, if_neg (by simpa using hb), hhbm]
  exact ht

/-- A fault of the device whose record goes to a page, on a granule that nothing has written: memory is another one (R482). -/
theorem mem_raiseDev_ne_of_page {s : State} {ps : List Page} {x : Page} (c r : Nat) (l : List (Nat × Nat)) (hon : recorderOn s = true)
    (hroom : s.log.onDie < 4096) (hlost : s.log.lostSince = 0) (hpage : pageRoom s.log.pages = some (ps, x))
    (hgood : s.mem.failedPc = [] ∧ s.mem.failedStack = []) (hhbm : isTile (x.ptr + 32 * x.count) = false)
    (hfresh : tget? s.mem.tags ((x.ptr + 32 * x.count) / 256) = none) : (raiseDev s c r l).mem ≠ s.mem := by
  intro hmem
  rw [raiseDev_of_recorderOn hon, takeRecord, if_neg (Nat.not_le.2 hroom), if_neg (by simp [hlost]), storeRecord] at hmem
  dsimp only at hmem
  rw [hpage] at hmem
  dsimp only at hmem
  rw [noticeOf_mem, mem_wr] at hmem
  obtain ⟨t, ht⟩ := tag_writeMem (m := s.mem) (o := 0) (g := keyGen s 0) (b := natLe 32 (recordOf s { code := c, src := r, items := l })) hgood hhbm
    (List.cons_ne_nil _ _)
  exact absurd (ht.symm.trans ((congrArg (fun m => tget? m.tags _) hmem).trans hfresh)) (by simp)

/-- So it is in `loggingState`, and in every state that differs from it in the Thallus, entries and the module's removal alone. -/
theorem mem_raiseDev_ne_loggingState {s : State} {session : Option Path} (c r : Nat) (l : List (Nat × Nat))
    (hmem : s.mem = (loggingState session).mem) (hlog : s.log = (loggingState session).log)
    (hrails : s.power.railState = 2) : (raiseDev s c r l).mem ≠ (loggingState session).mem := by
  rw [← hmem]
  refine mem_raiseDev_ne_of_page (ps := [{ handle := 0, ptr := 2 ^ 20, first := 0, count := 1, cap := 64 }])
    (x := { handle := 0, ptr := 2 ^ 20, first := 0, count := 0, cap := 64 }) c r l (recorderOn_of_rails hrails) ?_ ?_ ?_ ?_ (by decide) ?_
  · rw [hlog]
    exact show 0 < 4096 by decide
  · rw [hlog]
    rfl
  · rw [hlog]
    rfl
  · rw [hmem]
    exact ⟨rfl, rfl⟩
  · rw [hmem]
    rfl

/-- A proof of a path without a nonce is refused with fault 0xC008 (R452). -/
theorem doProof_of_no_nonce {s : State} {path : Path} (x : Proof) (hclosed : s.th.session = none) (hnone : nonceOf s path = none) :
    doProof s path x = (raiseDev (setNonce s path none) 0xC008 srcThallus [(pathNo path, 16)], { status := 0x07 }) := by
  rw [doProof, if_neg (by simp [hclosed]), if_neg (by simp [hnone])]

/-- Refutes O18: where the last page of the fault log has room, the record of the fault that a wrong proof raises is written there, so that
memory changes. -/
theorem not_serviceSessions : ¬ Obligations.ServiceSessions := by
  rintro ⟨hrequests, -⟩
  have hdelivers : Delivers (loggingState none) (.mailbox 1 (requestBytes 4 0 [])) .host (requestPdu 4 0 []) (requestTaken (loggingState none) 4 0 []) :=
    delivers_request (by decide +kernel) (by decide +kernel) (by decide +kernel)
  obtain ⟨-, -, -, -, hwrong, -⟩ := hrequests _ _ _ _ _ hdelivers
  obtain ⟨t, hexec, -, -, -, -, hmem, -⟩ := hwrong ⟨[], none⟩ (by decide +kernel) rfl (.inl rfl)
  have hrow : exec (.serviceProof (.mailbox 1 (requestBytes 4 0 [])) ⟨[], none⟩) (loggingState none) = .next _ :=
    congrArg Host.Outcome.next (agmirRow_delivers (fun t path _ => doProof t path ⟨[], none⟩) hdelivers (by decide +kernel))
  rw [doProof_of_no_nonce _ rfl rfl] at hrow
  rw [← Host.Outcome.next.inj (hrow.symm.trans hexec), mem_of_answeredOnly (reply_frame _ _ _ _ rfl rfl)] at hmem
  dsimp only at hmem
  refine mem_raiseDev_ne_loggingState _ _ _ ?_ ?_ ?_ hmem <;> rfl

/-! ### Writes that raise a fault -/

/-- A WRITE of an entry that is not stored: its effect, and an answer of status 0 with what follows it (R446). -/
theorem doWrite_of_writes {s : State} {r : Req} {path : Path} {p : Pdu} {u : State} {k : Nat} (h : Writes s r path p u) (hk : pdKey p = k)
    (hun : isUnstored k = true) : ∃ w st, valNat w = leNat p.value ∧ doWrite u path p =
      (applyWrite u (!onField path) k w, { status := 0, st := st, post := postOf k (leNat p.value) }) := by
  subst hk
  obtain ⟨e, he, hs⟩ := (Option.any_eq_true _ _).1 hun
  have hs : isStored (pdKey p) e = false := by simpa using hs
  obtain ⟨-, -, hindex, e', he', hstatus⟩ := h
  cases he.symm.trans he'
  refine ⟨valOfBytes e.ty p.value, entryState (applyWrite u (!onField path) (pdKey p) (valOfBytes e.ty p.value)) (pdKey p),
    valNat_valOfBytes .., ?_⟩
  simp only [doWrite, hindex, he, hstatus, hs, valNat_valOfBytes, ne_eq, not_true_eq_false, Bool.false_eq_true, if_false]

theorem applyWrite_imageVerify (s : State) (b : Bool) {w : Val} (h : valNat w = 2) : applyWrite s b 0x200006 w = setEnt s 0x200006 2 := by
  change (if valNat w = 1 then setEnt (modSpare s (fun _ => { erased := true })) 0x200006 1 else setEnt s 0x200006 (valNat w)) = _
  rw [h, if_neg (by decide)]

theorem applyWrite_removal (s : State) (b : Bool) (w : Val) :
    applyWrite s b 0x200A02 w = if valNat w = 2 then s else removalCmd s (valNat w) := rfl

theorem removalCmd_request (s : State) : removalCmd s 1 =
    raiseDev (setPower s (fun m => { m with removal := 1 })) 0xE00E srcModule [(Config.causeCode 0xE00E 1, 16)] := rfl

/-- Refutes O19: where the last page of the fault log has room, the record of the fault that an image without a valid signature raises is
written there, so that memory changes. -/
theorem not_firmwareUpdate : ¬ Obligations.FirmwareUpdate := by
  intro hall
  have hwrites : Writes (loggingState (some .host)) (.mailbox 1 (requestBytes 2 0x200006 [2])) .host (requestPdu 2 0x200006 [2])
      (requestTaken (loggingState (some .host)) 2 0x200006 [2]) :=
    ⟨delivers_request (by decide +kernel) (by decide +kernel) (by decide +kernel), by decide +kernel, by decide +kernel, by decide +kernel⟩
  have hkey : pdKey (requestPdu 2 0x200006 [2]) = 0x200006 := by decide +kernel
  have hvalue : leNat (requestPdu 2 0x200006 [2]).value = 2 := by decide +kernel
  obtain ⟨-, -, -, hrefused⟩ := hall _ _ _ _ _ hwrites
  obtain ⟨t, hexec, -, -, -, -, hmem⟩ := hrefused hkey hvalue
  have hrow : exec (.fwUpdateVerify (.mailbox 1 (requestBytes 2 0x200006 [2])) none) (loggingState (some .host)) = .next _ :=
    congrArg Host.Outcome.next (agmirRow_delivers (fun t path p =>
      let x := doWrite t path p
      if x.2.status = 0 then (verifyImage x.1 none, x.2) else x) hwrites.1 (by decide +kernel))
  obtain ⟨w, st, hw, hwrite⟩ := doWrite_of_writes hwrites hkey (by decide +kernel)
  dsimp only at hrow
  rw [hwrite, if_pos rfl, applyWrite_imageVerify _ _ (hw.trans hvalue)] at hrow
  rw [← Host.Outcome.next.inj (hrow.symm.trans hexec), mem_of_answeredOnly (reply_frame _ _ _ _ (by rw [hvalue]; rfl) rfl)] at hmem
  refine mem_raiseDev_ne_loggingState _ _ _ ?_ ?_ ?_ hmem <;> rfl

/-- Refutes O20: where the last page of the fault log has room, the record of the fault that a removal request raises is written there, so
that memory changes. -/
theorem not_resetRequestsAndHolds : ¬ Obligations.ResetRequestsAndHolds := by
  intro hall
  have hwrites : Writes (loggingState none) (.mailbox 1 (requestBytes 2 0x200A02 [1])) .host (requestPdu 2 0x200A02 [1])
      (requestTaken (loggingState none) 2 0x200A02 [1]) :=
    ⟨delivers_request (by decide +kernel) (by decide +kernel) (by decide +kernel), by decide +kernel, by decide +kernel, by decide +kernel⟩
  have hkey : pdKey (requestPdu 2 0x200A02 [1]) = 0x200A02 := by decide +kernel
  have hvalue : leNat (requestPdu 2 0x200A02 [1]).value = 1 := by decide +kernel
  obtain ⟨-, -, -, -, -, -, -, hrequested, -⟩ := hall _ _ _ _ _ hwrites
  obtain ⟨t, hexec, -, -, -, hmem, -⟩ := hrequested hkey hvalue
  have hrow : exec (.removalRequest (.mailbox 1 (requestBytes 2 0x200A02 [1]))) (loggingState none) = .next _ :=
    congrArg Host.Outcome.next (dictRow_writes hwrites (id := 5) (by decide +kernel))
  obtain ⟨w, st, hw, hwrite⟩ := doWrite_of_writes hwrites hkey (by decide +kernel)
  rw [hwrite, applyWrite_removal, hw, hvalue, if_neg (by decide), removalCmd_request] at hrow
  rw [← Host.Outcome.next.inj (hrow.symm.trans hexec), mem_of_answeredOnly (reply_frame _ _ _ _ rfl rfl)] at hmem
  dsimp only at hmem
  refine mem_raiseDev_ne_loggingState _ _ _ ?_ ?_ ?_ hmem <;> rfl

end Sys2Proof.Machine

/-!
PROOFS. The Thallus on its own: heartbeats, bus-off, its clock and watchdog, a stored batch, telemetry (R437, R438, R447, R448, R455, R466).
-/
namespace Sys2Proof.Machine

/-! ### Frames and images -/

/-- A frame goes out on the bus, in a node ID conflict a heartbeat alone (R447, R448). -/
theorem sendFrame_of_hears {s : State} {cls : Nat} (dst tag : Nat) (b : List Nat) (hbus : s.th.busOff = false) (hid : s.th.conflict = false ∨ cls = 7) :
    sendFrame s cls dst tag b = { s with out := s.out ++ [.can (frameId cls dst (nodeId s) tag) b] } := by
  refine if_neg ?_
  rw [hbus]
  rintro (h | ⟨hconflict, hne⟩)
  · exact Bool.false_ne_true h
  · rcases hid with h | h
    · exact Bool.false_ne_true (h.symm.trans hconflict)
    · exact hne h

/-- With both images verifying, the one picked runs and nothing is raised (R439). -/
theorem runImage_of_verified {s : State} {i : Nat} (h : pickImage s [true, true] = some i) :
    runImage s [true, true] = { s with th := { s.th with running := i, selected := i, serving := true } } := by
  have hbad : [(0, s.th.fw0), (1, s.th.fw1)].filter (fun x => x.2.valid && !((([true, true] : List Bool)[x.1]?).getD false)) = [] := by
    simp
  unfold runImage
  dsimp only
  rw [hbad, h]
  rfl

/-! ### A stored batch -/

/-- A copy slot that verifies takes its copy and raises nothing (R455). -/
theorem putSlot_of_verified (s : State) (slot : Nat) (c : Copy) (l : List Bool) : putSlot s slot (writeSlot c (true :: l)) =
    { s with th := if slot = 0 then { s.th with copyA := c } else { s.th with copyB := c } } := rfl

/-- A batch whose copies both verify goes into both, the slot of the lower sequence first (R455). -/
theorem storeBatch_of_verified (s : State) {c : Copy} (hc : c = putStored { newestCopy s with valid := true } s.th.batch) :
    storeBatch s [true, true] = { s with th := { s.th with
      copyA := { c with seq := (newestCopy s).seq + (if slotAFirst s then 1 else 2) }
      copyB := { c with seq := (newestCopy s).seq + (if slotAFirst s then 2 else 1) } } } := by
  subst hc
  unfold storeBatch
  cases slotAFirst s <;> rfl

/-- Settles O25: each of the Thallus's own events takes its one branch that acts. -/
theorem thallusOnItsOwn : Obligations.ThallusOnItsOwn := by
  intro s hruns
  refine ⟨fun hbus => ?_, fun f hbus hfd hext hclass hsrc hserial => ?_, fun hbus => ⟨_, _, congrArg Host.Outcome.next (if_neg ?_)⟩, rfl,
    fun hidle => congrArg Host.Outcome.next (if_pos hidle), fun hbusy => congrArg Host.Outcome.next (if_neg (by simp [hbusy])),
    fun i hi => ⟨Config.freeValue s.free, congrArg Host.Outcome.next ((if_neg (not_not.2 hruns)).trans ?_)⟩, fun b hbatch hreplies hup => ?_,
    fun hserving hperiod hbus hconflict => ?_⟩
  · exact congrArg Host.Outcome.next ((if_pos hruns).trans (sendFrame_of_hears _ _ _ hbus (.inr rfl)))
  · have hgoes : ¬ (¬ firmwareRuns s = true ∨ s.th.busOff = true) := by simp [hruns, hbus]
    have hframe : ¬ (¬ f.fd = true ∨ ¬ f.ext = true) := by simp [hfd, hext]
    have hforeign : ¬ (frClass f ≠ 7 ∨ frSrc f ≠ nodeId s ∨ f.data.take 12 = padTo 12 Config.serialNumber) := by
      simp [frClass, frSrc, hclass, hsrc, hserial]
    exact congrArg Host.Outcome.next ((if_neg hgoes).trans ((if_neg hframe).trans (if_neg hforeign)))
  · have hpowered : s.power.domain = true := by
      simp only [firmwareRuns, Bool.and_eq_true] at hruns
      exact hruns.1.1
    simp [hpowered, hbus]
  · have himage : pickImage (bump s 0x200001 1) [true, true] = some i := hi
    dsimp only
    rw [runImage_of_verified himage]
    rfl
  · have hgoes : ¬ (¬ firmwareRuns s = true ∨ s.th.batch = []) := by simp [hruns, hbatch]
    have hexec : exec (.configBatchStore [true, true]) s = .next (sendReplies s.th.batchReplies { storeBatch s [true, true] with
        th := { (storeBatch s [true, true]).th with batch := [], batchReplies := [], ckRuns := true } }) :=
      congrArg Host.Outcome.next (if_neg hgoes)
    rw [hreplies, storeBatch_of_verified s rfl] at hexec
    rw [Runs, hexec]
    refine ⟨_, rfl, ?_⟩
    dsimp only [sendReplies, answerHost]
    rw [toHost_of_up _ (by exact hup)]
    refine ⟨rfl, rfl, rfl, rfl, rfl, ⟨_, rfl, fun hfirst => ?_, fun hsecond => ?_⟩, rfl⟩
    · simp [hfirst]
    · simp [hsecond]
  · have hgoes : ¬ (¬ firmwareRuns s = true ∨ ¬ s.th.serving = true ∨ ent s 0x2D0801 = 0) := by simp [hruns, hserving, hperiod]
    exact congrArg Host.Outcome.next ((if_neg hgoes).trans
      (sendFrame_of_hears (s := { s with th := { s.th with ckRuns := true } }) _ _ _ hbus (.inl hconflict)))

end Sys2Proof.Machine

/-!
PROOFS. Device resets and a removal asked for by a WRITE: they take effect after its answer (R473, R475, R519).
-/
namespace Sys2Proof.Machine

/-! ### The rails while ports go off -/

theorem railState_raise (s : State) (f : Flt) : (raise s f).power.railState = s.power.railState := by
  unfold raise
  dsimp only
  split
  · rw [ringRecord_power, takeRecord_power]
  · rfl

theorem railState_foldl {α : Type} {f : State → α → State} (hf : ∀ u a, (f u a).power.railState = u.power.railState) (l : List α) (s : State) :
    (l.foldl f s).power.railState = s.power.railState := by
  induction l generalizing s with
  | nil => rfl
  | cons a l ih => exact (ih _).trans (hf s a)

theorem railState_stopFar (s : State) (q n code : Nat) : (stopFar s q n code).power.railState = s.power.railState := by
  unfold stopFar
  split
  · rfl
  split
  · rfl
  · rfl

theorem railState_takeLate (s : State) (x : Sent) (target code : Nat) : (takeLate s x target code).power.railState = s.power.railState :=
  (railState_stopFar ..).trans (railState_raise s _)

theorem railState_unknownAtomics (s : State) (dev : Nat) : (unknownAtomics s dev).power.railState = s.power.railState :=
  Eq.trans (railState_foldl (f := fun t (x : Nat × AtomSlot) => stopFar t x.2.queue x.2.seq 0xA00D) (fun _ _ => railState_stopFar ..) _ _)
    (railState_foldl (fun u _ => railState_raise u _) _ s)

theorem railState_failFlow (s : State) (key : Nat) : (failFlow s key).power.railState = s.power.railState :=
  (railState_unknownAtomics ..).trans (Eq.trans
    (railState_foldl (f := fun t x => takeLate t x (keyDev key) 0xA009) (fun _ _ => railState_takeLate ..) _ _) (railState_raise s _))

theorem railState_failUnreached (s : State) : (failUnreached s).power.railState = s.power.railState := by
  refine railState_foldl (fun u f => ?_) _ s
  split
  · exact railState_failFlow u f.1
  · rfl

/-- A port that goes off leaves the rails, whatever flows it fails (R341). -/
theorem railState_disablePort (s : State) (p : Nat) : (disablePort s p).power.railState = s.power.railState :=
  railState_failUnreached _

/-! ### What follows an answer -/

/-- An answer that does not wait for the copies is given first, and then what follows it takes effect. -/
theorem reply_then_post (s : State) (path : Path) (p : Pdu) {r : Reply} (h : r.later = false) :
    ∃ v, AnsweredOnly s v ∧ reply s path p r = afterReply v r.post := by
  refine ⟨reply s path p { r with post := 0 }, reply_frame s path p _ rfl h, ?_⟩
  simp only [reply, h, Bool.false_eq_true, if_false]
  rfl

section Rows
variable {s : State} {r : Req} {path : Path} {p : Pdu} {u : State}

theorem answeredOnly_delivers (h : Delivers s r path p u) : AnsweredOnly s u := by
  obtain ⟨x, hx⟩ : ∃ x, u = { s with th := servedTh s.th x } := ⟨_, Delivers_frame h⟩
  rw [hx]
  exact answeredOnly_served s x

/-- A WRITE that only names what follows its answer: that follows in a state that differs from the one before in the Thallus, what the
host link holds back and what is sent. -/
theorem dictRow_then_post {k id n : Nat} (h : Writes s r path p u) (hk : pdKey p = k) (hn : leNat p.value = n) (hun : isUnstored k = true)
    (hid : rowId k n = id) (hstays : ∀ b w, valNat w = n → applyWrite u b k w = u) :
    ∃ v, AnsweredOnly s v ∧ dictRow id r s = afterReply v (postOf k n) := by
  obtain ⟨w, st, hw, hwrite⟩ := doWrite_of_writes h hk hun
  rw [hstays _ _ (hw.trans hn)] at hwrite
  obtain ⟨v, hv, hreply⟩ := reply_then_post u path p (r := { status := 0, st := st, post := postOf k (leNat p.value) }) rfl
  refine ⟨v, (answeredOnly_delivers h.1).trans hv, ?_⟩
  rw [dictRow_writes h (by rw [hk, hn, hid]), hwrite, hreply, hn]

end Rows

theorem WarmBegun.of_answered {s v t : State} {cause : Nat} (h : AnsweredOnly s v) (hbegun : WarmBegun v t cause) : WarmBegun s t cause := by
  rw [AnsweredOnly] at h
  rw [h] at hbegun
  exact hbegun

theorem applyWrite_deviceReset (s : State) (b : Bool) (w : Val) : applyWrite s b 0x2D0402 w = s := rfl

theorem isUnstored_deviceReset : isUnstored 0x2D0402 = true := by decide +kernel
theorem isUnstored_removal : isUnstored 0x200A02 = true := by decide +kernel

/-- A removal committed with the rails on takes them off once the ports are off (R519). -/
theorem removalCmd_commit {s : State} (h : railsOn s = true) : RailsAreOff (removalCmd s 2) 0 ∧ (removalCmd s 2).power.removal = 2 ∧
    (removalCmd s 2).startup.main = none := by
  have hstate : ((List.range 21).foldl disablePort s).power.railState = s.power.railState := railState_foldl (fun u p => railState_disablePort u p) _ s
  have hon : railsOn ((List.range 21).foldl disablePort s) = true := by rw [railsOn, hstate, ← railsOn, h]
  have hdown : removalCmd s 2 = setPower (railsOff ((List.range 21).foldl disablePort s) 0) (fun m => { m with removal := 2 }) := by
    rw [removalCmd, if_neg (by decide), if_pos rfl, railsDown, if_pos (by rw [hon]; rfl)]
  rw [hdown]
  generalize (List.range 21).foldl disablePort s = x
  exact ⟨railsAreOff_railsOff x 0, rfl, rfl⟩

/-- Settles O21: each WRITE leaves the state to its answer, and what follows is `warmReset`, `coldReset` or `removalCmd`. -/
theorem deviceResetsAndRemoval : Obligations.DeviceResetsAndRemoval := by
  intro s r path p u h
  refine ⟨fun hk hn hrails hmain hresets => ?_, fun hk hn hdomain hphase => ?_, fun hk hn hon => ?_⟩
  · obtain ⟨v, hv, hrow⟩ := dictRow_then_post (id := 9) h hk hn isUnstored_deviceReset rfl fun b w _ => applyWrite_deviceReset u b w
    have hbegun : WarmBegun v (warmReset v causeCommand) causeCommand := by
      rw [AnsweredOnly] at hv
      rw [hv]
      exact warmReset_warmBegun _ hrails hmain hresets
    exact ⟨_, congrArg Host.Outcome.next hrow, hbegun.of_answered hv⟩
  · obtain ⟨v, hv, hrow⟩ := dictRow_then_post (id := 10) h hk hn isUnstored_deviceReset rfl fun b w _ => applyWrite_deviceReset u b w
    refine ⟨_, congrArg Host.Outcome.next hrow, ?_⟩
    have hbegins : coldReset v causeCommand = coldBegin v 1 causeCommand := by
      rw [AnsweredOnly] at hv
      rw [hv]
      exact coldReset_begins _ hdomain hphase
    change ColdBegun (coldReset v causeCommand) 1 causeCommand
    rw [hbegins]
    exact coldBegun_coldBegin v 1 causeCommand
  · obtain ⟨v, hv, hrow⟩ := dictRow_then_post (id := 6) h hk hn isUnstored_removal rfl fun b w hw => by
      rw [applyWrite_removal, hw, if_pos rfl]
    refine ⟨_, congrArg Host.Outcome.next hrow, ?_⟩
    have hrails : railsOn v = true := by
      rw [AnsweredOnly] at hv
      rw [hv]
      exact hon
    obtain ⟨hoff, hremoved, hmain⟩ := removalCmd_commit hrails
    exact ⟨hremoved, hoff, hmain⟩

end Sys2Proof.Machine

/-!
PROOFS. A READ and a WRITE of the dictionary: their answers, their effect, and the first check that a WRITE fails (R442, R446, R449, R455).
-/
namespace Sys2Proof.Machine

/-! ### Answers on each path -/

theorem reply_host {s : State} {p : Pdu} {r : Reply} (hup : s.host.up = true) (hlater : r.later = false) (hpost : r.post = 0) :
    reply s .host p r = { s with
      th := { s.th with
        mbResponse := respBytes p r false
        mbStatus := 2 }
      out := s.out ++ [.msix 0 0] } := by
  rw [reply, if_neg (by simp [hlater]), hpost]
  dsimp only [afterReply, answerHost]
  rw [toHost_of_up _ (by exact hup)]
  rfl

theorem length_natLe (n x : Nat) : (natLe n x).length = n := by
  induction n generalizing x with
  | zero => rfl
  | succ n ih => rw [natLe, List.length_cons, ih]

/-- A value of at most 56 bytes is answered in one frame of the field port (R443). -/
theorem reply_field {s : State} {node tag : Nat} {p : Pdu} {r : Reply} (hbus : s.th.busOff = false) (hid : s.th.conflict = false)
    (hshort : r.value.length ≤ 56) (hlater : r.later = false) (hpost : r.post = 0) :
    reply s (.field node tag) p r = { s with out := s.out ++ [.can (frameId 1 node (nodeId s) tag) (respBytes p r false)] } := by
  have hfits : (respBytes p r false).length ≤ 64 := by
    simp only [respBytes, List.length_append, length_natLe]
    omega
  rw [reply, if_neg (by simp [hlater]), hpost]
  dsimp only [afterReply, answerField]
  rw [decide_eq_false (Nat.not_lt.2 hshort), List.drop_eq_nil_of_le hfits, List.take_of_length_le hfits, sendFrame_of_hears _ _ _ hbus (.inl hid)]
  rfl

section Rows
variable {s : State} {r : Req} {path : Path} {p : Pdu} {u : State}

theorem hostUp_of_delivers (h : Delivers s r .host p u) : s.host.up = true := by
  cases r with
  | mailbox d b =>
    obtain ⟨-, -, -, hserves, -⟩ := h
    simp only [mailboxServes, Bool.and_eq_true] at hserves
    exact hserves.1.1.1
  | field f => exact absurd h.1 (by simp)
  | assembled n =>
    obtain ⟨tag, b, v, -, hpath, -⟩ := h
    exact absurd hpath (by simp)

theorem fieldHears_of_delivers {node tag : Nat} (h : Delivers s r (.field node tag) p u) : fieldHears s = true := by
  cases r with
  | mailbox d b => exact absurd h.1 (by simp)
  | field f =>
    obtain ⟨-, -, hhears, -⟩ := h
    exact hhears
  | assembled n =>
    obtain ⟨_, _, _, -, -, -, hhears, -⟩ := h
    exact hhears

/-- An answer of status and value, given at once: what it puts in the mailbox, or sends in one frame. -/
theorem reply_delivered (h : Delivers s r path p u) {y : Reply} (hlater : y.later = false) (hpost : y.post = 0) :
    AnsweredOnly s (reply u path p y) ∧
    (path = .host → (reply u path p y).th.mbStatus = 2 ∧ (reply u path p y).out = s.out ++ [.msix 0 0] ∧
      (reply u path p y).th.mbResponse = respBytes p y false) ∧
    (∀ node tag, path = .field node tag → y.value.length ≤ 56 →
      (reply u path p y).out = s.out ++ [.can (frameId 1 node (nodeId s) tag) (respBytes p y false)]) := by
  refine ⟨(answeredOnly_delivers h).trans (reply_frame u path p y hpost hlater), fun hpath => ?_, fun node tag hpath hshort => ?_⟩
  · subst hpath
    have hup : u.host.up = true := (congrArg (fun v => v.host.up) (Delivers_frame h)).trans (hostUp_of_delivers h)
    have hout : u.out = s.out := (congrArg State.out (Delivers_frame h)).trans rfl
    rw [reply_host hup hlater hpost, ← hout]
    exact ⟨rfl, rfl, rfl⟩
  · subst hpath
    have hhears := fieldHears_of_delivers h
    simp only [fieldHears, Bool.and_eq_true, Bool.not_eq_true'] at hhears
    obtain ⟨⟨-, hbus⟩, hid⟩ := hhears
    have hbus : u.th.busOff = false := (congrArg (fun v => v.th.busOff) (Delivers_frame h)).trans hbus
    have hid : u.th.conflict = false := (congrArg (fun v => v.th.conflict) (Delivers_frame h)).trans hid
    have hout : u.out = s.out := (congrArg State.out (Delivers_frame h)).trans rfl
    have hnode : nodeId u = nodeId s := (congrArg nodeId (Delivers_frame h)).trans rfl
    rw [reply_field hbus hid hshort hlater hpost, hnode, ← hout]

/-- A READ of an entry that its path may read returns its bytes (R446). -/
theorem doRead_of_entry {e : EntrySpec} {b : List Nat} (hindex : indexKnown (pdIndex p) = true) (he : specOf (pdKey p) = some e)
    (hacc : e.acc ≠ .wo) (hread : readBytes u (pdKey p) e (pdShadow p) = some b)
    (hpath : onField path = true → hostOnly (pdKey p) = false ∧ pdKey p ≠ 0x200402) :
    doRead u path p = { status := 0, value := b, st := entryState u (pdKey p) } := by
  have hopen : (onField path && (hostOnly (pdKey p) || (pdKey p == 0x200402 && hostOnly (ent u 0x200401)))) = false := by
    cases hon : onField path with
    | false => rfl
    | true =>
      obtain ⟨hhost, hkey⟩ := hpath hon
      simp [hhost, hkey]
  rw [doRead]
  dsimp only
  rw [if_neg (not_not.2 hindex), he]
  dsimp only
  rw [hopen, if_neg Bool.false_ne_true, if_neg hacc, hread]

/-! ### Writes of an entry that holds a value of its own -/

/-- Entries whose WRITE does more than to hold the value, or acts on a selected object. -/
def actingEntries : List Nat :=
  [0x200101, 0x200A02, 0x210202, 0x210203, 0x210303, 0x220502, 0x280402, 0x280502, 0x280601, 0x280604, 0x280606,
    0x290102, 0x290103, 0x2B0108, 0x2B0501, 0x2C0202, 0x2D0202, 0x2D0401, 0x2D0402, 0x200005, 0x200006]

theorem clearsOf_of_rowId {k n : Nat} (h : rowId k n = 0) : clearsOf k = [] := by
  by_contra hne
  rw [rowId, if_pos hne] at h
  exact absurd h (by decide)

theorem ne_remoteWindow_of_rowId {k n : Nat} (h : rowId k n = 0) : k ≠ 0x2B0402 := by
  rintro rfl
  exact absurd h (by simp [rowId, clearsOf])

/-- A WRITE of an entry in effect at once puts the value in force (R458). -/
theorem applyWrite_value {s : State} {k n : Nat} {e : EntrySpec} (b : Bool) (v : Val) (hrow : rowId k n = 0) (hk : k ∉ actingEntries)
    (he : specOf k = some e) (heff : e.eff = .immediate) : applyWrite s b k v = setEntV s k v := by
  have hclears := clearsOf_of_rowId hrow
  have hwindow := ne_remoteWindow_of_rowId hrow
  simp only [actingEntries, List.mem_cons, List.not_mem_nil, or_false, not_or] at hk
  simp [applyWrite, hclears, hwindow, hk, putPending, putEntry, he, heff]

theorem storeKey_of_value {s : State} {k : Nat} (hk : k ∉ actingEntries) : storeKey s k = k := by
  simp only [actingEntries, List.mem_cons, List.not_mem_nil, or_false, not_or] at hk
  simp [storeKey, hk]

theorem isStored_of_value {k : Nat} {e : EntrySpec} (hk : k ∉ actingEntries) : isStored k e = e.stored := by
  simp only [actingEntries, List.mem_cons, List.not_mem_nil, or_false, not_or] at hk
  simp [isStored, hk]

theorem postOf_of_value {k n : Nat} (hk : k ∉ actingEntries) : postOf k n = 0 := by
  simp only [actingEntries, List.mem_cons, List.not_mem_nil, or_false, not_or] at hk
  simp [postOf, hk]

/-- A WRITE of a stored entry in effect at once puts the value in force and in the batch, and its answer waits (R455). -/
theorem doWrite_stored_value {e : EntrySpec} (h : Writes s r path p u) (he : specOf (pdKey p) = some e) (hrow : rowId (pdKey p) (leNat p.value) = 0)
    (hk : pdKey p ∉ actingEntries) (heff : e.eff = .immediate) (hstored : e.stored = true) : doWrite u path p =
      ({ setEntV u (pdKey p) (valOfBytes e.ty p.value) with th := { u.th with
        batch := u.th.batch ++ [(pdKey p, valOfBytes e.ty p.value)] } },
        { status := 0, st := entryState (setEntV u (pdKey p) (valOfBytes e.ty p.value)) (pdKey p), later := true }) := by
  obtain ⟨-, -, hindex, e', he', hstatus⟩ := h
  cases he.symm.trans he'
  rw [doWrite]
  dsimp only
  rw [if_neg (not_not.2 hindex), he]
  dsimp only
  rw [if_neg (not_not.2 hstatus), applyWrite_value _ _ hrow hk he heff, storeKey_of_value hk, isStored_of_value hk, if_pos hstored]
  rfl

end Rows

/-- Settles O22: the answer is the reply to what `doRead` finds, and the effect is `setEntV` with, where the entry is stored, the batch. -/
theorem readsAndWritesAreAnswered : Obligations.ReadsAndWritesAreAnswered := by
  refine ⟨fun s r path p u e b h hop hindex he hacc hread hpath => ?_, fun s r path p u e h he hrow hk heff => ⟨fun hstored => ?_, fun hstored => ?_⟩⟩
  · have hstate : entryState u (pdKey p) = entryState s (pdKey p) := by rw [Delivers_frame h]; rfl
    have hexec : exec (.agmirRead r) s = .next (reply u path p { status := 0, value := b, st := entryState s (pdKey p) }) := by
      rw [← hstate, ← doRead_of_entry hindex he hacc hread hpath]
      exact congrArg Host.Outcome.next (agmirRow_delivers (fun t path p => (t, doRead t path p)) h (by simp [hop]))
    obtain ⟨hans, hhost, hfield⟩ := reply_delivered h (y := { status := 0, value := b, st := entryState s (pdKey p) }) rfl rfl
    have hbytes : respBytes p { status := 0, value := b, st := entryState s (pdKey p) } false =
        natLe 8 (fld 0x81 56 8 + fld 0 48 8 + fld (pdIndex p) 32 16 + fld (pdSub p) 24 8 + fld (entryState s (pdKey p)) 19 2 + fld 0 17 1 +
          fld b.length 0 16) ++ b := by rw [respBytes, hop]; rfl
    rw [hbytes] at hhost hfield
    exact ⟨_, hexec, hans, hhost, hfield⟩
  · refine ⟨_, rfl, dictRow_effect h hrow he ((isStored_of_value hk).trans hstored) (postOf_of_value hk) ?_⟩
    rw [applyWrite_value _ _ hrow hk he heff, Delivers_frame h.1]
    exact answeredOnly_served { s with dict := tput s.dict (pdKey p) (valOfBytes e.ty p.value) } u.th
  · have hexec := congrArg (Host.Outcome.next (φ := Fault) (ρ := Refusal)) (dictRow_writes h hrow)
    rw [doWrite_stored_value h he hrow hk heff hstored] at hexec
    obtain ⟨x, hx⟩ : ∃ x, u = { s with th := servedTh s.th x } := ⟨_, Delivers_frame h.1⟩
    rw [hx] at hexec
    exact ⟨_, hexec, rfl, rfl, ⟨_, rfl⟩, rfl, rfl⟩

/-! ### The first check that a WRITE fails -/

/-- The state rules read nothing that taking a request in changes. -/
theorem stateRuleOk_delivered {s : State} {r : Req} {path : Path} {p : Pdu} {u : State} (h : Delivers s r path p u) (k : Nat) (v : Val) :
    stateRuleOk u k v = stateRuleOk s k v := by
  rw [Delivers_frame h]
  rfl

theorem inService_delivered {s : State} {r : Req} {path : Path} {p : Pdu} {u : State} (h : Delivers s r path p u) :
    inService u path = inService s path := by
  rw [Delivers_frame h]
  rfl

/-- The checks of R446 in their order, those of reach and of a read-only entry together. -/
theorem writeStatus_eq (s : State) (path : Path) (k : Nat) (e : EntrySpec) (b : List Nat) : writeStatus s path k e b =
    if (onField path = true ∧ hostOnly k = true) ∨ e.acc = .ro then 0x03
    else if e.acc = .rwSvc ∧ inService s path = false then 0x06
    else if lengthFits e.ty b.length = false then 0x04
    else if k = 0x2D0401 ∧ rrLevel (valNat (valOfBytes e.ty b)) = 3 ∧ inService s path = false then 0x06
    else if (tyOk e.ty (valOfBytes e.ty b) && rangeOk e.ty e.range (valOfBytes e.ty b) && layoutOk k (valOfBytes e.ty b)) = false then 0x05
    else if stateRuleOk s k (valOfBytes e.ty b) = false then 0x09
    else if isStored k e = true ∧ roomFor s k (valOfBytes e.ty b) = false then 0x0D else 0 := by
  by_cases hreach : onField path = true ∧ hostOnly k = true
  · simp [writeStatus, hreach]
  · simp only [writeStatus, Bool.and_eq_true, hreach, Bool.not_eq_true', Bool.not_eq_true, decide_eq_true_eq, if_false, false_or]

theorem writeStatus_lt (s : State) (path : Path) (k : Nat) (e : EntrySpec) (b : List Nat) : writeStatus s path k e b < 256 := by
  unfold writeStatus
  dsimp only
  split_ifs <;> decide

/-- A WRITE that a check refuses changes nothing and has the check's status (R446). -/
theorem doWrite_refused {s : State} {path : Path} {p : Pdu} {c : Nat} (hc : c ≠ 0)
    (hindex : indexKnown (pdIndex p) = false → c = 0x01) (hnone : indexKnown (pdIndex p) = true → specOf (pdKey p) = none → c = 0x02)
    (hspec : ∀ e, indexKnown (pdIndex p) = true → specOf (pdKey p) = some e → c = writeStatus s path (pdKey p) e p.value) :
    ∃ st, doWrite s path p = (s, { status := c, st := st }) := by
  cases hknown : indexKnown (pdIndex p) with
  | false => exact ⟨0, by rw [doWrite, if_pos (by simp [hknown]), hindex hknown]⟩
  | true =>
    rw [doWrite]
    dsimp only
    rw [if_neg (not_not.2 hknown)]
    cases he : specOf (pdKey p) with
    | none => exact ⟨0, by rw [hnone hknown he]⟩
    | some e =>
      have hstatus := hspec e hknown he
      exact ⟨entryState s (pdKey p), by dsimp only; rw [← hstatus, if_pos hc]⟩

theorem leNat_natLe (n x : Nat) : leNat (natLe n x) = x % 256 ^ n := by
  induction n generalizing x with
  | zero => simp [natLe, leNat, Nat.mod_one]
  | succ n ih => rw [natLe, leNat, ih, Nat.mod_mod, Nat.pow_succ', Nat.mod_mul]

/-- The status of an answer lies in bits 55 to 48 of its header (Table 14-2). -/
theorem status_respBytes (p : Pdu) {r : Reply} (hr : r.status < 256) (seg : Bool) : bits (leNat ((respBytes p r seg).take 8)) 48 8 = r.status := by
  have hlow : fld (pdIndex p) 32 16 + fld (pdSub p) 24 8 + fld r.st 19 2 + fld (b2n seg) 17 1 + fld r.value.length 0 16 < 2 ^ 48 := by
    simp only [fld, Nat.shiftLeft_eq]
    omega
  rw [respBytes, List.take_left' (length_natLe 8 _), leNat_natLe, bits_eq_div_mod]
  generalize hrest : fld (pdIndex p) 32 16 + fld (pdSub p) 24 8 + fld r.st 19 2 + fld (b2n seg) 17 1 + fld r.value.length 0 16 = rest at hlow
  have hsum : fld (pdOp p + 0x80) 56 8 + fld r.status 48 8 + fld (pdIndex p) 32 16 + fld (pdSub p) 24 8 + fld r.st 19 2 + fld (b2n seg) 17 1 +
      fld r.value.length 0 16 = (pdOp p + 0x80) % 2 ^ 8 * 2 ^ 56 + r.status * 2 ^ 48 + rest := by
    simp only [← hrest, fld, Nat.shiftLeft_eq]
    omega
  rw [hsum]
  omega

/-- Settles O23: `writeStatus` is the chain of checks, and what it reads of the state is what the request found. -/
theorem writeChecksInOrder : Obligations.WriteChecksInOrder := by
  intro s r path p u c h hop hrow hc hindex hnone hspec
  have hfails (e : EntrySpec) (hknown : indexKnown (pdIndex p) = true) (he : specOf (pdKey p) = some e) :
      c = writeStatus u path (pdKey p) e p.value := by
    rw [writeStatus_eq, inService_delivered h, stateRuleOk_delivered h]
    exact hspec e hknown he
  obtain ⟨st, hwrite⟩ := doWrite_refused hc hindex hnone hfails
  have hsmall : c < 256 := by
    cases hknown : indexKnown (pdIndex p) with
    | false => exact (hindex hknown).trans_lt (by decide)
    | true => cases he : specOf (pdKey p) with
      | none => exact (hnone hknown he).trans_lt (by decide)
      | some e => exact (hfails e hknown he).trans_lt (writeStatus_lt ..)
  have hexec : exec (.agmirWrite r) s = .next (reply u path p { status := c, st := st }) := by
    refine congrArg Host.Outcome.next ((agmirRow_delivers doWrite h (by simp [wantWrite, hop, hrow])).trans ?_)
    rw [hwrite]
  obtain ⟨hans, hhost, -⟩ := reply_delivered h (y := { status := c, st := st }) rfl rfl
  refine ⟨_, hexec, hans, fun hpath => ?_⟩
  obtain ⟨hstatus, -, hresp⟩ := hhost hpath
  exact ⟨hstatus, by rw [hresp]; exact status_respBytes p hsmall false⟩

end Sys2Proof.Machine

/-!
PROOFS. Segments and timeouts of a transfer, the mailbox status and counters cleared (R443, R446, R449).
-/
namespace Sys2Proof.Machine

/-! ### Tables -/

theorem tdel_of_tget_none {α : Type} {t : Tbl α} {k : Nat} (h : tget? t k = none) : tdel t k = t := by
  induction t with
  | nil => rfl
  | cons x r ih =>
    by_cases hk : k = x.1
    · exact absurd h (by simp [tget?, hk])
    · rw [tget?, if_neg hk] at h
      rw [tdel, if_neg hk, ih h]

/-- A table filtered by its keys lists under a kept key what it did, and nothing under another. -/
theorem tget_tfilter_key {α : Type} (t : Tbl α) (f : Nat → Bool) (k : Nat) : tget? (tfilter t (fun j _ => f j)) k = if f k then tget? t k else none := by
  induction t with
  | nil => simp [tfilter, tget?]
  | cons x r ih =>
    rw [tfilter] at ih ⊢
    rw [List.filter_cons]
    by_cases hx : f x.1 = true
    · rw [if_pos hx, tget?, tget?, ih]
      by_cases hk : k = x.1
      · simp [hk, hx]
      · simp [hk]
    · rw [if_neg hx, ih, tget?]
      by_cases hk : k = x.1
      · simp [hk, hx]
      · simp [hk]

/-! ### Counters cleared -/

/-- Whether a key is a counter of an index and a range of its subindexes. -/
def inRange (r : Nat × Nat × Nat) (j : Nat) : Bool := decide (j / 256 = r.1 ∧ r.2.1 ≤ j % 256 ∧ j % 256 ≤ r.2.2)

/-- Whether a key is one of the counters of a list of ranges. -/
def inRanges (l : List (Nat × Nat × Nat)) (j : Nat) : Bool := l.any (inRange · j)

/-- Ranges of counters dropped from the dictionary one after the other. -/
theorem counters_dropped (l : List (Nat × Nat × Nat)) (s : State) :
    ∃ d, l.foldl (fun t r => { t with dict := tfilter t.dict (fun j _ => !inRange r j) }) s = { s with dict := d } ∧
    ∀ j, tget? d j = if inRanges l j then none else tget? s.dict j := by
  induction l generalizing s with
  | nil => exact ⟨s.dict, rfl, fun _ => rfl⟩
  | cons r l ih =>
    obtain ⟨d, hd, hget⟩ := ih { s with dict := tfilter s.dict (fun j _ => !inRange r j) }
    refine ⟨d, hd, fun j => ?_⟩
    have hcons : inRanges (r :: l) j = (inRange r j || inRanges l j) := rfl
    rw [hget, tget_tfilter_key s.dict (fun j => !inRange r j), hcons]
    cases inRange r j <;> simp

/-- Counters cleared are no longer listed; of the rest only the ports' own counts change, and those by 0x2B07:0A alone. -/
theorem clearCounters_eq (s : State) (k : Nat) : ∃ d l, clearCounters s k = { s with dict := d, fab := { s.fab with ports := l } } ∧
    (∀ j, tget? d j = if inRanges (clearsOf k) j then none else tget? s.dict j) ∧ (k ≠ 0x2B070A → l = s.fab.ports) := by
  obtain ⟨d, hd, hget⟩ := counters_dropped (clearsOf k) s
  have hcleared : clearCounters s k = if k = 0x2B070A then
      { s with
        dict := d
        fab := { s.fab with ports := tmap s.fab.ports (fun _ x => { x with replays := 0, drops := 0 }) } }
      else { s with dict := d } := by
    unfold clearCounters
    exact congrArg (fun t : State => if k = 0x2B070A then
      { t with fab := { t.fab with ports := tmap t.fab.ports (fun _ x => { x with replays := 0, drops := 0 }) } } else t) hd
  by_cases hk : k = 0x2B070A
  · rw [hcleared, if_pos hk]
    exact ⟨d, _, rfl, hget, fun h => absurd hk h⟩
  · rw [hcleared, if_neg hk]
    exact ⟨d, _, rfl, hget, fun _ => rfl⟩

/-- Entries that clear counters. -/
def clearingEntries : List Nat :=
  [0x200109, 0x200A06, 0x210408, 0x220409, 0x23020D, 0x240209, 0x25020B, 0x260106, 0x27020B, 0x280209, 0x29030A, 0x2A020A, 0x2B070A, 0x2C0109,
    0x2D0609]

theorem mem_clearingEntries {k : Nat} (h : clearsOf k ≠ []) : k ∈ clearingEntries := by
  by_contra hk
  simp only [clearingEntries, List.mem_cons, List.not_mem_nil, or_false, not_or] at hk
  exact h (by simp [clearsOf, hk])

theorem clearingEntries_unstored : ∀ k ∈ clearingEntries, isUnstored k = true := by decide +kernel

theorem postOf_of_clearing {k : Nat} (h : k ∈ clearingEntries) (n : Nat) : postOf k n = 0 := by
  have hreset : k ≠ 0x2D0402 := by rintro rfl; exact absurd h (by decide)
  have hremoval : k ≠ 0x200A02 := by rintro rfl; exact absurd h (by decide)
  simp [postOf, hreset, hremoval]

theorem rowId_of_clearing {k : Nat} (h : clearsOf k ≠ []) (n : Nat) : rowId k n = 1 := if_pos h

theorem applyWrite_clears {k : Nat} (h : clearsOf k ≠ []) (s : State) (b : Bool) (v : Val) : applyWrite s b k v = clearCounters s k := if_pos h

/-! ### Transfers -/

theorem answeredOnly_answerField (s : State) (node tag : Nat) (p : Pdu) (r : Reply) : AnsweredOnly s (answerField s node tag p r) := by
  unfold answerField
  dsimp only
  rw [AnsweredOnly, sendSegments_frame]
  unfold sendFrame
  split <;> rfl

/-- A transfer that ends is dropped, and its node has its answer (R443). -/
theorem endTransfer_drops (s : State) (node status : Nat) :
    AnsweredOnly { s with th := { s.th with transfers := tdel s.th.transfers node } } (endTransfer s node status) := by
  unfold endTransfer
  split
  · next hnone =>
    rw [tdel_of_tget_none hnone]
    exact AnsweredOnly.refl s
  · exact answeredOnly_answerField ..

/-- A segment of a transfer in progress, with its tag and number, its length and its node's rate sound, is taken (R443). -/
theorem exec_agmirSegment_taken {s : State} {f : Frame} {x : Transfer} (hhears : fieldHears s = true) (hfd : f.fd = true) (hext : f.ext = true)
    (hclass : bits f.id 26 3 = 3) (hdst : bits f.id 19 7 = nodeId s) (hx : tget? s.th.transfers (bits f.id 12 7) = some x)
    (htag : bits f.id 0 12 = x.tag) (hnext : f.data.headD 0 = x.nextSeg) (hlen : f.data.length = 1 + min 63 x.need)
    (hrate : rateOk s (bits f.id 12 7) = true) : exec (.agmirSegment f) s = .next (takeSegment (countFrame s (bits f.id 12 7)) f x) := by
  have hframe : ¬ (¬ f.fd = true ∨ ¬ f.ext = true) := by simp [hfd, hext]
  have hseq : ¬ (frTag f ≠ x.tag ∨ f.data.headD 0 ≠ x.nextSeg) := by
    rintro (h | h)
    · exact h htag
    · exact h hnext
  refine congrArg Host.Outcome.next ((if_neg (not_not.2 hhears)).trans ((if_neg hframe).trans ((if_neg (not_not.2 hclass)).trans
    ((if_neg (not_not.2 hdst)).trans ?_))))
  have hfound : tget? s.th.transfers (frSrc f) = some x := hx
  have hslow : ¬ ¬ rateOk s (frSrc f) = true := not_not.2 hrate
  rw [hfound]
  dsimp only
  rw [if_neg hseq, if_neg (not_not.2 hlen), if_neg hslow]
  rfl

/-- Settles O24: a segment is `takeSegment`, a timeout `endTransfer`, and counters are cleared by filtering the dictionary. -/
theorem segmentsAndMailboxStatus : Obligations.SegmentsAndMailboxStatus := by
  refine ⟨fun s f x hhears hfd hext hclass hdst hx htag hnext hlen hpos hrate => ?_, fun s node => ⟨_, rfl, endTransfer_drops s node 0x0C⟩,
    fun s => ⟨fun hserves hfull => congrArg Host.Outcome.next (if_pos ⟨hserves, hfull⟩), fun hnot => congrArg Host.Outcome.next (if_neg ?_)⟩,
    fun s r path p u h hclears => ?_⟩
  · have hexec := exec_agmirSegment_taken hhears hfd hext hclass hdst hx htag hnext hlen hrate
    refine ⟨fun hmore => ?_, fun hlast => ?_⟩
    · have hneed : x.need - (f.data.length - 1) = x.need - 63 := by omega
      rw [takeSegment] at hexec
      dsimp only at hexec
      rw [hneed, if_neg (by omega)] at hexec
      exact ⟨_, hexec, rfl⟩
    · have hneed : x.need - (f.data.length - 1) = 0 := by omega
      rw [takeSegment] at hexec
      dsimp only at hexec
      rw [if_pos hneed] at hexec
      exact ⟨_, hexec, tget_tput_self .., rfl⟩
  · rintro ⟨hserves, hfull⟩
    rcases hnot with h | h
    · exact Bool.false_ne_true (h.symm.trans hserves)
    · exact h hfull
  · have hclearing := mem_clearingEntries hclears
    obtain ⟨x, b, w, hw, hans, -⟩ := dictRow_applies h rfl (clearingEntries_unstored _ hclearing) (rowId_of_clearing hclears _)
      (postOf_of_clearing hclearing _)
    rw [applyWrite_clears hclears] at hans
    obtain ⟨d, l, heq, hget, hports⟩ := clearCounters_eq { s with th := servedTh s.th x } (pdKey p)
    rw [heq] at hans
    have hdict := hans.dict_eq
    have hfab : (dictRow 1 r s).fab = { s.fab with ports := l } := congrArg State.fab hans
    refine ⟨_, rfl, fun j => ?_, fun hk => ?_, ?_⟩
    · rw [hdict]
      exact hget j
    · rw [hfab, hports hk]
    · rw [hdict, hfab]
      exact (answeredOnly_served { s with dict := d, fab := { s.fab with ports := l } } x).trans hans

end Sys2Proof.Machine

/-!
PROOFS. Owner commands (R410, R411, R493): what each leaves of the owners, queues and objects.
-/
namespace Sys2Proof.Machine

/-! ### Keys of a sorted table -/

/-- A sorted table lists a pair exactly where it finds its value. -/
theorem tget_eq_some_iff {α : Type} {t : Tbl α} (h : tsorted t = true) (k : Nat) (v : α) : tget? t k = some v ↔ (k, v) ∈ t := by
  rw [tsorted_iff] at h
  induction t with
  | nil => simp
  | cons x r ih =>
    obtain ⟨hx, hr⟩ := List.pairwise_cons.1 h
    rw [tget?, List.mem_cons]
    by_cases hk : k = x.1
    · have hnot : (k, v) ∉ r := fun hmem => absurd (hx _ hmem) (by simp [hk])
      simp only [if_pos hk, hnot, or_false, Option.some.injEq]
      constructor
      · rintro rfl
        exact Prod.ext hk rfl
      · rintro rfl
        rfl
    · rw [if_neg hk, ih hr]
      constructor
      · exact Or.inr
      · rintro (heq | hmem)
        · exact absurd (congrArg Prod.fst heq) hk
        · exact hmem

theorem mem_objKeys {s : State} (h : tsorted s.syu.objs = true) (f : Nat → SyncObj → Bool) (k : Nat) :
    k ∈ objKeys s f ↔ thas s.syu.objs k = true ∧ f k (objOf s k) = true := by
  simp only [objKeys, tfilter, List.mem_map, List.mem_filter, thas, objOf, tgetD]
  constructor
  · rintro ⟨⟨j, v⟩, ⟨hmem, hf⟩, rfl⟩
    have hget := (tget_eq_some_iff h j v).2 hmem
    simp [hget, hf]
  · rintro ⟨hhas, hf⟩
    obtain ⟨v, hv⟩ := Option.isSome_iff_exists.1 hhas
    rw [hv] at hf
    exact ⟨(k, v), ⟨(tget_eq_some_iff h k v).1 hv, hf⟩, rfl⟩

/-! ### What a command needs of its owner -/

theorem stateRuleOk_of_writeStatus {s : State} {path : Path} {k : Nat} {e : EntrySpec} {b : List Nat} (h : writeStatus s path k e b = 0) :
    stateRuleOk s k (valOfBytes e.ty b) = true := by
  by_contra hfails
  rw [Bool.not_eq_true] at hfails
  rw [writeStatus_eq, hfails, if_pos rfl] at h
  split_ifs at h

section Rows
variable {s : State} {r : Req} {path : Path} {p : Pdu} {u : State}

theorem stateRuleOk_ownerCommand (s : State) (v : Val) : stateRuleOk s 0x210203 v = ownerCmdOk s (selOwner s) (valNat v) := by
  simp [stateRuleOk, deviceRuleOk]

theorem ownerCmdOk_of_writes (h : Writes s r path p u) (hk : pdKey p = 0x210203) : ownerCmdOk s (selOwner s) (leNat p.value) = true := by
  obtain ⟨hd, -, -, e, -, hstatus⟩ := h
  rw [hk] at hstatus
  have hrule := (stateRuleOk_delivered hd 0x210203 _).symm.trans (stateRuleOk_of_writeStatus hstatus)
  rwa [stateRuleOk_ownerCommand, valNat_valOfBytes] at hrule

theorem isUnstored_ownerCommand : isUnstored 0x210203 = true := by decide +kernel

theorem applyWrite_ownerCommand (s : State) (b : Bool) (w : Val) : applyWrite s b 0x210203 w = ownerCmd s (selOwner s) (valNat w) := rfl

/-- An owner command comes to what `ownerCmd` does from any state that differs from the one before in the Thallus alone. -/
theorem dictRow_ownerCommand {v : State} {n id : Nat} (h : Writes s r path p u) (hk : pdKey p = 0x210203) (hn : leNat p.value = n)
    (hid : rowId 0x210203 n = id)
    (hv : ∀ x, ownerCmd { s with th := servedTh s.th x } (selOwner s) n = { v with th := servedTh v.th x }) :
    AnsweredOnly v (dictRow id r s) :=
  dictRow_comes_to h hk isUnstored_ownerCommand (by rw [hn, hid]) rfl fun x b w hw => by
    rw [applyWrite_ownerCommand, hw, hn]
    exact hv x

end Rows

/-! ### The commands -/

theorem activateOwner_of_context {s : State} {o c : Nat} (hc : adminContext s = some c) (hq : bits c 300 20 = ownerAdmin s o) :
    activateOwner s o = { s with
      owners := tput s.owners o { ownerRec s o with state := .active }
      queues := tput s.queues (ownerAdmin s o) { ctx := setBits c 272 2 (min (bits c 272 2) 2), partition := ownerPart s o } } := by
  rw [activateOwner, hc, ← hq]
  rfl

/-- Pre-emption freezes the owner's objects, and waits only for what runs (R411). -/
theorem preemptOwner_eq (s : State) (o : Nat) : preemptOwner s o = { s with
    owners := tput s.owners o { ownerRec s o with state := if ownerRuns s o then .preempting else .preempted }
    syu := { s.syu with objs := tmap s.syu.objs (fun _ x =>
      if x.owner = o ∧ x.epoch = ownerEpoch s o then { x with frozen := true } else x) } } := by
  have hepoch : ownerEpoch (modOwner s o (fun x => { x with state := .preempting })) o = ownerEpoch s o := by
    simp [ownerEpoch, ownerRec]
  have hstate : ownerState (freezeObjs (modOwner s o (fun x => { x with state := .preempting })) o true) o = .preempting := by
    simp [ownerState, ownerRec, freezeObjs]
  have hruns : ownerRuns (freezeObjs (modOwner s o (fun x => { x with state := .preempting })) o true) o = ownerRuns s o := rfl
  rw [preemptOwner, settlePreempt, hstate, hruns, freezeObjs, hepoch]
  cases ownerRuns s o with
  | true => simp [modOwner, tupd, ownerRec]
  | false => simp [modOwner, tupd, ownerRec]

/-- A resumed owner whose queues hold no message is active with its objects thawed (R316). -/
theorem resumeOwner_of_none_held {s : State} {o : Nat} (hsorted : tsorted s.queues = true)
    (hheld : ∀ x ∈ s.queues, qOwner x.2 = o → x.2.held = []) : resumeOwner s o = { s with
      owners := tput s.owners o { ownerRec s o with state := .active }
      syu := { s.syu with objs := tmap s.syu.objs (fun _ x =>
        if x.owner = o ∧ x.epoch = ownerEpoch s o then { x with frozen := false } else x) } } := by
  have hepoch : ownerEpoch (modOwner s o (fun x => { x with state := .active })) o = ownerEpoch s o := by
    simp [ownerEpoch, ownerRec]
  unfold resumeOwner
  dsimp only
  rw [freezeObjs, hepoch]
  refine foldl_of_fixed fun q hq => ?_
  obtain ⟨⟨j, x⟩, hx, rfl⟩ := List.mem_map.1 hq
  obtain ⟨hmem, howner⟩ := List.mem_filter.1 hx
  have hnone : (queueOf s j).map (·.held.length) = some 0 := by
    rw [queueOf, (tget_eq_some_iff hsorted j x).2 hmem]
    exact congrArg (fun l => some l.length) (hheld _ hmem (beq_iff_eq.1 howner))
  change postAllHeld j (((queueOf s j).map (·.held.length)).getD 0) _ = _
  rw [hnone]
  rfl

theorem freeOwner_eq (s : State) (o : Nat) : freeOwner s o = { s with
    owners := tput s.owners o { ownerRec s o with state := .free }
    queues := tfilter s.queues (fun q _ => !(ownerQueues s o).contains q)
    syu := { s.syu with tasks := tfilter s.syu.tasks (fun q _ => !(ownerQueues s o).contains q) }
    host := { s.host with adminCtxs := tfilter s.host.adminCtxs (fun _ c => bits c 288 12 != o) } } := rfl

/-! ### An owner's reset with nothing on the links -/

/-- Objects abandoned: each of a list is in state 3 and thawed, and nothing else changes but a count (R315). -/
theorem abandoned_foldl (l : List Nat) {s : State} (hwatches : s.syu.watches = []) :
    ∃ d os, l.foldl (fun t k => touchObj (bump t 0x2A0206 1) k { objOf t k with state := 3, frozen := false }) s =
        { s with dict := d, syu := { s.syu with objs := os } } ∧
      ∀ k, ∃ m, tgetD os k {} = if k ∈ l then { objOf s k with state := 3, frozen := false, changedAt := m } else objOf s k := by
  induction l generalizing s with
  | nil => exact ⟨s.dict, s.syu.objs, rfl, fun k => ⟨0, rfl⟩⟩
  | cons k l ih =>
    obtain ⟨m, hm⟩ := touchObj_of_unwatched (s := bump s 0x2A0206 1) (k := k) (fun w hw => by simp [hwatches] at hw)
      { objOf s k with state := 3, frozen := false }
    obtain ⟨d, os, hfold, hobjs⟩ := ih (s := touchObj (bump s 0x2A0206 1) k { objOf s k with state := 3, frozen := false }) (by rw [hm]; exact hwatches)
    refine ⟨d, os, ?_, fun j => ?_⟩
    · rw [List.foldl_cons, hfold, hm]
      rfl
    · obtain ⟨n, hn⟩ := hobjs j
      rw [hn, hm]
      by_cases hj : j = k
      · subst hj
        rw [objOf_setObj_self _ _ (show 3 ≠ 0 by decide)]
        simp only [List.mem_cons_self, if_true]
        split
        · exact ⟨n, rfl⟩
        · exact ⟨m, rfl⟩
      · rw [objOf_setObj_ne _ _ hj, objOf_bump]
        exact ⟨n, by simp [hj]⟩

/-- The objects of an owner's ended epoch are abandoned, and with no watch and no task nothing else is (R315). -/
theorem abandonOwner_of_alone {s : State} {o : Nat} (hwatches : s.syu.watches = []) (htasks : s.syu.tasks = []) (hsorted : tsorted s.syu.objs = true) :
    ∃ d os, abandonOwner s o = { s with dict := d, syu := { s.syu with objs := os } } ∧
      ∀ k, ∃ m, tgetD os k {} = if (objOf s k).owner = o ∧ (objOf s k).epoch ≠ ownerEpoch s o ∧
          ((objOf s k).state = 1 ∨ (objOf s k).state = 2) ∧ thas s.syu.objs k = true
        then { objOf s k with state := 3, frozen := false, changedAt := m } else objOf s k := by
  have hlone : abandonOwner s o = (objKeys s (fun _ x => x.owner == o && x.epoch != ownerEpoch s o && (x.state == 1 || x.state == 2))).foldl (fun t k =>
      touchObj (bump t 0x2A0206 1) k { objOf t k with state := 3, frozen := false }) s := by
    have hnone : tfilter s.syu.tasks (fun _ t => !(t.owner == o && t.epoch != ownerEpoch s o)) = s.syu.tasks := by
      rw [htasks]
      rfl
    unfold abandonOwner
    dsimp only
    rw [hwatches, List.filter_nil, List.foldl_nil, hnone]
  obtain ⟨d, os, hfold, hobjs⟩ := abandoned_foldl (objKeys s (fun _ x => x.owner == o && x.epoch != ownerEpoch s o && (x.state == 1 || x.state == 2))) hwatches
  refine ⟨d, os, hlone.trans hfold, fun k => ?_⟩
  obtain ⟨m, hm⟩ := hobjs k
  refine ⟨m, hm.trans (if_congr ?_ rfl rfl)⟩
  rw [mem_objKeys hsorted]
  simp only [Bool.and_eq_true, Bool.or_eq_true, beq_iff_eq, bne_iff_ne]
  tauto

/-- An owner's epoch ended and its reset noted: step E1 of Table 15-7. -/
def ownerResetNoted (s : State) (o cause : Nat) : State :=
  addReset (modOwner s o (fun x => { x with state := .resetting, epoch := (ownerEpoch s o + 1) % 2 ^ 16, report := [] })) ⟨4, o, cause⟩

theorem ownerEpoch_ownerResetNoted (s : State) (o cause : Nat) : ownerEpoch (ownerResetNoted s o cause) o = (ownerEpoch s o + 1) % 2 ^ 16 := by
  simp [ownerEpoch, ownerRec, ownerResetNoted, addReset]

theorem ownerResetNoted_eq {s : State} (o cause : Nat) (hresets : s.resets = []) : ownerResetNoted s o cause = { s with
    owners := tput s.owners o { ownerRec s o with state := .resetting, epoch := (ownerEpoch s o + 1) % 2 ^ 16, report := [] }
    resets := [⟨4, o, cause⟩] } := by
  simp [ownerResetNoted, addReset, modOwner, tupd, ownerRec, hresets]

/-- With no line and no directory entry, an owner's revocation takes its retained tiles and its requests (Table 15-6). -/
theorem revokeNow_of_no_lines {s : State} (o : Nat) (hlines : s.fab.lines = []) (hdir : s.fab.dir = []) : revokeNow s o = { s with
    units := { s.units with retained := s.units.retained.filter (fun r => r.owner != o) }
    fab := { s.fab with requests := s.fab.requests.filter (fun r => r.owner != o) } } := by
  have hlone : homeForget (dropLines s (fun l => l.owner == o)) (ownDev s) (fun d => d.owner == o) = s := by
    have hfilter : s.fab.lines.filter (fun l => !(l.owner == o)) = s.fab.lines := by
      rw [hlines]
      rfl
    rw [dropLines, hfilter, homeForget, hdir]
    rfl
  rw [revokeNow, hlone]

/-- With no queue of the owner, no peer and no ledger slot, an owner's reset abandons its objects and revokes what it holds (R493). -/
theorem ownerResetBegin_of_no_peers {s : State} {o : Nat} (cause : Nat) (hqueues : ∀ x ∈ s.queues, qOwner x.2 ≠ o)
    (htrusted : s.fab.trusted = []) (hslots : s.fab.slots = []) :
    ∃ x, ownerResetBegin s o cause =
      modOwner (revokeNow (abandonOwner (ownerResetNoted s o cause) o) o) o (fun y => { y with reset := some x }) := by
  have hnobody : ownerQueues s o = [] := by
    rw [ownerQueues, List.map_eq_nil_iff, List.filter_eq_nil_iff]
    exact fun x hx => by simpa using hqueues x hx
  have hatomics : (ownerResetNoted s o cause).fab.atomWait.filter (fun w => !([] : List Nat).contains w.2.1) = (ownerResetNoted s o cause).fab.atomWait :=
    List.filter_eq_self.2 fun _ _ => rfl
  have hnotices (f : State → Nat → State) (w : State) : (ownerResetNoted s o cause).fab.trusted.foldl f w = w := by
    rw [show (ownerResetNoted s o cause).fab.trusted = [] from htrusted, List.foldl_nil]
  unfold ownerResetBegin
  dsimp only
  rw [hnobody, hslots, show addReset (modOwner s o fun x => { x with state := .resetting, epoch := (ownerEpoch s o + 1) % 2 ^ 16, report := [] })
    ⟨4, o, cause⟩ = ownerResetNoted s o cause from rfl]
  generalize ownerResetNoted s o cause = v at hatomics hnotices ⊢
  rw [hatomics, hnotices]
  simp only [List.filter_nil, List.map_nil, List.eraseDups_nil, List.foldl_nil]
  exact ⟨_, rfl⟩

/-- An owner's reset with no queue of it, nothing of it on the links and no other reset: steps E1 to E3 take what it holds and note it (R493). -/
theorem ownerResetBegin_of_alone {s : State} {o : Nat} (cause : Nat) (hresets : s.resets = []) (hqueues : ∀ x ∈ s.queues, qOwner x.2 ≠ o)
    (htrusted : s.fab.trusted = []) (hslots : s.fab.slots = []) (hlines : s.fab.lines = []) (hdir : s.fab.dir = [])
    (hwatches : s.syu.watches = []) (htasks : s.syu.tasks = []) (hsorted : tsorted s.syu.objs = true) :
    ∃ d os x, ownerResetBegin s o cause = { s with
        owners := tput s.owners o { ownerRec s o with state := .resetting, epoch := (ownerEpoch s o + 1) % 2 ^ 16, report := [], reset := some x }
        dict := d
        resets := [⟨4, o, cause⟩]
        syu := { s.syu with objs := os }
        units := { s.units with retained := s.units.retained.filter (fun x => x.owner != o) }
        fab := { s.fab with requests := s.fab.requests.filter (fun x => x.owner != o) } } ∧
      ∀ k, ∃ m, tgetD os k {} = if (objOf s k).owner = o ∧ (objOf s k).epoch ≠ (ownerEpoch s o + 1) % 2 ^ 16 ∧
          ((objOf s k).state = 1 ∨ (objOf s k).state = 2) ∧ thas s.syu.objs k = true
        then { objOf s k with state := 3, frozen := false, changedAt := m } else objOf s k := by
  obtain ⟨d, os, habandon, hobjs⟩ := abandonOwner_of_alone (s := ownerResetNoted s o cause) (o := o) hwatches htasks hsorted
  obtain ⟨x, hbegin⟩ := ownerResetBegin_of_no_peers cause hqueues htrusted hslots
  rw [ownerEpoch_ownerResetNoted] at hobjs
  refine ⟨d, os, x, ?_, hobjs⟩
  rw [hbegin, habandon, revokeNow_of_no_lines o (by exact hlines) (by exact hdir), ownerResetNoted_eq o cause hresets]
  simp [modOwner, tupd, ownerRec]

/-- With no reset in progress, an owner that is neither free nor in reset has its reset begun (R489). -/
theorem ownerReset_of_no_resets {s : State} {o cause : Nat} (hresets : s.resets = []) (hfree : ownerState s o ≠ .free)
    (hresetting : ownerState s o ≠ .resetting) : ownerReset s o cause = ownerResetBegin s o cause := by
  have habsorbed : resetAbsorbed s ⟨4, o, cause⟩ = false := by
    rw [resetAbsorbed, hresets]
    rfl
  refine if_neg ?_
  simp only [habsorbed, hfree, hresetting, Bool.false_eq_true, or_self, not_false_eq_true]

/-- An activation's admin context names the owner's admin queue (R410, R412). -/
theorem admin_queue_of_ownerCmdOk {s : State} {o c : Nat} (h : ownerCmdOk s o 1 = true) (hc : adminContext s = some c) : bits c 300 20 = ownerAdmin s o := by
  have hadmin : adminOk s o = true := by
    unfold ownerCmdOk at h
    split at h <;> simp_all
  rw [adminOk, hc] at hadmin
  simp only [Bool.and_eq_true, beq_iff_eq] at hadmin
  obtain ⟨⟨⟨-, hqueue⟩, -⟩, -⟩ := hadmin
  exact hqueue

/-- Settles O14: each command comes to what it leaves of the owners, queues and objects, and a reset to steps E1 to E3. -/
theorem ownerCommands : Obligations.OwnerCommands := by
  intro s r path p u h hk
  have hallowed := ownerCmdOk_of_writes h hk
  refine ⟨fun c hn hc => ?_, fun hn => ?_, fun hn hheld hsorted => ?_, fun hn hresetting hresets hqueues htrusted hslots hlines hdir hwatches htasks hsorted => ?_,
    fun hn => ?_⟩
  · rw [hn] at hallowed
    exact ⟨_, rfl, dictRow_ownerCommand h hk hn rfl fun x =>
      activateOwner_of_context (s := { s with th := servedTh s.th x }) hc (admin_queue_of_ownerCmdOk hallowed hc)⟩
  · exact ⟨_, rfl, dictRow_ownerCommand h hk hn rfl fun x => preemptOwner_eq { s with th := servedTh s.th x } (selOwner s)⟩
  · exact ⟨_, rfl, dictRow_ownerCommand h hk hn rfl fun x => resumeOwner_of_none_held (s := { s with th := servedTh s.th x }) hsorted hheld⟩
  · have hfree : ownerState s (selOwner s) ≠ .free := by
      rw [hn] at hallowed
      simpa [ownerCmdOk] using hallowed
    obtain ⟨x, b, w, hw, hans, -⟩ := dictRow_applies (id := 20) h hk isUnstored_ownerCommand (by rw [hn]; rfl) rfl
    obtain ⟨d, os, y, hbegin, hobjs⟩ := ownerResetBegin_of_alone (s := { s with th := servedTh s.th x }) (o := selOwner s) causeCommand
      hresets hqueues htrusted hslots hlines hdir hwatches htasks hsorted
    rw [applyWrite_ownerCommand, hw, hn] at hans
    change AnsweredOnly (ownerReset { s with th := servedTh s.th x } (selOwner s) causeCommand) _ at hans
    rw [ownerReset_of_no_resets (s := { s with th := servedTh s.th x }) hresets hfree hresetting, hbegin] at hans
    have howners := hans.owners_eq
    have hdict := hans.dict_eq
    have hsyu : (dictRow 20 r s).syu.objs = os := congrArg (fun t => t.syu.objs) hans
    refine ⟨_, rfl, fun k => ?_, ⟨y, ?_⟩, fun j hj => ?_, ?_⟩
    · rw [objOf, hsyu]
      exact hobjs k
    · rw [howners]
      exact tget_tput_self ..
    · rw [howners]
      exact tget_tput_ne _ _ hj
    · rw [howners, hdict, hsyu]
      exact (answeredOnly_served _ x).trans hans
  · exact ⟨_, rfl, dictRow_ownerCommand h hk hn rfl fun x => freeOwner_eq { s with th := servedTh s.th x } (selOwner s)⟩

end Sys2Proof.Machine
